-- ==== Sys2Proof/Word.lean ====
section
/-!
DEFINITION. The word types of the PG9664 and their plainest arithmetic: register words, lines, tiles, chunks
(spec/02, R33 to R35), fabric time (spec/12, R308), and bit-field extraction and insertion on words.
-/

namespace Sys2Proof

/-- One byte. -/
abbrev Byte := BitVec 8

/-- A 32-bit word of BAR2 (spec/18, R437). -/
abbrev Word := BitVec 32

/-- A 64-byte line; byte j at bits [8j+7:8j] (spec/02, R33, R34). -/
abbrev Line := BitVec 512

/-- A 256-byte tile, line L at bits [512L+511:512L] (spec/02, R33). -/
abbrev Tile := BitVec 2048

/-- A 40-byte chunk (spec/02, R35). -/
abbrev Chunk := BitVec 320

/-- A count of nanoseconds since the fabric epoch (spec/00 notation, spec/12 R308). -/
abbrev Ft := BitVec 64

/-- Bits [lsb+width-1:lsb] of a number. -/
def bitsOf (x lsb width : Nat) : Nat := (x >>> lsb) % 2 ^ width

/-- Bit `i` of a number. -/
def bitAt (x i : Nat) : Bool := x.testBit i

/-- `x` with bits [lsb+width-1:lsb] replaced by the low bits of `v`. -/
def putBits (x lsb width v : Nat) : Nat :=
  x - (bitsOf x lsb width) * 2 ^ lsb + (v % 2 ^ width) * 2 ^ lsb

/-- A Bool as the number 0 or 1. -/
def b2n (b : Bool) : Nat := if b then 1 else 0

/-- A two's-complement field of `width` bits read as an integer. -/
def toSigned (x width : Nat) : Int :=
  if bitAt x (width - 1) then (bitsOf x 0 width : Int) - 2 ^ width else (bitsOf x 0 width : Int)

/-- An integer written as a two's-complement field of `width` bits. -/
def ofSigned (i : Int) (width : Nat) : Nat := (i % (2 ^ width : Int)).toNat

/-- Line `l` of a tile (spec/02, R33). -/
def Tile.line (t : Tile) (l : Nat) : Line := t.extractLsb' (512 * l) 512

/-- The tile whose four lines are given. -/
def Tile.ofLines (a b c d : Line) : Tile := d ++ c ++ b ++ a

end Sys2Proof
end

