-- ==== Sys2Proof/Syntax.lean ====
section
/-!
DEFINITION. The commands of the PG9664: one constructor of `Instr` per row of spec/opcode_table.json, in the table's
order. The table gives no row any bits, so a row's operands are what its rules make the event carry: who sent it, an
address, data, the bytes of a response. Numbers with a fixed range are Fin, words and addresses are BitVec.
-/

namespace Sys2Proof

/-- Heads H0 to H7 (spec/09, R226). -/
abbrev HeadNo := Fin 8
/-- Ports P0 to P3 (spec/09, R226). -/
abbrev PortNo := Fin 4
/-- Logical devices 0 to 63 (spec/09, R229). -/
abbrev LdNo := Fin 64
/-- Dorosh links DL0 to DL7 (spec/11, R282). -/
abbrev LinkNo := Fin 8
/-- Media channels MC0 to MC31 (spec/02, R50). -/
abbrev ChanNo := Fin 32
/-- Die positions 0 to 31 of a channel (spec/02, R50). -/
abbrev DiePos := Fin 32
/-- Die sets 0 to 95 (spec/02, R50). -/
abbrev DieSet := Fin 96
/-- Groups G0 to G2 (spec/02, R50). -/
abbrev GroupNo := Fin 3
/-- Engines E0 to E63 (spec/19, R453). -/
abbrev EngineNo := Fin 64
/-- Rail channels 0 to 23 (spec/13, R345). -/
abbrev RailNo := Fin 24
/-- Kelric queue pairs 0 to 255 (spec/16, R398). -/
abbrev QNo := Fin 256

/-- MetaValue of an M2S message (spec/10, R261). -/
inductive MetaValue where
  | i | s | a | none
deriving DecidableEq, Repr

/-- The read opcodes that a sample record tells apart (spec/21, R496 KIND). -/
inductive ReqKind where
  | memRd | memRdData | memInv | memInvNT | memSpecRd
deriving DecidableEq, Repr

/-- An M2S Req message: LD-ID within the head, tag, host physical address, MetaValue (spec/09 R229, spec/10 R261). -/
structure M2SReq where
  ldId : Fin 16
  tag : BitVec 16
  hpa : BitVec 64
  meta_ : MetaValue
  kind : ReqKind
deriving DecidableEq, Repr

/-- An M2S RwD message with its poison indicator (spec/09 R237, spec/10 R261). -/
structure M2SRwD where
  ldId : Fin 16
  tag : BitVec 16
  hpa : BitVec 64
  meta_ : MetaValue
  data : Line
  poison : Bool
deriving DecidableEq, Repr

/-- A host's answer to a BISnp (spec/10, R262). -/
inductive BiRsp where
  | i | s | other
deriving DecidableEq, Repr

/-- A tile named by its logical address, or by its place on the medium (spec/02, R33, R51). -/
inductive TileRef where
  | logical (ltn : BitVec 37)
  | physical (psn : BitVec 26) (t : BitVec 12)
deriving DecidableEq, Repr

/-- On whose account a tile read is made: a request held in a miss register, the patrol (spec/07 R176), a copy (spec/06
R158), a re-key (spec/08 R215), a rebuild (spec/07 R190), a resynchronisation (spec/11 R301), Scan Media (spec/09
R238) or a self-test (spec/17 R425). -/
inductive ReadWhy where
  | register | patrol | copy | rekey | rebuild | resync | scan | selfTest
deriving DecidableEq, Repr

/-- Who is granted write credit: a head, or a Dorosh link (spec/03, R84; spec/11, R286). -/
inductive CreditPort where
  | head (h : HeadNo)
  | link (k : LinkNo)
deriving DecidableEq, Repr

/-- The corrected-bit totals of one age bucket's calibration tiles at offsets BASE − 1, BASE and BASE + 1
(spec/04, R107). -/
structure CalSum where
  group : GroupNo
  age : Fin 32
  below : Nat
  base : Nat
  above : Nat
deriving DecidableEq, Repr

/-- A Dorosh frame as a link receiver sees it: its 16-byte header (spec/11, R283), and whether its tag verified under
the keys of its direction (spec/08, R221). -/
structure Frame where
  link : LinkNo
  hdr : BitVec 128
  tagOk : Bool
deriving DecidableEq, Repr

/-- The body of a COH frame: the header of R270, 64 data bytes, the byte mask and the trailer of R285. -/
structure CohMsg where
  hdr : BitVec 128
  data : Line
  mask : BitVec 64
  trailer : BitVec 128
deriving DecidableEq, Repr

/-- The body of a MIRROR frame: the header of R270 with an OPC of R298, up to 256 data bytes, mask and trailer. -/
structure MirMsg where
  hdr : BitVec 128
  data : Tile
  mask : BitVec 64
  trailer : BitVec 128
deriving DecidableEq, Repr

/-- The body of a HELLO frame (spec/11, R284). -/
structure HelloBody where
  node : BitVec 12
  uid : BitVec 64
  view : BitVec 32
  ownLink : LinkNo
  leaving : Bool
deriving DecidableEq, Repr

/-- A promotion record of an LSA: the failed home's range and where its copy lies (spec/11, R302). -/
structure Promotion where
  failed : BitVec 12
  homeLsn : BitVec 25
  count : BitVec 25
  copyLsn : BitVec 25
deriving DecidableEq, Repr

/-- A link-state advertisement (spec/11, R288); `fabric` says that the node holds fabric state (R289). -/
structure LsaBody where
  uid : BitVec 64
  storedId : BitVec 12
  seq : BitVec 32
  view : BitVec 32
  leaving : Bool
  fabric : Bool
  links : List (BitVec 64 × LinkNo × LinkNo)
  promos : List Promotion
deriving DecidableEq, Repr

/-- An OFFER body (spec/08, R222). -/
structure OfferBody where
  version : BitVec 8
  uid : BitVec 64
  random : BitVec 256
  point : BitVec 776
deriving DecidableEq, Repr

/-- A PROOF fragment (spec/08, R222). -/
structure ProofBody where
  frag : BitVec 8
  count : BitVec 8
  part : List Byte
deriving DecidableEq, Repr

/-- The triggers of an emergency wipe, in the encoding of WIPE_CAUSE (spec/08, R220, R224). -/
inductive WipeCause where
  | tamper | voltage | clock | temperature
deriving DecidableEq, Repr

/-- The causes of an engine failure, in the encoding of ENG_STAT CAUSE (spec/19, R456, R473). -/
inductive EngCause where
  | fetchTrap | rom | dataTrap | heartbeat | lockstep | remapFull | hostRequest
deriving DecidableEq, Repr

/-- What a mover was reading when it met an uncorrectable word (spec/19, R460). -/
inductive MoverSource where
  | tile (ltn : BitVec 37) (line : Fin 4)
  | hostMemory
  | scratchpad
deriving DecidableEq, Repr

/-- Where an SPDM session is opened: the DOE of an LD function, or an SMBus port (spec/09, R241). -/
inductive DoeOn where
  | doe (ld : LdNo)
  | smbus (port : Fin 2)
deriving DecidableEq, Repr

/-- A run of dynamic-capacity blocks of one LD: region, first LD block, count (spec/09, R235). -/
structure DcExtent where
  region : Fin 2
  first : BitVec 17
  count : BitVec 17
deriving DecidableEq, Repr

/-- The command paths that carry one command at a time (spec/16, R394). -/
inductive MboxPath where
  | mailbox (ld : LdNo)
  | mgmt (ld : LdNo)
  | mgmtFm (h : HeadNo)
deriving DecidableEq, Repr

/-- The CXL event logs (spec/16, R395). -/
inductive LogNo where
  | info | warning | failure | fatal | dynCap
deriving DecidableEq, Repr

/-- The logs that Get Log returns (spec/16, R395). -/
inductive StdLog where
  | commandEffects | sillage | other
deriving DecidableEq, Repr

/-- Where a Kelric command came from: a mailbox path, a queue pair's entry by its CID, the timed-action queue by its
handle, or the background operation of a path (spec/16, R394, R397, R402; spec/12, R325). The last two are the machine's
own names for work under way: no command comes from them. -/
inductive CmdSrc where
  | path (p : MboxPath)
  | bg (p : MboxPath)
  | queue (q : QNo) (cid : BitVec 16)
  | timed (handle : BitVec 16)
deriving DecidableEq, Repr

/-- A Kelric command as it is carried out: its 32 operand bytes (byte b at bits [8b+7:8b], R415), its input data, its
DLEN, and the FT of a timed submission (R402). -/
structure KCmd where
  src : CmdSrc
  ops : BitVec 256
  data : List Byte
  dlen : BitVec 32
  timedAt : Option Ft
deriving DecidableEq, Repr

/-- One error record of a self-test (spec/17, R427). -/
structure TestError where
  point : BitVec 32
  addr : BitVec 64
  expected : BitVec 32
  found : BitVec 32
deriving DecidableEq, Repr

/-- A requester of BAR2 (spec/18, R440). -/
inductive Requester where
  | ld (n : LdNo)
  | mgmt
  | kelric
deriving DecidableEq, Repr

/-- The table windows of the Dorosh block (spec/11, R306). -/
inductive DfWindow where
  | mirror | exports | imports
deriving DecidableEq, Repr

/-- What host software programs into an HDM decoder before it sets Commit (spec/09, R233). -/
structure DecoderCfg where
  base : BitVec 64
  size : BitVec 64
  ways : BitVec 8
  gran : BitVec 16
  pos : BitVec 8
  skip : BitVec 64
  bi : Bool
deriving DecidableEq, Repr

/-- The reference clocks of the lanes (spec/23, R526, R530). -/
inductive RefClk where
  | port (p : PortNo)
  | dorosh
deriving DecidableEq, Repr

/-- The commands, one per row of spec/opcode_table.json. -/
inductive Instr where
  /-- MEMRD (R261): A host M2S MemRd request arrives at a head and is placed in its line's order at the coherence
  home. -/
  | memrd (h : HeadNo) (q : M2SReq)
  /-- MEMINV (R261): A host MemInv request arrives and is handled by the home per its MetaValue. -/
  | meminv (h : HeadNo) (q : M2SReq)
  /-- MEMWR (R77): A host full-line M2S RwD MemWr arrives, is admitted by the home and placed in its sector or mash
  slot. -/
  | memwr (h : HeadNo) (w : M2SRwD)
  /-- MEMWRPTL (R77): A host partial-line write with byte enables arrives and is merged, or waits for a tile fill. -/
  | memwrptl (h : HeadNo) (w : M2SRwD) (mask : BitVec 64)
  /-- BIRSP (R262): A host BIRsp to a back-invalidate snoop arrives and updates the directory. -/
  | birsp (h : HeadNo) (biTag : Fin 64) (rsp : BiRsp)
  /-- BICONFLICT (R265): A host BIConflict arrives and is answered with BIConflictAck after pending NDRs. -/
  | biconflict (h : HeadNo) (ldId : Fin 16) (line : BitVec 39)
  /-- BISNP_TIMEOUT (R266): A BISnp stays unanswered for BI_TIMEOUT; the head link is taken down and the snoop taken
  as BIRspI. -/
  | bisnpTimeout (h : HeadNo) (biTag : Fin 64)
  /-- SLOT_PURGE_END (R257): The background walk clearing a purged BI slot's SHARERS bits completes and the slot is
  freed. -/
  | slotPurgeEnd (slot : Fin 32)
  /-- MAP_ENTRY_RETURN (R96): The segment map entry read from HBM returns and its state decides the tile read action.
  -/
  | mapEntryReturn (ltn : BitVec 37)
  /-- TILE_READ_ADMIT (R100): A tile read waiting for channel queue room is issued once every channel concerned has
  fewer than 12 reads. -/
  | tileReadAdmit (k : TileRef) (why : ReadWhy)
  /-- CHUNK_READ_DATA (R59): The 20 DQ beats of a READ_CHUNK arrive from a PGM-1T partition. -/
  | chunkReadData (ch : ChanNo) (pos : DiePos) (part : Fin 16) (cidx : BitVec 27) (bits : BitVec 320)
  /-- TILE_ATTEMPT (R108): Once a round's chunks are decoded the tile is attempted and succeeds, escalates, or ends
  per R112. -/
  | tileAttempt (k : TileRef)
  /-- CRC_RESEND_ARRIVAL (R49): The resent tile copy arrives and is verified, or the point's poison action is taken.
  -/
  | crcResendArrival (ltn : BitVec 37) (tile : Tile) (crc : BitVec 32)
  /-- DEEP_RECOVERY_START (R110): A read that failed step 3 takes a free deep recovery, places the lane hold and
  begins the sweep. -/
  | deepRecoveryStart (k : TileRef)
  /-- LANE_HOLD_EXPIRY (R110): The lane arbiter ends a deep-recovery lane hold 20 µs after it was placed. -/
  | laneHoldExpiry (ds : DieSet) (lane : Fin 16)
  /-- DEEP_RECOVERY_END (R112): Deep recovery finishes trial decoding and ends the read in one of the outcomes. -/
  | deepRecoveryEnd (k : TileRef)
  /-- TAG_CACHE_MISS_RETURN (R72): A tag record read from HBM after a tag-cache miss returns and the way is found. -/
  | tagCacheMissReturn (set : BitVec 24) (visitor : Bool)
  /-- WRITE_CREDIT_GRANT (R84): A head grants withheld write credit once the dirty charge leaves room in the budget.
  -/
  | writeCreditGrant (port : CreditPort)
  /-- MASH_IDLE_TIMEOUT (R82): An incomplete mash slot receives no write for 10 µs and is spilled into a way. -/
  | mashIdleTimeout (ltn : BitVec 37)
  /-- STREAM_TRACKER_TIMEOUT (R80): A streaming tracker sees no matching write for 10 µs and is released. -/
  | streamTrackerTimeout (i : Fin 64)
  /-- CLEANER_START (R85): The dirty charge reaches CLEAN_HI per cent of the budget and the cleaner starts its walk.
  -/
  | cleanerStart
  /-- CLEANER_STOP (R85): The dirty charge falls to CLEAN_LO per cent and the cleaner stops. -/
  | cleanerStop
  /-- COUNTER_READ_RETURN (R129): A counter read of data chunks 4 to 7 returns and the new WCOUNT is chosen or
  escalated. -/
  | counterReadReturn (k : TileRef)
  /-- LANE_GRANT (R132): The lane arbiter grants a lane to a waiting program by class order and wave 0 starts. -/
  | laneGrant (ds : DieSet) (lane : Fin 16)
  /-- STATUS_POLL (R133): While a partition on a channel is busy, STATUS is read every 100 ns. -/
  | statusPoll (ch : ChanNo) (pkg : Fin 2) (die : Fin 16)
  /-- STATUS_RESPONSE (R61): An 8-byte STATUS response arrives, with busy, failure, refusal and fault bits acted on.
  -/
  | statusResponse (ch : ChanNo) (pkg : Fin 2) (die : Fin 16) (bits : BitVec 64)
  /-- PARTITION_BUSY_TIMEOUT (R61): A partition still shows BUSY 10 µs after its last PROGRAM_CHUNK and PART_RESET is
  issued. -/
  | partitionBusyTimeout (ch : ChanNo) (pos : DiePos) (part : Fin 16)
  /-- TEMP_RESPONSE (R61): A TEMP response arrives and sets the package's reading for its group. -/
  | tempResponse (ch : ChanNo) (pkg : Fin 2) (bits : BitVec 64)
  /-- IDENT_RESPONSE (R61): An IDENT response arrives and the package is checked against the PGM-1T values. -/
  | identResponse (ch : ChanNo) (pkg : Fin 2) (bits : BitVec 128)
  /-- MEDIA_ALERT (R62): ALERT_N of a media channel falls and STATUS is read within 1 µs. -/
  | mediaAlert (ch : ChanNo)
  /-- ALERT_STUCK_TIMEOUT (R187): ALERT_N stays low for over 1 ms after both packages' STATUS reads and the channel is
  failed. -/
  | alertStuckTimeout (ch : ChanNo)
  /-- MEDIA_NO_ANSWER_TIMEOUT (R186): An IDENT or STATUS goes unanswered for 2 µs; the third in a row declares the die
  failed. -/
  | mediaNoAnswerTimeout (ch : ChanNo) (pos : DiePos)
  /-- CHANNEL_RETRAIN_END (R188): A channel retrain completes or fails, and its chunks stop counting as erasures. -/
  | channelRetrainEnd (ch : ChanNo) (ok : Bool)
  /-- REBUILD_TICK (R192): The rebuild pace allows the next tile of a rebuilding set to be reconstructed. -/
  | rebuildTick (ds : DieSet)
  /-- PATROL_ADVANCE (R177): A die set's patrol cursor reaches its next chunk read at the rate of its period. -/
  | patrolAdvance (ds : DieSet)
  /-- ACCEL_PASS_END (R185): The accelerated patrol pass ends after ACCEL_HOURS and ordinary cursors resume. -/
  | accelPassEnd
  /-- CHECKPOINT_DUE (R152): CKPT_PERIOD × 4,096 slots pass and Kelric writes a map checkpoint into the reserve. -/
  | checkpointDue
  /-- CHECKPOINT_END (R152): A checkpoint's trailer is written and older checkpoints and journal records are released.
  -/
  | checkpointEnd
  /-- COPY_START (R158): A copy of a segment to a target slot starts and the entry enters rebuilding state. -/
  | copyStart (lsn : BitVec 25)
  /-- COPY_PASS_END (R158): A copy pass over the pending tiles ends and the next pass or hold begins. -/
  | copyPassEnd (lsn : BitVec 25)
  /-- RELEASE_MARK_START (R157): A released slot whose R101 wait has ended starts its class-6 release marking. -/
  | releaseMarkStart (psn : BitVec 26)
  /-- RELEASE_MARK_END (R157): Release marking of a slot completes and it enters the free list or is retired. -/
  | releaseMarkEnd (psn : BitVec 26)
  /-- ENDURE_REACHED (R163): A mapped slot's PCOUNT reaches ENDURE and the segment is relocated or made worn-read-
  only. -/
  | endureReached (lsn : BitVec 25)
  /-- DISCARD_HOLD_DRAINED (R169): Requests admitted before a segment discard complete and the discard proceeds. -/
  | discardHoldDrained (lsn : BitVec 25)
  /-- REKEY_START (R215): A queued segment starts its re-key when a group slot under REKEY_MAX is free. -/
  | rekeyStart (g : GroupNo)
  /-- REKEY_END (R215): A segment's re-key finishes and its re-key table entry is removed. -/
  | rekeyEnd (lsn : BitVec 25)
  /-- CALIBRATION_PASS (R107): Every 4,096 slots Kelric reads calibration tiles and moves gravity BASE entries. -/
  | calibrationPass (sums : List CalSum)
  /-- SLOT_BOUNDARY (R62): FT crosses a slot boundary: STATUS and TEMP polls, SYNC frames, maintenance slot and slot
  counts. -/
  | slotBoundary
  /-- FRAME_BOUNDARY (R324): FT crosses a frame boundary: new maintenance maps take effect and frame work starts. -/
  | frameBoundary
  /-- HOURLY_CHECKPOINT (R483): Hourly, counters, FT, cursors and gravity tables are stored in the Weali store. -/
  | hourlyCheckpoint
  /-- FTSYNC_EDGE (R312): A rising edge on FTSYNC_IN is sampled and used if its code word was valid. -/
  | ftsyncEdge
  /-- FTCODE_WORD (R312): A 98-bit FTCODE_IN word is received and checked for CRC and SEQ. -/
  | ftcodeWord (word : BitVec 98)
  /-- FTCODE_OUT_SEND (R313): Before a slot boundary, the word naming its edge is sent on FTCODE_OUT. -/
  | ftcodeOutSend
  /-- PTM_RESPONSE (R314): A PTM dialogue on PTM_HEAD completes and gives a class 2 source time. -/
  | ptmResponse (ok : Bool) (root : BitVec 64)
  /-- SYNC (R316): A SYNC time frame arrives and updates link delay, offset, parent and grandmaster choice. -/
  | sync (f : Frame) (body : BitVec 256)
  /-- FT_STEP_FORWARD (R321): At the next slot boundary of corrected time FT steps forward, applying passed actions
  and epochs. -/
  | ftStepForward
  /-- TIMED_ACTION_DUE (R326): FT reaches a queued action's AT and the UPDATE or command is applied. -/
  | timedActionDue
  /-- CASK_BOUNDARY (R330): A regular, early or marked cask boundary passes and the domain's epoch advances. -/
  | caskBoundary (dom : Fin 16)
  /-- UNDO_SPILL (R337): Use of the undo data ring exceeds SPILL_PCT and the oldest records spill to the reserve. -/
  | undoSpill
  /-- UNDO_INDEX_WALK (R336): Every 16,384 boundaries the undo index is walked and stale-epoch entries cleared. -/
  | undoIndexWalk
  /-- CASK_READY_SEND (R339): A member's epoch writes have all completed and READY(E) is recorded and sent. -/
  | caskReadySend (dom : Fin 16)
  /-- EARLY_THRESHOLD (R341): A member's undo records reach EARLY_PCT and it sends EARLY_REQ. -/
  | earlyThreshold (dom : Fin 16)
  /-- READY (R339): A CASK READY frame reaches the coordinator, which commits once all members are ready. -/
  | ready (f : Frame) (body : BitVec 256)
  /-- COMMIT (R339): A CASK COMMIT frame reaches a member, which records COMMITTED and answers ACK. -/
  | commit (f : Frame) (body : BitVec 256)
  /-- CASK_ACK (R339): A CASK ACK frame reaches the coordinator, which sends RELEASE when all have acked. -/
  | caskAck (f : Frame) (body : BitVec 256)
  /-- RELEASE (R337): A CASK RELEASE frame arrives and frees every record of epochs up to E. -/
  | release (f : Frame) (body : BitVec 256)
  /-- EARLY_REQ (R341): A CASK EARLY_REQ reaches the coordinator, which announces an early boundary. -/
  | earlyReq (f : Frame) (body : BitVec 256)
  /-- EARLY (R341): A CASK EARLY(X) frame arrives and X becomes an extra boundary. -/
  | early (f : Frame) (body : BitVec 256)
  /-- QUERY (R342): A CASK QUERY arrives and the member answers with STATE. -/
  | query (f : Frame) (body : BitVec 256)
  /-- STATE (R342): A CASK STATE frame arrives at the recovering node with a member's COMMITTED and RELEASED. -/
  | state (f : Frame) (body : BitVec 256)
  /-- RECOVER (R342): A CASK RECOVER(T) arrives and the member writes back records of epochs after T. -/
  | recover (f : Frame) (body : BitVec 256)
  /-- CASK_WRITEBACK_END (R342): A member finishes its undo write-back, frees its records and sends RECOVER_DONE. -/
  | caskWritebackEnd (dom : Fin 16)
  /-- RECOVER_DONE (R342): A CASK RECOVER_DONE reaches the recovering node; the command completes when all answer. -/
  | recoverDone (f : Frame) (body : BitVec 256)
  /-- CASK_RECOVER_TIMEOUT (R423): A member has not answered CASK_RECOVER in 10 s; the command completes with PARTIAL.
  -/
  | caskRecoverTimeout (dom : Fin 16)
  /-- RD_S (R272): A proxy RD_S reaches the home and is handled as MemRd with MetaValue S. -/
  | rdS (f : Frame) (m : CohMsg)
  /-- RD_E (R272): A proxy RD_E reaches the home and is handled as MemRd with MetaValue A. -/
  | rdE (f : Frame) (m : CohMsg)
  /-- RD_NC (R272): A proxy RD_NC reaches the home and is handled as an uncached read. -/
  | rdNc (f : Frame) (m : CohMsg)
  /-- UPG (R272): A proxy UPG reaches the home and is handled as MemInv A. -/
  | upg (f : Frame) (m : CohMsg)
  /-- WR (R269): A proxy WR with data and mask reaches the home and is placed, answered by CMP. -/
  | wr (f : Frame) (m : CohMsg)
  /-- INV (R276): A home INV reaches a proxy, which invalidates local holders and answers SNP_RSP. -/
  | inv (f : Frame) (m : CohMsg)
  /-- SNP_S (R276): A home SNP_S reaches a proxy, which downgrades to S and answers SNP_RSP. -/
  | snpS (f : Frame) (m : CohMsg)
  /-- FWD_S (R273): A FWD_S reaches the owner, which sends DATA in S to the requester and FWD_ACK to the home. -/
  | fwdS (f : Frame) (m : CohMsg)
  /-- FWD_E (R273): A FWD_E reaches the owner, which sends DATA in E and goes to I. -/
  | fwdE (f : Frame) (m : CohMsg)
  /-- DATA (R274): A DATA message reaches the requester, which completes to its host or waits for CMP. -/
  | data (f : Frame) (m : CohMsg)
  /-- CMP (R269): A CMP reaches the requester and completes its WR, UPG or dirty DATA. -/
  | cmp (f : Frame) (m : CohMsg)
  /-- SNP_RSP (R272): A proxy's SNP_RSP reaches the home and updates the entry. -/
  | snpRsp (f : Frame) (m : CohMsg)
  /-- FWD_ACK (R273): An owner's FWD_ACK reaches the home, which places data, updates the entry and sends CMP. -/
  | fwdAck (f : Frame) (m : CohMsg)
  /-- ACK (R274): A requester's ACK reaches the home and the line's transaction closes. -/
  | ack (f : Frame) (m : CohMsg)
  /-- MWR (R300): A mirror write copy arrives and is placed as a host write, answered by MCMP. -/
  | mwr (f : Frame) (m : MirMsg)
  /-- MCMP (R123): The mirror's MCMP reaches the home, which completes the held mirrored write. -/
  | mcmp (f : Frame) (m : MirMsg)
  /-- MRD (R300): A tile read request reaches the mirror, bounded or unbounded. -/
  | mrd (f : Frame) (m : MirMsg)
  /-- MDATA (R110): The mirror's MDATA reaches the home with tile data, UNRECOVERED or DENIED. -/
  | mdata (f : Frame) (m : MirMsg)
  /-- MDISC (R300): A mirror discard request arrives and the copy is discarded, answered with MDACK. -/
  | mdisc (f : Frame) (m : MirMsg)
  /-- MDACK (R170): The mirror's MDACK reaches the home and the held discard completes. -/
  | mdack (f : Frame) (m : MirMsg)
  /-- RSYNC (R301): A resynchronisation tile copy arrives at the mirror and is placed, answered by RSACK. -/
  | rsync (f : Frame) (m : MirMsg)
  /-- RSACK (R301): An RSACK reaches the home; the last one makes the entry MIRRORED. -/
  | rsack (f : Frame) (m : MirMsg)
  /-- RESYNC_TICK (R301): The resynchronisation pace allows the next RSYNC tile copy of an entry. -/
  | resyncTick (entry : Fin 256)
  /-- HELLO (R284): A HELLO frame arrives on a link; with confirmed keys the first one brings the link UP. -/
  | hello (f : Frame) (b : HelloBody)
  /-- LSA (R288): A link-state advertisement arrives and is stored and forwarded if newer. -/
  | lsa (f : Frame) (b : LsaBody)
  /-- LSA_REFRESH_DUE (R288): Sixty-four slots pass and the node floods its LSA again. -/
  | lsaRefreshDue
  /-- OFFER (R222): A handshake OFFER arrives with the peer's random and ephemeral key. -/
  | offer (f : Frame) (b : OfferBody)
  /-- PROOF (R222): A PROOF fragment arrives; when whole, the chain and signature are verified and CONFIRM sent. -/
  | proof (f : Frame) (b : ProofBody)
  /-- CONFIRM (R222): A CONFIRM arrives under the new keys and that direction changes keys. -/
  | confirm (f : Frame)
  /-- ABORT (R222): A handshake ABORT arrives and the link goes DOWN. -/
  | abort (f : Frame) (reason : BitVec 8)
  /-- HANDSHAKE_TIMEOUT (R222): A handshake step goes unanswered for 2 ms and ABORT with reason 4 is sent. -/
  | handshakeTimeout (k : LinkNo)
  /-- KEY_RENEWAL_DUE (R221): A link reaches 2^32 frames or 2^26 slots and a fresh handshake starts. -/
  | keyRenewalDue (k : LinkNo)
  /-- LINK_TAG_FAILURE_LIMIT (R221): Sixteen tag failures within one slot take the link down for a fresh handshake. -/
  | linkTagFailureLimit (k : LinkNo)
  /-- MGMT (R305): A MGMT frame carrying an MCTP packet arrives for the management function. -/
  | mgmt (f : Frame) (packet : List Byte)
  /-- NULL (R284): A NULL frame arrives carrying only link fields, acknowledgements and credits. -/
  | null (f : Frame)
  /-- LINK_REPLAY_TIMEOUT (R287): A sender sees no progress of ACK for 2 µs and replays from ACK + 1. -/
  | linkReplayTimeout (k : LinkNo)
  /-- LINK_TRAINED (R282): Link training ends and the link enters SECURE for the handshake. -/
  | linkTrained (k : LinkNo) (ok : Bool)
  /-- HELLO_LOSS (R282): Three slots pass without HELLO and the link goes DOWN. -/
  | helloLoss (k : LinkNo)
  /-- VIEW_SETTLE (R289): No LSA changes for two slot boundaries; the view advances, IDs are assigned and routes
  computed. -/
  | viewSettle
  /-- NODE_FAIL_DECLARE (R302): A node absent for NODE_FAIL_SLOTS boundaries is declared failed and roles promoted. -/
  | nodeFailDeclare (node : BitVec 12)
  /-- AON_POWER_ON (R369): VDD_AON and VDDIO_AON rise; the supervisor pair boots and reads the Weali store. -/
  | aonPowerOn
  /-- STRAP_SAMPLE (R532): One millisecond after VDDIO_AON enters range the straps are sampled. -/
  | strapSample (role : BitVec 2) (slotId : BitVec 6)
  /-- POWER_UP_START (R347): VIN_SENSE has stood at VIN_GOOD for 50 ms and power-up step 1 begins. -/
  | powerUpStart
  /-- STEP_COMPLETE (R347): All PGs and senses of a step are good; after 100 µs the next step begins. -/
  | stepComplete
  /-- STEP_TIMEOUT (R348): A step is not complete within PG_TIMEOUT; rails are lowered and a retry or hold follows. -/
  | stepTimeout (ch : RailNo)
  /-- RETRY_BACKOFF_EXPIRY (R348): A power-up back-off expires and the sequence runs again from step 1. -/
  | retryBackoffExpiry
  /-- RESET_STRETCH_EXPIRY (R366): A reset output's STRETCH passes and it is released. -/
  | resetStretchExpiry (k : Fin 5)
  /-- STEP (R353): A SEQ bus STEP frame reaches a slave, which raises that step. -/
  | step (w : BitVec 40)
  /-- POLL (R352): A SEQ bus POLL reaches a slave, which replies with its step and status. -/
  | poll (w : BitVec 40)
  /-- SEQ_ABORT (R353): A SEQ bus ABORT reaches a slave, which follows R348 with the master's back-off. -/
  | seqAbort (w : BitVec 40)
  /-- OFF (R353): A SEQ bus OFF frame reaches a slave after board rails-off. -/
  | off (w : BitVec 40)
  /-- SEQ_RELEASE (R353): A SEQ bus RELEASE reaches a slave, which releases its resets. -/
  | seqRelease (w : BitVec 40)
  /-- PFW (R352): A SEQ bus PFW frame reaches a controller. -/
  | pfw (w : BitVec 40)
  /-- SEQ_TIMEOUT (R353): A slave receives no frame for 100 ms during power-up and lowers its channels. -/
  | seqTimeout
  /-- RAIL_FAULT (R350): A raised rail's PG stays low 2 µs or its sense stays outside ±10 % for 10 µs. -/
  | railFault (ch : RailNo)
  /-- RAIL_WARNING (R350): A sense stays outside ±5 % for 10 µs and a warning event is raised. -/
  | railWarning (sense : Fin 16)
  /-- BUDGET_COMPUTE (R357): Every 1 ms the dirty budget is computed from bank voltage and capacitance. -/
  | budgetCompute (capUv : BitVec 21)
  /-- CAP_TEST_START (R355): PERIOD_H hours pass, or no C is stored, and the capacitance test begins waiting for V0.
  -/
  | capTestStart
  /-- CAP_TEST_SETTLED (R355): The bank holds within 1 % for 1 s; the budget is lowered and the discharge starts. -/
  | capTestSettled
  /-- CAP_TEST_NOT_CHARGED (R355): V0 is not reached within 10 minutes and the test ends NOT_CHARGED. -/
  | capTestNotCharged
  /-- CAP_TEST_DISCHARGE_END (R355): The bank falls by DROP, or 60 s pass; C is computed or FAST/SLOW recorded. -/
  | capTestDischargeEnd (dtUs : BitVec 32)
  /-- CAP_TEST_RETRY (R356): One hour after a SLOW result the test repeats. -/
  | capTestRetry
  /-- CAP_RECHARGED (R355): The bank recharges to within 1 % of V0 and the test's budget is applied. -/
  | capRecharged
  /-- VIN_WARNING (R359): VIN_SENSE stays below VIN_WARN for 2 µs and a drydown starts. -/
  | vinWarning
  /-- PFW_N_ASSERT (R359): PFW_N is held low by another controller for 2 µs and a drydown starts. -/
  | pfwNAssert
  /-- DRYDOWN_CUT (R360): CUT passes; every head and link withholds write credit and the flush begins. -/
  | drydownCut
  /-- FLUSH_END (R360): The drydown flush programs its last tile and quiesce begins. -/
  | flushEnd
  /-- BANK_LOW_IN_FLUSH (R362): The bank falls to VMIN × 1.05 during the flush; waves stop and the drydown is
  INCOMPLETE. -/
  | bankLowInFlush
  /-- QUIESCE_END (R360): All partitions idle; resets low and the Weali checkpoint with the drydown record is written.
  -/
  | quiesceEnd
  /-- RAILS_OFF_END (R360): All sequenced rails are lowered and HOLD_EN goes low. -/
  | railsOffEnd
  /-- VIN_GOOD_RETURN (R363): VIN_SENSE returns to VIN_GOOD during a drydown and the 50 ms resume hold starts. -/
  | vinGoodReturn
  /-- RESUME_HOLD_EXPIRY (R363): VIN stays good 50 ms after the checkpoint; rails-off is skipped and a warm resume
  runs. -/
  | resumeHoldExpiry
  /-- COLD_RESET (R379): COLD_RST_N has been low for 10 µs and a reset flush or rail shutdown follows. -/
  | coldReset
  /-- COLD_RESET_RELEASE (R379): COLD_RST_N rises and a cold start follows once VIN is good for 50 ms. -/
  | coldResetRelease
  /-- EMERGENCY_WIPE_TRIGGER (R220): An armed tamper, voltage, clock or temperature trigger zeroes keys and starts the
  wipe. -/
  | emergencyWipeTrigger (cause : WipeCause)
  /-- WIPE_FILL_END (R220): The wipe's HBM and staging fill ends; Memory_Active cleared and credit regranted. -/
  | wipeFillEnd
  /-- FILL_END (R373): The hardware fill at start ends and the engines are released. -/
  | fillEnd (stackOk : BitVec 2) (engineOk : BitVec 64)
  /-- MEDIA_TRAINING_DONE (R370): Channels finish training, the population is checked and failed dies declared. -/
  | mediaTrainingDone (trained : BitVec 32) (retried : Bool)
  /-- KEY_SETUP_END (R370): The default root is unwrapped, the reserve key derived and the key table read. -/
  | keySetupEnd
  /-- MAP_LOAD_END (R154): The map, journal, undo log and pin spill are loaded and Memory_Active is set. -/
  | mapLoadEnd
  /-- FIRST_FORMAT_END (R376): First format finishes marking every data slot and Memory_Active is set. -/
  | firstFormatEnd
  /-- ON_DIE_SENSOR_SAMPLE (R386): Every 100 µs on-die sensors are sampled and caps and critical limits evaluated. -/
  | onDieSensorSample (t : List (BitVec 12))
  /-- REMOTE_SENSOR_SAMPLE (R388): Every 10 ms remote sensors are sampled against WARN and CRIT. -/
  | remoteSensorSample (n : Fin 16) (t : BitVec 12) (open_ : Bool)
  /-- SENSOR_SELF_CHECK (R385): Once per second each on-die sensor is self-checked and excluded on failure. -/
  | sensorSelfCheck (failing : BitVec 32)
  /-- TIMEBASE_COMPENSATE (R391): Every 1 ms the timebase oscillator is corrected from an always-on sensor. -/
  | timebaseCompensate
  /-- BANDGAP_RETRIM (R391): Every 10 ms the bandgap references are retrimmed. -/
  | bandgapRetrim
  /-- OSCILLATOR_COMPARE (R512): Every 1 ms the oscillators are compared and one off by over 5 ppm is dropped. -/
  | oscillatorCompare (off0 : Bool) (off1 : Bool)
  /-- PLL_LOCK_LOSS (R511): The active core PLL leaves lock and the clock moves to the standby. -/
  | pllLockLoss (pll : Fin 2)
  /-- PLL_RELOCK_STABLE (R511): A failed PLL stays locked 16 slots and becomes the standby. -/
  | pllRelockStable
  /-- HBM_STACK_FAIL (R514): An HBM stack fails and the controller rebuilds the lost metadata share. -/
  | hbmStackFail (stack : Fin 2)
  /-- HBM_SHARE_REBUILT (R514): The failed stack's map share is restored and waiting requests proceed. -/
  | hbmShareRebuilt
  /-- HEARTBEAT_CHECK (R456): Every 5 µs the supervisor checks engine heartbeats. -/
  | heartbeatCheck (beat : BitVec 64)
  /-- ENGINE_FAIL (R456): An engine is declared failed and fenced; a spare leaves retention. -/
  | engineFail (e : EngineNo) (cause : EngCause)
  /-- FAILOVER_TAKEOVER (R457): A spare finishes rebuilding the role state and takes the role; ledger replay begins.
  -/
  | failoverTakeover (e : EngineNo)
  /-- MOVER_DESCRIPTOR_END (R460): A mover channel finishes or halts its descriptor. -/
  | moverDescriptorEnd (k : Fin 128) (bad : Option MoverSource)
  /-- BGT_REGION_TEST (R470): After BGT_GAP_US the next 1 KiB region is saved, march-tested and restored. -/
  | bgtRegionTest (bad : List (BitVec 14))
  /-- RETENTION_IDLE_EXPIRY (R469): An eligible macro idle for RET_IDLE_US enters retention. -/
  | retentionIdleExpiry (m : Fin 640)
  /-- MACRO_WAKE_END (R469): A retained macro finishes waking and the waiting access proceeds. -/
  | macroWakeEnd (m : Fin 640)
  /-- PATCH_ROUND_END (R430): A patch activation round finishes handovers and loads released engines. -/
  | patchRoundEnd
  /-- WEALI_PAGE_WRITE_END (R477): A Weali page write finishes and is read back, rewritten or retired. -/
  | wealiPageWriteEnd (page : BitVec 17) (bad1 : Bool) (bad2 : Bool)
  /-- RWP_STORE_END (R451): A persistent-register record is stored and the value takes effect. -/
  | rwpStoreEnd (off : BitVec 20)
  /-- WEALI_SWEEP_TICK (R484): The weekly margin sweep reads the next page and rewrites or retires it. -/
  | wealiSweepTick (page : BitVec 17) (margin : Bool) (uncorr : Bool)
  /-- TALLY_WINDOW_END (R492): A tally window ends; counters captured, totals and bandwidths updated. -/
  | tallyWindowEnd
  /-- SUMMARY_INTERVAL_END (R499): A summary interval ends and a sillage record or repeat is written. -/
  | summaryIntervalEnd
  /-- PERST_N_ASSERT (R245): PERST_N of a port falls and its heads reset. -/
  | perstNAssert (p : PortNo)
  /-- PERST_N_RELEASE (R246): PERST_N rises and the head begins link training. -/
  | perstNRelease (p : PortNo)
  /-- HOT_RESET (R245): A hot reset, link disable or link down resets one head. -/
  | hotReset (h : HeadNo)
  /-- HEAD_LINK_UP (R246): A head link trains and configuration requests are served. -/
  | headLinkUp (h : HeadNo) (width : BitVec 5) (rate : BitVec 3) (flit256 : Bool)
  /-- CXL_RESET (R245): A CXL Reset of an LD resets its decoders and optionally discards its segments. -/
  | cxlReset (ld : LdNo) (memClear : Bool)
  /-- FUNCTION_LEVEL_RESET (R245): An FLR resets one LD function's CXL.io state, mailbox, MSI-X and queues. -/
  | functionLevelReset (ld : LdNo)
  /-- BUS_MASTER_DISABLE (R409): Bus Master Enable is cleared and the function's queues are PAUSED. -/
  | busMasterDisable (ld : LdNo)
  /-- IDE_INTEGRITY_FAILURE (R242): An IDE check fails; the head drops flits, reports an error and takes its link
  down. -/
  | ideIntegrityFailure (h : HeadNo)
  /-- GPF_PHASE2 (R239): A GPF Phase 2 request completes writes holding credit and write-through writes. -/
  | gpfPhase2 (h : HeadNo)
  /-- SPDM_KEY_EXCHANGE (R241): An SPDM KEY_EXCHANGE opens a session or returns Busy at the 16-session limit. -/
  | spdmKeyExchange (at_ : DoeOn) (session : BitVec 32) (withMutual : Bool) (secret : BitVec 256)
  /-- IDE_KM_KEY_PROG (R242): An IDE_KM key programming arrives in a secured session. -/
  | ideKmKeyProg (session : BitVec 32) (h : HeadNo) (key : BitVec 256)
  /-- DOE_DISCOVERY (R241): A DOE Discovery request is answered with the supported protocols. -/
  | doeDiscovery (ld : LdNo) (index : BitVec 8)
  /-- CDAT_READ (R243): A CDAT table access returns DSMAS and DSLBIS entries. -/
  | cdatRead (ld : LdNo)
  /-- FM_LD_ALLOCATE (R232): An FM API LD allocation command sets an LD's static capacity in blocks. -/
  | fmLdAllocate (ld : LdNo) (blocks : BitVec 18)
  /-- FM_ADD_DC (R235): The fabric manager adds dynamic capacity and the DC event record is raised. -/
  | fmAddDc (ld : LdNo) (region : Fin 2) (extents : List DcExtent)
  /-- MCTP_BAR2_ACCESS (R442): A vendor MCTP message reads or writes a BAR2 word of an LD. -/
  | mctpBar2Access (op : BitVec 8) (ld : LdNo) (off : BitVec 32) (val : BitVec 32)
  /-- MAILBOX_DOORBELL (R394): Host software rings a mailbox doorbell and the command is started. -/
  | mailboxDoorbell (path : MboxPath) (opc : BitVec 16) (len : BitVec 21)
  /-- BACKGROUND_OP_END (R397): A mailbox background operation ends and its status is reported. -/
  | backgroundOpEnd (path : MboxPath) (ok : Bool)
  /-- IDENTIFY (R395): The standard Identify command returns the component type. -/
  | identify (path : MboxPath)
  /-- BACKGROUND_OPERATION_STATUS (R395): Background Operation Status returns progress of the background operation. -/
  | backgroundOperationStatus (path : MboxPath)
  /-- GET_RESPONSE_MESSAGE_LIMIT (R395): Get Response Message Limit returns the management bus limit. -/
  | getResponseMessageLimit (path : MboxPath)
  /-- SET_RESPONSE_MESSAGE_LIMIT (R395): Set Response Message Limit sets the management bus limit. -/
  | setResponseMessageLimit (path : MboxPath) (log2 : BitVec 8)
  /-- REQUEST_ABORT_BACKGROUND_OP (R395): Request Abort Background Operation aborts a Scan Media only. -/
  | requestAbortBackgroundOp (path : MboxPath)
  /-- GET_EVENT_RECORDS (R395): Get Event Records returns records from an event log. -/
  | getEventRecords (path : MboxPath) (log : LogNo)
  /-- CLEAR_EVENT_RECORDS (R395): Clear Event Records removes records from an event log. -/
  | clearEventRecords (path : MboxPath) (log : LogNo) (all : Bool) (handles : List (BitVec 16))
  /-- GET_EVENT_INTERRUPT_POLICY (R395): Get Event Interrupt Policy returns the event interrupt settings. -/
  | getEventInterruptPolicy (path : MboxPath)
  /-- SET_EVENT_INTERRUPT_POLICY (R395): Set Event Interrupt Policy sets the event interrupt settings. -/
  | setEventInterruptPolicy (path : MboxPath) (policy : BitVec 40)
  /-- GET_FW_INFO (R395): Get FW Info returns the ROM and staged patch slots. -/
  | getFwInfo (path : MboxPath)
  /-- TRANSFER_FW (R395): Transfer FW stages a patch part into slot 2 as PATCH_STAGE. -/
  | transferFw (path : MboxPath) (action : BitVec 8) (slot : BitVec 8) (off : BitVec 32) (data : List Byte)
  /-- ACTIVATE_FW (R395): Activate FW activates the staged patch online as PATCH_ACTIVATE. -/
  | activateFw (path : MboxPath) (action : BitVec 8) (slot : BitVec 8)
  /-- GET_TIMESTAMP (R395): Get Timestamp returns FT plus the recorded offset. -/
  | getTimestamp (path : MboxPath)
  /-- SET_TIMESTAMP (R395): Set Timestamp records an offset from FT. -/
  | setTimestamp (path : MboxPath) (t : BitVec 64)
  /-- GET_SUPPORTED_LOGS (R395): Get Supported Logs lists the Command Effects and sillage logs. -/
  | getSupportedLogs (path : MboxPath)
  /-- GET_LOG (R395): Get Log returns a supported log. -/
  | getLog (path : MboxPath) (log : StdLog) (off : BitVec 32) (len : BitVec 32)
  /-- IDENTIFY_MEMORY_DEVICE (R395): Identify Memory Device returns capacities, LSA size and poison list size. -/
  | identifyMemoryDevice (path : MboxPath)
  /-- GET_PARTITION_INFO (R395): Get Partition Info reports all capacity persistent. -/
  | getPartitionInfo (path : MboxPath)
  /-- SET_PARTITION_INFO (R395): Set Partition Info is accepted without effect only with volatile capacity 0. -/
  | setPartitionInfo (path : MboxPath) (volatileCap : BitVec 64)
  /-- GET_LSA (R395): Get LSA reads the LD's label storage area from the reserve. -/
  | getLsa (path : MboxPath) (off : BitVec 32) (len : BitVec 32)
  /-- SET_LSA (R395): Set LSA writes the LD's label storage area. -/
  | setLsa (path : MboxPath) (off : BitVec 32) (data : List Byte)
  /-- GET_HEALTH_INFO (R240): Get Health Info reports health and the Dirty Shutdown Count. -/
  | getHealthInfo (path : MboxPath)
  /-- GET_ALERT_CONFIGURATION (R395): Get Alert Configuration returns the alert settings. -/
  | getAlertConfiguration (path : MboxPath)
  /-- SET_ALERT_CONFIGURATION (R395): Set Alert Configuration sets the alert settings. -/
  | setAlertConfiguration (path : MboxPath) (cfg : BitVec 96)
  /-- GET_SHUTDOWN_STATE (R240): Get Shutdown State returns the recorded shutdown state. -/
  | getShutdownState (path : MboxPath)
  /-- SET_SHUTDOWN_STATE (R240): Set Shutdown State is recorded without changing what is persisted. -/
  | setShutdownState (path : MboxPath) (st : BitVec 8)
  /-- GET_POISON_LIST (R238): Get Poison List returns lines known to be poison. -/
  | getPoisonList (path : MboxPath) (dpa : BitVec 64) (len : BitVec 64)
  /-- INJECT_POISON (R238): Inject Poison marks a line poison as under R237. -/
  | injectPoison (path : MboxPath) (dpa : BitVec 64)
  /-- CLEAR_POISON (R238): Clear Poison writes the given 64 bytes as a full-line write. -/
  | clearPoison (path : MboxPath) (dpa : BitVec 64) (data : BitVec 512)
  /-- GET_SCAN_MEDIA_CAPABILITIES (R395): Get Scan Media Capabilities returns scan estimates. -/
  | getScanMediaCapabilities (path : MboxPath) (dpa : BitVec 64) (len : BitVec 64)
  /-- SCAN_MEDIA (R238): Scan Media starts a background scan that fills the poison list. -/
  | scanMedia (path : MboxPath) (dpa : BitVec 64) (len : BitVec 64)
  /-- GET_SCAN_MEDIA_RESULTS (R238): Get Scan Media Results returns lines found by the scan. -/
  | getScanMediaResults (path : MboxPath)
  /-- SANITIZE (R395): Sanitize securely discards every segment of the LD in the background. -/
  | sanitize (path : MboxPath)
  /-- SECURE_ERASE (R395): Secure Erase plainly discards every segment of the LD with KEYVER advanced. -/
  | secureErase (path : MboxPath)
  /-- GET_DC_CONFIGURATION (R235): Get DC Configuration returns the LD's dynamic-capacity regions. -/
  | getDcConfiguration (path : MboxPath)
  /-- GET_DC_EXTENT_LIST (R235): Get DC Extent List returns the accepted extents. -/
  | getDcExtentList (path : MboxPath)
  /-- ADD_DC_RESPONSE (R235): Host software accepts offered blocks, which become accessible; others return to free. -/
  | addDcResponse (path : MboxPath) (extents : List DcExtent)
  /-- RELEASE_DC (R236): Release Dynamic Capacity discards the released blocks' segments and frees them. -/
  | releaseDc (path : MboxPath) (extents : List DcExtent)
  /-- SQ_TAIL (R401): A write to a queue's SQ_TAIL doorbell makes new submission entries available for fetch. -/
  | sqTail (ld : LdNo) (q : QNo) (val : BitVec 32)
  /-- CQ_HEAD (R401): A write to CQ_HEAD frees completion slots and releases held completions. -/
  | cqHead (ld : LdNo) (q : QNo) (val : BitVec 32)
  /-- QUEUE_ENTRY_FETCH (R405): A command engine fetches a submission entry by weighted round robin and starts it. -/
  | queueEntryFetch (q : QNo) (entry : Option (BitVec 512))
  /-- KELRIC_COMMAND_COMPLETE (R404): A Kelric command that took time ends and its completion entry is posted. -/
  | kelricCommandComplete (q : QNo) (cid : BitVec 16) (writeOk : Bool)
  /-- IDENTIFY_K (R419): IDENTIFY_K returns stepping, grade, firmware, lifecycle and identity data. -/
  | identifyK (c : KCmd)
  /-- CACHE_ENABLE (R419): CACHE_ENABLE enables an LD's allocation, restores ways or enables the visitor partition. -/
  | cacheEnable (c : KCmd)
  /-- CACHE_DISABLE (R89): CACHE_DISABLE runs an LD's disable sequence, reduces ways or returns visitor lines. -/
  | cacheDisable (c : KCmd)
  /-- DISABLE_CLEAN_DONE (R89): A cleaning step of an LD disable sequence finishes and the next step runs. -/
  | disableCleanDone (ld : LdNo)
  /-- WAY_CHANGE_END (R91): No departing way holds a valid entry; regions power down and WAYS_NOW changes. -/
  | wayChangeEnd
  /-- CACHE_RANGE (R86): CACHE_RANGE queues a clean, invalidate or flush range-engine job. -/
  | cacheRange (c : KCmd)
  /-- RANGE_JOB_END (R87): A range-engine job finishes its walk and the next held job starts. -/
  | rangeJobEnd
  /-- CACHE_STATUS (R419): CACHE_STATUS returns budget, charge, LD states, ways and statistics. -/
  | cacheStatus (c : KCmd)
  /-- DISCARD (R420): DISCARD checks and discards a range of segments or tiles, plain or secure. -/
  | discard (c : KCmd)
  /-- DISCARD_STATUS (R419): DISCARD_STATUS returns the discards in progress and residue entries. -/
  | discardStatus (c : KCmd)
  /-- KEY_LOAD (R208): KEY_LOAD unwraps a root under a session's transport KEK into an index. -/
  | keyLoad (c : KCmd)
  /-- KEY_RETIRE (R212): KEY_RETIRE deletes an index's record, optionally discarding its segments. -/
  | keyRetire (c : KCmd)
  /-- KEY_BIND (R211): KEY_BIND binds an LD to an index, optionally queuing its segments for re-key. -/
  | keyBind (c : KCmd)
  /-- KEY_STATUS (R419): KEY_STATUS returns an index's state, KCV and re-key queue. -/
  | keyStatus (c : KCmd)
  /-- PATROL_SET (R422): PATROL_SET sets patrol settings and may start an accelerated pass. -/
  | patrolSet (c : KCmd)
  /-- PATROL_STATUS (R422): PATROL_STATUS returns pass progress and per-die corrected-bit totals. -/
  | patrolStatus (c : KCmd)
  /-- SCHEDULE_SET (R324): SCHEDULE_SET sets a maintenance slot map or cancels a timed action. -/
  | scheduleSet (c : KCmd)
  /-- SPARE_STATUS (R422): SPARE_STATUS returns die-set membership, rebuild progress and die health. -/
  | spareStatus (c : KCmd)
  /-- REBUILD_CONTROL (R422): REBUILD_CONTROL sets rebuild settings, moves a set to the front or fails a die. -/
  | rebuildControl (c : KCmd)
  /-- WEAR_REPORT (R422): WEAR_REPORT returns wear figures, PCOUNT histogram and list sizes. -/
  | wearReport (c : KCmd)
  /-- MIRROR_SET (R299): MIRROR_SET pairs, unpairs, resynchronises or swaps a mirror entry, or sets its rate. -/
  | mirrorSet (c : KCmd)
  /-- FABRIC_STATUS (R422): FABRIC_STATUS returns the view or the mirror, export, import or peer tables. -/
  | fabricStatus (c : KCmd)
  /-- FABRIC_ROUTE_SET (R422): FABRIC_ROUTE_SET pins routes, edits exports and imports, or enables a link. -/
  | fabricRouteSet (c : KCmd)
  /-- TIME_SOURCE_SET (R322): TIME_SOURCE_SET sets time sources or resteps FT. -/
  | timeSourceSet (c : KCmd)
  /-- TIME_STATUS (R422): TIME_STATUS returns FT, time state, grandmaster and pending actions. -/
  | timeStatus (c : KCmd)
  /-- CASK_CONFIG (R329): CASK_CONFIG creates, deletes or marks a cask domain. -/
  | caskConfig (c : KCmd)
  /-- CASK_STATUS (R422): CASK_STATUS returns each domain's state, epochs and log use. -/
  | caskStatus (c : KCmd)
  /-- CASK_RECOVER (R342): CASK_RECOVER queries members and sends RECOVER to roll back to the target image. -/
  | caskRecover (c : KCmd)
  /-- HOLDUP_STATUS (R419): HOLDUP_STATUS returns bank, budget, test and drydown state. -/
  | holdupStatus (c : KCmd)
  /-- HOLDUP_TEST (R355): HOLDUP_TEST starts a capacitance test at once. -/
  | holdupTest (c : KCmd)
  /-- THROTTLE_SET (R386): THROTTLE_SET sets throttle starts, slopes and remote sensor settings. -/
  | throttleSet (c : KCmd)
  /-- THERMAL_STATUS (R419): THERMAL_STATUS returns every reading, cap and excluded sensor. -/
  | thermalStatus (c : KCmd)
  /-- SELF_TEST (R425): SELF_TEST starts a test variant while the device serves. -/
  | selfTest (c : KCmd)
  /-- SELF_TEST_END (R427): A running self-test finishes or is aborted and its result is set. -/
  | selfTestEnd (id : BitVec 8) (errors : List TestError)
  /-- SELF_TEST_STATUS (R427): SELF_TEST_STATUS reports a test or aborts it. -/
  | selfTestStatus (c : KCmd)
  /-- PATCH_STAGE (R429): PATCH_STAGE writes patch image parts into STAGED and checks the image. -/
  | patchStage (c : KCmd)
  /-- PATCH_ACTIVATE (R430): PATCH_ACTIVATE starts moving every role onto the staged image in rounds. -/
  | patchActivate (c : KCmd)
  /-- PATCH_STATUS (R431): PATCH_STATUS returns patch levels, state and SVN_MIN. -/
  | patchStatus (c : KCmd)
  /-- LIFECYCLE_SET (R219): LIFECYCLE_SET moves the lifecycle state after cleaning and wiping the key store. -/
  | lifecycleSet (c : KCmd)
  /-- SETTING_READ (R424): SETTING_READ returns a setting's value. -/
  | settingRead (c : KCmd)
  /-- SETTING_WRITE (R424): SETTING_WRITE writes a setting through the update path. -/
  | settingWrite (c : KCmd)
  /-- LOG_SNAPSHOT (R433): LOG_SNAPSHOT reads or clears sillage log records. -/
  | logSnapshot (c : KCmd)
  /-- SAMPLE_CONFIG (R433): SAMPLE_CONFIG sets sampling or drops the rest of a record, copying records out. -/
  | sampleConfig (c : KCmd)
  /-- COUNTER_CONFIG (R490): COUNTER_CONFIG sets chaining, clears a counter, sets the window and user access. -/
  | counterConfig (c : KCmd)
  /-- REGISTER_WRITE (R9): A write to a BAR2 register without behaviour of its own acts per field access type. -/
  | registerWrite (req : Requester) (off : BitVec 26) (size : BitVec 4) (val : BitVec 64)
  /-- LOW_WORD_LATCH_READ (R445): A 4-byte read of a 64-bit register's low word latches the high word. -/
  | lowWordLatchRead (req : Requester) (off : BitVec 26)
  /-- BIT_ALIAS_WRITE (R443): A write to a bit-alias word acts indivisibly on that one bit. -/
  | bitAliasWrite (req : Requester) (off : BitVec 26) (val : BitVec 32)
  /-- UPDATE_APPLY (R450): An UPDATE write applies the named blocks' staged values in the next core cycle. -/
  | updateApply (req : Requester) (val : BitVec 32)
  /-- UPDATE_TIMED (R450): A timed UPDATE captures staged values into a timed action at UPDATE_AT. -/
  | updateTimed (req : Requester) (val : BitVec 32)
  /-- UPDATE_DROP (R450): An UPDATE with DROP empties the named blocks' staging. -/
  | updateDrop (req : Requester) (val : BitVec 32)
  /-- UNLOCK (R448): A write to UNLOCK arms the writer or counts a bad value. -/
  | unlock (req : Requester) (val : BitVec 32)
  /-- UNLOCK_ARM_EXPIRY (R448): One millisecond after UNLOCK an unused arming ends. -/
  | unlockArmExpiry (req : Requester)
  /-- KEY_LOCK_SET (R447): Host software sets KEY_LOCK and LD_KEY KEYIDX becomes guarded. -/
  | keyLockSet (req : Requester)
  /-- MAP_WIN_SNAPSHOT (R174): A read of MAP_WIN_DATA0 snapshots the selected map entry. -/
  | mapWinSnapshot (req : Requester)
  /-- CASK_DOM_SNAPSHOT (R343): A read of CASK_DOM word 0 snapshots the selected domain entry. -/
  | caskDomSnapshot (req : Requester)
  /-- DF_WINDOW_SNAPSHOT (R306): A read of word 0 of a DF table window snapshots the entry. -/
  | dfWindowSnapshot (req : Requester) (w : DfWindow)
  /-- LC_RANGE_CLEAN (R87): LC_RANGE_CTRL GO with OP clean queues a clean job. -/
  | lcRangeClean (req : Requester) (val : BitVec 32)
  /-- LC_RANGE_INVALIDATE (R87): LC_RANGE_CTRL GO with OP invalidate queues an invalidate job. -/
  | lcRangeInvalidate (req : Requester) (val : BitVec 32)
  /-- LC_RANGE_FLUSH (R87): LC_RANGE_CTRL GO with OP flush queues a flush job. -/
  | lcRangeFlush (req : Requester) (val : BitVec 32)
  /-- ALLOC_EN_WRITE (R95): A write of LC_LD_CTRL ALLOC_EN enables an LD or starts its disable sequence. -/
  | allocEnWrite (req : Requester) (ld : LdNo) (val : BitVec 32)
  /-- WAYS_REQ_WRITE (R91): A write of LC_WAYS WAYS_REQ starts a way reduction or increase. -/
  | waysReqWrite (req : Requester) (val : BitVec 32)
  /-- GRAV_RESET_GROUP (R117): GRAV_CTRL RESET_GROUP restores a group's gravity table at the next slot boundary. -/
  | gravResetGroup (req : Requester) (val : BitVec 32)
  /-- CRC_INJECT_ARM (R65): CRC_INJECT ARM corrupts the CRC of the next tile at the chosen point. -/
  | crcInjectArm (req : Requester) (val : BitVec 32)
  /-- DISC_SEGMENT_GO (R169): DISC_CMD GO with segment scope starts a segment discard. -/
  | discSegmentGo (req : Requester) (val : BitVec 32)
  /-- DISC_TILE_GO (R172): DISC_CMD GO with tile scope starts a tile discard. -/
  | discTileGo (req : Requester) (val : BitVec 32)
  /-- ACCEL_GO (R185): PATROL_CFG ACCEL_GO starts an accelerated pass at once. -/
  | accelGo (req : Requester) (val : BitVec 32)
  /-- KEY_CMD_LOAD (R208): KEY_CMD GO with OP load acts as KEY_LOAD from the staging words. -/
  | keyCmdLoad (req : Requester) (val : BitVec 32)
  /-- KEY_CMD_RETIRE (R212): KEY_CMD GO with OP retire acts as KEY_RETIRE. -/
  | keyCmdRetire (req : Requester) (val : BitVec 32)
  /-- KEY_CMD_RETIRE_ERASE (R212): KEY_CMD GO with OP retire with ERASE discards the index's segments and retires it.
  -/
  | keyCmdRetireErase (req : Requester) (val : BitVec 32)
  /-- LD_KEY_REKEY (R224): LD_KEY REKEY queues the LD's segments for re-key to KEYIDX. -/
  | ldKeyRekey (req : Requester) (ld : LdNo) (val : BitVec 32)
  /-- DF_MIRROR_PAIR (R299): DF_MIRROR GO with OP PAIR pairs a mirror entry. -/
  | dfMirrorPair (req : Requester) (val : BitVec 32)
  /-- DF_MIRROR_UNPAIR (R423): DF_MIRROR GO with OP UNPAIR unpairs a mirror entry. -/
  | dfMirrorUnpair (req : Requester) (val : BitVec 32)
  /-- DF_MIRROR_RESYNC (R301): DF_MIRROR GO with OP RESYNC resynchronises a mirror entry. -/
  | dfMirrorResync (req : Requester) (val : BitVec 32)
  /-- DF_MIRROR_SWAP (R304): DF_MIRROR GO with OP SWAP exchanges home and mirror. -/
  | dfMirrorSwap (req : Requester) (val : BitVec 32)
  /-- DF_EXPORT_ADD (R294): DF_EXPORT GO with OP ADD adds an export. -/
  | dfExportAdd (req : Requester) (val : BitVec 32)
  /-- DF_EXPORT_DEL (R423): DF_EXPORT GO with OP DEL deletes an export after invalidating proxies. -/
  | dfExportDel (req : Requester) (val : BitVec 32)
  /-- DF_IMPORT_ADD (R295): DF_IMPORT GO with OP ADD adds an import. -/
  | dfImportAdd (req : Requester) (val : BitVec 32)
  /-- DF_IMPORT_DEL (R295): DF_IMPORT GO with OP DEL removes an import and drops its visitor lines. -/
  | dfImportDel (req : Requester) (val : BitVec 32)
  /-- CASK_CFG_CREATE (R329): CASK_CFG GO with OP CREATE creates a cask domain. -/
  | caskCfgCreate (req : Requester) (val : BitVec 32)
  /-- CASK_CFG_DELETE (R423): CASK_CFG GO with OP DELETE deletes a domain and frees its records. -/
  | caskCfgDelete (req : Requester) (val : BitVec 32)
  /-- CASK_CFG_MARK (R330): CASK_CFG GO with OP MARK places an extra boundary. -/
  | caskCfgMark (req : Requester) (val : BitVec 32)
  /-- CASK_CFG_RECOVER_LATEST (R342): CASK_CFG GO with OP RECOVER latest recovers to the latest image. -/
  | caskCfgRecoverLatest (req : Requester) (val : BitVec 32)
  /-- CASK_CFG_RECOVER_COMMITTED (R342): CASK_CFG GO with OP RECOVER committed recovers to the last committed image.
  -/
  | caskCfgRecoverCommitted (req : Requester) (val : BitVec 32)
  /-- HU_TEST_GO (R355): HU_TEST GO starts a capacitance test. -/
  | huTestGo (req : Requester) (val : BitVec 32)
  /-- KQ_CREATE (R413): Setting KQ_CTRL ENABLE to 1 checks and creates a queue pair. -/
  | kqCreate (req : Requester) (q : QNo) (val : BitVec 32)
  /-- KQ_DELETE (R413): Setting KQ_CTRL ENABLE to 0 deletes a queue pair, waiting or forced. -/
  | kqDelete (req : Requester) (q : QNo) (val : BitVec 32)
  /-- MEMTEST_RAW_WRITE (R471): MEMTEST_CMD raw write stores data and check bits without the encoder. -/
  | memtestRawWrite (req : Requester) (val : BitVec 32)
  /-- MEMTEST_RAW_READ (R471): MEMTEST_CMD raw read returns stored data and check bits uncorrected. -/
  | memtestRawRead (req : Requester) (val : BitVec 32)
  /-- MEMTEST_CHECKED_READ (R471): MEMTEST_CMD checked read returns corrected data and the syndrome. -/
  | memtestCheckedRead (req : Requester) (val : BitVec 32)
  /-- WEALI_BOARD_WRITE (R476): WEALI_BOARD_CMD GO with OP write writes board-area bytes up to the page end. -/
  | wealiBoardWrite (req : Requester) (val : BitVec 32)
  /-- WEALI_BOARD_READ (R486): WEALI_BOARD_CMD GO with OP read fills the board data words. -/
  | wealiBoardRead (req : Requester) (val : BitVec 32)
  /-- CNT_CLEAR (R491): CNT_CTRL CLEAR sets a block counter to 0 after adding it to the lifetime total. -/
  | cntClear (req : Requester) (b : Fin 18) (val : BitVec 32)
  /-- SAMPLE_ENABLE_WRITE (R497): Setting SAMPLE_CTRL ENABLE from 0 clears LOST and both banks; clearing it closes the
  bank. -/
  | sampleEnableWrite (req : Requester) (val : BitVec 32)
  /-- SAMPLE_CLOSE (R497): SAMPLE_CTRL CLOSE makes the bank being filled readable. -/
  | sampleClose (req : Requester) (val : BitVec 32)
  /-- DROP_REST (R498): SAMPLE_CTRL DROP_REST moves the reader to the next record. -/
  | dropRest (req : Requester) (val : BitVec 32)
  /-- SAMPLE_DATA_READ (R498): A read of SAMPLE_DATA returns the next word of the current record and advances. -/
  | sampleDataRead (req : Requester)
  /-- SILL_CLEAR (R501): A write to SILL_CLEAR removes sillage records up to the given SEQ. -/
  | sillClear (req : Requester) (val : BitVec 32)
  /-- HDM_DECODER_COMMIT (R233): Host software sets Commit in an LD's HDM decoder control register in BAR0, and the
  decoder is committed or its Commit Error bit set. -/
  | hdmDecoderCommit (ld : LdNo) (d : Fin 4) (c : DecoderCfg)
  /-- BUS_MASTER_ENABLE (R409): Bus Master Enable is set again and the function's PAUSED queues resume, releasing held
  completions. -/
  | busMasterEnable (ld : LdNo)
  /-- LD_KEY_KEYIDX_WRITE (R224): A write to LD_KEY KEYIDX binds the LD to the index as KEY_BIND does, or sets REFUSED
  when the index is not VALID. -/
  | ldKeyKeyidxWrite (req : Requester) (ld : LdNo) (val : BitVec 32)
  /-- DOROSH_SIGNAL_SEEN (R282): With LINK_EN set, a signal appears on a Dorosh link that is DOWN and the link enters
  TRAIN. -/
  | doroshSignalSeen (k : LinkNo)
  /-- VIN_GOOD_LOSS (R363): VIN_SENSE falls below VIN_GOOD but stays at or above VIN_WARN, so the 50 ms hold or power-
  up filter stops and DRY_STAT shows PHASE 4. -/
  | vinGoodLoss
  /-- RAILS_OFF_STEP (R360): During rails-off, or the lowering after a failed power-up step, a lowered step's PGs fall
  or 0.5 ms pass, and the next lower step is lowered. -/
  | railsOffStep
  /-- SEQ_POLL_REPLY (R353): A slave's POLL reply window reaches the master, which records the step reached, a failure
  or rails off, and moves on, aborts or sends OFF. -/
  | seqPollReply (slave : BitVec 6) (reply : BitVec 24)
  /-- SEQ_OFF_DEADLINE (R353): 500 ms after the master's own rails-off it sends OFF and drives BRD_RST_N low, even
  without every slave reporting rails off. -/
  | seqOffDeadline
  /-- SPDM_SESSION_END (R205): An SPDM session ends by END_SESSION or heartbeat expiry, and its transport KEK is
  dropped from the key store. -/
  | spdmSessionEnd (session : BitVec 32)
  /-- HBM_WAY_WAKE_END (R91): The quarter-regions woken for a way increase finish waking, WAYS_NOW changes and held
  requests proceed. -/
  | hbmWayWakeEnd
  /-- PLANE_SELF_CHECK_FAIL (R513): A tile-switch plane's link self-check fails and the plane is retired, with traffic
  moved to the other plane. -/
  | planeSelfCheckFail (plane : Fin 2)
  /-- VECTOR_SIGNAL_HOLDOFF_END (R404): The one-microsecond hold-off of a queue's MSI-X vector ends and a signal
  deferred by it is sent. -/
  | vectorSignalHoldoffEnd (ld : LdNo) (vec : Fin 64)
  /-- REFCLK_RETURN (R530): An absent port or Dorosh REFCLK becomes present and the heads or links it feeds leave
  electrical idle. -/
  | refclkReturn (w : RefClk)
deriving DecidableEq, Repr

end Sys2Proof
end

