-- ==== Sys2Proof/Config.lean ====
section
/-!
DEFINITION. What an implementation fixes and what the spec leaves open: constants and functions without a body, so that
no proof can rest on a value of theirs. Free values are numbered by the counter `State.free` (log 5); the
signatures and formats of other standards are functions of their inputs (log 6).
-/

namespace Sys2Proof

/-- The n-th free value, a number: ties and choices the spec leaves open (R45, R156, R161, R325, R425). -/
opaque Config.freeNat : Nat → Nat
/-- The n-th free tile: contents the spec leaves open. -/
opaque Config.freeTile : Nat → Tile
/-- The n-th free word of 64 bits. -/
opaque Config.freeWord : Nat → BitVec 64

/-- DRS, the device root secret in fuses (R205). -/
opaque Config.drs : BitVec 256
/-- UID, the device identifier (R205). -/
opaque Config.uid : BitVec 64
/-- The columns of the on-die code: data bits 0 to 63, then address bits 64 to 77 (R464). -/
opaque Config.eccColumn : Nat → BitVec 8

/-- The 32-bit check of a tag record, over its bits [991:0] and its address (R69). -/
opaque Config.tagCheck : Nat → Nat → BitVec 32

/-- The known patterns of calibration tiles and of pattern tests, by LTN or place (R199, R425). -/
opaque Config.patternTile : Nat → Tile

/-- Does a proof verify: chain to the Tuihild identity root and signature over the transcript; 0 yes, 1 certificate,
2 signature (R222). -/
opaque Config.proofCheck : List Byte → BitVec 384 → Nat
/-- This node's proof data for a transcript (R222). -/
opaque Config.ownProof : BitVec 384 → List Byte
/-- This node's n-th ephemeral public key (R222). -/
opaque Config.ownPoint : Nat → BitVec 776
/-- Does a patch image's signature verify under the ROM's key (R428)? -/
opaque Config.patchSigned : List Byte → Bool
/-- The ROM identity of this part (R428). -/
opaque Config.romHash : BitVec 384
/-- The grade code that IDENTIFY_K reports (R4, R419). -/
opaque Config.grade : Nat
/-- The firmware's patch level x of K3.2.x in ROM (R4). -/
opaque Config.romLevel : Nat
/-- The device's serial data (R4). -/
opaque Config.serial : Nat
/-- The payload of a response whose format another standard fixes, by the standard's opcode and an index. -/
opaque Config.stdPayload : Nat → Nat → List Byte

end Sys2Proof
end

