-- ==== Sys2Proof/Machine/Crypto.lean ====
section
/-!
DEFINITION. The standard functions the cipher units and the controller compute: AES-256 (FIPS 197), GCM (SP 800-38D), CMAC and the
counter-mode derivation (SP 800-38B, SP 800-108), AES key wrap (SP 800-38F) and SHA-384 (FIPS 180-4), for spec/08 R199 to R208 and
R222. Blocks are lists of bytes, byte 0 first; numbers made of bytes have byte 0 highest, as the standards have it.
-/

namespace Sys2Proof.Machine

/-! ### Bytes -/

/-- A number as `n` bytes, the highest first. -/
def bytesBe (v n : Nat) : List Nat := (List.range n).map (fun i => (v >>> (8 * (n - 1 - i))) % 256)

/-- Bytes as a number, the first highest. -/
def natBe (l : List Nat) : Nat := l.foldl (fun a b => 256 * a + b) 0

/-- Two blocks added bit by bit. -/
def xorBytes (a b : List Nat) : List Nat := List.zipWith (· ^^^ ·) a b

/-! ### AES-256 -/

/-- The S-box, entry x at bits [8x+7:8x]. -/
def aesTable : Nat :=
  0xC072A49CAFA2D4ADF04759FA7DC982CA76ABD7FE2B670130C56F6BF27B777C63 +
  0x75B227EBE28012079A059618C323C7041531D871F1E5A534CCF73F362693FDB7 * 2 ^ 256 +
  0xCF584C4A39BECB6A5BB1FC20ED00D153842FE329B3D63B52A05A6E1B1A2C8309 * 2 ^ 512 +
  0xD2F3FF1021DAB6BCF5389D928F40A351A89F3C507F02F94585334D43FBAAEFD0 * 2 ^ 768 +
  0xDB0B5EDE14B8EE4688902A22DC4F816073195D643D7EA7C41744975FEC130CCD * 2 ^ 1024 +
  0x08AE7A65EAF4566CA94ED58D6D37C8E779E4959162ACD3C25C2406490A3A32E0 * 2 ^ 1280 +
  0x9E1DC186B95735610EF6034866B53E708A8BBD4B1F74DDE8C6B4A61C2E2578BA * 2 ^ 1536 +
  0x16BB54B00F2D99416842E6BF0D89A18CDF2855CEE9871E9B948ED9691198F8E1 * 2 ^ 1792

/-- The inverse S-box. -/
def aesBackTable : Nat :=
  0xCBE9DEC444438E3487FF2F9B8239E37CFBD7F3819EA340BF38A53630D56A0952 +
  0x25D18B6D49A25B76B224D92866A12E084EC3FA420B954CEE3D23C2A632947B54 * 2 ^ 256 +
  0x849D8DA75746155EDAB9EDFD5048706C92B6655DCC5CA4D41698688664F6F872 * 2 ^ 512 +
  0x6B8A130103BDAFC1020F3FCA8F1E2CD00645B3B80558E4F70AD3BC8C00ABD890 * 2 ^ 768 +
  0x6EDF751CE837F9E28535ADE72274AC9673E6B4F0CECFF297EADC674F4111913A * 2 ^ 1024 +
  0xF45ACD78FEC0DB9A2079D2C64B3E56FC1BBE18AA0E62B76F89C5291D711AF147 * 2 ^ 1280 +
  0xEF9CC9939F7AE52D0D4AB519A97F51605FEC8027591012B131C7078833A8DD1F * 2 ^ 1536 +
  0x7D0C2155631469E126D677BA7E042B17619953833CBBEBC8B0F52AAE4D3BE0A0 * 2 ^ 1792

/-- SubBytes of a byte, and its inverse. -/
def aesSub (x : Nat) : Nat := (aesTable >>> (8 * (x % 256))) % 256
def aesBack (x : Nat) : Nat := (aesBackTable >>> (8 * (x % 256))) % 256

/-- A byte times x. -/
def xTime (a : Nat) : Nat := if a < 128 then 2 * a else (2 * a) ^^^ 0x11B

/-- A byte times a constant below 16. -/
def gMul (a k : Nat) : Nat :=
  (if k % 2 = 1 then a else 0) ^^^ (if k / 2 % 2 = 1 then xTime a else 0) ^^^ (if k / 4 % 2 = 1 then xTime (xTime a) else 0)
    ^^^ (if k / 8 % 2 = 1 then xTime (xTime (xTime a)) else 0)

/-- A column times the circulant matrix whose first row is given. -/
def mixColumn (m : List Nat) (c : List Nat) : List Nat :=
  (List.range 4).map (fun r => (List.range 4).foldl (fun a j => a ^^^ gMul (c.getD j 0) (m.getD ((j + 4 - r) % 4) 0)) 0)

/-- MixColumns of a state of four columns. -/
def mixColumns (m : List Nat) (s : List Nat) : List Nat :=
  (List.range 4).flatMap (fun c => mixColumn m ((s.drop (4 * c)).take 4))

/-- ShiftRows by `k` places a row: 1, or 3 for the inverse. -/
def shiftRows (k : Nat) (s : List Nat) : List Nat :=
  (List.range 16).map (fun i => s.getD ((i % 4) + 4 * ((i / 4 + k * (i % 4)) % 4)) 0)

/-- The words of the key schedule after the first, newest first, from word `60 - n` on. -/
def aesWords : Nat → List (List Nat) → List (List Nat)
  | 0, ws => ws
  | n + 1, ws =>
    let i := 59 - n
    let t := ws.headD []
    let t := if i % 8 = 0 then
        xorBytes ((t.drop 1 ++ t.take 1).map aesSub) [2 ^ (i / 8 - 1), 0, 0, 0]
      else if i % 8 = 4 then t.map aesSub else t
    aesWords n (xorBytes t (ws.getD 7 []) :: ws)

/-- The fifteen round keys of a key. -/
def aesKeys (key : BitVec 256) : List (List Nat) :=
  let k := bytesBe key.toNat 32
  let ws := (aesWords 52 ((List.range 8).map (fun i => (k.drop (4 * i)).take 4)).reverse).reverse
  (List.range 15).map (fun i => ((ws.drop (4 * i)).take 4).flatten)

/-- One block encrypted. -/
def aesBlock (keys : List (List Nat)) (b : List Nat) : List Nat :=
  let s := ((keys.drop 1).take 13).foldl (fun s k => xorBytes (mixColumns [2, 3, 1, 1] (shiftRows 1 (s.map aesSub))) k)
    (xorBytes b (keys.headD []))
  xorBytes (shiftRows 1 (s.map aesSub)) (keys.getD 14 [])

/-- One block decrypted. -/
def aesUnblock (keys : List (List Nat)) (b : List Nat) : List Nat :=
  let s := ((keys.drop 1).take 13).reverse.foldl (fun s k => mixColumns [14, 11, 13, 9] (xorBytes ((shiftRows 3 s).map aesBack) k))
    (xorBytes b (keys.getD 14 []))
  xorBytes ((shiftRows 3 s).map aesBack) (keys.headD [])

/-! ### GCM (R199 to R202) -/

/-- The product of the field of GCM, bit 0 of the standard at bit 127: `n` bits of `x` remain. -/
def ghashMul (x : Nat) : Nat → Nat → Nat → Nat
  | 0, z, _ => z
  | n + 1, z, v =>
    ghashMul x n (if x.testBit n then z ^^^ v else z) (if v % 2 = 1 then (v / 2) ^^^ (0xE1 * 2 ^ 120) else v / 2)

/-- GHASH of blocks, as numbers. -/
def ghash (h : Nat) (bs : List Nat) : Nat := bs.foldl (fun y b => ghashMul (y ^^^ b) 128 0 h) 0

/-- The counter block J0 + i of a 96-bit IV: IV ‖ 1 + i (R200). -/
def gcmCounter (iv : BitVec 96) (i : Nat) : List Nat := bytesBe (iv.toNat * 2 ^ 32 + 1 + i) 16

/-- The bytes of a tile, byte 0 at bits [7:0], as 16 blocks of numbers with byte 0 highest. -/
def tileBlocks (c : Tile) : List Nat :=
  (List.range 16).map (fun i => (List.range 16).foldl (fun a j => 256 * a + (c.toNat >>> (8 * (16 * i + j))) % 256) 0)

/-- The AES-256-GCM keystream of a key under an IV for the 256 bytes of a tile, byte 0 first (R199, R200). -/
@[irreducible] def gcmStream (key : BitVec 256) (iv : BitVec 96) : Tile :=
  let ks := aesKeys key
  BitVec.ofNat 2048 (((List.range 16).flatMap (fun i => aesBlock ks (gcmCounter iv (i + 1)))).foldr (fun b a => 256 * a + b) 0)

/-- The first 8 bytes of the AES-256-GCM tag of 16 bytes of additional data, bit [127:120] first, and a ciphertext tile; byte 0 at
bits [63:56] (R201, R202). -/
@[irreducible] def gcmTag (key : BitVec 256) (iv : BitVec 96) (aad : BitVec 128) (c : Tile) : BitVec 64 :=
  let ks := aesKeys key
  let h := natBe (aesBlock ks (List.replicate 16 0))
  let g := ghash h (aad.toNat :: tileBlocks c ++ [128 * 2 ^ 64 + 2048])
  BitVec.ofNat 64 ((g ^^^ natBe (aesBlock ks (gcmCounter iv 0))) / 2 ^ 64)

/-! ### CMAC and key derivation (R206) -/

/-- A block doubled in the field of CMAC. -/
def cmacDouble (x : Nat) : Nat := if x < 2 ^ 127 then 2 * x else (2 * x % 2 ^ 128) ^^^ 0x87

/-- CMAC subkey K1 of a key (R207 SUBKEY). -/
def cmacK1 (key : BitVec 256) : Nat := cmacDouble (natBe (aesBlock (aesKeys key) (List.replicate 16 0)))

/-- CMAC-AES-256 of 22 bytes: a whole block, then one of 6 bytes padded and masked with K2. -/
def cmac22 (key : BitVec 256) (m : List Nat) : Nat :=
  let ks := aesKeys key
  let last := natBe (m.drop 16 ++ [0x80] ++ List.replicate 9 0) ^^^ cmacDouble (cmacK1 key)
  natBe (aesBlock ks (xorBytes (aesBlock ks (m.take 16)) (bytesBe last 16)))

/-- The derivation of R206: key, label, 32-bit word and 16-bit word; K(1) ‖ K(2), K(i) the CMAC of
[i] ‖ Label ‖ 0x00 ‖ UID ‖ words ‖ 0x0100. -/
@[irreducible] def kdf (key : BitVec 256) (label w v : Nat) : BitVec 256 :=
  let k := fun (i : Nat) => cmac22 key ([i] ++ bytesBe label 4 ++ [0] ++ bytesBe Config.uid.toNat 8 ++ bytesBe w 4 ++ bytesBe v 2 ++ [1, 0])
  BitVec.ofNat 256 (k 1 * 2 ^ 128 + k 2)

/-! ### AES key wrap (R205, R208) -/

/-- The check value of a wrap. -/
def wrapIv : Nat := 0xA6A6A6A6A6A6A6A6

/-- The steps of an unwrap, the last first: t from `n` down, A and the four words. -/
def unwrapSteps (ks : List (List Nat)) : Nat → Nat → List Nat → Nat × List Nat
  | 0, a, r => (a, r)
  | n + 1, a, r =>
    let t := n + 1
    let i := n % 4
    let b := natBe (aesUnblock ks (bytesBe ((a ^^^ t) * 2 ^ 64 + r.getD i 0) 16))
    unwrapSteps ks n (b / 2 ^ 64) (r.set i (b % 2 ^ 64))

/-- A root unwrapped from its 40 bytes, the first highest, under a KEK; none when the check fails (R208). -/
@[irreducible] def keyUnwrap (kek : BitVec 256) (w : BitVec 320) : Option (BitVec 256) :=
  let word := fun (i : Nat) => (w.toNat >>> (64 * (4 - i))) % 2 ^ 64
  let (a, r) := unwrapSteps (aesKeys kek) 24 (word 0) ((List.range 4).map (fun i => word (i + 1)))
  if a = wrapIv then some (BitVec.ofNat 256 (r.foldl (fun a b => a * 2 ^ 64 + b) 0)) else none

/-- The steps of a wrap from t = `24 - n + 1` on. -/
def wrapSteps (ks : List (List Nat)) : Nat → Nat → List Nat → Nat × List Nat
  | 0, a, r => (a, r)
  | n + 1, a, r =>
    let t := 24 - n
    let i := (t - 1) % 4
    let b := natBe (aesBlock ks (bytesBe (a * 2 ^ 64 + r.getD i 0) 16))
    wrapSteps ks n ((b / 2 ^ 64) ^^^ t) (r.set i (b % 2 ^ 64))

/-- A root wrapped under a KEK: 40 bytes, the first highest (R205). -/
@[irreducible] def keyWrap (kek root : BitVec 256) : BitVec 320 :=
  let word := fun (i : Nat) => (root.toNat >>> (64 * (3 - i))) % 2 ^ 64
  let (a, r) := wrapSteps (aesKeys kek) 24 wrapIv ((List.range 4).map word)
  BitVec.ofNat 320 (r.foldl (fun a b => a * 2 ^ 64 + b) a)

/-! ### SHA-384 (R222, R428) -/

/-- The round constants. -/
def shaK : List Nat :=
  [0x428A2F98D728AE22, 0x7137449123EF65CD, 0xB5C0FBCFEC4D3B2F, 0xE9B5DBA58189DBBC, 0x3956C25BF348B538,
   0x59F111F1B605D019, 0x923F82A4AF194F9B, 0xAB1C5ED5DA6D8118, 0xD807AA98A3030242, 0x12835B0145706FBE,
   0x243185BE4EE4B28C, 0x550C7DC3D5FFB4E2, 0x72BE5D74F27B896F, 0x80DEB1FE3B1696B1, 0x9BDC06A725C71235,
   0xC19BF174CF692694, 0xE49B69C19EF14AD2, 0xEFBE4786384F25E3, 0x0FC19DC68B8CD5B5, 0x240CA1CC77AC9C65] ++
  [0x2DE92C6F592B0275, 0x4A7484AA6EA6E483, 0x5CB0A9DCBD41FBD4, 0x76F988DA831153B5, 0x983E5152EE66DFAB,
   0xA831C66D2DB43210, 0xB00327C898FB213F, 0xBF597FC7BEEF0EE4, 0xC6E00BF33DA88FC2, 0xD5A79147930AA725,
   0x06CA6351E003826F, 0x142929670A0E6E70, 0x27B70A8546D22FFC, 0x2E1B21385C26C926, 0x4D2C6DFC5AC42AED,
   0x53380D139D95B3DF, 0x650A73548BAF63DE, 0x766A0ABB3C77B2A8, 0x81C2C92E47EDAEE6, 0x92722C851482353B] ++
  [0xA2BFE8A14CF10364, 0xA81A664BBC423001, 0xC24B8B70D0F89791, 0xC76C51A30654BE30, 0xD192E819D6EF5218,
   0xD69906245565A910, 0xF40E35855771202A, 0x106AA07032BBD1B8, 0x19A4C116B8D2D0C8, 0x1E376C085141AB53,
   0x2748774CDF8EEB99, 0x34B0BCB5E19B48A8, 0x391C0CB3C5C95A63, 0x4ED8AA4AE3418ACB, 0x5B9CCA4F7763E373,
   0x682E6FF3D6B2B8A3, 0x748F82EE5DEFB2FC, 0x78A5636F43172F60, 0x84C87814A1F0AB72, 0x8CC702081A6439EC] ++
  [0x90BEFFFA23631E28, 0xA4506CEBDE82BDE9, 0xBEF9A3F7B2C67915, 0xC67178F2E372532B, 0xCA273ECEEA26619C,
   0xD186B8C721C0C207, 0xEADA7DD6CDE0EB1E, 0xF57D4F7FEE6ED178, 0x06F067AA72176FBA, 0x0A637DC5A2C898A6,
   0x113F9804BEF90DAE, 0x1B710B35131C471B, 0x28DB77F523047D84, 0x32CAAB7B40C72493, 0x3C9EBE0A15C9BEBC,
   0x431D67C49C100D4C, 0x4CC5D4BECB3E42B6, 0x597F299CFC657E2A, 0x5FCB6FAB3AD6FAEC, 0x6C44198C4A475817]

/-- The initial hash value. -/
def shaInit : List Nat :=
  [0xCBBB9D5DC1059ED8, 0x629A292A367CD507, 0x9159015A3070DD17, 0x152FECD8F70E5939,
   0x67332667FFC00B31, 0x8EB44A8768581511, 0xDB0C2E0D64F98FA7, 0x47B5481DBEFA4FA4]

/-- A 64-bit word rotated right. -/
def rotr (x k : Nat) : Nat := (x >>> k) ||| (x <<< (64 - k)) % 2 ^ 64

/-- The message schedule, newest word first, `n` words still to add. -/
def shaWords : Nat → List Nat → List Nat
  | 0, w => w
  | n + 1, w =>
    let x := w.getD 1 0
    let y := w.getD 14 0
    let s1 := rotr x 19 ^^^ rotr x 61 ^^^ (x >>> 6)
    let s0 := rotr y 1 ^^^ rotr y 8 ^^^ (y >>> 7)
    shaWords n ((s1 + w.getD 6 0 + s0 + w.getD 15 0) % 2 ^ 64 :: w)

/-- One round on the eight working words. -/
def shaRound (v : List Nat) (kw : Nat × Nat) : List Nat :=
  match v with
  | [a, b, c, d, e, f, g, h] =>
    let t1 := h + (rotr e 14 ^^^ rotr e 18 ^^^ rotr e 41) + ((e &&& f) ^^^ ((2 ^ 64 - 1 - e) &&& g)) + kw.1 + kw.2
    let t2 := (rotr a 28 ^^^ rotr a 34 ^^^ rotr a 39) + ((a &&& b) ^^^ (a &&& c) ^^^ (b &&& c))
    [(t1 + t2) % 2 ^ 64, a, b, c, (d + t1) % 2 ^ 64, e, f, g]
  | v => v

/-- One 128-byte block taken into the hash. -/
def shaBlock (h : List Nat) (b : List Nat) : List Nat :=
  let w := (shaWords 64 ((List.range 16).map (fun i => natBe ((b.drop (8 * i)).take 8))).reverse).reverse
  List.zipWith (fun x y => (x + y) % 2 ^ 64) h ((shaK.zip w).foldl shaRound h)

/-- The blocks of a padded message, `n` of them. -/
def shaBlocks : Nat → List Nat → List Nat → List Nat
  | 0, h, _ => h
  | n + 1, h, m => shaBlocks n (shaBlock h (m.take 128)) (m.drop 128)

/-- Words as a number, the first highest. -/
def wordsBe (l : List Nat) : Nat := l.foldl (fun a b => a * 2 ^ 64 + b) 0

/-- SHA-384 of a byte list (R222, R428). -/
@[irreducible] def sha384 (bytes : List Byte) : BitVec 384 :=
  let n := bytes.length
  let pad := (239 - n % 128) % 128
  let m := bytes.map (·.toNat) ++ [0x80] ++ List.replicate pad 0 ++ bytesBe (8 * n) 16
  BitVec.ofNat 384 (wordsBe ((shaBlocks (m.length / 128) shaInit m).take 6))

end Sys2Proof.Machine
end

