-- ==== Sys2Proof/Machine/Codec.lean ====
section
/-!
DEFINITION. The codec of a tile on the medium and on the data path (spec/02): the inner BCH code (R37, R38), the outer
RS(10,8) code (R39, R40), the field block (R41), the generation marks (R45, R46), CRC-32C (R47), and the CRC-16 and
CRC-8 of the media channel (R57, R61). Everything is computed on Nat, by structural recursion.
-/

namespace Sys2Proof.Machine

/-! ### Inner code (R37, R38) -/

/-- The degree of the BCH generator (R37). -/
def bchDeg : Nat := 30

/-- Multiplication by x in GF(2^10) with x^10 + x^3 + 1 (R37). -/
def gf1024Dbl (a : Nat) : Nat :=
  if bitAt a 9 then (a <<< 1) ^^^ 0x409 else a <<< 1

/-- Product in GF(2^10); `n` bits of `b` are still to be taken, highest first. -/
def gf1024MulGo (a b : Nat) : Nat → Nat → Nat
  | 0, acc => acc
  | n + 1, acc => gf1024MulGo a b n ((gf1024Dbl acc) ^^^ (if bitAt b n then a else 0))

/-- Product in GF(2^10) (R37). -/
def gf1024Mul (a b : Nat) : Nat := gf1024MulGo a b 10 0

/-- α^n in GF(2^10), α = x (R37). -/
def gf1024Pow : Nat → Nat
  | 0 => 1
  | n + 1 => gf1024Dbl (gf1024Pow n)

/-- A polynomial over GF(2^10) times (x + r), lowest coefficient first. -/
def polyMulRoot (p : List Nat) (r : Nat) : List Nat :=
  List.zipWith (fun a b => a ^^^ b) (0 :: p) ((p.map (fun c => gf1024Mul c r)) ++ [0])

/-- The minimal polynomial of α^e over GF(2): the product of (x + α^(e·2^i)) for i from 0 to 9, as a bit vector (R37). -/
def minPoly (e : Nat) : Nat :=
  let roots := (List.range 10).map (fun i => gf1024Pow (e * 2 ^ i % 1023))
  let p := roots.foldl polyMulRoot [1]
  (p.zipIdx).foldl (fun acc (c, i) => acc + (c % 2) * 2 ^ i) 0

/-- Carry-less product; `n` bits of `b` are still to be taken. -/
def clMulGo (a b : Nat) : Nat → Nat → Nat
  | 0, acc => acc
  | n + 1, acc => clMulGo a b n (acc ^^^ (if bitAt b n then a <<< n else 0))

/-- g(x), the product of the minimal polynomials of α, α^3 and α^5 (R37). The number is the polynomial's bits. -/
def bchGen : Nat := clMulGo (clMulGo (minPoly 1) (minPoly 3) 11 0) (minPoly 5) 11 0

/-- The remainder modulo the polynomial `g` of degree `d`: bits n−1 down to d are cleared in turn. -/
def polyModGo (g d : Nat) : Nat → Nat → Nat
  | 0, r => r
  | n + 1, r => polyModGo g d n (if d ≤ n && bitAt r n then r ^^^ (g <<< (n - d)) else r)

/-- m(x)·x^30 mod g(x) for a 272-bit message (R37). -/
def bchRem (g m : Nat) : Nat := polyModGo g bchDeg 302 (m <<< bchDeg)

/-- Parity of the bits of `x` at positions i < n with i mod 2 = p. -/
def parityGo (x p : Nat) : Nat → Bool
  | 0 => false
  | n + 1 => xor (parityGo x p n) (n % 2 == p && bitAt x n)

/-- Bits [271:0] and [317:288] of a chunk kept at their places, all other bits 0 (R35, BP0 and BP1). -/
def protectedBits (c : Nat) : Nat := bitsOf c 0 272 + bitsOf c 288 30 * 2 ^ 288

/-- BP0 (p = 0) and BP1 (p = 1) of a chunk (R35). -/
def chunkParity (c p : Nat) : Bool := parityGo (protectedBits c) p 318

/-- The 302 protected bits of a chunk as a polynomial: message times x^30 plus the remainder field (R37). -/
def bchWord (c : Nat) : Nat := bitsOf c 0 272 * 2 ^ 30 + bitsOf c 288 30

/-- The remainders of x^0 to x^(n-1), highest first. -/
def bchCols (g : Nat) : Nat → List Nat
  | 0 => []
  | n + 1 => polyModGo g bchDeg 302 (1 <<< n) :: bchCols g n

/-- The place of `s` in a list of columns paired with their places. -/
def findCol (cols : List (Nat × Nat)) (s : Nat) : Option Nat :=
  (cols.find? (fun c => c.1 == s)).map (fun c => c.2)

/-- An error pattern of exactly two places whose columns sum to `s`. -/
def findTwo : List (Nat × Nat) → Nat → Option (List Nat)
  | [], _ => none
  | (c, i) :: r, s =>
    match findCol r (s ^^^ c) with
    | some j => some [i, j]
    | none => findTwo r s

/-- An error pattern of exactly three places whose columns sum to `s`. -/
def findThree : List (Nat × Nat) → Nat → Option (List Nat)
  | [], _ => none
  | (c, i) :: r, s =>
    match findTwo r (s ^^^ c) with
    | some e => some (i :: e)
    | none => findThree r s

/-- The error pattern of at most three places whose syndrome is `s`, if there is one (R38). -/
def bchErrors (g s : Nat) : Option (List Nat) :=
  if s = 0 then some [] else
  let cols := (bchCols g 302).zip ((List.range 302).reverse)
  match findCol cols s with
  | some i => some [i]
  | none =>
    match findTwo cols s with
    | some e => some e
    | none => findThree cols s

/-- The result of decoding one chunk: its 272 protected message bits and the number of bits flipped (R38). A disagreement
of the overall parity BP0 ⊕ BP1 after the flips counts as one more error, and more than three make the chunk
uncorrectable. DEDUCED (log 12). -/
def bchDecode (c : Nat) : Option (BitVec 272 × Nat) :=
  let w := bchWord c
  match bchErrors bchGen (polyModGo bchGen bchDeg 302 w) with
  | none => none
  | some e =>
    let w' := e.foldl (fun a i => a ^^^ (1 <<< i)) w
    let c' := w' / 2 ^ 30 + (w' % 2 ^ 30) * 2 ^ 288
    let par := xor (chunkParity c' 0) (chunkParity c' 1)
    let got := xor (bitAt c 318) (bitAt c 319)
    let flips := e.length + b2n (xor par got)
    if flips ≤ 3 then some (BitVec.ofNat 272 (w' / 2 ^ 30), flips) else none

/-! ### Outer code (R39, R40) -/

/-- Multiplication by α = x in GF(2^8) with 0x11D (R39). -/
def gf256Dbl (a : Nat) : Nat :=
  if bitAt a 7 then (a <<< 1) ^^^ 0x11D else a <<< 1

/-- Product in GF(2^8); `n` bits of `b` are still to be taken. -/
def gf256MulGo (a b : Nat) : Nat → Nat → Nat
  | 0, acc => acc
  | n + 1, acc => gf256MulGo a b n ((gf256Dbl acc) ^^^ (if bitAt b n then a else 0))

/-- Product in GF(2^8) (R39). -/
def gf256Mul (a b : Nat) : Nat := gf256MulGo a b 8 0

/-- α^n in GF(2^8) (R39). -/
def gf256Pow : Nat → Nat
  | 0 => 1
  | n + 1 => gf256Dbl (gf256Pow n)

/-- The least n < k with α^n = a. -/
def gf256LogGo (a : Nat) : Nat → Option Nat
  | 0 => none
  | k + 1 => match gf256LogGo a k with
    | some n => some n
    | none => if gf256Pow k == a then some k else none

/-- a ÷ b in GF(2^8), b ≠ 0: a·α^(255 − log b). -/
def gf256Div (a b : Nat) : Nat :=
  match gf256LogGo b 255 with
  | some n => gf256Mul a (gf256Pow (255 - n))
  | none => 0

/-- The two syndromes of ten symbols at x = 1 and x = α; symbol i stands at x^(9−i) (R39). -/
def rsSyndromes (c : List Nat) : Nat × Nat :=
  (c.foldl (fun a x => a ^^^ x) 0, c.foldl (fun a x => gf256Dbl a ^^^ x) 0)

/-- The locator α^(9−i) of symbol i. -/
def rsLoc (i : Nat) : Nat := gf256Pow (9 - i)

/-- Ten symbols with the erased ones (0 in `c`) solved for; none when one erasure leaves a check that fails, or more
than two are erased (R40). -/
def rsFill (c : List Nat) (er : List Nat) : Option (List Nat) :=
  let (s0, s1) := rsSyndromes c
  match er with
  | [] => if s0 = 0 && s1 = 0 then some c else none
  | [i] => if s1 == gf256Mul s0 (rsLoc i) then some (c.set i s0) else none
  | [i, j] =>
    let y := gf256Div (s1 ^^^ gf256Mul s0 (rsLoc i)) (rsLoc i ^^^ rsLoc j)
    some ((c.set i (s0 ^^^ y)).set j y)
  | _ => none

/-- The place of the single wrong symbol that the syndromes locate. -/
def rsLocate (c : List Nat) : Option Nat :=
  let (s0, s1) := rsSyndromes c
  if s0 = 0 then none else
  match gf256LogGo (gf256Div s1 s0) 255 with
  | some n => if n ≤ 9 then some (9 - n) else none
  | none => none

/-- Byte b of a protected message. -/
def msgByte (m : BitVec 272) (b : Nat) : Nat := bitsOf m.toNat (8 * b) 8

/-- A message from its 34 bytes. -/
def msgOfBytes (l : List Nat) : BitVec 272 :=
  BitVec.ofNat 272 (l.foldr (fun x acc => x + 256 * acc) 0)

/-- The 34 codewords of ten messages, erased ones read as 0. -/
def rsCodewords (ms : List (Option (BitVec 272))) : List (List Nat) :=
  (List.range 34).map (fun b => ms.map (fun m => match m with | some x => msgByte x b | none => 0))

/-- The ten messages of 34 codewords. -/
def rsMessages (cw : List (List Nat)) : List (BitVec 272) :=
  (List.range 10).map (fun k => msgOfBytes (cw.map (fun c => c.getD k 0)))

/-- The outer decode (R40): ten messages, erasures `none`. -/
def rsDecode (ms : List (Option (BitVec 272))) : Option (List (BitVec 272)) :=
  let er := ((List.range 10).zip ms).filterMap (fun (i, m) => if m.isNone then some i else none)
  let cw := rsCodewords ms
  match cw.mapM (fun c => rsFill c er) with
  | some r => some (rsMessages r)
  | none =>
    if er.isEmpty then
      let bad := cw.filter (fun c => rsSyndromes c != (0, 0))
      match bad.mapM rsLocate with
      | some (i :: r) =>
        if r.all (· == i) then (cw.mapM (fun c => rsFill (c.set i 0) [i])).map rsMessages else none
      | _ => none
    else none

/-! ### Generation marks (R45) -/

/-- The level of DREF cell c in generation g: (c mod 4) XOR g (R45). -/
def drefLevel (c g : Nat) : Nat := (c % 4) ^^^ (g % 4)

/-- The level that cell c of a chunk reads. -/
def cellLevel (chunk c : Nat) : Nat := bitsOf chunk (272 + 2 * c) 2

/-- The DREF field of generation g: eight cells of two bits (R35, R45). -/
def drefBits (g : Nat) : Nat := (List.range 8).foldl (fun a c => a + drefLevel c g * 2 ^ (2 * c)) 0

/-- How far a chunk's cells stand from generation g's pattern, in levels. -/
def drefDistance (chunk g : Nat) : Nat :=
  ((List.range 8).map (fun c => (Int.natAbs ((cellLevel chunk c : Int) - drefLevel c g)))).sum

/-- The generations whose patterns are nearest to the levels read (R45); more than one when they tie. -/
def drefNearest (chunk : Nat) : List Nat :=
  let d := (List.range 4).map (drefDistance chunk)
  let m := d.foldl Nat.min 1000
  (List.range 4).filter (fun g => drefDistance chunk g == m)

/-- u: cells read one level above their written level; w: cells read one level below (R106). -/
def drefUW (chunk g : Nat) : Nat × Nat :=
  (((List.range 8).filter (fun c => cellLevel chunk c == drefLevel c g + 1)).length,
   ((List.range 8).filter (fun c => cellLevel chunk c + 1 == drefLevel c g)).length)

/-! ### Tiles and their field block (R33 to R36, R41) -/

/-- The field block of a tile (R41). -/
structure FieldBlock where
  tag : BitVec 64
  wcount : BitVec 24
  keyver : BitVec 16
  poison : BitVec 4
  discard : Bool
  fmt : BitVec 3
  achk : BitVec 16
deriving DecidableEq, Repr

/-- The 128 bits of a field block (R41). -/
def FieldBlock.bits (f : FieldBlock) : BitVec 128 :=
  f.achk ++ f.fmt ++ BitVec.ofBool f.discard ++ f.poison ++ f.keyver ++ f.wcount ++ f.tag

/-- A field block read from its 128 bits (R41). -/
def FieldBlock.ofBits (b : BitVec 128) : FieldBlock where
  tag := b.extractLsb' 0 64
  wcount := b.extractLsb' 64 24
  keyver := b.extractLsb' 88 16
  poison := b.extractLsb' 104 4
  discard := b.getLsbD 108
  fmt := b.extractLsb' 109 3
  achk := b.extractLsb' 112 16

/-- The protected message of data chunk k: 32 bytes of the tile, then share k of the field block (R34, R35). -/
def dataMessage (t : Tile) (f : BitVec 128) (k : Nat) : BitVec 272 :=
  f.extractLsb' (16 * k) 16 ++ t.extractLsb' (256 * k) 256

/-- The ten messages of a tile (R39). -/
def tileMessages (t : Tile) (f : BitVec 128) : List (BitVec 272) :=
  let ms := (List.range 8).map (fun k => some (dataMessage t f k))
  let cw := rsCodewords (ms ++ [none, none])
  rsMessages (cw.map (fun c => (rsFill c [8, 9]).getD c))

/-- A chunk from its message and generation: message, DREF, BCHR, BP0, BP1 (R35, R37, R45). -/
def chunkOf (m : BitVec 272) (g : Nat) : Chunk :=
  let c := m.toNat + drefBits g * 2 ^ 272 + bchRem bchGen m.toNat * 2 ^ 288
  BitVec.ofNat 320 (c + b2n (chunkParity c 0) * 2 ^ 318 + b2n (chunkParity c 1) * 2 ^ 319)

/-- The ten chunks of a tile (R34 to R37, R39, R45). -/
def encodeTile (t : Tile) (f : FieldBlock) : List Chunk :=
  (tileMessages t f.bits).map (fun m => chunkOf m (f.wcount.toNat % 4))

/-- The tile and the field block that ten messages hold. -/
def tileOfMessages (ms : List (BitVec 272)) : Tile × FieldBlock :=
  let d := ms.take 8
  (BitVec.ofNat 2048 (d.foldr (fun m acc => bitsOf m.toNat 0 256 + 2 ^ 256 * acc) 0),
   FieldBlock.ofBits (BitVec.ofNat 128 (d.foldr (fun m acc => bitsOf m.toNat 256 16 + 2 ^ 16 * acc) 0)))

/-! ### Check codes of the data path and the channel (R47, R57, R61) -/

/-- `n` steps of the reflected CRC-32C register. -/
def crc32cSteps : Nat → Nat → Nat
  | 0, r => r
  | n + 1, r => crc32cSteps n (if r % 2 = 1 then (r / 2) ^^^ 0x82F63B78 else r / 2)

/-- CRC-32C over bytes (R47). -/
def crc32c (bytes : List Nat) : Nat :=
  (bytes.foldl (fun r b => crc32cSteps 8 (r ^^^ b)) 0xFFFFFFFF) ^^^ 0xFFFFFFFF

/-- Bytes of a number, lowest first. -/
def bytesOf (x : Nat) : Nat → List Nat
  | 0 => []
  | n + 1 => x % 256 :: bytesOf (x / 256) n

/-- The data-path CRC of a tile: its 256 bytes, then the LTN as five little-endian bytes (R47). -/
def tileCrc (t : Tile) (ltn : BitVec 37) : BitVec 32 :=
  BitVec.ofNat 32 (crc32c (bytesOf t.toNat 256 ++ bytesOf ltn.toNat 5))

/-- `n` steps of a CRC register of width `w` shifted towards its top. -/
def crcMsbSteps (poly w : Nat) : Nat → Nat → Nat
  | 0, r => r
  | n + 1, r => crcMsbSteps poly w n
      (if bitAt r (w - 1) then ((r <<< 1) % 2 ^ w) ^^^ poly else (r <<< 1) % 2 ^ w)

/-- A CRC of width w, top bit first, over bytes. -/
def crcMsb (poly w init : Nat) (bytes : List Nat) : Nat :=
  bytes.foldl (fun r b => crcMsbSteps poly w 8 (r ^^^ (b <<< (w - 8)))) init

/-- DCRC: CRC-16, polynomial 0x1021, initial 0xFFFF, over the 40 data bytes (R57). -/
def dcrc (c : Chunk) : BitVec 16 := BitVec.ofNat 16 (crcMsb 0x1021 16 0xFFFF (bytesOf c.toNat 40))

/-- CRC-16, polynomial 0x1021, initial 0xFFFF, over the first 12 bytes of a persistent-register record and its ring number (R481). -/
def ringCrc (low ring : Nat) : Nat := crcMsb 0x1021 16 0xFFFF (bytesOf low 12 ++ [ring])

/-- A persistent-register record: VALUE, SEQ, CRC, COMMIT (R481). -/
def ringRecord (ring value seq : Nat) : Nat :=
  let low := value % 2 ^ 64 + seq % 2 ^ 32 * 2 ^ 64
  low + ringCrc low ring * 2 ^ 96 + 0xA55A * 2 ^ 112

/-- Is a record of a ring whole: its COMMIT and its CRC (R482)? -/
def ringValid (ring rec_ : Nat) : Bool := bitsOf rec_ 112 16 == 0xA55A && bitsOf rec_ 96 16 == ringCrc (bitsOf rec_ 0 96) ring

/-- CRC-8, polynomial 0x07, initial 0x00 (R61). -/
def crc8 (bytes : List Nat) : Nat := crcMsb 0x07 8 0 bytes

/-- Does a response of `n` bytes end in the CRC-8 of its other bytes (R61)? -/
def responseOk (x n : Nat) : Bool := crc8 (bytesOf x (n - 1)) == bitsOf x (8 * (n - 1)) 8

/-! ### Placement (R51 to R53) -/

/-- Slots per die set (R51). -/
def slotsPerSet : Nat := 419430
/-- Data slots per die set (R51). -/
def dataSlots : Nat := 393216

/-- Die set of a physical segment (R51). -/
def psnSet (psn : Nat) : Nat := psn / slotsPerSet
/-- Slot of a physical segment within its set (R51). -/
def psnSlot (psn : Nat) : Nat := psn % slotsPerSet
/-- Partition, and so lane, of tile t (R52). -/
def tilePart (t : Nat) : Nat := t % 16
/-- Chunk index of tile t in slot s (R52). -/
def chunkIndex (s t : Nat) : Nat := s * 256 + t / 16
/-- Member that stores chunk k of tile t in slot s (R53). -/
def chunkMember (s t k : Nat) : Nat := (k + (s + t) % 10) % 10
/-- Segment of a logical tile (R33). -/
def ltnSeg (ltn : Nat) : Nat := ltn / 4096
/-- Tile within its segment (R33). -/
def ltnTile (ltn : Nat) : Nat := ltn % 4096

end Sys2Proof.Machine
end

