-- ==== Sys2Proof/Machine/RegTable.lean ====
section
/-!
DEFINITION. The registers of BAR2's control window (spec/18, R435 to R452, and the expert level of every chapter), as
the chapters' field tables give them: for each 32-bit word its place, how often it repeats, whether its fields are
buffered (R449), and for each field its bits, access type (spec/00, R9) and reset value.
A reset "Stored", "Checkpoint" or "Strap" is 0 here: no record is held before the first format (log 4).
-/

namespace Sys2Proof.Machine

/-- The access types of spec/00, R9. -/
inductive Access where
  | ro | rw | rw1c | rw1s | wo | rwp | rwl | rsv
deriving DecidableEq, Repr

/-- One field's part of a register word: lowest bit, width, access type, reset value. -/
structure FieldDef where
  lsb : Nat
  width : Nat
  acc : Access
  reset : Nat
deriving DecidableEq, Repr

/-- A register word of the window: it stands at base + s1 × i + s2 × j for i < c1 and j < c2. -/
structure RegDef where
  base : Nat
  s1 : Nat
  c1 : Nat
  s2 : Nat
  c2 : Nat
  buffered : Bool
  fields : List FieldDef
deriving DecidableEq, Repr

/-- A named field of the window: word offset of the register, lowest bit counted from that word, width. A field that
lies in a later word of its register has its lowest bit at 32 or above. -/
structure Field where
  off : Nat
  lsb : Nat
  width : Nat
deriving DecidableEq, Repr

/-! ### The words, block by block (R437) -/

/-- Words of block 0 of the control window (R437), part 0. -/
def regBlock0Part0 : List RegDef := [
  -- REG_ID
  ⟨0x0, 4, 1, 4, 1, false, [⟨0, 8, .ro, 1⟩, ⟨8, 8, .ro, 176⟩, ⟨16, 16, .rsv, 0⟩]⟩,
  -- REG_STATUS
  ⟨0x4, 4, 1, 4, 1, false, [⟨0, 1, .rw1c, 0⟩, ⟨1, 1, .rw1c, 0⟩, ⟨2, 1, .rw1c, 0⟩, ⟨3, 1, .rw1c, 0⟩, ⟨4, 1, .ro, 0⟩, ⟨5, 1, .ro, 0⟩, ⟨6, 26, .rsv, 0⟩]⟩,
  -- REG_LOCK
  ⟨0x8, 4, 1, 4, 1, false, [⟨0, 1, .ro, 0⟩, ⟨1, 1, .rw1s, 0⟩, ⟨2, 30, .rsv, 0⟩]⟩,
  -- UNLOCK
  ⟨0x10, 4, 1, 4, 1, false, [⟨0, 16, .wo, 0⟩, ⟨16, 16, .rsv, 0⟩]⟩,
  -- UPDATE
  ⟨0x20, 4, 1, 4, 1, false, [⟨0, 16, .wo, 0⟩, ⟨16, 1, .wo, 0⟩, ⟨17, 1, .wo, 0⟩, ⟨18, 14, .rsv, 0⟩]⟩,
  -- UPDATE_STAT
  ⟨0x24, 4, 1, 4, 1, false, [⟨0, 16, .ro, 0⟩, ⟨16, 16, .ro, 0⟩]⟩,
  -- UPDATE_AT
  ⟨0x28, 4, 1, 4, 1, false, [⟨0, 32, .rw, 0⟩]⟩,
  -- UPDATE_AT word 1
  ⟨0x2c, 4, 1, 4, 1, false, [⟨0, 32, .rw, 0⟩]⟩,
  -- RWP_STAT
  ⟨0x30, 4, 1, 4, 1, false, [⟨0, 12, .ro, 0⟩, ⟨12, 12, .ro, 0⟩, ⟨24, 8, .rsv, 0⟩]⟩,
  -- RWP_SEL
  ⟨0x40, 4, 1, 4, 1, false, [⟨0, 20, .rw, 0⟩, ⟨20, 12, .rsv, 0⟩]⟩,
  -- RWP_INFO
  ⟨0x44, 4, 1, 4, 1, false, [⟨0, 23, .ro, 0⟩, ⟨23, 1, .ro, 0⟩, ⟨24, 1, .ro, 0⟩, ⟨25, 7, .rsv, 0⟩]⟩,
  -- WEALI_STAT
  ⟨0x100, 4, 1, 4, 1, false, [⟨0, 11, .ro, 0⟩, ⟨11, 1, .ro, 0⟩, ⟨12, 1, .rw1c, 0⟩, ⟨13, 1, .rw1c, 0⟩, ⟨14, 7, .ro, 0⟩, ⟨21, 11, .rsv, 0⟩]⟩]

/-- Words of block 0 of the control window (R437), part 1. -/
def regBlock0Part1 : List RegDef := [
  -- WEALI_PASSES
  ⟨0x104, 4, 1, 4, 1, false, [⟨0, 17, .ro, 0⟩, ⟨17, 15, .rsv, 0⟩]⟩,
  -- WEALI_BOARD_ADDR
  ⟨0x110, 4, 1, 4, 1, false, [⟨0, 14, .rw, 0⟩, ⟨14, 18, .rsv, 0⟩]⟩,
  -- WEALI_BOARD_CMD
  ⟨0x118, 4, 1, 4, 1, false, [⟨0, 7, .rw, 0⟩, ⟨7, 2, .rw, 0⟩, ⟨9, 1, .wo, 0⟩, ⟨10, 1, .ro, 0⟩, ⟨11, 7, .ro, 0⟩, ⟨18, 1, .rw1c, 0⟩, ⟨19, 13, .rsv, 0⟩]⟩,
  -- WEALI_BOARD_DATA
  ⟨0x120, 4, 16, 4, 1, false, [⟨0, 32, .rw, 0⟩]⟩,
  -- AVAIL_STAT
  ⟨0x200, 4, 1, 4, 1, false, [⟨0, 1, .ro, 0⟩, ⟨1, 1, .ro, 0⟩, ⟨2, 1, .ro, 0⟩, ⟨3, 1, .ro, 0⟩, ⟨4, 1, .ro, 0⟩, ⟨5, 1, .ro, 0⟩, ⟨6, 5, .ro, 16⟩, ⟨11, 1, .ro, 0⟩, ⟨12, 20, .rsv, 0⟩]⟩,
  -- TALLY_CFG
  ⟨0x1000, 4, 1, 4, 1, false, [⟨0, 14, .rwp, 1000⟩, ⟨14, 18, .rsv, 0⟩]⟩,
  -- TALLY_STAT
  ⟨0x1004, 4, 1, 4, 1, false, [⟨0, 32, .ro, 0⟩]⟩,
  -- TALLY_USER
  ⟨0x1010, 4, 1, 4, 1, false, [⟨0, 32, .rwp, 0⟩]⟩,
  -- TALLY_USER word 1
  ⟨0x1014, 4, 1, 4, 1, false, [⟨0, 32, .rwp, 0⟩]⟩,
  -- CNT_CTRL
  ⟨0x1100, 4, 18, 4, 1, false, [⟨0, 4, .rw, 0⟩, ⟨4, 8, .wo, 0⟩, ⟨12, 20, .rsv, 0⟩]⟩,
  -- CNT
  ⟨0x1200, 64, 18, 8, 8, false, [⟨0, 32, .ro, 0⟩]⟩,
  -- CNT word 1
  ⟨0x1204, 64, 18, 8, 8, false, [⟨0, 16, .ro, 0⟩, ⟨16, 16, .rsv, 0⟩]⟩]

/-- Words of block 0 of the control window (R437), part 2. -/
def regBlock0Part2 : List RegDef := [
  -- TALLY_BW
  ⟨0x1700, 8, 4, 4, 1, false, [⟨0, 32, .ro, 0⟩]⟩,
  -- TALLY_BW word 1
  ⟨0x1704, 8, 4, 4, 1, false, [⟨0, 32, .ro, 0⟩]⟩,
  -- LIFE
  ⟨0x2000, 8, 128, 4, 1, false, [⟨0, 32, .ro, 0⟩]⟩,
  -- LIFE word 1
  ⟨0x2004, 8, 128, 4, 1, false, [⟨0, 32, .ro, 0⟩]⟩,
  -- SILL_CFG
  ⟨0x3000, 4, 1, 4, 1, false, [⟨0, 17, .rwp, 3600⟩, ⟨17, 15, .rsv, 0⟩]⟩,
  -- SILL_STAT
  ⟨0x3004, 4, 1, 4, 1, false, [⟨0, 15, .ro, 0⟩, ⟨15, 1, .ro, 0⟩, ⟨16, 1, .ro, 0⟩, ⟨17, 15, .rsv, 0⟩]⟩,
  -- SILL_GEN
  ⟨0x3008, 4, 1, 4, 1, false, [⟨0, 32, .ro, 0⟩]⟩,
  -- SILL_OLDEST
  ⟨0x300c, 4, 1, 4, 1, false, [⟨0, 32, .ro, 0⟩]⟩,
  -- SILL_NEWEST
  ⟨0x3010, 4, 1, 4, 1, false, [⟨0, 32, .ro, 0⟩]⟩,
  -- SILL_REPEAT
  ⟨0x3014, 4, 1, 4, 1, false, [⟨0, 32, .ro, 0⟩]⟩,
  -- SILL_DROPPED
  ⟨0x3018, 4, 1, 4, 1, false, [⟨0, 32, .ro, 0⟩]⟩,
  -- SILL_SEL
  ⟨0x3020, 4, 1, 4, 1, false, [⟨0, 32, .rw, 0⟩]⟩]

/-- Words of block 0 of the control window (R437), part 3. -/
def regBlock0Part3 : List RegDef := [
  -- SILL_CLEAR
  ⟨0x3024, 4, 1, 4, 1, false, [⟨0, 32, .wo, 0⟩]⟩,
  -- SILL_DATA
  ⟨0x3100, 4, 64, 4, 1, false, [⟨0, 32, .ro, 0⟩]⟩,
  -- SAMPLE_CTRL
  ⟨0x3800, 4, 1, 4, 1, false, [⟨0, 1, .rw, 0⟩, ⟨1, 5, .rw, 10⟩, ⟨6, 7, .rw, 64⟩, ⟨13, 1, .wo, 0⟩, ⟨14, 1, .wo, 0⟩, ⟨15, 17, .rsv, 0⟩]⟩,
  -- SAMPLE_STAT
  ⟨0x3804, 4, 1, 4, 1, false, [⟨0, 14, .ro, 0⟩, ⟨14, 1, .ro, 0⟩, ⟨15, 1, .rw1c, 0⟩, ⟨16, 16, .rsv, 0⟩]⟩,
  -- SAMPLE_LOST
  ⟨0x3808, 4, 1, 4, 1, false, [⟨0, 32, .ro, 0⟩]⟩,
  -- SAMPLE_DATA
  ⟨0x380c, 4, 1, 4, 1, false, [⟨0, 32, .ro, 0⟩]⟩,
  -- HIST
  ⟨0x4000, 128, 64, 4, 32, false, [⟨0, 32, .ro, 0⟩]⟩]

/-- Words of block 0 of the control window (R437). -/
def regBlock0 : List RegDef := regBlock0Part0 ++ regBlock0Part1 ++ regBlock0Part2 ++ regBlock0Part3

/-- Words of block 1 of the control window (R437), part 0. -/
def regBlock1Part0 : List RegDef := [
  -- KQ_BASE
  ⟨0x10000, 32, 256, 8, 2, false, [⟨0, 6, .rsv, 0⟩, ⟨6, 26, .rw, 0⟩]⟩,
  -- KQ_BASE word 1
  ⟨0x10004, 32, 256, 8, 2, false, [⟨0, 32, .rw, 0⟩]⟩,
  -- KQ_CTRL
  ⟨0x10010, 32, 256, 4, 1, false, [⟨0, 4, .rw, 0⟩, ⟨4, 4, .rw, 0⟩, ⟨8, 6, .rw, 0⟩, ⟨14, 6, .rw, 0⟩, ⟨20, 4, .rw, 1⟩, ⟨24, 1, .rw, 0⟩, ⟨25, 1, .rw, 0⟩, ⟨26, 6, .rsv, 0⟩]⟩,
  -- KQ_KEY
  ⟨0x10014, 32, 256, 4, 1, false, [⟨0, 18, .rw, 0⟩, ⟨18, 14, .rsv, 0⟩]⟩,
  -- KQ_STAT
  ⟨0x10018, 32, 256, 4, 1, false, [⟨0, 2, .ro, 0⟩, ⟨2, 3, .ro, 0⟩, ⟨5, 11, .ro, 0⟩, ⟨16, 1, .ro, 0⟩, ⟨17, 1, .ro, 0⟩, ⟨18, 14, .rsv, 0⟩]⟩,
  -- KQ_GLOBAL
  ⟨0x12000, 4, 1, 4, 1, false, [⟨0, 11, .ro, 0⟩, ⟨11, 1, .ro, 0⟩, ⟨12, 9, .ro, 0⟩, ⟨21, 11, .rsv, 0⟩]⟩,
  -- KQ_ADMIN
  ⟨0x12008, 4, 1, 4, 1, false, [⟨0, 32, .rwp, 1⟩]⟩,
  -- KQ_ADMIN word 1
  ⟨0x1200c, 4, 1, 4, 1, false, [⟨0, 32, .rwp, 0⟩]⟩,
  -- ENG_STAT
  ⟨0x14000, 4, 64, 4, 1, false, [⟨0, 3, .ro, 0⟩, ⟨3, 2, .ro, 0⟩, ⟨5, 3, .ro, 0⟩, ⟨8, 5, .ro, 0⟩, ⟨13, 1, .ro, 0⟩, ⟨14, 18, .rsv, 0⟩]⟩,
  -- ENG_SUMMARY
  ⟨0x14100, 4, 1, 4, 1, false, [⟨0, 3, .ro, 4⟩, ⟨3, 7, .ro, 0⟩, ⟨10, 1, .ro, 0⟩, ⟨11, 2, .ro, 0⟩, ⟨13, 19, .rsv, 0⟩]⟩,
  -- MOVER_STAT
  ⟨0x14200, 4, 128, 4, 1, false, [⟨0, 1, .ro, 0⟩, ⟨1, 1, .rw1c, 0⟩, ⟨2, 1, .ro, 0⟩, ⟨3, 6, .ro, 0⟩, ⟨9, 2, .ro, 0⟩, ⟨11, 21, .rsv, 0⟩]⟩,
  -- MEM_MACRO
  ⟨0x14400, 4, 640, 4, 1, false, [⟨0, 4, .ro, 0⟩, ⟨4, 1, .ro, 0⟩, ⟨5, 1, .ro, 0⟩, ⟨6, 1, .ro, 0⟩, ⟨7, 9, .ro, 0⟩, ⟨16, 16, .rsv, 0⟩]⟩]

/-- Words of block 1 of the control window (R437), part 1. -/
def regBlock1Part1 : List RegDef := [
  -- HBM_REMAP
  ⟨0x14e00, 4, 2, 4, 1, false, [⟨0, 7, .ro, 0⟩, ⟨7, 1, .ro, 0⟩, ⟨8, 24, .rsv, 0⟩]⟩,
  -- BGT_CFG
  ⟨0x14e10, 4, 1, 4, 1, true, [⟨0, 1, .rwp, 1⟩, ⟨1, 14, .rwp, 50⟩, ⟨15, 17, .rsv, 0⟩]⟩,
  -- BGT_STAT
  ⟨0x14e14, 4, 1, 4, 1, false, [⟨0, 10, .ro, 0⟩, ⟨10, 7, .ro, 0⟩, ⟨17, 15, .ro, 0⟩]⟩,
  -- RET_CFG
  ⟨0x14e18, 4, 1, 4, 1, true, [⟨0, 1, .rwp, 1⟩, ⟨1, 16, .rwp, 100⟩, ⟨17, 15, .rsv, 0⟩]⟩,
  -- MEMTEST_SEL
  ⟨0x14e20, 4, 1, 4, 1, false, [⟨0, 10, .rw, 0⟩, ⟨10, 14, .rw, 0⟩, ⟨24, 8, .rsv, 0⟩]⟩,
  -- MEMTEST_DATA
  ⟨0x14e28, 4, 1, 4, 1, false, [⟨0, 32, .rw, 0⟩]⟩,
  -- MEMTEST_DATA word 1
  ⟨0x14e2c, 4, 1, 4, 1, false, [⟨0, 32, .rw, 0⟩]⟩,
  -- MEMTEST_CHECK
  ⟨0x14e30, 4, 1, 4, 1, false, [⟨0, 8, .rw, 0⟩, ⟨8, 8, .ro, 0⟩, ⟨16, 16, .rsv, 0⟩]⟩,
  -- MEMTEST_CMD
  ⟨0x14e34, 4, 1, 4, 1, false, [⟨0, 2, .rw, 0⟩, ⟨2, 1, .wo, 0⟩, ⟨3, 1, .rw1c, 0⟩, ⟨4, 28, .rsv, 0⟩]⟩]

/-- Words of block 1 of the control window (R437). -/
def regBlock1 : List RegDef := regBlock1Part0 ++ regBlock1Part1

/-- Words of block 2 of the control window (R437). -/
def regBlock2 : List RegDef := [
  -- THERM_CFG
  ⟨0x20000, 4, 1, 4, 1, true, [⟨0, 7, .rwp, 95⟩, ⟨7, 5, .rwp, 8⟩, ⟨12, 7, .rwp, 75⟩, ⟨19, 5, .rwp, 8⟩, ⟨24, 1, .rwp, 0⟩, ⟨25, 7, .rsv, 0⟩]⟩,
  -- THERM_STAT
  ⟨0x20004, 4, 1, 4, 1, false, [⟨0, 9, .ro, 0⟩, ⟨9, 7, .ro, 100⟩, ⟨16, 1, .ro, 0⟩, ⟨17, 6, .ro, 32⟩, ⟨23, 1, .rw1c, 0⟩, ⟨24, 1, .rw1c, 0⟩, ⟨25, 7, .rsv, 0⟩]⟩,
  -- MED_TEMP
  ⟨0x20010, 4, 3, 4, 1, false, [⟨0, 8, .ro, 0⟩, ⟨8, 7, .ro, 100⟩, ⟨15, 17, .rsv, 0⟩]⟩,
  -- TSNS_CFG
  ⟨0x20100, 8, 16, 4, 1, true, [⟨0, 2, .rwp, 0⟩, ⟨2, 8, .rwp, 100⟩, ⟨10, 8, .rwp, 120⟩, ⟨18, 14, .rsv, 0⟩]⟩,
  -- TSNS_VAL
  ⟨0x20104, 8, 16, 4, 1, false, [⟨0, 12, .ro, 0⟩, ⟨12, 1, .ro, 0⟩, ⟨13, 1, .ro, 0⟩, ⟨14, 1, .ro, 0⟩, ⟨15, 17, .rsv, 0⟩]⟩]

/-- Words of block 3 of the control window (R437). -/
def regBlock3 : List RegDef := [
  -- MEDIA_GEOM
  ⟨0x30000, 4, 1, 4, 1, false, [⟨0, 2, .ro, 0⟩, ⟨2, 7, .ro, 0⟩, ⟨9, 7, .ro, 0⟩, ⟨16, 3, .ro, 0⟩, ⟨19, 13, .rsv, 0⟩]⟩,
  -- CRC_INJECT
  ⟨0x30010, 4, 1, 4, 1, false, [⟨0, 2, .rw, 0⟩, ⟨2, 4, .rw, 0⟩, ⟨6, 1, .rw1s, 0⟩, ⟨7, 1, .rw, 0⟩, ⟨8, 24, .rsv, 0⟩]⟩,
  -- DIESET_MEMBER
  ⟨0x30100, 64, 96, 4, 10, false, [⟨0, 5, .ro, 0⟩, ⟨5, 5, .ro, 0⟩, ⟨10, 1, .ro, 0⟩, ⟨11, 1, .ro, 0⟩, ⟨12, 20, .rsv, 0⟩]⟩]

/-- Words of block 4 of the control window (R437), part 0. -/
def regBlock4Part0 : List RegDef := [
  -- LC_CONFIG
  ⟨0x40000, 4, 1, 4, 1, true, [⟨0, 1, .rw, 1⟩, ⟨1, 10, .rw, 64⟩, ⟨11, 1, .rw, 1⟩, ⟨12, 7, .rw, 50⟩, ⟨19, 7, .rw, 40⟩, ⟨26, 6, .rsv, 0⟩]⟩,
  -- LC_WAYS
  ⟨0x40004, 4, 1, 4, 1, false, [⟨0, 2, .rwp, 0⟩, ⟨2, 2, .ro, 0⟩, ⟨4, 1, .ro, 0⟩, ⟨5, 27, .rsv, 0⟩]⟩,
  -- LC_BUDGET
  ⟨0x40008, 4, 1, 4, 1, false, [⟨0, 27, .ro, 0⟩, ⟨27, 5, .rsv, 0⟩]⟩,
  -- LC_CHARGE
  ⟨0x4000c, 4, 1, 4, 1, false, [⟨0, 27, .ro, 0⟩, ⟨27, 1, .ro, 0⟩, ⟨28, 1, .ro, 0⟩, ⟨29, 3, .rsv, 0⟩]⟩,
  -- LC_BUDGET_LIMIT
  ⟨0x40010, 4, 1, 4, 1, true, [⟨0, 15, .rw, 0⟩, ⟨15, 17, .rsv, 0⟩]⟩,
  -- LC_MISS
  ⟨0x40014, 4, 1, 4, 1, false, [⟨0, 14, .ro, 8192⟩, ⟨14, 10, .ro, 0⟩, ⟨24, 1, .ro, 0⟩, ⟨25, 7, .rsv, 0⟩]⟩,
  -- LC_RANGE_BASE
  ⟨0x40020, 4, 1, 4, 1, false, [⟨0, 8, .rsv, 0⟩, ⟨8, 24, .rw, 0⟩]⟩,
  -- LC_RANGE_BASE word 1
  ⟨0x40024, 4, 1, 4, 1, false, [⟨0, 13, .rw, 0⟩, ⟨13, 19, .rsv, 0⟩]⟩,
  -- LC_RANGE_LEN
  ⟨0x40028, 4, 1, 4, 1, false, [⟨0, 8, .rsv, 0⟩, ⟨8, 24, .rw, 0⟩]⟩,
  -- LC_RANGE_LEN word 1
  ⟨0x4002c, 4, 1, 4, 1, false, [⟨0, 14, .rw, 0⟩, ⟨14, 18, .rsv, 0⟩]⟩,
  -- LC_RANGE_CTRL
  ⟨0x40030, 4, 1, 4, 1, false, [⟨0, 2, .rw, 0⟩, ⟨2, 1, .rw, 0⟩, ⟨3, 6, .rw, 0⟩, ⟨9, 1, .wo, 0⟩, ⟨10, 1, .ro, 0⟩, ⟨11, 1, .ro, 0⟩, ⟨12, 4, .ro, 0⟩, ⟨16, 1, .rw1c, 0⟩, ⟨17, 1, .rw1c, 0⟩, ⟨18, 14, .rsv, 0⟩]⟩,
  -- LC_RANGE_DROPPED
  ⟨0x40034, 4, 1, 4, 1, false, [⟨0, 32, .ro, 0⟩]⟩]

/-- Words of block 4 of the control window (R437), part 1. -/
def regBlock4Part1 : List RegDef := [
  -- LC_LD_CTRL
  ⟨0x40100, 4, 64, 4, 1, false, [⟨0, 1, .rwp, 1⟩, ⟨1, 2, .rwp, 1⟩, ⟨3, 1, .rwp, 1⟩, ⟨4, 1, .ro, 1⟩, ⟨5, 1, .rw1c, 0⟩, ⟨6, 1, .ro, 0⟩, ⟨7, 25, .rsv, 0⟩]⟩]

/-- Words of block 4 of the control window (R437). -/
def regBlock4 : List RegDef := regBlock4Part0 ++ regBlock4Part1

/-- Words of block 5 of the control window (R437). -/
def regBlock5 : List RegDef := [
  -- RP_CONFIG
  ⟨0x50000, 4, 1, 4, 1, false, [⟨0, 1, .rwp, 1⟩, ⟨1, 1, .rwp, 1⟩, ⟨2, 1, .rwp, 1⟩, ⟨3, 1, .rwp, 1⟩, ⟨4, 6, .rwp, 32⟩, ⟨10, 1, .rwp, 1⟩, ⟨11, 21, .rsv, 0⟩]⟩,
  -- RP_STATUS
  ⟨0x50004, 4, 1, 4, 1, false, [⟨0, 6, .ro, 0⟩, ⟨6, 14, .ro, 0⟩, ⟨20, 1, .rw1c, 0⟩, ⟨21, 1, .ro, 0⟩, ⟨22, 10, .rsv, 0⟩]⟩,
  -- RP_TEMP
  ⟨0x50008, 4, 1, 4, 1, false, [⟨0, 3, .ro, 0⟩, ⟨3, 3, .ro, 0⟩, ⟨6, 3, .ro, 0⟩, ⟨9, 23, .rsv, 0⟩]⟩,
  -- GRAV_CTRL
  ⟨0x5000c, 4, 1, 4, 1, false, [⟨0, 3, .wo, 0⟩, ⟨3, 29, .rsv, 0⟩]⟩,
  -- GRAV_ENTRY
  ⟨0x51000, 1024, 3, 4, 256, true, [⟨0, 6, .rw, 0⟩, ⟨6, 4, .rw, 0⟩, ⟨10, 4, .rw, 8⟩, ⟨14, 17, .rsv, 0⟩, ⟨31, 1, .ro, 0⟩]⟩,
  -- TRIM
  ⟨0x58000, 16, 1024, 4, 4, false, [⟨0, 4, .ro, 0⟩, ⟨4, 4, .rsv, 0⟩, ⟨8, 4, .ro, 0⟩, ⟨12, 4, .rsv, 0⟩, ⟨16, 4, .ro, 0⟩, ⟨20, 4, .rsv, 0⟩, ⟨24, 4, .ro, 0⟩, ⟨28, 4, .rsv, 0⟩]⟩]

/-- Words of block 6 of the control window (R437). -/
def regBlock6 : List RegDef := [
  -- WP_CONFIG
  ⟨0x60000, 4, 1, 4, 1, true, [⟨0, 1, .rwp, 0⟩, ⟨1, 1, .rwp, 1⟩, ⟨2, 12, .rwp, 4095⟩, ⟨14, 18, .rsv, 0⟩]⟩,
  -- WP_STATUS
  ⟨0x60004, 4, 1, 4, 1, false, [⟨0, 1, .ro, 0⟩, ⟨1, 1, .ro, 0⟩, ⟨2, 12, .ro, 0⟩, ⟨14, 1, .rw1c, 0⟩, ⟨15, 1, .rw1c, 0⟩, ⟨16, 1, .ro, 0⟩, ⟨17, 15, .rsv, 0⟩]⟩,
  -- LANE_STATE
  ⟨0x61000, 4, 96, 4, 1, false, [⟨0, 2, .ro, 0⟩, ⟨2, 2, .ro, 0⟩, ⟨4, 2, .ro, 0⟩, ⟨6, 2, .ro, 0⟩, ⟨8, 2, .ro, 0⟩, ⟨10, 2, .ro, 0⟩, ⟨12, 2, .ro, 0⟩, ⟨14, 2, .ro, 0⟩, ⟨16, 2, .ro, 0⟩, ⟨18, 2, .ro, 0⟩, ⟨20, 2, .ro, 0⟩, ⟨22, 2, .ro, 0⟩, ⟨24, 2, .ro, 0⟩, ⟨26, 2, .ro, 0⟩, ⟨28, 2, .ro, 0⟩, ⟨30, 2, .ro, 0⟩]⟩]

/-- Words of block 7 of the control window (R437), part 0. -/
def regBlock7Part0 : List RegDef := [
  -- MAP_CONFIG
  ⟨0x70000, 4, 1, 4, 1, true, [⟨0, 1, .rwp, 1⟩, ⟨1, 1, .rwp, 0⟩, ⟨2, 8, .rwp, 64⟩, ⟨10, 8, .rwp, 3⟩, ⟨18, 3, .rwp, 2⟩, ⟨21, 11, .rsv, 0⟩]⟩,
  -- MAP_RACK_LIMIT
  ⟨0x70004, 4, 1, 4, 1, true, [⟨0, 24, .rwp, 0x30d40⟩, ⟨24, 8, .rsv, 0⟩]⟩,
  -- MAP_PERIODS
  ⟨0x70008, 4, 1, 4, 1, true, [⟨0, 8, .rwp, 16⟩, ⟨8, 16, .rwp, 1024⟩, ⟨24, 8, .rsv, 0⟩]⟩,
  -- MAP_POOL
  ⟨0x70010, 4, 1, 4, 1, false, [⟨0, 26, .ro, 0⟩, ⟨26, 1, .ro, 0⟩, ⟨27, 1, .ro, 0⟩, ⟨28, 1, .ro, 0⟩, ⟨29, 1, .ro, 0⟩, ⟨30, 1, .ro, 0⟩, ⟨31, 1, .rsv, 0⟩]⟩,
  -- MAP_RETIRED
  ⟨0x70014, 4, 1, 4, 1, false, [⟨0, 26, .ro, 0⟩, ⟨26, 6, .rsv, 0⟩]⟩,
  -- MAP_WEAR
  ⟨0x70018, 4, 1, 4, 1, false, [⟨0, 32, .ro, 0⟩]⟩,
  -- MAP_WEAR word 1
  ⟨0x7001c, 4, 1, 4, 1, false, [⟨0, 32, .ro, 0⟩]⟩,
  -- MAP_PINS
  ⟨0x70020, 4, 1, 4, 1, false, [⟨0, 23, .ro, 0⟩, ⟨23, 1, .ro, 0⟩, ⟨24, 1, .rw1c, 0⟩, ⟨25, 1, .rw1c, 0⟩, ⟨26, 6, .rsv, 0⟩]⟩,
  -- MAP_LISTS
  ⟨0x70024, 4, 1, 4, 1, false, [⟨0, 21, .ro, 0⟩, ⟨21, 11, .rsv, 0⟩]⟩,
  -- MAP_RESIDUE
  ⟨0x70028, 4, 1, 4, 1, false, [⟨0, 23, .ro, 0⟩, ⟨23, 9, .rsv, 0⟩]⟩,
  -- MAP_WORN
  ⟨0x7002c, 4, 1, 4, 1, false, [⟨0, 26, .ro, 0⟩, ⟨26, 6, .rsv, 0⟩]⟩,
  -- MAP_WIN_SEL
  ⟨0x70040, 4, 1, 4, 1, false, [⟨0, 25, .rw, 0⟩, ⟨25, 7, .rsv, 0⟩]⟩]

/-- Words of block 7 of the control window (R437), part 1. -/
def regBlock7Part1 : List RegDef := [
  -- MAP_WIN_DATA
  ⟨0x70044, 4, 4, 4, 1, false, [⟨0, 32, .ro, 0⟩]⟩,
  -- DISC_FIRST
  ⟨0x70060, 4, 1, 4, 1, false, [⟨0, 32, .rw, 0⟩]⟩,
  -- DISC_FIRST word 1
  ⟨0x70064, 4, 1, 4, 1, false, [⟨0, 5, .rw, 0⟩, ⟨5, 27, .rsv, 0⟩]⟩,
  -- DISC_COUNT
  ⟨0x70068, 4, 1, 4, 1, false, [⟨0, 26, .rw, 0⟩, ⟨26, 6, .rsv, 0⟩]⟩,
  -- DISC_CMD
  ⟨0x7006c, 4, 1, 4, 1, false, [⟨0, 2, .rw, 0⟩, ⟨2, 1, .rw, 0⟩, ⟨3, 1, .wo, 0⟩, ⟨4, 1, .ro, 0⟩, ⟨5, 1, .rw1c, 0⟩, ⟨6, 3, .ro, 0⟩, ⟨9, 23, .rsv, 0⟩]⟩,
  -- DISC_PROGRESS
  ⟨0x70070, 4, 1, 4, 1, false, [⟨0, 26, .ro, 0⟩, ⟨26, 6, .rsv, 0⟩]⟩]

/-- Words of block 7 of the control window (R437). -/
def regBlock7 : List RegDef := regBlock7Part0 ++ regBlock7Part1

/-- Words of block 8 of the control window (R437). -/
def regBlock8 : List RegDef := [
  -- PATROL_CFG
  ⟨0x80000, 4, 1, 4, 1, true, [⟨0, 5, .rwp, 7⟩, ⟨5, 2, .rwp, 2⟩, ⟨7, 8, .rwp, 8⟩, ⟨15, 5, .rwp, 4⟩, ⟨20, 1, .rwp, 1⟩, ⟨21, 1, .wo, 0⟩, ⟨22, 10, .rsv, 0⟩]⟩,
  -- PATROL_STAT
  ⟨0x80004, 4, 1, 4, 1, false, [⟨0, 7, .ro, 0⟩, ⟨7, 1, .ro, 0⟩, ⟨8, 1, .rw1c, 0⟩, ⟨9, 17, .ro, 0⟩, ⟨26, 6, .rsv, 0⟩]⟩,
  -- SPARE_CFG
  ⟨0x80010, 4, 1, 4, 1, true, [⟨0, 8, .rwp, 64⟩, ⟨8, 6, .rwp, 8⟩, ⟨14, 8, .rwp, 64⟩, ⟨22, 10, .rsv, 0⟩]⟩,
  -- SPARE_STAT
  ⟨0x80014, 4, 1, 4, 1, false, [⟨0, 7, .ro, 0⟩, ⟨7, 6, .ro, 0⟩, ⟨13, 7, .ro, 0⟩, ⟨20, 1, .ro, 0⟩, ⟨21, 1, .ro, 0⟩, ⟨22, 1, .rw1c, 0⟩, ⟨23, 9, .rsv, 0⟩]⟩,
  -- REBUILD_PROG
  ⟨0x80400, 4, 96, 4, 1, false, [⟨0, 19, .ro, 0⟩, ⟨19, 1, .ro, 0⟩, ⟨20, 4, .ro, 0⟩, ⟨24, 1, .ro, 0⟩, ⟨25, 2, .ro, 0⟩, ⟨27, 5, .rsv, 0⟩]⟩,
  -- DIE_HEALTH
  ⟨0x81000, 4, 1024, 4, 1, false, [⟨0, 8, .ro, 0⟩, ⟨8, 1, .ro, 0⟩, ⟨9, 1, .ro, 0⟩, ⟨10, 3, .ro, 0⟩, ⟨13, 19, .rsv, 0⟩]⟩]

/-- Words of block 9 of the control window (R437). -/
def regBlock9 : List RegDef := [
  -- CIPHER_CONFIG
  ⟨0x90000, 4, 1, 4, 1, true, [⟨0, 1, .rwp, 1⟩, ⟨1, 6, .rwp, 8⟩, ⟨7, 1, .rwp, 0⟩, ⟨8, 24, .rsv, 0⟩]⟩,
  -- CIPHER_STATUS
  ⟨0x90004, 4, 1, 4, 1, false, [⟨0, 2, .ro, 0⟩, ⟨2, 1, .ro, 0⟩, ⟨3, 3, .ro, 0⟩, ⟨6, 1, .ro, 0⟩, ⟨7, 1, .rw1c, 0⟩, ⟨8, 1, .rw1c, 0⟩, ⟨9, 7, .ro, 0⟩, ⟨16, 16, .rsv, 0⟩]⟩,
  -- REKEY_PENDING
  ⟨0x90008, 4, 1, 4, 1, false, [⟨0, 26, .ro, 0⟩, ⟨26, 6, .rsv, 0⟩]⟩,
  -- KEY_SEL
  ⟨0x90010, 4, 1, 4, 1, false, [⟨0, 18, .rw, 0⟩, ⟨18, 14, .rsv, 0⟩]⟩,
  -- KEY_INFO
  ⟨0x90014, 4, 1, 4, 1, false, [⟨0, 1, .ro, 0⟩, ⟨1, 1, .ro, 0⟩, ⟨2, 1, .ro, 0⟩, ⟨3, 1, .ro, 0⟩, ⟨4, 18, .ro, 0⟩, ⟨22, 10, .rsv, 0⟩]⟩,
  -- KEY_KCV
  ⟨0x90018, 4, 1, 4, 1, false, [⟨0, 32, .ro, 0⟩]⟩,
  -- KEY_SEGS
  ⟨0x9001c, 4, 1, 4, 1, false, [⟨0, 26, .ro, 0⟩, ⟨26, 6, .rsv, 0⟩]⟩,
  -- LD_KEY
  ⟨0x90100, 4, 64, 4, 1, false, [⟨0, 18, .rwl, 0⟩, ⟨18, 1, .wo, 0⟩, ⟨19, 1, .rw1c, 0⟩, ⟨20, 12, .rsv, 0⟩]⟩,
  -- KEY_STAGE
  ⟨0x90200, 4, 10, 4, 1, false, [⟨0, 32, .wo, 0⟩]⟩,
  -- KEY_SESSION
  ⟨0x90228, 4, 1, 4, 1, false, [⟨0, 32, .rw, 0⟩]⟩,
  -- KEY_FROM
  ⟨0x9022c, 4, 1, 4, 1, false, [⟨0, 18, .rw, 0⟩, ⟨18, 14, .rsv, 0⟩]⟩,
  -- KEY_CMD
  ⟨0x90230, 4, 1, 4, 1, false, [⟨0, 18, .rw, 0⟩, ⟨18, 1, .rw, 0⟩, ⟨19, 1, .rw, 0⟩, ⟨20, 2, .rw, 0⟩, ⟨22, 1, .wo, 0⟩, ⟨23, 1, .ro, 0⟩, ⟨24, 3, .ro, 0⟩, ⟨27, 5, .rsv, 0⟩]⟩]

/-- Words of block 10 of the control window (R437). -/
def regBlock10 : List RegDef := [
  -- HP_PORT_CFG
  ⟨0xa0000, 4, 4, 4, 1, false, [⟨0, 1, .rwp, 0⟩, ⟨1, 3, .rwp, 5⟩, ⟨4, 1, .rwp, 1⟩, ⟨5, 1, .rwp, 1⟩, ⟨6, 26, .rsv, 0⟩]⟩,
  -- HP_HEAD_STAT
  ⟨0xa0010, 4, 8, 4, 1, false, [⟨0, 1, .ro, 0⟩, ⟨1, 5, .ro, 0⟩, ⟨6, 3, .ro, 0⟩, ⟨9, 1, .ro, 0⟩, ⟨10, 1, .ro, 0⟩, ⟨11, 1, .rw1c, 0⟩, ⟨12, 1, .ro, 1⟩, ⟨13, 5, .ro, 0⟩, ⟨18, 14, .rsv, 0⟩]⟩,
  -- HP_LD_CFG
  ⟨0xa0100, 4, 64, 4, 1, false, [⟨0, 3, .rwp, 0⟩, ⟨3, 4, .rwp, 0⟩, ⟨7, 1, .rwp, 0⟩, ⟨8, 18, .ro, 0⟩, ⟨26, 1, .rw1c, 0⟩, ⟨27, 5, .rsv, 0⟩]⟩,
  -- HP_BLOCK_SEL
  ⟨0xa0200, 4, 1, 4, 1, false, [⟨0, 17, .rw, 0⟩, ⟨17, 15, .rsv, 0⟩]⟩,
  -- HP_BLOCK
  ⟨0xa0204, 4, 1, 4, 1, false, [⟨0, 6, .ro, 0⟩, ⟨6, 17, .ro, 0⟩, ⟨23, 2, .ro, 0⟩, ⟨25, 1, .ro, 0⟩, ⟨26, 6, .rsv, 0⟩]⟩]

/-- Words of block 11 of the control window (R437). -/
def regBlock11 : List RegDef := [
  -- COH_CONFIG
  ⟨0xb0000, 4, 1, 4, 1, true, [⟨0, 10, .rwp, 50⟩, ⟨10, 1, .rwp, 1⟩, ⟨11, 21, .rsv, 0⟩]⟩,
  -- COH_STATUS
  ⟨0xb0004, 4, 1, 4, 1, false, [⟨0, 28, .ro, 0⟩, ⟨28, 1, .rw1c, 0⟩, ⟨29, 1, .rw1c, 0⟩, ⟨30, 1, .rw1c, 0⟩, ⟨31, 1, .ro, 0⟩]⟩,
  -- COH_ACTIVE
  ⟨0xb0008, 4, 1, 4, 1, false, [⟨0, 15, .ro, 0⟩, ⟨15, 17, .ro, 0⟩]⟩,
  -- COH_SLOT
  ⟨0xb0100, 4, 32, 4, 1, false, [⟨0, 6, .ro, 0⟩, ⟨6, 1, .ro, 0⟩, ⟨7, 1, .ro, 0⟩, ⟨8, 24, .rsv, 0⟩]⟩,
  -- COH_PEER
  ⟨0xb0200, 4, 64, 4, 1, false, [⟨0, 12, .ro, 0⟩, ⟨12, 2, .ro, 0⟩, ⟨14, 1, .ro, 0⟩, ⟨15, 1, .ro, 0⟩, ⟨16, 16, .rsv, 0⟩]⟩]

/-- Words of block 12 of the control window (R437), part 0. -/
def regBlock12Part0 : List RegDef := [
  -- DF_CONFIG
  ⟨0xc0000, 4, 1, 4, 1, true, [⟨0, 4, .rwp, 2⟩, ⟨4, 1, .rwp, 1⟩, ⟨5, 1, .rwp, 1⟩, ⟨6, 16, .rwp, 4096⟩, ⟨22, 8, .rwp, 255⟩, ⟨30, 2, .rsv, 0⟩]⟩,
  -- DF_NODE
  ⟨0xc0004, 4, 1, 4, 1, false, [⟨0, 12, .ro, 0⟩, ⟨12, 1, .ro, 0⟩, ⟨13, 1, .rw1c, 0⟩, ⟨14, 1, .ro, 0⟩, ⟨15, 13, .ro, 0⟩, ⟨28, 4, .rsv, 0⟩]⟩,
  -- DF_VIEW
  ⟨0xc0008, 4, 1, 4, 1, false, [⟨0, 32, .ro, 0⟩]⟩,
  -- DF_LINK
  ⟨0xc0010, 4, 8, 4, 1, false, [⟨0, 2, .ro, 0⟩, ⟨2, 12, .ro, 0⟩, ⟨14, 3, .ro, 0⟩, ⟨17, 8, .ro, 0⟩, ⟨25, 7, .rsv, 0⟩]⟩,
  -- DF_ROUTE_SEL
  ⟨0xc0040, 4, 1, 4, 1, false, [⟨0, 12, .rw, 0⟩, ⟨12, 20, .rsv, 0⟩]⟩,
  -- DF_ROUTE
  ⟨0xc0044, 4, 1, 4, 1, false, [⟨0, 3, .ro, 0⟩, ⟨3, 3, .ro, 0⟩, ⟨6, 3, .ro, 0⟩, ⟨9, 5, .ro, 0⟩, ⟨14, 1, .ro, 0⟩, ⟨15, 1, .ro, 0⟩, ⟨16, 16, .rsv, 0⟩]⟩,
  -- DF_MIRROR_SEL
  ⟨0xc0100, 4, 1, 4, 1, false, [⟨0, 8, .rw, 0⟩, ⟨8, 24, .rsv, 0⟩]⟩,
  -- DF_MIRROR
  ⟨0xc0104, 4, 1, 4, 1, false, [⟨0, 25, .rw, 0⟩, ⟨25, 7, .rw, 0⟩]⟩,
  -- DF_MIRROR word 1
  ⟨0xc0108, 4, 1, 4, 1, false, [⟨0, 18, .rw, 0⟩, ⟨18, 14, .rw, 0⟩]⟩,
  -- DF_MIRROR word 2
  ⟨0xc010c, 4, 1, 4, 1, false, [⟨0, 11, .rw, 0⟩, ⟨11, 12, .rw, 0⟩, ⟨23, 1, .ro, 0⟩, ⟨24, 3, .ro, 0⟩, ⟨27, 2, .rw, 0⟩, ⟨29, 1, .wo, 0⟩, ⟨30, 1, .rw1c, 0⟩, ⟨31, 1, .rsv, 0⟩]⟩,
  -- DF_MIRROR word 3
  ⟨0xc0110, 4, 1, 4, 1, false, [⟨0, 32, .rsv, 0⟩]⟩,
  -- DF_EXPORT_SEL
  ⟨0xc0200, 4, 1, 4, 1, false, [⟨0, 8, .rw, 0⟩, ⟨8, 24, .rsv, 0⟩]⟩]

/-- Words of block 12 of the control window (R437), part 1. -/
def regBlock12Part1 : List RegDef := [
  -- DF_EXPORT
  ⟨0xc0204, 4, 1, 4, 1, false, [⟨0, 17, .rw, 0⟩, ⟨17, 15, .rw, 0⟩]⟩,
  -- DF_EXPORT word 1
  ⟨0xc0208, 4, 1, 4, 1, false, [⟨0, 2, .rw, 0⟩, ⟨2, 12, .rw, 0⟩, ⟨14, 1, .rw, 0⟩, ⟨15, 1, .ro, 0⟩, ⟨16, 1, .rw, 0⟩, ⟨17, 1, .wo, 0⟩, ⟨18, 1, .rw1c, 0⟩, ⟨19, 13, .rsv, 0⟩]⟩,
  -- DF_EXPORT word 2
  ⟨0xc020c, 4, 1, 4, 1, false, [⟨0, 32, .rsv, 0⟩]⟩,
  -- DF_EXPORT word 3
  ⟨0xc0210, 4, 1, 4, 1, false, [⟨0, 32, .rsv, 0⟩]⟩,
  -- DF_IMPORT_SEL
  ⟨0xc0300, 4, 1, 4, 1, false, [⟨0, 8, .rw, 0⟩, ⟨8, 24, .rsv, 0⟩]⟩,
  -- DF_IMPORT
  ⟨0xc0304, 4, 1, 4, 1, false, [⟨0, 6, .rw, 0⟩, ⟨6, 1, .rw, 0⟩, ⟨7, 17, .rw, 0⟩, ⟨24, 8, .rw, 0⟩]⟩,
  -- DF_IMPORT word 1
  ⟨0xc0308, 4, 1, 4, 1, false, [⟨0, 9, .rw, 0⟩, ⟨9, 23, .rw, 0⟩]⟩,
  -- DF_IMPORT word 2
  ⟨0xc030c, 4, 1, 4, 1, false, [⟨0, 6, .rw, 0⟩, ⟨6, 1, .ro, 0⟩, ⟨7, 1, .rw, 0⟩, ⟨8, 1, .wo, 0⟩, ⟨9, 1, .rw1c, 0⟩, ⟨10, 22, .rsv, 0⟩]⟩,
  -- DF_IMPORT word 3
  ⟨0xc0310, 4, 1, 4, 1, false, [⟨0, 32, .rsv, 0⟩]⟩]

/-- Words of block 12 of the control window (R437). -/
def regBlock12 : List RegDef := regBlock12Part0 ++ regBlock12Part1

/-- Words of block 13 of the control window (R437), part 0. -/
def regBlock13Part0 : List RegDef := [
  -- FT_NOW
  ⟨0xd0000, 4, 1, 4, 1, false, [⟨0, 32, .ro, 0⟩]⟩,
  -- FT_NOW word 1
  ⟨0xd0004, 4, 1, 4, 1, false, [⟨0, 32, .ro, 0⟩]⟩,
  -- FT_FRAC
  ⟨0xd0008, 4, 1, 4, 1, false, [⟨0, 16, .ro, 0⟩, ⟨16, 16, .rsv, 0⟩]⟩,
  -- TIME_CFG
  ⟨0xd0010, 4, 1, 4, 1, true, [⟨0, 1, .rwp, 1⟩, ⟨1, 1, .rwp, 0⟩, ⟨2, 3, .rwp, 0⟩, ⟨5, 1, .rwp, 1⟩, ⟨6, 1, .rwp, 1⟩, ⟨7, 25, .rsv, 0⟩]⟩,
  -- TIME_STAT
  ⟨0xd0014, 4, 1, 4, 1, false, [⟨0, 2, .ro, 0⟩, ⟨2, 2, .ro, 0⟩, ⟨4, 12, .ro, 4095⟩, ⟨16, 5, .ro, 0⟩, ⟨21, 1, .ro, 0⟩, ⟨22, 1, .ro, 0⟩, ⟨23, 1, .rw1c, 0⟩, ⟨24, 1, .ro, 1⟩, ⟨25, 1, .rw1c, 0⟩, ⟨26, 6, .rsv, 0⟩]⟩,
  -- TIME_OFFSET
  ⟨0xd0018, 4, 1, 4, 1, false, [⟨0, 32, .ro, 0⟩]⟩,
  -- FTSYNC_OFFSET
  ⟨0xd001c, 4, 1, 4, 1, false, [⟨0, 32, .ro, 0x80000000⟩]⟩,
  -- MAINT_MAP
  ⟨0xd0100, 32, 3, 4, 8, true, [⟨0, 32, .rwp, 0⟩]⟩,
  -- TA_STAT
  ⟨0xd0200, 4, 1, 4, 1, false, [⟨0, 9, .ro, 0⟩, ⟨9, 1, .ro, 0⟩, ⟨10, 1, .rw1c, 0⟩, ⟨11, 1, .rw1c, 0⟩, ⟨12, 1, .rw1c, 0⟩, ⟨13, 19, .rsv, 0⟩]⟩,
  -- CASK_SEL
  ⟨0xd0300, 4, 1, 4, 1, false, [⟨0, 4, .rw, 0⟩, ⟨4, 28, .rsv, 0⟩]⟩,
  -- CASK_DOM
  ⟨0xd0304, 4, 1, 4, 1, false, [⟨0, 32, .ro, 0⟩]⟩,
  -- CASK_DOM word 1
  ⟨0xd0308, 4, 1, 4, 1, false, [⟨0, 16, .ro, 0⟩, ⟨16, 12, .ro, 0⟩, ⟨28, 4, .ro, 0⟩]⟩]

/-- Words of block 13 of the control window (R437), part 1. -/
def regBlock13Part1 : List RegDef := [
  -- CASK_DOM word 2
  ⟨0xd030c, 4, 1, 4, 1, false, [⟨0, 32, .ro, 0⟩]⟩,
  -- CASK_DOM word 3
  ⟨0xd0310, 4, 1, 4, 1, false, [⟨0, 16, .ro, 0⟩, ⟨16, 16, .ro, 0⟩]⟩,
  -- CASK_DOM word 4
  ⟨0xd0314, 4, 1, 4, 1, false, [⟨0, 32, .ro, 0⟩]⟩,
  -- CASK_DOM word 5
  ⟨0xd0318, 4, 1, 4, 1, false, [⟨0, 32, .ro, 0⟩]⟩,
  -- CASK_DOM word 6
  ⟨0xd031c, 4, 1, 4, 1, false, [⟨0, 16, .ro, 0⟩, ⟨16, 7, .ro, 0⟩, ⟨23, 1, .rw1c, 0⟩, ⟨24, 1, .rw1c, 0⟩, ⟨25, 7, .rsv, 0⟩]⟩,
  -- CASK_DOM word 7
  ⟨0xd0320, 4, 1, 4, 1, false, [⟨0, 32, .rsv, 0⟩]⟩,
  -- CASK_LOG
  ⟨0xd0380, 4, 1, 4, 1, false, [⟨0, 23, .ro, 0⟩, ⟨23, 9, .rsv, 0⟩]⟩,
  -- CASK_SPILL
  ⟨0xd0384, 4, 1, 4, 1, false, [⟨0, 29, .ro, 0⟩, ⟨29, 3, .rsv, 0⟩]⟩,
  -- CASK_LOG_CFG
  ⟨0xd0390, 4, 1, 4, 1, true, [⟨0, 7, .rwp, 90⟩, ⟨7, 7, .rwp, 75⟩, ⟨14, 18, .rsv, 0⟩]⟩,
  -- CASK_CFG
  ⟨0xd0400, 4, 1, 4, 1, false, [⟨0, 32, .rw, 0⟩]⟩,
  -- CASK_CFG word 1
  ⟨0xd0404, 4, 1, 4, 1, false, [⟨0, 16, .rw, 0⟩, ⟨16, 16, .rw, 0⟩]⟩,
  -- CASK_CFG word 2
  ⟨0xd0408, 4, 1, 4, 1, false, [⟨0, 28, .rw, 0⟩, ⟨28, 4, .rw, 0⟩]⟩]

/-- Words of block 13 of the control window (R437), part 2. -/
def regBlock13Part2 : List RegDef := [
  -- CASK_CFG word 3
  ⟨0xd040c, 4, 1, 4, 1, false, [⟨0, 32, .rw, 0⟩]⟩,
  -- CASK_CFG word 4
  ⟨0xd0410, 4, 1, 4, 1, false, [⟨0, 28, .rw, 0⟩, ⟨28, 4, .rw, 0⟩]⟩,
  -- CASK_CFG word 5
  ⟨0xd0414, 4, 1, 4, 1, false, [⟨0, 3, .rw, 0⟩, ⟨3, 3, .rw, 0⟩, ⟨6, 1, .wo, 0⟩, ⟨7, 1, .rw1c, 0⟩, ⟨8, 24, .rsv, 0⟩]⟩,
  -- CASK_CFG word 6
  ⟨0xd0418, 4, 1, 4, 1, false, [⟨0, 32, .rsv, 0⟩]⟩,
  -- CASK_CFG word 7
  ⟨0xd041c, 4, 1, 4, 1, false, [⟨0, 32, .rsv, 0⟩]⟩,
  -- CASK_CFG word 8
  ⟨0xd0420, 4, 1, 4, 1, false, [⟨0, 32, .rw, 0⟩]⟩,
  -- CASK_CFG word 9
  ⟨0xd0424, 4, 1, 4, 1, false, [⟨0, 32, .rw, 0⟩]⟩,
  -- CASK_CFG word 10
  ⟨0xd0428, 4, 1, 4, 1, false, [⟨0, 32, .rw, 0⟩]⟩,
  -- CASK_CFG word 11
  ⟨0xd042c, 4, 1, 4, 1, false, [⟨0, 32, .rw, 0⟩]⟩,
  -- CASK_CFG word 12
  ⟨0xd0430, 4, 1, 4, 1, false, [⟨0, 32, .rw, 0⟩]⟩,
  -- CASK_CFG word 13
  ⟨0xd0434, 4, 1, 4, 1, false, [⟨0, 32, .rw, 0⟩]⟩,
  -- CASK_CFG word 14
  ⟨0xd0438, 4, 1, 4, 1, false, [⟨0, 32, .rw, 0⟩]⟩]

/-- Words of block 13 of the control window (R437), part 3. -/
def regBlock13Part3 : List RegDef := [
  -- CASK_CFG word 15
  ⟨0xd043c, 4, 1, 4, 1, false, [⟨0, 32, .rw, 0⟩]⟩,
  -- CASK_CFG word 16
  ⟨0xd0440, 4, 1, 4, 1, false, [⟨0, 32, .rw, 0⟩]⟩,
  -- CASK_CFG word 17
  ⟨0xd0444, 4, 1, 4, 1, false, [⟨0, 32, .rw, 0⟩]⟩,
  -- CASK_CFG word 18
  ⟨0xd0448, 4, 1, 4, 1, false, [⟨0, 32, .rw, 0⟩]⟩,
  -- CASK_CFG word 19
  ⟨0xd044c, 4, 1, 4, 1, false, [⟨0, 32, .rw, 0⟩]⟩,
  -- CASK_CFG word 20
  ⟨0xd0450, 4, 1, 4, 1, false, [⟨0, 32, .rw, 0⟩]⟩,
  -- CASK_CFG word 21
  ⟨0xd0454, 4, 1, 4, 1, false, [⟨0, 32, .rw, 0⟩]⟩,
  -- CASK_CFG word 22
  ⟨0xd0458, 4, 1, 4, 1, false, [⟨0, 32, .rw, 0⟩]⟩,
  -- CASK_CFG word 23
  ⟨0xd045c, 4, 1, 4, 1, false, [⟨0, 32, .rw, 0⟩]⟩,
  -- CASK_CFG word 24
  ⟨0xd0460, 4, 1, 4, 1, false, [⟨0, 32, .rw, 0⟩]⟩,
  -- CASK_CFG word 25
  ⟨0xd0464, 4, 1, 4, 1, false, [⟨0, 32, .rw, 0⟩]⟩,
  -- CASK_CFG word 26
  ⟨0xd0468, 4, 1, 4, 1, false, [⟨0, 32, .rw, 0⟩]⟩]

/-- Words of block 13 of the control window (R437), part 4. -/
def regBlock13Part4 : List RegDef := [
  -- CASK_CFG word 27
  ⟨0xd046c, 4, 1, 4, 1, false, [⟨0, 32, .rw, 0⟩]⟩,
  -- CASK_CFG word 28
  ⟨0xd0470, 4, 1, 4, 1, false, [⟨0, 32, .rw, 0⟩]⟩,
  -- CASK_CFG word 29
  ⟨0xd0474, 4, 1, 4, 1, false, [⟨0, 32, .rw, 0⟩]⟩,
  -- CASK_CFG word 30
  ⟨0xd0478, 4, 1, 4, 1, false, [⟨0, 32, .rw, 0⟩]⟩,
  -- CASK_CFG word 31
  ⟨0xd047c, 4, 1, 4, 1, false, [⟨0, 32, .rw, 0⟩]⟩]

/-- Words of block 13 of the control window (R437). -/
def regBlock13 : List RegDef := regBlock13Part0 ++ regBlock13Part1 ++ regBlock13Part2 ++ regBlock13Part3 ++ regBlock13Part4

/-- Words of block 14 of the control window (R437), part 0. -/
def regBlock14Part0 : List RegDef := [
  -- PWR_CFG
  ⟨0xe0000, 4, 1, 4, 1, true, [⟨0, 7, .rwp, 10⟩, ⟨7, 3, .rwp, 3⟩, ⟨10, 22, .rsv, 0⟩]⟩,
  -- PWR_STAT
  ⟨0xe0004, 4, 1, 4, 1, false, [⟨0, 5, .ro, 0⟩, ⟨5, 4, .ro, 0⟩, ⟨9, 1, .ro, 0⟩, ⟨10, 5, .ro, 0⟩, ⟨15, 17, .rsv, 0⟩]⟩,
  -- HU_CFG0
  ⟨0xe0010, 4, 1, 4, 1, true, [⟨0, 11, .rwp, 600⟩, ⟨11, 7, .rwp, 90⟩, ⟨18, 10, .rwp, 250⟩, ⟨28, 4, .rsv, 0⟩]⟩,
  -- HU_CFG1
  ⟨0xe0014, 4, 1, 4, 1, true, [⟨0, 7, .rwp, 25⟩, ⟨7, 6, .rwp, 16⟩, ⟨13, 8, .rwp, 200⟩, ⟨21, 5, .rwp, 10⟩, ⟨26, 6, .rwp, 24⟩]⟩,
  -- HU_STAT
  ⟨0xe0018, 4, 1, 4, 1, false, [⟨0, 11, .ro, 0⟩, ⟨11, 1, .ro, 0⟩, ⟨12, 1, .ro, 0⟩, ⟨13, 1, .ro, 0⟩, ⟨14, 1, .rw1c, 0⟩, ⟨15, 17, .rsv, 0⟩]⟩,
  -- HU_CAP
  ⟨0xe001c, 4, 1, 4, 1, false, [⟨0, 20, .ro, 0⟩, ⟨20, 12, .ro, 0⟩]⟩,
  -- HU_TEST
  ⟨0xe0020, 4, 1, 4, 1, false, [⟨0, 1, .wo, 0⟩, ⟨1, 1, .ro, 0⟩, ⟨2, 1, .rw1c, 0⟩, ⟨3, 3, .ro, 0⟩, ⟨6, 26, .rsv, 0⟩]⟩,
  -- DRY_CFG
  ⟨0xe0030, 4, 1, 4, 1, true, [⟨0, 11, .rwp, 200⟩, ⟨11, 10, .rwp, 900⟩, ⟨21, 10, .rwp, 950⟩, ⟨31, 1, .rsv, 0⟩]⟩,
  -- DRY_STAT
  ⟨0xe0034, 4, 1, 4, 1, false, [⟨0, 3, .ro, 0⟩, ⟨3, 3, .ro, 0⟩, ⟨6, 2, .ro, 0⟩, ⟨8, 24, .rsv, 0⟩]⟩,
  -- DRY_LOST
  ⟨0xe0038, 4, 1, 4, 1, false, [⟨0, 27, .ro, 0⟩, ⟨27, 5, .rsv, 0⟩]⟩,
  -- DSC
  ⟨0xe003c, 4, 1, 4, 1, false, [⟨0, 32, .ro, 0⟩]⟩,
  -- SEQ_STAT
  ⟨0xe0040, 4, 1, 4, 1, false, [⟨0, 2, .ro, 0⟩, ⟨2, 6, .ro, 0⟩, ⟨8, 6, .ro, 0⟩, ⟨14, 1, .rw1c, 0⟩, ⟨15, 1, .rw1c, 0⟩, ⟨16, 16, .rsv, 0⟩]⟩]

/-- Words of block 14 of the control window (R437), part 1. -/
def regBlock14Part1 : List RegDef := [
  -- RST_CFG
  ⟨0xe0080, 4, 5, 4, 1, false, [⟨0, 8, .rwp, 10⟩, ⟨8, 1, .ro, 1⟩, ⟨9, 23, .rsv, 0⟩]⟩,
  -- PWR_RAIL
  ⟨0xe0100, 4, 24, 4, 1, false, [⟨0, 5, .rwl, 0⟩, ⟨5, 2, .rwl, 0⟩, ⟨7, 1, .ro, 0⟩, ⟨8, 1, .ro, 0⟩, ⟨9, 1, .rw1c, 0⟩, ⟨10, 22, .rsv, 0⟩]⟩]

/-- Words of block 14 of the control window (R437). -/
def regBlock14 : List RegDef := regBlock14Part0 ++ regBlock14Part1

/-- Words of block 15 of the control window (R437). -/
def regBlock15 : List RegDef := [
  -- START_STAT
  ⟨0xf0000, 4, 1, 4, 1, false, [⟨0, 4, .ro, 1⟩, ⟨4, 3, .ro, 0⟩, ⟨7, 1, .ro, 0⟩, ⟨8, 1, .rw1c, 0⟩, ⟨9, 23, .rsv, 0⟩]⟩,
  -- START_TIME
  ⟨0xf0004, 4, 1, 4, 1, false, [⟨0, 16, .ro, 0⟩, ⟨16, 16, .rsv, 0⟩]⟩]

/-- The words of block k (R437). -/
def regBlock : Nat → List RegDef
  | 0 => regBlock0
  | 1 => regBlock1
  | 2 => regBlock2
  | 3 => regBlock3
  | 4 => regBlock4
  | 5 => regBlock5
  | 6 => regBlock6
  | 7 => regBlock7
  | 8 => regBlock8
  | 9 => regBlock9
  | 10 => regBlock10
  | 11 => regBlock11
  | 12 => regBlock12
  | 13 => regBlock13
  | 14 => regBlock14
  | 15 => regBlock15
  | _ => []

/-! ### The named fields -/

namespace Reg

/-- MEDIA_GEOM PKG_PER_CH (R63). -/
def MEDIA_GEOM.PKG_PER_CH : Field := ⟨0x30000, 0, 2⟩
/-- MEDIA_GEOM DIESETS (R63). -/
def MEDIA_GEOM.DIESETS : Field := ⟨0x30000, 2, 7⟩
/-- MEDIA_GEOM SPARE_DIES (R63). -/
def MEDIA_GEOM.SPARE_DIES : Field := ⟨0x30000, 9, 7⟩
/-- MEDIA_GEOM TILE_FMT (R63). -/
def MEDIA_GEOM.TILE_FMT : Field := ⟨0x30000, 16, 3⟩
/-- DIESET_MEMBER CHANNEL (R64). -/
def DIESET_MEMBER.CHANNEL (i j : Nat) : Field := ⟨0x30100 + 64 * i + 4 * j, 0, 5⟩
/-- DIESET_MEMBER POSITION (R64). -/
def DIESET_MEMBER.POSITION (i j : Nat) : Field := ⟨0x30100 + 64 * i + 4 * j, 5, 5⟩
/-- DIESET_MEMBER VALID (R64). -/
def DIESET_MEMBER.VALID (i j : Nat) : Field := ⟨0x30100 + 64 * i + 4 * j, 10, 1⟩
/-- DIESET_MEMBER REBUILDING (R64). -/
def DIESET_MEMBER.REBUILDING (i j : Nat) : Field := ⟨0x30100 + 64 * i + 4 * j, 11, 1⟩
/-- CRC_INJECT POINT (R65). -/
def CRC_INJECT.POINT : Field := ⟨0x30010, 0, 2⟩
/-- CRC_INJECT UNIT (R65). -/
def CRC_INJECT.UNIT : Field := ⟨0x30010, 2, 4⟩
/-- CRC_INJECT ARM (R65). -/
def CRC_INJECT.ARM : Field := ⟨0x30010, 6, 1⟩
/-- CRC_INJECT BOTH (R65). -/
def CRC_INJECT.BOTH : Field := ⟨0x30010, 7, 1⟩
/-- LC_CONFIG STREAM_EN (R94). -/
def LC_CONFIG.STREAM_EN : Field := ⟨0x40000, 0, 1⟩
/-- LC_CONFIG STREAM_RUN (R94). -/
def LC_CONFIG.STREAM_RUN : Field := ⟨0x40000, 1, 10⟩
/-- LC_CONFIG VISITOR_EN (R94). -/
def LC_CONFIG.VISITOR_EN : Field := ⟨0x40000, 11, 1⟩
/-- LC_CONFIG CLEAN_HI (R94). -/
def LC_CONFIG.CLEAN_HI : Field := ⟨0x40000, 12, 7⟩
/-- LC_CONFIG CLEAN_LO (R94). -/
def LC_CONFIG.CLEAN_LO : Field := ⟨0x40000, 19, 7⟩
/-- LC_WAYS WAYS_REQ (R94). -/
def LC_WAYS.WAYS_REQ : Field := ⟨0x40004, 0, 2⟩
/-- LC_WAYS WAYS_NOW (R94). -/
def LC_WAYS.WAYS_NOW : Field := ⟨0x40004, 2, 2⟩
/-- LC_WAYS CHANGING (R94). -/
def LC_WAYS.CHANGING : Field := ⟨0x40004, 4, 1⟩
/-- LC_BUDGET BUDGET_TILES (R94). -/
def LC_BUDGET.BUDGET_TILES : Field := ⟨0x40008, 0, 27⟩
/-- LC_CHARGE CHARGE_TILES (R94). -/
def LC_CHARGE.CHARGE_TILES : Field := ⟨0x4000c, 0, 27⟩
/-- LC_CHARGE WAITING (R94). -/
def LC_CHARGE.WAITING : Field := ⟨0x4000c, 27, 1⟩
/-- LC_CHARGE WRITE_THROUGH (R94). -/
def LC_CHARGE.WRITE_THROUGH : Field := ⟨0x4000c, 28, 1⟩
/-- LC_BUDGET_LIMIT LIMIT_MIB (R94). -/
def LC_BUDGET_LIMIT.LIMIT_MIB : Field := ⟨0x40010, 0, 15⟩
/-- LC_MISS FREE (R94). -/
def LC_MISS.FREE : Field := ⟨0x40014, 0, 14⟩
/-- LC_MISS OVERFLOW (R94). -/
def LC_MISS.OVERFLOW : Field := ⟨0x40014, 14, 10⟩
/-- LC_MISS CREDIT_HELD (R94). -/
def LC_MISS.CREDIT_HELD : Field := ⟨0x40014, 24, 1⟩
/-- LC_RANGE_BASE BASE (R94). -/
def LC_RANGE_BASE.BASE : Field := ⟨0x40020, 8, 37⟩
/-- LC_RANGE_LEN LEN (R94). -/
def LC_RANGE_LEN.LEN : Field := ⟨0x40028, 8, 38⟩
/-- LC_RANGE_CTRL OP (R94). -/
def LC_RANGE_CTRL.OP : Field := ⟨0x40030, 0, 2⟩
/-- LC_RANGE_CTRL SCOPE (R94). -/
def LC_RANGE_CTRL.SCOPE : Field := ⟨0x40030, 2, 1⟩
/-- LC_RANGE_CTRL LD (R94). -/
def LC_RANGE_CTRL.LD : Field := ⟨0x40030, 3, 6⟩
/-- LC_RANGE_CTRL GO (R94). -/
def LC_RANGE_CTRL.GO : Field := ⟨0x40030, 9, 1⟩
/-- LC_RANGE_CTRL BUSY (R94). -/
def LC_RANGE_CTRL.BUSY : Field := ⟨0x40030, 10, 1⟩
/-- LC_RANGE_CTRL FULL (R94). -/
def LC_RANGE_CTRL.FULL : Field := ⟨0x40030, 11, 1⟩
/-- LC_RANGE_CTRL QUEUED (R94). -/
def LC_RANGE_CTRL.QUEUED : Field := ⟨0x40030, 12, 4⟩
/-- LC_RANGE_CTRL DONE (R94). -/
def LC_RANGE_CTRL.DONE : Field := ⟨0x40030, 16, 1⟩
/-- LC_RANGE_CTRL ERROR (R94). -/
def LC_RANGE_CTRL.ERROR : Field := ⟨0x40030, 17, 1⟩
/-- LC_RANGE_DROPPED DROPPED (R94). -/
def LC_RANGE_DROPPED.DROPPED : Field := ⟨0x40034, 0, 32⟩
/-- LC_LD_CTRL ALLOC_EN (R94). -/
def LC_LD_CTRL.ALLOC_EN (i : Nat) : Field := ⟨0x40100 + 4 * i, 0, 1⟩
/-- LC_LD_CTRL PREFETCH (R94). -/
def LC_LD_CTRL.PREFETCH (i : Nat) : Field := ⟨0x40100 + 4 * i, 1, 2⟩
/-- LC_LD_CTRL STREAM_OK (R94). -/
def LC_LD_CTRL.STREAM_OK (i : Nat) : Field := ⟨0x40100 + 4 * i, 3, 1⟩
/-- LC_LD_CTRL INV_DONE (R94). -/
def LC_LD_CTRL.INV_DONE (i : Nat) : Field := ⟨0x40100 + 4 * i, 4, 1⟩
/-- LC_LD_CTRL REFUSED (R94). -/
def LC_LD_CTRL.REFUSED (i : Nat) : Field := ⟨0x40100 + 4 * i, 5, 1⟩
/-- LC_LD_CTRL DISABLING (R94). -/
def LC_LD_CTRL.DISABLING (i : Nat) : Field := ⟨0x40100 + 4 * i, 6, 1⟩
/-- GRAV_ENTRY BASE (R104). -/
def GRAV_ENTRY.BASE (i j : Nat) : Field := ⟨0x51000 + 1024 * i + 4 * j, 0, 6⟩
/-- GRAV_ENTRY SHIFT (R104). -/
def GRAV_ENTRY.SHIFT (i j : Nat) : Field := ⟨0x51000 + 1024 * i + 4 * j, 6, 4⟩
/-- GRAV_ENTRY SPAN (R104). -/
def GRAV_ENTRY.SPAN (i j : Nat) : Field := ⟨0x51000 + 1024 * i + 4 * j, 10, 4⟩
/-- GRAV_ENTRY CAL (R104). -/
def GRAV_ENTRY.CAL (i j : Nat) : Field := ⟨0x51000 + 1024 * i + 4 * j, 31, 1⟩
/-- RP_CONFIG SHIFT_EN (R117). -/
def RP_CONFIG.SHIFT_EN : Field := ⟨0x50000, 0, 1⟩
/-- RP_CONFIG DEEP_EN (R117). -/
def RP_CONFIG.DEEP_EN : Field := ⟨0x50000, 1, 1⟩
/-- RP_CONFIG MIRROR_FETCH (R117). -/
def RP_CONFIG.MIRROR_FETCH : Field := ⟨0x50000, 2, 1⟩
/-- RP_CONFIG TRIM_EN (R117). -/
def RP_CONFIG.TRIM_EN : Field := ⟨0x50000, 3, 1⟩
/-- RP_CONFIG DEEP_MAX (R117). -/
def RP_CONFIG.DEEP_MAX : Field := ⟨0x50000, 4, 6⟩
/-- RP_CONFIG AUTO_CAL (R117). -/
def RP_CONFIG.AUTO_CAL : Field := ⟨0x50000, 10, 1⟩
/-- RP_STATUS DEEP_ACTIVE (R117). -/
def RP_STATUS.DEEP_ACTIVE : Field := ⟨0x50004, 0, 6⟩
/-- RP_STATUS DEEP_WAITING (R117). -/
def RP_STATUS.DEEP_WAITING : Field := ⟨0x50004, 6, 14⟩
/-- RP_STATUS DEEP_OVER (R117). -/
def RP_STATUS.DEEP_OVER : Field := ⟨0x50004, 20, 1⟩
/-- RP_STATUS CAL_BUSY (R117). -/
def RP_STATUS.CAL_BUSY : Field := ⟨0x50004, 21, 1⟩
/-- RP_TEMP BUCKET_G0 (R117). -/
def RP_TEMP.BUCKET_G0 : Field := ⟨0x50008, 0, 3⟩
/-- RP_TEMP BUCKET_G1 (R117). -/
def RP_TEMP.BUCKET_G1 : Field := ⟨0x50008, 3, 3⟩
/-- RP_TEMP BUCKET_G2 (R117). -/
def RP_TEMP.BUCKET_G2 : Field := ⟨0x50008, 6, 3⟩
/-- GRAV_CTRL RESET_GROUP (R117). -/
def GRAV_CTRL.RESET_GROUP : Field := ⟨0x5000c, 0, 3⟩
/-- TRIM TRIM0 (R117). -/
def TRIM.TRIM0 (i j : Nat) : Field := ⟨0x58000 + 16 * i + 4 * j, 0, 4⟩
/-- TRIM TRIM1 (R117). -/
def TRIM.TRIM1 (i j : Nat) : Field := ⟨0x58000 + 16 * i + 4 * j, 8, 4⟩
/-- TRIM TRIM2 (R117). -/
def TRIM.TRIM2 (i j : Nat) : Field := ⟨0x58000 + 16 * i + 4 * j, 16, 4⟩
/-- TRIM TRIM3 (R117). -/
def TRIM.TRIM3 (i j : Nat) : Field := ⟨0x58000 + 16 * i + 4 * j, 24, 4⟩
/-- WP_CONFIG WT_FORCE (R143). -/
def WP_CONFIG.WT_FORCE : Field := ⟨0x60000, 0, 1⟩
/-- WP_CONFIG VERIFY_RETRY (R143). -/
def WP_CONFIG.VERIFY_RETRY : Field := ⟨0x60000, 1, 1⟩
/-- WP_CONFIG WT_INFLIGHT (R143). -/
def WP_CONFIG.WT_INFLIGHT : Field := ⟨0x60000, 2, 12⟩
/-- WP_STATUS WT_ACTIVE (R143). -/
def WP_STATUS.WT_ACTIVE : Field := ⟨0x60004, 0, 1⟩
/-- WP_STATUS WT_HOLDUP (R143). -/
def WP_STATUS.WT_HOLDUP : Field := ⟨0x60004, 1, 1⟩
/-- WP_STATUS WT_PENDING (R143). -/
def WP_STATUS.WT_PENDING : Field := ⟨0x60004, 2, 12⟩
/-- WP_STATUS TEAR_SEEN (R143). -/
def WP_STATUS.TEAR_SEEN : Field := ⟨0x60004, 14, 1⟩
/-- WP_STATUS CTR_UNKNOWN (R143). -/
def WP_STATUS.CTR_UNKNOWN : Field := ⟨0x60004, 15, 1⟩
/-- WP_STATUS MIRROR_WAIT (R143). -/
def WP_STATUS.MIRROR_WAIT : Field := ⟨0x60004, 16, 1⟩
/-- LANE_STATE BUSY0 (R143). -/
def LANE_STATE.BUSY0 (i : Nat) : Field := ⟨0x61000 + 4 * i, 0, 2⟩
/-- LANE_STATE BUSY1 (R143). -/
def LANE_STATE.BUSY1 (i : Nat) : Field := ⟨0x61000 + 4 * i, 2, 2⟩
/-- LANE_STATE BUSY2 (R143). -/
def LANE_STATE.BUSY2 (i : Nat) : Field := ⟨0x61000 + 4 * i, 4, 2⟩
/-- LANE_STATE BUSY3 (R143). -/
def LANE_STATE.BUSY3 (i : Nat) : Field := ⟨0x61000 + 4 * i, 6, 2⟩
/-- LANE_STATE BUSY4 (R143). -/
def LANE_STATE.BUSY4 (i : Nat) : Field := ⟨0x61000 + 4 * i, 8, 2⟩
/-- LANE_STATE BUSY5 (R143). -/
def LANE_STATE.BUSY5 (i : Nat) : Field := ⟨0x61000 + 4 * i, 10, 2⟩
/-- LANE_STATE BUSY6 (R143). -/
def LANE_STATE.BUSY6 (i : Nat) : Field := ⟨0x61000 + 4 * i, 12, 2⟩
/-- LANE_STATE BUSY7 (R143). -/
def LANE_STATE.BUSY7 (i : Nat) : Field := ⟨0x61000 + 4 * i, 14, 2⟩
/-- LANE_STATE BUSY8 (R143). -/
def LANE_STATE.BUSY8 (i : Nat) : Field := ⟨0x61000 + 4 * i, 16, 2⟩
/-- LANE_STATE BUSY9 (R143). -/
def LANE_STATE.BUSY9 (i : Nat) : Field := ⟨0x61000 + 4 * i, 18, 2⟩
/-- LANE_STATE BUSY10 (R143). -/
def LANE_STATE.BUSY10 (i : Nat) : Field := ⟨0x61000 + 4 * i, 20, 2⟩
/-- LANE_STATE BUSY11 (R143). -/
def LANE_STATE.BUSY11 (i : Nat) : Field := ⟨0x61000 + 4 * i, 22, 2⟩
/-- LANE_STATE BUSY12 (R143). -/
def LANE_STATE.BUSY12 (i : Nat) : Field := ⟨0x61000 + 4 * i, 24, 2⟩
/-- LANE_STATE BUSY13 (R143). -/
def LANE_STATE.BUSY13 (i : Nat) : Field := ⟨0x61000 + 4 * i, 26, 2⟩
/-- LANE_STATE BUSY14 (R143). -/
def LANE_STATE.BUSY14 (i : Nat) : Field := ⟨0x61000 + 4 * i, 28, 2⟩
/-- LANE_STATE BUSY15 (R143). -/
def LANE_STATE.BUSY15 (i : Nat) : Field := ⟨0x61000 + 4 * i, 30, 2⟩
/-- MAP_CONFIG RACK_EN (R174). -/
def MAP_CONFIG.RACK_EN : Field := ⟨0x70000, 0, 1⟩
/-- MAP_CONFIG SECURE_DEFAULT (R174). -/
def MAP_CONFIG.SECURE_DEFAULT : Field := ⟨0x70000, 1, 1⟩
/-- MAP_CONFIG TOP_MIN (R174). -/
def MAP_CONFIG.TOP_MIN : Field := ⟨0x70000, 2, 8⟩
/-- MAP_CONFIG BASE_MAX (R174). -/
def MAP_CONFIG.BASE_MAX : Field := ⟨0x70000, 10, 8⟩
/-- MAP_CONFIG RACK_MAX (R174). -/
def MAP_CONFIG.RACK_MAX : Field := ⟨0x70000, 18, 3⟩
/-- MAP_RACK_LIMIT LIMIT (R174). -/
def MAP_RACK_LIMIT.LIMIT : Field := ⟨0x70004, 0, 24⟩
/-- MAP_PERIODS CKPT_PERIOD (R174). -/
def MAP_PERIODS.CKPT_PERIOD : Field := ⟨0x70008, 0, 8⟩
/-- MAP_PERIODS HEAT_DECAY (R174). -/
def MAP_PERIODS.HEAT_DECAY : Field := ⟨0x70008, 8, 16⟩
/-- MAP_POOL FREE (R174). -/
def MAP_POOL.FREE : Field := ⟨0x70010, 0, 26⟩
/-- MAP_POOL LOW (R174). -/
def MAP_POOL.LOW : Field := ⟨0x70010, 26, 1⟩
/-- MAP_POOL CRIT (R174). -/
def MAP_POOL.CRIT : Field := ⟨0x70010, 27, 1⟩
/-- MAP_POOL EMPTY (R174). -/
def MAP_POOL.EMPTY : Field := ⟨0x70010, 28, 1⟩
/-- MAP_POOL RACKING (R174). -/
def MAP_POOL.RACKING : Field := ⟨0x70010, 29, 1⟩
/-- MAP_POOL CKPT_BUSY (R174). -/
def MAP_POOL.CKPT_BUSY : Field := ⟨0x70010, 30, 1⟩
/-- MAP_RETIRED RETIRED (R174). -/
def MAP_RETIRED.RETIRED : Field := ⟨0x70014, 0, 26⟩
/-- MAP_WEAR WEAR_MIN (R174). -/
def MAP_WEAR.WEAR_MIN : Field := ⟨0x70018, 0, 32⟩
/-- MAP_WEAR WEAR_MAX (R174). -/
def MAP_WEAR.WEAR_MAX : Field := ⟨0x70018, 32, 32⟩
/-- MAP_PINS PINNED (R174). -/
def MAP_PINS.PINNED : Field := ⟨0x70020, 0, 23⟩
/-- MAP_PINS PIN_FULL (R174). -/
def MAP_PINS.PIN_FULL : Field := ⟨0x70020, 23, 1⟩
/-- MAP_PINS WORN_LOSS (R174). -/
def MAP_PINS.WORN_LOSS : Field := ⟨0x70020, 24, 1⟩
/-- MAP_PINS LIST_FULL (R174). -/
def MAP_PINS.LIST_FULL : Field := ⟨0x70020, 25, 1⟩
/-- MAP_LISTS POISON_ENTRIES (R174). -/
def MAP_LISTS.POISON_ENTRIES : Field := ⟨0x70024, 0, 21⟩
/-- MAP_RESIDUE RESIDUE_ENTRIES (R174). -/
def MAP_RESIDUE.RESIDUE_ENTRIES : Field := ⟨0x70028, 0, 23⟩
/-- MAP_WORN WORN_SEGMENTS (R174). -/
def MAP_WORN.WORN_SEGMENTS : Field := ⟨0x7002c, 0, 26⟩
/-- MAP_WIN_SEL LSN (R174). -/
def MAP_WIN_SEL.LSN : Field := ⟨0x70040, 0, 25⟩
/-- MAP_WIN_DATA ENTRY (R174). -/
def MAP_WIN_DATA.ENTRY (i : Nat) : Field := ⟨0x70044 + 4 * i, 0, 32⟩
/-- DISC_FIRST FIRST (R174). -/
def DISC_FIRST.FIRST : Field := ⟨0x70060, 0, 37⟩
/-- DISC_COUNT COUNT (R174). -/
def DISC_COUNT.COUNT : Field := ⟨0x70068, 0, 26⟩
/-- DISC_CMD VARIANT (R174). -/
def DISC_CMD.VARIANT : Field := ⟨0x7006c, 0, 2⟩
/-- DISC_CMD SCOPE (R174). -/
def DISC_CMD.SCOPE : Field := ⟨0x7006c, 2, 1⟩
/-- DISC_CMD GO (R174). -/
def DISC_CMD.GO : Field := ⟨0x7006c, 3, 1⟩
/-- DISC_CMD BUSY (R174). -/
def DISC_CMD.BUSY : Field := ⟨0x7006c, 4, 1⟩
/-- DISC_CMD DONE (R174). -/
def DISC_CMD.DONE : Field := ⟨0x7006c, 5, 1⟩
/-- DISC_CMD RESULT (R174). -/
def DISC_CMD.RESULT : Field := ⟨0x7006c, 6, 3⟩
/-- DISC_PROGRESS DONE_COUNT (R174). -/
def DISC_PROGRESS.DONE_COUNT : Field := ⟨0x70070, 0, 26⟩
/-- PATROL_CFG PERIOD_DAYS (R197). -/
def PATROL_CFG.PERIOD_DAYS : Field := ⟨0x80000, 0, 5⟩
/-- PATROL_CFG REFRESH_BITS (R197). -/
def PATROL_CFG.REFRESH_BITS : Field := ⟨0x80000, 5, 2⟩
/-- PATROL_CFG RELOC_TILES (R197). -/
def PATROL_CFG.RELOC_TILES : Field := ⟨0x80000, 7, 8⟩
/-- PATROL_CFG ACCEL_HOURS (R197). -/
def PATROL_CFG.ACCEL_HOURS : Field := ⟨0x80000, 15, 5⟩
/-- PATROL_CFG PATROL_DEEP (R197). -/
def PATROL_CFG.PATROL_DEEP : Field := ⟨0x80000, 20, 1⟩
/-- PATROL_CFG ACCEL_GO (R197). -/
def PATROL_CFG.ACCEL_GO : Field := ⟨0x80000, 21, 1⟩
/-- PATROL_STAT PASS_PCT (R197). -/
def PATROL_STAT.PASS_PCT : Field := ⟨0x80004, 0, 7⟩
/-- PATROL_STAT ACCEL (R197). -/
def PATROL_STAT.ACCEL : Field := ⟨0x80004, 7, 1⟩
/-- PATROL_STAT QUEUE_FULL (R197). -/
def PATROL_STAT.QUEUE_FULL : Field := ⟨0x80004, 8, 1⟩
/-- PATROL_STAT QUEUED (R197). -/
def PATROL_STAT.QUEUED : Field := ⟨0x80004, 9, 17⟩
/-- SPARE_CFG REBUILD_RATE (R197). -/
def SPARE_CFG.REBUILD_RATE : Field := ⟨0x80010, 0, 8⟩
/-- SPARE_CFG REBUILD_SETS (R197). -/
def SPARE_CFG.REBUILD_SETS : Field := ⟨0x80010, 8, 6⟩
/-- SPARE_CFG DIE_FAIL_LIMIT (R197). -/
def SPARE_CFG.DIE_FAIL_LIMIT : Field := ⟨0x80010, 14, 8⟩
/-- SPARE_STAT SPARES_FREE (R197). -/
def SPARE_STAT.SPARES_FREE : Field := ⟨0x80014, 0, 7⟩
/-- SPARE_STAT REBUILDING (R197). -/
def SPARE_STAT.REBUILDING : Field := ⟨0x80014, 7, 6⟩
/-- SPARE_STAT WAITING (R197). -/
def SPARE_STAT.WAITING : Field := ⟨0x80014, 13, 7⟩
/-- SPARE_STAT DOUBLE_LOST (R197). -/
def SPARE_STAT.DOUBLE_LOST : Field := ⟨0x80014, 20, 1⟩
/-- SPARE_STAT NO_SPARE (R197). -/
def SPARE_STAT.NO_SPARE : Field := ⟨0x80014, 21, 1⟩
/-- SPARE_STAT DATA_LOSS (R197). -/
def SPARE_STAT.DATA_LOSS : Field := ⟨0x80014, 22, 1⟩
/-- REBUILD_PROG CURSOR (R197). -/
def REBUILD_PROG.CURSOR (i : Nat) : Field := ⟨0x80400 + 4 * i, 0, 19⟩
/-- REBUILD_PROG ACTIVE (R197). -/
def REBUILD_PROG.ACTIVE (i : Nat) : Field := ⟨0x80400 + 4 * i, 19, 1⟩
/-- REBUILD_PROG MEMBER (R197). -/
def REBUILD_PROG.MEMBER (i : Nat) : Field := ⟨0x80400 + 4 * i, 20, 4⟩
/-- REBUILD_PROG WAITING (R197). -/
def REBUILD_PROG.WAITING (i : Nat) : Field := ⟨0x80400 + 4 * i, 24, 1⟩
/-- REBUILD_PROG LOST (R197). -/
def REBUILD_PROG.LOST (i : Nat) : Field := ⟨0x80400 + 4 * i, 25, 2⟩
/-- DIE_HEALTH FAIL_CNT (R197). -/
def DIE_HEALTH.FAIL_CNT (i : Nat) : Field := ⟨0x81000 + 4 * i, 0, 8⟩
/-- DIE_HEALTH FAILED (R197). -/
def DIE_HEALTH.FAILED (i : Nat) : Field := ⟨0x81000 + 4 * i, 8, 1⟩
/-- DIE_HEALTH IN_SET (R197). -/
def DIE_HEALTH.IN_SET (i : Nat) : Field := ⟨0x81000 + 4 * i, 9, 1⟩
/-- DIE_HEALTH CAUSE (R197). -/
def DIE_HEALTH.CAUSE (i : Nat) : Field := ⟨0x81000 + 4 * i, 10, 3⟩
/-- CIPHER_CONFIG EARLY_REKEY (R224). -/
def CIPHER_CONFIG.EARLY_REKEY : Field := ⟨0x90000, 0, 1⟩
/-- CIPHER_CONFIG REKEY_MAX (R224). -/
def CIPHER_CONFIG.REKEY_MAX : Field := ⟨0x90000, 1, 6⟩
/-- CIPHER_CONFIG TAMPER_ERASE (R224). -/
def CIPHER_CONFIG.TAMPER_ERASE : Field := ⟨0x90000, 7, 1⟩
/-- CIPHER_STATUS LIFECYCLE (R224). -/
def CIPHER_STATUS.LIFECYCLE : Field := ⟨0x90004, 0, 2⟩
/-- CIPHER_STATUS WIPED (R224). -/
def CIPHER_STATUS.WIPED : Field := ⟨0x90004, 2, 1⟩
/-- CIPHER_STATUS WIPE_CAUSE (R224). -/
def CIPHER_STATUS.WIPE_CAUSE : Field := ⟨0x90004, 3, 3⟩
/-- CIPHER_STATUS VERSION_EXH (R224). -/
def CIPHER_STATUS.VERSION_EXH : Field := ⟨0x90004, 6, 1⟩
/-- CIPHER_STATUS COUNTER_EXH (R224). -/
def CIPHER_STATUS.COUNTER_EXH : Field := ⟨0x90004, 7, 1⟩
/-- CIPHER_STATUS KEY_ABSENT (R224). -/
def CIPHER_STATUS.KEY_ABSENT : Field := ⟨0x90004, 8, 1⟩
/-- CIPHER_STATUS REKEY_ACTIVE (R224). -/
def CIPHER_STATUS.REKEY_ACTIVE : Field := ⟨0x90004, 9, 7⟩
/-- REKEY_PENDING PENDING (R224). -/
def REKEY_PENDING.PENDING : Field := ⟨0x90008, 0, 26⟩
/-- KEY_SEL INDEX (R224). -/
def KEY_SEL.INDEX : Field := ⟨0x90010, 0, 18⟩
/-- KEY_INFO VALID (R224). -/
def KEY_INFO.VALID : Field := ⟨0x90014, 0, 1⟩
/-- KEY_INFO PERSIST (R224). -/
def KEY_INFO.PERSIST : Field := ⟨0x90014, 1, 1⟩
/-- KEY_INFO LOCKED (R224). -/
def KEY_INFO.LOCKED : Field := ⟨0x90014, 2, 1⟩
/-- KEY_INFO ROTATING (R224). -/
def KEY_INFO.ROTATING : Field := ⟨0x90014, 3, 1⟩
/-- KEY_INFO SUCC (R224). -/
def KEY_INFO.SUCC : Field := ⟨0x90014, 4, 18⟩
/-- KEY_KCV KCV (R224). -/
def KEY_KCV.KCV : Field := ⟨0x90018, 0, 32⟩
/-- KEY_SEGS SEGMENTS (R224). -/
def KEY_SEGS.SEGMENTS : Field := ⟨0x9001c, 0, 26⟩
/-- LD_KEY KEYIDX (R224). -/
def LD_KEY.KEYIDX (i : Nat) : Field := ⟨0x90100 + 4 * i, 0, 18⟩
/-- LD_KEY REKEY (R224). -/
def LD_KEY.REKEY (i : Nat) : Field := ⟨0x90100 + 4 * i, 18, 1⟩
/-- LD_KEY REFUSED (R224). -/
def LD_KEY.REFUSED (i : Nat) : Field := ⟨0x90100 + 4 * i, 19, 1⟩
/-- KEY_CMD INDEX (R224). -/
def KEY_CMD.INDEX : Field := ⟨0x90230, 0, 18⟩
/-- KEY_CMD PERSIST (R224). -/
def KEY_CMD.PERSIST : Field := ⟨0x90230, 18, 1⟩
/-- KEY_CMD ROTATE (R224). -/
def KEY_CMD.ROTATE : Field := ⟨0x90230, 19, 1⟩
/-- KEY_CMD OP (R224). -/
def KEY_CMD.OP : Field := ⟨0x90230, 20, 2⟩
/-- KEY_CMD GO (R224). -/
def KEY_CMD.GO : Field := ⟨0x90230, 22, 1⟩
/-- KEY_CMD BUSY (R224). -/
def KEY_CMD.BUSY : Field := ⟨0x90230, 23, 1⟩
/-- KEY_CMD RESULT (R224). -/
def KEY_CMD.RESULT : Field := ⟨0x90230, 24, 3⟩
/-- HP_PORT_CFG SPLIT (R248). -/
def HP_PORT_CFG.SPLIT (i : Nat) : Field := ⟨0xa0000 + 4 * i, 0, 1⟩
/-- HP_PORT_CFG MAX_RATE (R248). -/
def HP_PORT_CFG.MAX_RATE (i : Nat) : Field := ⟨0xa0000 + 4 * i, 1, 3⟩
/-- HP_PORT_CFG FLIT68_EN (R248). -/
def HP_PORT_CFG.FLIT68_EN (i : Nat) : Field := ⟨0xa0000 + 4 * i, 4, 1⟩
/-- HP_PORT_CFG LOPT_EN (R248). -/
def HP_PORT_CFG.LOPT_EN (i : Nat) : Field := ⟨0xa0000 + 4 * i, 5, 1⟩
/-- HP_HEAD_STAT LINK_UP (R248). -/
def HP_HEAD_STAT.LINK_UP (i : Nat) : Field := ⟨0xa0010 + 4 * i, 0, 1⟩
/-- HP_HEAD_STAT WIDTH (R248). -/
def HP_HEAD_STAT.WIDTH (i : Nat) : Field := ⟨0xa0010 + 4 * i, 1, 5⟩
/-- HP_HEAD_STAT RATE (R248). -/
def HP_HEAD_STAT.RATE (i : Nat) : Field := ⟨0xa0010 + 4 * i, 6, 3⟩
/-- HP_HEAD_STAT FLIT256 (R248). -/
def HP_HEAD_STAT.FLIT256 (i : Nat) : Field := ⟨0xa0010 + 4 * i, 9, 1⟩
/-- HP_HEAD_STAT IDE_ACTIVE (R248). -/
def HP_HEAD_STAT.IDE_ACTIVE (i : Nat) : Field := ⟨0xa0010 + 4 * i, 10, 1⟩
/-- HP_HEAD_STAT IDE_FAULT (R248). -/
def HP_HEAD_STAT.IDE_FAULT (i : Nat) : Field := ⟨0xa0010 + 4 * i, 11, 1⟩
/-- HP_HEAD_STAT IN_RESET (R248). -/
def HP_HEAD_STAT.IN_RESET (i : Nat) : Field := ⟨0xa0010 + 4 * i, 12, 1⟩
/-- HP_HEAD_STAT LDS (R248). -/
def HP_HEAD_STAT.LDS (i : Nat) : Field := ⟨0xa0010 + 4 * i, 13, 5⟩
/-- HP_LD_CFG HEAD (R248). -/
def HP_LD_CFG.HEAD (i : Nat) : Field := ⟨0xa0100 + 4 * i, 0, 3⟩
/-- HP_LD_CFG LD_ID (R248). -/
def HP_LD_CFG.LD_ID (i : Nat) : Field := ⟨0xa0100 + 4 * i, 3, 4⟩
/-- HP_LD_CFG DB (R248). -/
def HP_LD_CFG.DB (i : Nat) : Field := ⟨0xa0100 + 4 * i, 7, 1⟩
/-- HP_LD_CFG BLOCKS (R248). -/
def HP_LD_CFG.BLOCKS (i : Nat) : Field := ⟨0xa0100 + 4 * i, 8, 18⟩
/-- HP_LD_CFG REFUSED (R248). -/
def HP_LD_CFG.REFUSED (i : Nat) : Field := ⟨0xa0100 + 4 * i, 26, 1⟩
/-- HP_BLOCK_SEL BLOCK (R248). -/
def HP_BLOCK_SEL.BLOCK : Field := ⟨0xa0200, 0, 17⟩
/-- HP_BLOCK LD (R248). -/
def HP_BLOCK.LD : Field := ⟨0xa0204, 0, 6⟩
/-- HP_BLOCK LD_BLOCK (R248). -/
def HP_BLOCK.LD_BLOCK : Field := ⟨0xa0204, 6, 17⟩
/-- HP_BLOCK KIND (R248). -/
def HP_BLOCK.KIND : Field := ⟨0xa0204, 23, 2⟩
/-- HP_BLOCK RELEASING (R248). -/
def HP_BLOCK.RELEASING : Field := ⟨0xa0204, 25, 1⟩
/-- COH_CONFIG BI_TIMEOUT_MS (R280). -/
def COH_CONFIG.BI_TIMEOUT_MS : Field := ⟨0xb0000, 0, 10⟩
/-- COH_CONFIG PEER_CACHE (R280). -/
def COH_CONFIG.PEER_CACHE : Field := ⟨0xb0000, 10, 1⟩
/-- COH_STATUS DIR_USED (R280). -/
def COH_STATUS.DIR_USED : Field := ⟨0xb0004, 0, 28⟩
/-- COH_STATUS QUEUE_FULL (R280). -/
def COH_STATUS.QUEUE_FULL : Field := ⟨0xb0004, 28, 1⟩
/-- COH_STATUS BI_TIMEOUT (R280). -/
def COH_STATUS.BI_TIMEOUT : Field := ⟨0xb0004, 29, 1⟩
/-- COH_STATUS PEER_LIMIT (R280). -/
def COH_STATUS.PEER_LIMIT : Field := ⟨0xb0004, 30, 1⟩
/-- COH_STATUS PURGING (R280). -/
def COH_STATUS.PURGING : Field := ⟨0xb0004, 31, 1⟩
/-- COH_ACTIVE ACTIVE (R280). -/
def COH_ACTIVE.ACTIVE : Field := ⟨0xb0008, 0, 15⟩
/-- COH_ACTIVE WAITING (R280). -/
def COH_ACTIVE.WAITING : Field := ⟨0xb0008, 15, 17⟩
/-- COH_SLOT LD (R280). -/
def COH_SLOT.LD (i : Nat) : Field := ⟨0xb0100 + 4 * i, 0, 6⟩
/-- COH_SLOT VALID (R280). -/
def COH_SLOT.VALID (i : Nat) : Field := ⟨0xb0100 + 4 * i, 6, 1⟩
/-- COH_SLOT PURGING (R280). -/
def COH_SLOT.PURGING (i : Nat) : Field := ⟨0xb0100 + 4 * i, 7, 1⟩
/-- COH_PEER NODE (R280). -/
def COH_PEER.NODE (i : Nat) : Field := ⟨0xb0200 + 4 * i, 0, 12⟩
/-- COH_PEER GROUP (R280). -/
def COH_PEER.GROUP (i : Nat) : Field := ⟨0xb0200 + 4 * i, 12, 2⟩
/-- COH_PEER VALID (R280). -/
def COH_PEER.VALID (i : Nat) : Field := ⟨0xb0200 + 4 * i, 14, 1⟩
/-- COH_PEER PURGING (R280). -/
def COH_PEER.PURGING (i : Nat) : Field := ⟨0xb0200 + 4 * i, 15, 1⟩
/-- DF_CONFIG NODE_FAIL_SLOTS (R306). -/
def DF_CONFIG.NODE_FAIL_SLOTS : Field := ⟨0xc0000, 0, 4⟩
/-- DF_CONFIG QUORUM_EN (R306). -/
def DF_CONFIG.QUORUM_EN : Field := ⟨0xc0000, 4, 1⟩
/-- DF_CONFIG AUTO_RESYNC (R306). -/
def DF_CONFIG.AUTO_RESYNC : Field := ⟨0xc0000, 5, 1⟩
/-- DF_CONFIG RESYNC_RATE (R306). -/
def DF_CONFIG.RESYNC_RATE : Field := ⟨0xc0000, 6, 16⟩
/-- DF_CONFIG LINK_EN (R306). -/
def DF_CONFIG.LINK_EN : Field := ⟨0xc0000, 22, 8⟩
/-- DF_NODE NODE_ID (R306). -/
def DF_NODE.NODE_ID : Field := ⟨0xc0004, 0, 12⟩
/-- DF_NODE ID_VALID (R306). -/
def DF_NODE.ID_VALID : Field := ⟨0xc0004, 12, 1⟩
/-- DF_NODE ID_CONFLICT (R306). -/
def DF_NODE.ID_CONFLICT : Field := ⟨0xc0004, 13, 1⟩
/-- DF_NODE PRIMARY (R306). -/
def DF_NODE.PRIMARY : Field := ⟨0xc0004, 14, 1⟩
/-- DF_NODE NODES (R306). -/
def DF_NODE.NODES : Field := ⟨0xc0004, 15, 13⟩
/-- DF_VIEW VIEW (R306). -/
def DF_VIEW.VIEW : Field := ⟨0xc0008, 0, 32⟩
/-- DF_LINK STATE (R306). -/
def DF_LINK.STATE (i : Nat) : Field := ⟨0xc0010 + 4 * i, 0, 2⟩
/-- DF_LINK NEIGHBOUR (R306). -/
def DF_LINK.NEIGHBOUR (i : Nat) : Field := ⟨0xc0010 + 4 * i, 2, 12⟩
/-- DF_LINK NEIGH_LINK (R306). -/
def DF_LINK.NEIGH_LINK (i : Nat) : Field := ⟨0xc0010 + 4 * i, 14, 3⟩
/-- DF_LINK REPLAYS (R306). -/
def DF_LINK.REPLAYS (i : Nat) : Field := ⟨0xc0010 + 4 * i, 17, 8⟩
/-- DF_ROUTE PRIMARY (R306). -/
def DF_ROUTE.PRIMARY : Field := ⟨0xc0044, 0, 3⟩
/-- DF_ROUTE ALT1 (R306). -/
def DF_ROUTE.ALT1 : Field := ⟨0xc0044, 3, 3⟩
/-- DF_ROUTE ALT2 (R306). -/
def DF_ROUTE.ALT2 : Field := ⟨0xc0044, 6, 3⟩
/-- DF_ROUTE HOPS (R306). -/
def DF_ROUTE.HOPS : Field := ⟨0xc0044, 9, 5⟩
/-- DF_ROUTE VALID (R306). -/
def DF_ROUTE.VALID : Field := ⟨0xc0044, 14, 1⟩
/-- DF_ROUTE PINNED (R306). -/
def DF_ROUTE.PINNED : Field := ⟨0xc0044, 15, 1⟩
/-- DF_MIRROR HOME_LSN (R306). -/
def DF_MIRROR.HOME_LSN : Field := ⟨0xc0104, 0, 25⟩
/-- DF_MIRROR COUNT (R306). -/
def DF_MIRROR.COUNT : Field := ⟨0xc0104, 25, 25⟩
/-- DF_MIRROR MIRROR_LSN (R306). -/
def DF_MIRROR.MIRROR_LSN : Field := ⟨0xc0104, 50, 25⟩
/-- DF_MIRROR PARTNER (R306). -/
def DF_MIRROR.PARTNER : Field := ⟨0xc0104, 75, 12⟩
/-- DF_MIRROR ROLE (R306). -/
def DF_MIRROR.ROLE : Field := ⟨0xc0104, 87, 1⟩
/-- DF_MIRROR STATE (R306). -/
def DF_MIRROR.STATE : Field := ⟨0xc0104, 88, 3⟩
/-- DF_MIRROR OP (R306). -/
def DF_MIRROR.OP : Field := ⟨0xc0104, 91, 2⟩
/-- DF_MIRROR GO (R306). -/
def DF_MIRROR.GO : Field := ⟨0xc0104, 93, 1⟩
/-- DF_MIRROR REFUSED (R306). -/
def DF_MIRROR.REFUSED : Field := ⟨0xc0104, 94, 1⟩
/-- DF_EXPORT FIRST_BLOCK (R306). -/
def DF_EXPORT.FIRST_BLOCK : Field := ⟨0xc0204, 0, 17⟩
/-- DF_EXPORT COUNT (R306). -/
def DF_EXPORT.COUNT : Field := ⟨0xc0204, 17, 17⟩
/-- DF_EXPORT NODE (R306). -/
def DF_EXPORT.NODE : Field := ⟨0xc0204, 34, 12⟩
/-- DF_EXPORT WRITE (R306). -/
def DF_EXPORT.WRITE : Field := ⟨0xc0204, 46, 1⟩
/-- DF_EXPORT VALID (R306). -/
def DF_EXPORT.VALID : Field := ⟨0xc0204, 47, 1⟩
/-- DF_EXPORT OP (R306). -/
def DF_EXPORT.OP : Field := ⟨0xc0204, 48, 1⟩
/-- DF_EXPORT GO (R306). -/
def DF_EXPORT.GO : Field := ⟨0xc0204, 49, 1⟩
/-- DF_EXPORT REFUSED (R306). -/
def DF_EXPORT.REFUSED : Field := ⟨0xc0204, 50, 1⟩
/-- DF_IMPORT LD (R306). -/
def DF_IMPORT.LD : Field := ⟨0xc0304, 0, 6⟩
/-- DF_IMPORT REGION (R306). -/
def DF_IMPORT.REGION : Field := ⟨0xc0304, 6, 1⟩
/-- DF_IMPORT FIRST_LD_BLOCK (R306). -/
def DF_IMPORT.FIRST_LD_BLOCK : Field := ⟨0xc0304, 7, 17⟩
/-- DF_IMPORT COUNT (R306). -/
def DF_IMPORT.COUNT : Field := ⟨0xc0304, 24, 17⟩
/-- DF_IMPORT POOL_BLOCK (R306). -/
def DF_IMPORT.POOL_BLOCK : Field := ⟨0xc0304, 41, 29⟩
/-- DF_IMPORT VALID (R306). -/
def DF_IMPORT.VALID : Field := ⟨0xc0304, 70, 1⟩
/-- DF_IMPORT OP (R306). -/
def DF_IMPORT.OP : Field := ⟨0xc0304, 71, 1⟩
/-- DF_IMPORT GO (R306). -/
def DF_IMPORT.GO : Field := ⟨0xc0304, 72, 1⟩
/-- DF_IMPORT REFUSED (R306). -/
def DF_IMPORT.REFUSED : Field := ⟨0xc0304, 73, 1⟩
/-- FT_NOW FT (R343). -/
def FT_NOW.FT : Field := ⟨0xd0000, 0, 64⟩
/-- FT_FRAC FRAC (R343). -/
def FT_FRAC.FRAC : Field := ⟨0xd0008, 0, 16⟩
/-- TIME_CFG FTSYNC_EN (R343). -/
def TIME_CFG.FTSYNC_EN : Field := ⟨0xd0010, 0, 1⟩
/-- TIME_CFG PTM_EN (R343). -/
def TIME_CFG.PTM_EN : Field := ⟨0xd0010, 1, 1⟩
/-- TIME_CFG PTM_HEAD (R343). -/
def TIME_CFG.PTM_HEAD : Field := ⟨0xd0010, 2, 3⟩
/-- TIME_CFG SYNC_OUT_EN (R343). -/
def TIME_CFG.SYNC_OUT_EN : Field := ⟨0xd0010, 5, 1⟩
/-- TIME_CFG GM_ELIGIBLE (R343). -/
def TIME_CFG.GM_ELIGIBLE : Field := ⟨0xd0010, 6, 1⟩
/-- TIME_STAT STATE (R343). -/
def TIME_STAT.STATE : Field := ⟨0xd0014, 0, 2⟩
/-- TIME_STAT CLASS (R343). -/
def TIME_STAT.CLASS : Field := ⟨0xd0014, 2, 2⟩
/-- TIME_STAT GM_ID (R343). -/
def TIME_STAT.GM_ID : Field := ⟨0xd0014, 4, 12⟩
/-- TIME_STAT STEPS (R343). -/
def TIME_STAT.STEPS : Field := ⟨0xd0014, 16, 5⟩
/-- TIME_STAT IS_GM (R343). -/
def TIME_STAT.IS_GM : Field := ⟨0xd0014, 21, 1⟩
/-- TIME_STAT REJECTED (R343). -/
def TIME_STAT.REJECTED : Field := ⟨0xd0014, 22, 1⟩
/-- TIME_STAT STEPPED (R343). -/
def TIME_STAT.STEPPED : Field := ⟨0xd0014, 23, 1⟩
/-- TIME_STAT UNTRACEABLE (R343). -/
def TIME_STAT.UNTRACEABLE : Field := ⟨0xd0014, 24, 1⟩
/-- TIME_STAT MAP_REFUSED (R343). -/
def TIME_STAT.MAP_REFUSED : Field := ⟨0xd0014, 25, 1⟩
/-- TIME_OFFSET OFFSET (R343). -/
def TIME_OFFSET.OFFSET : Field := ⟨0xd0018, 0, 32⟩
/-- FTSYNC_OFFSET OFFSET (R343). -/
def FTSYNC_OFFSET.OFFSET : Field := ⟨0xd001c, 0, 32⟩
/-- MAINT_MAP SLOTS (R343). -/
def MAINT_MAP.SLOTS (i j : Nat) : Field := ⟨0xd0100 + 32 * i + 4 * j, 0, 32⟩
/-- TA_STAT PENDING (R343). -/
def TA_STAT.PENDING : Field := ⟨0xd0200, 0, 9⟩
/-- TA_STAT FULL (R343). -/
def TA_STAT.FULL : Field := ⟨0xd0200, 9, 1⟩
/-- TA_STAT LATE (R343). -/
def TA_STAT.LATE : Field := ⟨0xd0200, 10, 1⟩
/-- TA_STAT TA_FAILED (R343). -/
def TA_STAT.TA_FAILED : Field := ⟨0xd0200, 11, 1⟩
/-- TA_STAT TA_REFUSED (R343). -/
def TA_STAT.TA_REFUSED : Field := ⟨0xd0200, 12, 1⟩
/-- CASK_DOM DOMAIN_ID (R343). -/
def CASK_DOM.DOMAIN_ID : Field := ⟨0xd0304, 0, 32⟩
/-- CASK_DOM PERIOD (R343). -/
def CASK_DOM.PERIOD : Field := ⟨0xd0304, 32, 16⟩
/-- CASK_DOM COORD (R343). -/
def CASK_DOM.COORD : Field := ⟨0xd0304, 48, 12⟩
/-- CASK_DOM STATE (R343). -/
def CASK_DOM.STATE : Field := ⟨0xd0304, 60, 4⟩
/-- CASK_DOM EPOCH (R343). -/
def CASK_DOM.EPOCH : Field := ⟨0xd0304, 64, 48⟩
/-- CASK_DOM COMMITTED (R343). -/
def CASK_DOM.COMMITTED : Field := ⟨0xd0304, 112, 48⟩
/-- CASK_DOM RELEASED (R343). -/
def CASK_DOM.RELEASED : Field := ⟨0xd0304, 160, 48⟩
/-- CASK_DOM NODES (R343). -/
def CASK_DOM.NODES : Field := ⟨0xd0304, 208, 7⟩
/-- CASK_DOM EARLY (R343). -/
def CASK_DOM.EARLY : Field := ⟨0xd0304, 215, 1⟩
/-- CASK_DOM LOG_FULL (R343). -/
def CASK_DOM.LOG_FULL : Field := ⟨0xd0304, 216, 1⟩
/-- CASK_CFG DOMAIN_ID (R343). -/
def CASK_CFG.DOMAIN_ID : Field := ⟨0xd0400, 0, 32⟩
/-- CASK_CFG PERIOD (R343). -/
def CASK_CFG.PERIOD : Field := ⟨0xd0400, 32, 16⟩
/-- CASK_CFG SLOT (R343). -/
def CASK_CFG.SLOT : Field := ⟨0xd0400, 48, 44⟩
/-- CASK_CFG LD_MASK (R343). -/
def CASK_CFG.LD_MASK : Field := ⟨0xd0400, 92, 64⟩
/-- CASK_CFG NODES (R343). -/
def CASK_CFG.NODES : Field := ⟨0xd0400, 156, 7⟩
/-- CASK_CFG OP (R343). -/
def CASK_CFG.OP : Field := ⟨0xd0400, 163, 3⟩
/-- CASK_CFG GO (R343). -/
def CASK_CFG.GO : Field := ⟨0xd0400, 166, 1⟩
/-- CASK_CFG REFUSED (R343). -/
def CASK_CFG.REFUSED : Field := ⟨0xd0400, 167, 1⟩
/-- CASK_CFG MEMBER (R343). -/
def CASK_CFG.MEMBER : Field := ⟨0xd0400, 256, 768⟩
/-- CASK_LOG HBM_RECORDS (R343). -/
def CASK_LOG.HBM_RECORDS : Field := ⟨0xd0380, 0, 23⟩
/-- CASK_SPILL SPILL_RECORDS (R343). -/
def CASK_SPILL.SPILL_RECORDS : Field := ⟨0xd0384, 0, 29⟩
/-- CASK_LOG_CFG EARLY_PCT (R343). -/
def CASK_LOG_CFG.EARLY_PCT : Field := ⟨0xd0390, 0, 7⟩
/-- CASK_LOG_CFG SPILL_PCT (R343). -/
def CASK_LOG_CFG.SPILL_PCT : Field := ⟨0xd0390, 7, 7⟩
/-- PWR_CFG PG_TIMEOUT_MS (R367). -/
def PWR_CFG.PG_TIMEOUT_MS : Field := ⟨0xe0000, 0, 7⟩
/-- PWR_CFG RETRIES (R367). -/
def PWR_CFG.RETRIES : Field := ⟨0xe0000, 7, 3⟩
/-- PWR_STAT STEP (R367). -/
def PWR_STAT.STEP : Field := ⟨0xe0004, 0, 5⟩
/-- PWR_STAT ATTEMPT (R367). -/
def PWR_STAT.ATTEMPT : Field := ⟨0xe0004, 5, 4⟩
/-- PWR_STAT FAILED (R367). -/
def PWR_STAT.FAILED : Field := ⟨0xe0004, 9, 1⟩
/-- PWR_STAT FAIL_CH (R367). -/
def PWR_STAT.FAIL_CH : Field := ⟨0xe0004, 10, 5⟩
/-- PWR_RAIL STEP (R367). -/
def PWR_RAIL.STEP (i : Nat) : Field := ⟨0xe0100 + 4 * i, 0, 5⟩
/-- PWR_RAIL SENSE (R367). -/
def PWR_RAIL.SENSE (i : Nat) : Field := ⟨0xe0100 + 4 * i, 5, 2⟩
/-- PWR_RAIL EN (R367). -/
def PWR_RAIL.EN (i : Nat) : Field := ⟨0xe0100 + 4 * i, 7, 1⟩
/-- PWR_RAIL PG (R367). -/
def PWR_RAIL.PG (i : Nat) : Field := ⟨0xe0100 + 4 * i, 8, 1⟩
/-- PWR_RAIL FAULT (R367). -/
def PWR_RAIL.FAULT (i : Nat) : Field := ⟨0xe0100 + 4 * i, 9, 1⟩
/-- HU_CFG0 VMIN (R367). -/
def HU_CFG0.VMIN : Field := ⟨0xe0010, 0, 11⟩
/-- HU_CFG0 EFF (R367). -/
def HU_CFG0.EFF : Field := ⟨0xe0010, 11, 7⟩
/-- HU_CFG0 PDRY (R367). -/
def HU_CFG0.PDRY : Field := ⟨0xe0010, 18, 10⟩
/-- HU_CFG1 MARGIN (R367). -/
def HU_CFG1.MARGIN : Field := ⟨0xe0014, 0, 7⟩
/-- HU_CFG1 DIV (R367). -/
def HU_CFG1.DIV : Field := ⟨0xe0014, 7, 6⟩
/-- HU_CFG1 ITEST (R367). -/
def HU_CFG1.ITEST : Field := ⟨0xe0014, 13, 8⟩
/-- HU_CFG1 DROP (R367). -/
def HU_CFG1.DROP : Field := ⟨0xe0014, 21, 5⟩
/-- HU_CFG1 PERIOD_H (R367). -/
def HU_CFG1.PERIOD_H : Field := ⟨0xe0014, 26, 6⟩
/-- HU_STAT VBANK (R367). -/
def HU_STAT.VBANK : Field := ⟨0xe0018, 0, 11⟩
/-- HU_STAT CHG (R367). -/
def HU_STAT.CHG : Field := ⟨0xe0018, 11, 1⟩
/-- HU_STAT HOLD (R367). -/
def HU_STAT.HOLD : Field := ⟨0xe0018, 12, 1⟩
/-- HU_STAT WT (R367). -/
def HU_STAT.WT : Field := ⟨0xe0018, 13, 1⟩
/-- HU_STAT TEST_FAIL (R367). -/
def HU_STAT.TEST_FAIL : Field := ⟨0xe0018, 14, 1⟩
/-- HU_CAP CAP_MF (R367). -/
def HU_CAP.CAP_MF : Field := ⟨0xe001c, 0, 20⟩
/-- HU_CAP E_USE (R367). -/
def HU_CAP.E_USE : Field := ⟨0xe001c, 20, 12⟩
/-- HU_TEST GO (R367). -/
def HU_TEST.GO : Field := ⟨0xe0020, 0, 1⟩
/-- HU_TEST BUSY (R367). -/
def HU_TEST.BUSY : Field := ⟨0xe0020, 1, 1⟩
/-- HU_TEST DONE (R367). -/
def HU_TEST.DONE : Field := ⟨0xe0020, 2, 1⟩
/-- HU_TEST RESULT (R367). -/
def HU_TEST.RESULT : Field := ⟨0xe0020, 3, 3⟩
/-- DRY_CFG CUT_US (R367). -/
def DRY_CFG.CUT_US : Field := ⟨0xe0030, 0, 11⟩
/-- DRY_CFG VIN_WARN (R367). -/
def DRY_CFG.VIN_WARN : Field := ⟨0xe0030, 11, 10⟩
/-- DRY_CFG VIN_GOOD (R367). -/
def DRY_CFG.VIN_GOOD : Field := ⟨0xe0030, 21, 10⟩
/-- DRY_STAT PHASE (R367). -/
def DRY_STAT.PHASE : Field := ⟨0xe0034, 0, 3⟩
/-- DRY_STAT CAUSE (R367). -/
def DRY_STAT.CAUSE : Field := ⟨0xe0034, 3, 3⟩
/-- DRY_STAT OUTCOME (R367). -/
def DRY_STAT.OUTCOME : Field := ⟨0xe0034, 6, 2⟩
/-- SEQ_STAT ROLE (R367). -/
def SEQ_STAT.ROLE : Field := ⟨0xe0040, 0, 2⟩
/-- SEQ_STAT SLOT (R367). -/
def SEQ_STAT.SLOT : Field := ⟨0xe0040, 2, 6⟩
/-- SEQ_STAT SLAVES (R367). -/
def SEQ_STAT.SLAVES : Field := ⟨0xe0040, 8, 6⟩
/-- SEQ_STAT SEQ_LOST (R367). -/
def SEQ_STAT.SEQ_LOST : Field := ⟨0xe0040, 14, 1⟩
/-- SEQ_STAT CRC_ERR (R367). -/
def SEQ_STAT.CRC_ERR : Field := ⟨0xe0040, 15, 1⟩
/-- RST_CFG STRETCH_MS (R367). -/
def RST_CFG.STRETCH_MS (i : Nat) : Field := ⟨0xe0080 + 4 * i, 0, 8⟩
/-- RST_CFG LOW (R367). -/
def RST_CFG.LOW (i : Nat) : Field := ⟨0xe0080 + 4 * i, 8, 1⟩
/-- START_STAT STAGE (R383). -/
def START_STAT.STAGE : Field := ⟨0xf0000, 0, 4⟩
/-- START_STAT CAUSE (R383). -/
def START_STAT.CAUSE : Field := ⟨0xf0000, 4, 3⟩
/-- START_STAT POP_REFUSED (R383). -/
def START_STAT.POP_REFUSED : Field := ⟨0xf0000, 7, 1⟩
/-- START_STAT MEDIA_RETRY (R383). -/
def START_STAT.MEDIA_RETRY : Field := ⟨0xf0000, 8, 1⟩
/-- START_TIME MS (R383). -/
def START_TIME.MS : Field := ⟨0xf0004, 0, 16⟩
/-- THERM_CFG T_START (R392). -/
def THERM_CFG.T_START : Field := ⟨0x20000, 0, 7⟩
/-- THERM_CFG SLOPE (R392). -/
def THERM_CFG.SLOPE : Field := ⟨0x20000, 7, 5⟩
/-- THERM_CFG MED_START (R392). -/
def THERM_CFG.MED_START : Field := ⟨0x20000, 12, 7⟩
/-- THERM_CFG MED_SLOPE (R392). -/
def THERM_CFG.MED_SLOPE : Field := ⟨0x20000, 19, 5⟩
/-- THERM_CFG REMOTE_CRIT_EN (R392). -/
def THERM_CFG.REMOTE_CRIT_EN : Field := ⟨0x20000, 24, 1⟩
/-- THERM_STAT TJ (R392). -/
def THERM_STAT.TJ : Field := ⟨0x20004, 0, 9⟩
/-- THERM_STAT CAP (R392). -/
def THERM_STAT.CAP : Field := ⟨0x20004, 9, 7⟩
/-- THERM_STAT THROTTLING (R392). -/
def THERM_STAT.THROTTLING : Field := ⟨0x20004, 16, 1⟩
/-- THERM_STAT VALID (R392). -/
def THERM_STAT.VALID : Field := ⟨0x20004, 17, 6⟩
/-- THERM_STAT SENSOR_FAULT (R392). -/
def THERM_STAT.SENSOR_FAULT : Field := ⟨0x20004, 23, 1⟩
/-- THERM_STAT REMOTE_ALERT (R392). -/
def THERM_STAT.REMOTE_ALERT : Field := ⟨0x20004, 24, 1⟩
/-- MED_TEMP HOTTEST (R392). -/
def MED_TEMP.HOTTEST (i : Nat) : Field := ⟨0x20010 + 4 * i, 0, 8⟩
/-- MED_TEMP PROG_CAP (R392). -/
def MED_TEMP.PROG_CAP (i : Nat) : Field := ⟨0x20010 + 4 * i, 8, 7⟩
/-- TSNS_CFG MODE (R392). -/
def TSNS_CFG.MODE (i : Nat) : Field := ⟨0x20100 + 8 * i, 0, 2⟩
/-- TSNS_CFG WARN (R392). -/
def TSNS_CFG.WARN (i : Nat) : Field := ⟨0x20100 + 8 * i, 2, 8⟩
/-- TSNS_CFG CRIT (R392). -/
def TSNS_CFG.CRIT (i : Nat) : Field := ⟨0x20100 + 8 * i, 10, 8⟩
/-- TSNS_VAL TEMP (R392). -/
def TSNS_VAL.TEMP (i : Nat) : Field := ⟨0x20104 + 8 * i, 0, 12⟩
/-- TSNS_VAL OPEN (R392). -/
def TSNS_VAL.OPEN (i : Nat) : Field := ⟨0x20104 + 8 * i, 12, 1⟩
/-- TSNS_VAL AT_WARN (R392). -/
def TSNS_VAL.AT_WARN (i : Nat) : Field := ⟨0x20104 + 8 * i, 13, 1⟩
/-- TSNS_VAL AT_CRIT (R392). -/
def TSNS_VAL.AT_CRIT (i : Nat) : Field := ⟨0x20104 + 8 * i, 14, 1⟩
/-- KQ_BASE BASE (R414). -/
def KQ_BASE.BASE (i j : Nat) : Field := ⟨0x10000 + 32 * i + 8 * j, 6, 58⟩
/-- KQ_CTRL SQ_LOG (R414). -/
def KQ_CTRL.SQ_LOG (i : Nat) : Field := ⟨0x10010 + 32 * i, 0, 4⟩
/-- KQ_CTRL CQ_LOG (R414). -/
def KQ_CTRL.CQ_LOG (i : Nat) : Field := ⟨0x10010 + 32 * i, 4, 4⟩
/-- KQ_CTRL LD (R414). -/
def KQ_CTRL.LD (i : Nat) : Field := ⟨0x10010 + 32 * i, 8, 6⟩
/-- KQ_CTRL VECTOR (R414). -/
def KQ_CTRL.VECTOR (i : Nat) : Field := ⟨0x10010 + 32 * i, 14, 6⟩
/-- KQ_CTRL WEIGHT (R414). -/
def KQ_CTRL.WEIGHT (i : Nat) : Field := ⟨0x10010 + 32 * i, 20, 4⟩
/-- KQ_CTRL ENABLE (R414). -/
def KQ_CTRL.ENABLE (i : Nat) : Field := ⟨0x10010 + 32 * i, 24, 1⟩
/-- KQ_CTRL FORCE (R414). -/
def KQ_CTRL.FORCE (i : Nat) : Field := ⟨0x10010 + 32 * i, 25, 1⟩
/-- KQ_KEY KEYIDX (R414). -/
def KQ_KEY.KEYIDX (i : Nat) : Field := ⟨0x10014 + 32 * i, 0, 18⟩
/-- KQ_STAT STATE (R414). -/
def KQ_STAT.STATE (i : Nat) : Field := ⟨0x10018 + 32 * i, 0, 2⟩
/-- KQ_STAT ERR_CAUSE (R414). -/
def KQ_STAT.ERR_CAUSE (i : Nat) : Field := ⟨0x10018 + 32 * i, 2, 3⟩
/-- KQ_STAT INFLIGHT (R414). -/
def KQ_STAT.INFLIGHT (i : Nat) : Field := ⟨0x10018 + 32 * i, 5, 11⟩
/-- KQ_STAT DELETING (R414). -/
def KQ_STAT.DELETING (i : Nat) : Field := ⟨0x10018 + 32 * i, 16, 1⟩
/-- KQ_STAT CQ_HELD (R414). -/
def KQ_STAT.CQ_HELD (i : Nat) : Field := ⟨0x10018 + 32 * i, 17, 1⟩
/-- KQ_GLOBAL INFLIGHT (R414). -/
def KQ_GLOBAL.INFLIGHT : Field := ⟨0x12000, 0, 11⟩
/-- KQ_GLOBAL FETCH_HELD (R414). -/
def KQ_GLOBAL.FETCH_HELD : Field := ⟨0x12000, 11, 1⟩
/-- KQ_GLOBAL QUEUES (R414). -/
def KQ_GLOBAL.QUEUES : Field := ⟨0x12000, 12, 9⟩
/-- KQ_ADMIN ADMIN (R414). -/
def KQ_ADMIN.ADMIN : Field := ⟨0x12008, 0, 64⟩
/-- REG_ID MAP_VERSION (R452). -/
def REG_ID.MAP_VERSION : Field := ⟨0x0, 0, 8⟩
/-- REG_ID STEPPING (R452). -/
def REG_ID.STEPPING : Field := ⟨0x0, 8, 8⟩
/-- REG_STATUS ACCESS_ERR (R452). -/
def REG_STATUS.ACCESS_ERR : Field := ⟨0x4, 0, 1⟩
/-- REG_STATUS WR_DENIED (R452). -/
def REG_STATUS.WR_DENIED : Field := ⟨0x4, 1, 1⟩
/-- REG_STATUS FROZEN_WR (R452). -/
def REG_STATUS.FROZEN_WR : Field := ⟨0x4, 2, 1⟩
/-- REG_STATUS UNLOCK_BAD (R452). -/
def REG_STATUS.UNLOCK_BAD : Field := ⟨0x4, 3, 1⟩
/-- REG_STATUS UNLOCK_ARMED (R452). -/
def REG_STATUS.UNLOCK_ARMED : Field := ⟨0x4, 4, 1⟩
/-- REG_STATUS UNLOCK_DISABLED (R452). -/
def REG_STATUS.UNLOCK_DISABLED : Field := ⟨0x4, 5, 1⟩
/-- REG_LOCK PWR_LOCK (R452). -/
def REG_LOCK.PWR_LOCK : Field := ⟨0x8, 0, 1⟩
/-- REG_LOCK KEY_LOCK (R452). -/
def REG_LOCK.KEY_LOCK : Field := ⟨0x8, 1, 1⟩
/-- UNLOCK KEY (R452). -/
def UNLOCK.KEY : Field := ⟨0x10, 0, 16⟩
/-- UPDATE MASK (R452). -/
def UPDATE.MASK : Field := ⟨0x20, 0, 16⟩
/-- UPDATE TIMED (R452). -/
def UPDATE.TIMED : Field := ⟨0x20, 16, 1⟩
/-- UPDATE DROP (R452). -/
def UPDATE.DROP : Field := ⟨0x20, 17, 1⟩
/-- UPDATE_STAT STAGED (R452). -/
def UPDATE_STAT.STAGED : Field := ⟨0x24, 0, 16⟩
/-- UPDATE_STAT LAST_HANDLE (R452). -/
def UPDATE_STAT.LAST_HANDLE : Field := ⟨0x24, 16, 16⟩
/-- UPDATE_AT AT (R452). -/
def UPDATE_AT.AT : Field := ⟨0x28, 0, 64⟩
/-- RWP_STAT FROZEN (R452). -/
def RWP_STAT.FROZEN : Field := ⟨0x30, 0, 12⟩
/-- RWP_STAT NEAR (R452). -/
def RWP_STAT.NEAR : Field := ⟨0x30, 12, 12⟩
/-- RWP_SEL OFFSET (R452). -/
def RWP_SEL.OFFSET : Field := ⟨0x40, 0, 20⟩
/-- RWP_INFO WRITES (R452). -/
def RWP_INFO.WRITES : Field := ⟨0x44, 0, 23⟩
/-- RWP_INFO FROZEN (R452). -/
def RWP_INFO.FROZEN : Field := ⟨0x44, 23, 1⟩
/-- RWP_INFO IS_RWP (R452). -/
def RWP_INFO.IS_RWP : Field := ⟨0x44, 24, 1⟩
/-- ENG_STAT ROLE (R473). -/
def ENG_STAT.ROLE (i : Nat) : Field := ⟨0x14000 + 4 * i, 0, 3⟩
/-- ENG_STAT STATE (R473). -/
def ENG_STAT.STATE (i : Nat) : Field := ⟨0x14000 + 4 * i, 3, 2⟩
/-- ENG_STAT CAUSE (R473). -/
def ENG_STAT.CAUSE (i : Nat) : Field := ⟨0x14000 + 4 * i, 5, 3⟩
/-- ENG_STAT DUTY (R473). -/
def ENG_STAT.DUTY (i : Nat) : Field := ⟨0x14000 + 4 * i, 8, 5⟩
/-- ENG_STAT STAGED (R473). -/
def ENG_STAT.STAGED (i : Nat) : Field := ⟨0x14000 + 4 * i, 13, 1⟩
/-- ENG_SUMMARY SPARES (R473). -/
def ENG_SUMMARY.SPARES : Field := ⟨0x14100, 0, 3⟩
/-- ENG_SUMMARY FAILED (R473). -/
def ENG_SUMMARY.FAILED : Field := ⟨0x14100, 3, 7⟩
/-- ENG_SUMMARY ROLE_UNHELD (R473). -/
def ENG_SUMMARY.ROLE_UNHELD : Field := ⟨0x14100, 10, 1⟩
/-- ENG_SUMMARY AON_OK (R473). -/
def ENG_SUMMARY.AON_OK : Field := ⟨0x14100, 11, 2⟩
/-- MOVER_STAT BUSY (R473). -/
def MOVER_STAT.BUSY (i : Nat) : Field := ⟨0x14200 + 4 * i, 0, 1⟩
/-- MOVER_STAT HALT (R473). -/
def MOVER_STAT.HALT (i : Nat) : Field := ⟨0x14200 + 4 * i, 1, 1⟩
/-- MOVER_STAT RETIRED (R473). -/
def MOVER_STAT.RETIRED (i : Nat) : Field := ⟨0x14200 + 4 * i, 2, 1⟩
/-- MOVER_STAT OWNER (R473). -/
def MOVER_STAT.OWNER (i : Nat) : Field := ⟨0x14200 + 4 * i, 3, 6⟩
/-- MOVER_STAT HALTS (R473). -/
def MOVER_STAT.HALTS (i : Nat) : Field := ⟨0x14200 + 4 * i, 9, 2⟩
/-- MEM_MACRO REMAP_USED (R473). -/
def MEM_MACRO.REMAP_USED (i : Nat) : Field := ⟨0x14400 + 4 * i, 0, 4⟩
/-- MEM_MACRO OUT (R473). -/
def MEM_MACRO.OUT (i : Nat) : Field := ⟨0x14400 + 4 * i, 4, 1⟩
/-- MEM_MACRO RETAINED (R473). -/
def MEM_MACRO.RETAINED (i : Nat) : Field := ⟨0x14400 + 4 * i, 5, 1⟩
/-- MEM_MACRO TESTING (R473). -/
def MEM_MACRO.TESTING (i : Nat) : Field := ⟨0x14400 + 4 * i, 6, 1⟩
/-- MEM_MACRO CORRECTED (R473). -/
def MEM_MACRO.CORRECTED (i : Nat) : Field := ⟨0x14400 + 4 * i, 7, 9⟩
/-- HBM_REMAP USED (R473). -/
def HBM_REMAP.USED (i : Nat) : Field := ⟨0x14e00 + 4 * i, 0, 7⟩
/-- HBM_REMAP EXHAUSTED (R473). -/
def HBM_REMAP.EXHAUSTED (i : Nat) : Field := ⟨0x14e00 + 4 * i, 7, 1⟩
/-- BGT_CFG BGT_EN (R473). -/
def BGT_CFG.BGT_EN : Field := ⟨0x14e10, 0, 1⟩
/-- BGT_CFG BGT_GAP_US (R473). -/
def BGT_CFG.BGT_GAP_US : Field := ⟨0x14e10, 1, 14⟩
/-- BGT_STAT MACRO (R473). -/
def BGT_STAT.MACRO : Field := ⟨0x14e14, 0, 10⟩
/-- BGT_STAT REGION (R473). -/
def BGT_STAT.REGION : Field := ⟨0x14e14, 10, 7⟩
/-- BGT_STAT PASSES (R473). -/
def BGT_STAT.PASSES : Field := ⟨0x14e14, 17, 15⟩
/-- RET_CFG RET_EN (R473). -/
def RET_CFG.RET_EN : Field := ⟨0x14e18, 0, 1⟩
/-- RET_CFG RET_IDLE_US (R473). -/
def RET_CFG.RET_IDLE_US : Field := ⟨0x14e18, 1, 16⟩
/-- MEMTEST_SEL MACRO (R473). -/
def MEMTEST_SEL.MACRO : Field := ⟨0x14e20, 0, 10⟩
/-- MEMTEST_SEL WORD (R473). -/
def MEMTEST_SEL.WORD : Field := ⟨0x14e20, 10, 14⟩
/-- MEMTEST_DATA DATA (R473). -/
def MEMTEST_DATA.DATA : Field := ⟨0x14e28, 0, 64⟩
/-- MEMTEST_CHECK CHECK (R473). -/
def MEMTEST_CHECK.CHECK : Field := ⟨0x14e30, 0, 8⟩
/-- MEMTEST_CHECK SYNDROME (R473). -/
def MEMTEST_CHECK.SYNDROME : Field := ⟨0x14e30, 8, 8⟩
/-- MEMTEST_CMD OP (R473). -/
def MEMTEST_CMD.OP : Field := ⟨0x14e34, 0, 2⟩
/-- MEMTEST_CMD GO (R473). -/
def MEMTEST_CMD.GO : Field := ⟨0x14e34, 2, 1⟩
/-- MEMTEST_CMD DENIED (R473). -/
def MEMTEST_CMD.DENIED : Field := ⟨0x14e34, 3, 1⟩
/-- WEALI_STAT RETIRED (R486). -/
def WEALI_STAT.RETIRED : Field := ⟨0x100, 0, 11⟩
/-- WEALI_STAT REMAP_FULL (R486). -/
def WEALI_STAT.REMAP_FULL : Field := ⟨0x100, 11, 1⟩
/-- WEALI_STAT WRITE_ERR (R486). -/
def WEALI_STAT.WRITE_ERR : Field := ⟨0x100, 12, 1⟩
/-- WEALI_STAT RING_EMPTY (R486). -/
def WEALI_STAT.RING_EMPTY : Field := ⟨0x100, 13, 1⟩
/-- WEALI_STAT SWEEP_PCT (R486). -/
def WEALI_STAT.SWEEP_PCT : Field := ⟨0x100, 14, 7⟩
/-- WEALI_PASSES TA_PASSES (R486). -/
def WEALI_PASSES.TA_PASSES : Field := ⟨0x104, 0, 17⟩
/-- WEALI_BOARD_ADDR OFFSET (R486). -/
def WEALI_BOARD_ADDR.OFFSET : Field := ⟨0x110, 0, 14⟩
/-- WEALI_BOARD_CMD LEN (R486). -/
def WEALI_BOARD_CMD.LEN : Field := ⟨0x118, 0, 7⟩
/-- WEALI_BOARD_CMD OP (R486). -/
def WEALI_BOARD_CMD.OP : Field := ⟨0x118, 7, 2⟩
/-- WEALI_BOARD_CMD GO (R486). -/
def WEALI_BOARD_CMD.GO : Field := ⟨0x118, 9, 1⟩
/-- WEALI_BOARD_CMD BUSY (R486). -/
def WEALI_BOARD_CMD.BUSY : Field := ⟨0x118, 10, 1⟩
/-- WEALI_BOARD_CMD ACCEPTED (R486). -/
def WEALI_BOARD_CMD.ACCEPTED : Field := ⟨0x118, 11, 7⟩
/-- WEALI_BOARD_CMD REFUSED (R486). -/
def WEALI_BOARD_CMD.REFUSED : Field := ⟨0x118, 18, 1⟩
/-- TALLY_CFG WINDOW_MS (R507). -/
def TALLY_CFG.WINDOW_MS : Field := ⟨0x1000, 0, 14⟩
/-- TALLY_STAT WINDOWS (R507). -/
def TALLY_STAT.WINDOWS : Field := ⟨0x1004, 0, 32⟩
/-- TALLY_USER USER_READ (R507). -/
def TALLY_USER.USER_READ : Field := ⟨0x1010, 0, 64⟩
/-- CNT_CTRL CHAIN (R507). -/
def CNT_CTRL.CHAIN (i : Nat) : Field := ⟨0x1100 + 4 * i, 0, 4⟩
/-- CNT_CTRL CLEAR (R507). -/
def CNT_CTRL.CLEAR (i : Nat) : Field := ⟨0x1100 + 4 * i, 4, 8⟩
/-- CNT COUNT (R507). -/
def CNT.COUNT (i j : Nat) : Field := ⟨0x1200 + 64 * i + 8 * j, 0, 48⟩
/-- TALLY_BW RD_MBPS (R507). -/
def TALLY_BW.RD_MBPS (i : Nat) : Field := ⟨0x1700 + 8 * i, 0, 32⟩
/-- TALLY_BW WR_MBPS (R507). -/
def TALLY_BW.WR_MBPS (i : Nat) : Field := ⟨0x1700 + 8 * i, 32, 32⟩
/-- LIFE TOTAL (R507). -/
def LIFE.TOTAL (i : Nat) : Field := ⟨0x2000 + 8 * i, 0, 64⟩
/-- HIST COUNT (R507). -/
def HIST.COUNT (i j : Nat) : Field := ⟨0x4000 + 128 * i + 4 * j, 0, 32⟩
/-- SAMPLE_CTRL ENABLE (R507). -/
def SAMPLE_CTRL.ENABLE : Field := ⟨0x3800, 0, 1⟩
/-- SAMPLE_CTRL RATE_LOG (R507). -/
def SAMPLE_CTRL.RATE_LOG : Field := ⟨0x3800, 1, 5⟩
/-- SAMPLE_CTRL LD (R507). -/
def SAMPLE_CTRL.LD : Field := ⟨0x3800, 6, 7⟩
/-- SAMPLE_CTRL CLOSE (R507). -/
def SAMPLE_CTRL.CLOSE : Field := ⟨0x3800, 13, 1⟩
/-- SAMPLE_CTRL DROP_REST (R507). -/
def SAMPLE_CTRL.DROP_REST : Field := ⟨0x3800, 14, 1⟩
/-- SAMPLE_STAT READABLE (R507). -/
def SAMPLE_STAT.READABLE : Field := ⟨0x3804, 0, 14⟩
/-- SAMPLE_STAT PAUSED (R507). -/
def SAMPLE_STAT.PAUSED : Field := ⟨0x3804, 14, 1⟩
/-- SAMPLE_STAT UNDERRUN (R507). -/
def SAMPLE_STAT.UNDERRUN : Field := ⟨0x3804, 15, 1⟩
/-- SILL_CFG INTERVAL_S (R507). -/
def SILL_CFG.INTERVAL_S : Field := ⟨0x3000, 0, 17⟩
/-- SILL_STAT RECORDS (R507). -/
def SILL_STAT.RECORDS : Field := ⟨0x3004, 0, 15⟩
/-- SILL_STAT FULL (R507). -/
def SILL_STAT.FULL : Field := ⟨0x3004, 15, 1⟩
/-- SILL_STAT STOPPED (R507). -/
def SILL_STAT.STOPPED : Field := ⟨0x3004, 16, 1⟩
/-- AVAIL_STAT PLL_SINGLE (R520). -/
def AVAIL_STAT.PLL_SINGLE : Field := ⟨0x200, 0, 1⟩
/-- AVAIL_STAT OSC_SINGLE (R520). -/
def AVAIL_STAT.OSC_SINGLE : Field := ⟨0x200, 1, 1⟩
/-- AVAIL_STAT PLANE_SINGLE (R520). -/
def AVAIL_STAT.PLANE_SINGLE : Field := ⟨0x200, 2, 1⟩
/-- AVAIL_STAT STACK_SINGLE (R520). -/
def AVAIL_STAT.STACK_SINGLE : Field := ⟨0x200, 3, 1⟩
/-- AVAIL_STAT STACK_FAILED (R520). -/
def AVAIL_STAT.STACK_FAILED : Field := ⟨0x200, 4, 1⟩
/-- AVAIL_STAT DIR_UNKNOWN (R520). -/
def AVAIL_STAT.DIR_UNKNOWN : Field := ⟨0x200, 5, 1⟩
/-- AVAIL_STAT CIPHER_UNITS (R520). -/
def AVAIL_STAT.CIPHER_UNITS : Field := ⟨0x200, 6, 5⟩
/-- AVAIL_STAT BELOW_MIN (R520). -/
def AVAIL_STAT.BELOW_MIN : Field := ⟨0x200, 11, 1⟩
/-- KEY_STAGE WORD (R224). -/
def KEY_STAGE.WORD (i : Nat) : Field := ⟨0x90200 + 4 * i, 0, 32⟩
/-- KEY_SESSION SESSION (R224). -/
def KEY_SESSION.SESSION : Field := ⟨0x90228, 0, 32⟩
/-- KEY_FROM ROTATE_FROM (R224). -/
def KEY_FROM.ROTATE_FROM : Field := ⟨0x9022c, 0, 18⟩
/-- DF_ROUTE_SEL NODE (R306). -/
def DF_ROUTE_SEL.NODE : Field := ⟨0xc0040, 0, 12⟩
/-- DF_MIRROR_SEL ENTRY (R306). -/
def DF_MIRROR_SEL.ENTRY : Field := ⟨0xc0100, 0, 8⟩
/-- DF_EXPORT_SEL ENTRY (R306). -/
def DF_EXPORT_SEL.ENTRY : Field := ⟨0xc0200, 0, 8⟩
/-- DF_IMPORT_SEL ENTRY (R306). -/
def DF_IMPORT_SEL.ENTRY : Field := ⟨0xc0300, 0, 8⟩
/-- CASK_SEL SLOT (R343). -/
def CASK_SEL.SLOT : Field := ⟨0xd0300, 0, 4⟩
/-- DRY_LOST TILES (R367). -/
def DRY_LOST.TILES : Field := ⟨0xe0038, 0, 27⟩
/-- DSC COUNT (R367). -/
def DSC.COUNT : Field := ⟨0xe003c, 0, 32⟩
/-- WEALI_BOARD_DATA BYTES (R486). -/
def WEALI_BOARD_DATA.BYTES (i : Nat) : Field := ⟨0x120 + 4 * i, 0, 32⟩
/-- SAMPLE_LOST LOST (R507). -/
def SAMPLE_LOST.LOST : Field := ⟨0x3808, 0, 32⟩
/-- SAMPLE_DATA WORD (R507). -/
def SAMPLE_DATA.WORD : Field := ⟨0x380c, 0, 32⟩
/-- SILL_GEN GEN (R507). -/
def SILL_GEN.GEN : Field := ⟨0x3008, 0, 32⟩
/-- SILL_OLDEST SEQ (R507). -/
def SILL_OLDEST.SEQ : Field := ⟨0x300c, 0, 32⟩
/-- SILL_NEWEST SEQ (R507). -/
def SILL_NEWEST.SEQ : Field := ⟨0x3010, 0, 32⟩
/-- SILL_REPEAT COUNT (R507). -/
def SILL_REPEAT.COUNT : Field := ⟨0x3014, 0, 32⟩
/-- SILL_DROPPED COUNT (R507). -/
def SILL_DROPPED.COUNT : Field := ⟨0x3018, 0, 32⟩
/-- SILL_SEL SEQ (R507). -/
def SILL_SEL.SEQ : Field := ⟨0x3020, 0, 32⟩
/-- SILL_CLEAR SEQ (R507). -/
def SILL_CLEAR.SEQ : Field := ⟨0x3024, 0, 32⟩
/-- SILL_DATA WORD (R507). -/
def SILL_DATA.WORD (i : Nat) : Field := ⟨0x3100 + 4 * i, 0, 32⟩

end Reg

end Sys2Proof.Machine
end

