-- ==== Sys2Proof/Machine/State.lean ====
section
/-!
DEFINITION. The state of the PG9664 as the spec gives it, the reasons a step can stop, and the state after reset.
Everything is plain data. Collections with a key are sorted lists without default entries (SMap, Machine/Ops.lean), so
equal contents are equal data. The BAR2 registers are the words of Machine/RegTable.lean, held sparsely over their
reset values; state that is not a register stands in the structures below, chapter by chapter.
-/

namespace Sys2Proof.Machine

/-- A total map from numbers: keys strictly rising, no entry equal to the map's default (Machine/Ops.lean). -/
abbrev SMap (α : Type) := List (Nat × α)

/-- Byte-addressed memory in canonical form: addresses strictly rising, no entry that reads as an unlisted byte. -/
abbrev Memory := List Host.Cell

/-- Why the machine stops with a fault. -/
inductive Fault where
  /-- A register write that changes RSV bits from the value read: the behaviour is undefined and outside the manual
  (spec/00, R10). Raised by every BAR2 write operation. Safe: the model stops where the spec gives no effect. -/
  | rsvBitsChanged
deriving DecidableEq, Repr

/-- Why the machine gives a command no meaning. -/
inductive Refusal where
  /-- The command has no meaning yet. Raised by Machine/Dispatch.lean alone. Safe: the model stops. -/
  | notModelled (mnemonic : String)
deriving DecidableEq, Repr

/-! ### Events and logs (spec/21, R503 to R505) -/

/-- The level an event is raised at; it names the log (R503). -/
inductive EvLevel where
  | info | warning | critical | fatal | dynCap
deriving DecidableEq, Repr

/-- The kind of an event record's CODE (R504). -/
inductive EvKind where
  | limit | fault | lost | refused | changed | protocol | timed | selfTest
deriving DecidableEq, Repr

/-- An event record (R504); `media` marks a standard General Media record (R503), `handle` the record's handle. -/
structure EvRec where
  level : EvLevel
  block : Nat := 0
  unit : Nat := 0
  kind : EvKind
  evseq : Nat := 0
  ft : Nat := 0
  /-- The Get Timestamp value of the log's function at the event (R504). -/
  stamp : Nat := 0
  addr : Nat := 0
  psn : Nat := 0
  ld : Nat := 0
  lines : Nat := 0
  statOff : Nat := 0
  statBit : Nat := 0
  detail : List Nat := []
  media : Bool := false
  handle : Nat := 0
deriving DecidableEq, Repr

/-- One event log of one LD function: at most 256 records, the overflow count and its first and last FT (R503). -/
structure EvLog where
  recs : List EvRec := []
  overflow : Nat := 0
  firstOver : Nat := 0
  lastOver : Nat := 0
deriving DecidableEq, Repr

/-! ### Requests and the coherence home (spec/10) -/

/-- Where a request to a line came from. -/
inductive ReqSrc where
  /-- A host request: head, LD, tag. -/
  | host (head ld tag : Nat)
  /-- A visitor request of a peer: link it came in on, node, TID. -/
  | peer (link node tid : Nat)
  /-- A poison write or a write of the part itself on behalf of a mailbox command (R238). -/
  | own (ld : Nat)
  /-- A mirror copy of a write, and a line of a resynchronised tile, placed here for the home `node`: its TID and the LINE
  of the message (R300, R301). -/
  | mirror (node tid line : Nat)
  | resync (node tid line : Nat)
deriving DecidableEq, Repr

/-- What a request asks of the home (R261, R272). -/
inductive ReqOp where
  | rdS | rdA | rdI
  | invA | invI
  | wrI | wrS
deriving DecidableEq, Repr

/-- A request at the home. `line` is a line key (home line, or visitor line with its node), `full` says that every
byte is written. -/
structure HReq where
  src : ReqSrc
  op : ReqOp
  line : Nat := 0
  data : Line := 0
  mask : BitVec 64 := 0
  poison : Bool := false
  kind : Nat := 0
  meta_ : Nat := 0
  at_ : Nat := 0
  keepE : Bool := false
  credit : Bool := false
  sampled : Bool := false
deriving DecidableEq, Repr

/-- A snoop's addressee. -/
inductive SnoopTo where
  | slot (i : Nat)
  | peer (node : Nat)
deriving DecidableEq, Repr

/-- A snoop outstanding: to whom, invalidating or downgrading, the BITag of a BISnp, and since when. -/
structure Snoop where
  dest : SnoopTo
  inv : Bool := false
  head : Nat := 0
  tag : Nat := 0
  sent : Bool := false
  at_ : Nat := 0
  /-- TID of the message to a peer (R270). -/
  tid : Nat := 0
deriving DecidableEq, Repr

/-- What an active transaction waits for once its snoops are answered. -/
inductive ActPhase where
  /-- A directory victim is being invalidated (R259). -/
  | victim (key : Nat) (way : Nat)
  /-- No way of the directory set is free of an active line (R259). -/
  | dirFull
  /-- Snoops are out. -/
  | snoop
  /-- A FWD was sent to the PX owner (R272). -/
  | fwd
  /-- The tag record is being read from HBM (R72). -/
  | tag
  /-- The request waits for a miss register (R74). -/
  | missWait
  /-- The request is a secondary of a miss register (R73). -/
  | reg
  /-- The tile cannot be taken: mash spill, way change or a line of a failed set (R71, R91). -/
  | held
  /-- The line's home is another node and it has been asked (R267). -/
  | remote
  /-- The data are placed; completions are awaited. -/
  | placed
  /-- The answer was sent to a peer; its ACK is awaited (R274). -/
  | ack
deriving DecidableEq, Repr

/-- What a sample record tells of a request's way (R496): FT at the stages, hit, sparge, last round (7 no media read), key
index, physical segment and busy partitions. -/
structure Trace where
  tHome : Nat := 0
  tMap : Nat := 0
  tMedia : Nat := 0
  hit : Bool := false
  sparge : Bool := false
  round : Nat := 7
  keyidx : Nat := 0
  psn : Nat := 0
  busy : Nat := 0
deriving DecidableEq, Repr

/-- The active transaction of a line (R250). -/
structure Act where
  id : Nat := 0
  req : HReq
  phase : ActPhase
  snoops : List Snoop := []
  /-- Data a snoop or an owner brought, already placed (R264). -/
  fwdData : Option Line := none
  /-- MCMP awaited (R123). -/
  wantMirror : Bool := false
  /-- A tile program, or a journal or pin-spill program, awaited (R140). -/
  wantProg : Bool := false
  /-- The ACK of a peer requester awaited (R274). -/
  wantAck : Bool := false
  /-- CMP owed to a peer requester of a dirty forward (R273). -/
  oweCmp : Bool := false
  /-- Answered already: a response left. -/
  answered : Bool := false
  /-- A write-back taken as snoop data (R263): it stands beside the line's transaction. -/
  wb : Bool := false
  /-- Every possible holder of a line in an unknown directory set is asked: 1 under way, 2 done (R515). -/
  asked : Nat := 0
  /-- A write-through write, by its admission (R139 to R141). -/
  thru : Bool := false
  /-- Counted once: its lookup of the tag cache, its hit or miss (R72, R489); its write was shown to the streaming detector, with what
  that answered (R80). -/
  looked : Bool := false
  tallied : Bool := false
  tracked : Bool := false
  streams : Bool := false
  /-- What the sample record and the histogram need. -/
  trace : Trace := {}
deriving DecidableEq, Repr

/-- A directory entry (R255, R256). -/
structure DirEntry where
  tag : Nat := 0
  state : Nat := 0
  proxy : Bool := false
  sharers : BitVec 32 := 0
  ext : Nat := 0
  age : Bool := false
deriving DecidableEq, Repr

/-- A transaction of this node as proxy towards a home (R267 to R269). -/
structure ProxyTxn where
  act : Nat := 0
  tid : Nat := 0
  home : Nat := 0
  opc : Nat := 0
  line : Nat := 0
  gotData : Option Line := none
  poison : Bool := false
  denied : Bool := false
  grant : Nat := 0
  nc : Bool := false
  gotCmp : Bool := false
deriving DecidableEq, Repr

/-- A snoop of a home being served by this proxy (R273, R276): the visitor line, the OPC, TID, home and AUX of the
message, its local snoops, and data a local host wrote back. -/
structure Owed where
  key : Nat := 0
  opc : Nat := 0
  tid : Nat := 0
  aux : Nat := 0
  snoops : List Snoop := []
  data : Option Line := none
deriving DecidableEq, Repr

/-- What follows once the part's own requests to a range of lines have been served: a mailbox path answered (R238), a
command completed (R423), a mirror entry's exchange of home and mirror (R304). -/
inductive OwnEnd where
  | path (p : Nat)
  | cmd (src : Option CmdSrc)
  | swap (entry : Nat)
deriving DecidableEq, Repr

/-- The part's own requests to lines of this home that something waits for: first line, lines, what follows. -/
structure OwnWait where
  first : Nat := 0
  count : Nat := 0
  after : OwnEnd
deriving DecidableEq, Repr

/-- The state of the coherence home (spec/10). -/
structure Home where
  /-- Directory sets: eight entries each (R254). -/
  dir : SMap (List DirEntry) := []
  /-- Sets in the on-die directory cache (R254). -/
  dirCache : List Nat := []
  /-- Active transactions, by age (R250). -/
  act : List Act := []
  /-- Requests in line queues, in arrival order (R250). -/
  wait : List HReq := []
  /-- Requests held at the input of their head or link (R251). -/
  stall : List HReq := []
  /-- BI slots whose purge walk runs, and LDs that wait for it (R257). -/
  purging : List Nat := []
  slotWait : List Nat := []
  /-- Transactions as proxy (R267). -/
  proxy : List ProxyTxn := []
  /-- Snoops of other homes being served (R276). -/
  owed : List Owed := []
  /-- Number of the next transaction. -/
  next : Nat := 0
  /-- NDRs owed to an LD for a line ahead of a BIConflictAck (R265). -/
  conflicts : List (Nat × Nat) := []
  /-- LDs whose lines' states are unknown after a loss of directory contents (spec/22, R515). -/
  unknown : Bool := false
  /-- Requests of the part itself that a command or a mirror entry waits for. -/
  owns : List OwnWait := []
deriving DecidableEq, Repr

/-! ### Line cache (spec/03) -/

/-- One way of a set (R69) with its 256 bytes. `cause` is the cause of a pin (R166): 0 none, 1 counter unknown,
2 counter ended, 3 worn, 4 key locked, 5 version ended; `again` marks sectors written since the program in flight took
its copy (R85); `resv` marks a way a miss register has reserved (R70). -/
structure Way where
  ltn : Nat := 0
  node : Nat := 0
  valid : BitVec 4 := 0
  dirty : BitVec 4 := 0
  poison : BitVec 4 := 0
  ld : Nat := 0
  pfu : Bool := false
  pin : Bool := false
  evq : Bool := false
  again : BitVec 4 := 0
  resv : Bool := false
  cause : Nat := 0
  spilled : Bool := false
  data : Tile := 0
deriving DecidableEq, Repr

/-- A set: its sixteen ways, its replacement tree (R69, R70), and the tree as the record in the HBM side-band has it, which changes only
when the record leaves the tag cache (R67). -/
structure CacheSet where
  ways : List Way := []
  tree : BitVec 15 := 0
  saved : BitVec 15 := 0
deriving DecidableEq, Repr

/-- A stream tracker (R80). -/
structure Tracker where
  id : Nat := 0
  ld : Nat := 0
  /-- Its start tile, or the last tile it completed once `run` is not 0; tiles completed in a row. -/
  last : Nat := 0
  run : Nat := 0
  /-- Tiles being filled and their lines seen. -/
  parts : List (Nat × BitVec 4) := []
deriving DecidableEq, Repr

/-- A mash-buffer slot (R81). -/
structure Mash where
  ltn : Nat := 0
  ld : Nat := 0
  valid : BitVec 4 := 0
  poison : BitVec 4 := 0
  data : Tile := 0
  prog : Bool := false
deriving DecidableEq, Repr

/-- The operation of a range job (R86). -/
inductive RangeOp where
  | clean | invalidate | flush
deriving DecidableEq, Repr

/-- A range-engine job (R86, R87); `left` lists the tiles it has still to see programmed, `late` those a miss register
held when the walk reached them. -/
structure RangeJob where
  op : RangeOp
  scopeLd : Bool := false
  ld : Nat := 0
  /-- Tile runs of a range: (first tile, tiles). -/
  tiles : List (Nat × Nat) := []
  src : Option CmdSrc := none
  started : Bool := false
  left : List Nat := []
  late : List Nat := []
  dropped : Nat := 0
  /-- INV_DONE is owed to the LD when the job ends (R90). -/
  invDone : Bool := false
deriving DecidableEq, Repr

/-- Where an LD's disable sequence stands (R89). -/
inductive DisPhase where
  | firstClean | holdClean
deriving DecidableEq, Repr

/-- An LD whose disable sequence runs (R89), and the commands that complete with it. -/
structure Disabling where
  ld : Nat := 0
  phase : DisPhase
  left : List Nat := []
  src : Option CmdSrc := none
deriving DecidableEq, Repr

/-- A miss-wait or overflow place (R74): the transaction of a request, its tile key and head. -/
structure MissWait where
  act : Nat := 0
  tile : Nat := 0
  head : Nat := 0
  overflow : Bool := false
deriving DecidableEq, Repr

/-- The line cache (spec/03). -/
structure Cache where
  /-- Host sets (R68). -/
  sets : SMap CacheSet := []
  /-- Visitor sets (R68). -/
  vsets : SMap CacheSet := []
  /-- Tag records in the on-die tag cache: 2 × set + 1 for a visitor set (R72). -/
  tags : List Nat := []
  /-- Tag records being read (R72). -/
  tagReads : List Nat := []
  missWait : List MissWait := []
  trackers : List Tracker := []
  mash : List Mash := []
  /-- Cleaner: running, and its cursor (R85). -/
  cleaning : Bool := false
  cleanAt : Nat := 0
  jobs : List RangeJob := []
  disabling : List Disabling := []
  /-- LDs whose lookup is off: disabled (R88). -/
  lookupOff : List Nat := []
  /-- A change of ways under way: the ways asked, and the command that completes with it (R91). -/
  wayTarget : Option Nat := none
  waySrc : Option CmdSrc := none
  /-- Ways woken: regions of an increase still waking (R91). -/
  waking : Bool := false
  visSrc : Option CmdSrc := none
deriving DecidableEq, Repr

/-! ### Miss registers and tile reads (spec/03 R73, spec/04) -/

/-- What a tile read is for. -/
inductive RdWhy where
  | demand | prefetch | rmw | counter | noFill
  | patrol | copy | rekey | rebuild | resync | scan | selfTest | poisonFix
deriving DecidableEq, Repr

/-- The phase of a miss register. -/
inductive RdPhase where
  /-- The map entry is being read (R96). -/
  | map
  /-- Waiting to issue (R100). -/
  | issue
  /-- Chunk reads are out. -/
  | reading
  /-- A second copy of the tile was asked for after a CRC mismatch (R49). -/
  | resend
  /-- Waits for a free deep recovery (R111). -/
  | deepWait
  /-- In deep recovery (R110). -/
  | deep
  /-- Waits for the mirror's answer (R110 step 6). -/
  | mirror
  /-- Waits for an eligible way (R71, R78). -/
  | way
deriving DecidableEq, Repr

/-- What is kept of one chunk of a tile read (R108): reads outstanding and the die they went to (32 × channel + position),
whether a read returned, the kept decode, its generation, the DREF counts u and w, the round-0 offset it was read at, and
every read of it in deep recovery (R110). -/
structure ChunkSt where
  out : Nat := 0
  die : Nat := 0
  raws : List Chunk := []
  seen : Bool := false
  dec : Option (BitVec 272 × Nat) := none
  gen : Nat := 0
  u : Nat := 0
  w : Nat := 0
  off : Int := 0
  /-- Counted as uncorrectable for its die (R186). -/
  counted : Bool := false
deriving DecidableEq, Repr

/-- How a tile read ends (R112, R137). -/
inductive ReadEnd where
  /-- Verified in a round 0 to 3, or in deep recovery (4). -/
  | good (plain cipher : Tile) (f : FieldBlock) (round : Nat)
  /-- The mirror's copy. -/
  | mirror (t : Tile) (poison : BitVec 4)
  /-- The failure outcome, or a torn tile; with the fields of an accepted outer decode. -/
  | bad (torn : Bool) (f : Option FieldBlock)
deriving DecidableEq, Repr

/-- A miss register (R73). -/
structure Reg where
  key : TileRef
  why : RdWhy
  phase : RdPhase
  /-- The pair of the re-key under way when the entry was looked up (R17, R203), and the end kept for the second copy of the
  tile (R49). -/
  alt : Option (Nat × Nat) := none
  end_ : Option ReadEnd := none
  /-- The way reserved in the tile's set (R70). -/
  way : Option Nat := none
  /-- Transactions it serves, in arrival order: the request that took it, if one did, and its secondaries (R73). -/
  secs : List Nat := []
  primary : Bool := false
  psn : Nat := 0
  t : Nat := 0
  keyidx : Nat := 0
  keyver : Nat := 0
  age : Nat := 0
  bucket : Nat := 0
  round : Nat := 0
  /-- RP_CONFIG and the gravity entry as they stood when the read was issued (R102 to R104, R117). -/
  cfg : Nat := 0
  grav : Nat := 0
  chunks : List ChunkSt := []
  /-- Patrol chunk reads that wait for their channel or partition, with their offsets (R178). -/
  due : List (Nat × Int) := []
  /-- Sparge read in round 0 (R97), and busy partitions at issue (R496). -/
  sparge : Bool := false
  busy : Nat := 0
  /-- The sweep of deep recovery has been issued (R110). -/
  swept : Bool := false
  /-- A rebuild's read whose tile was programmed meanwhile (R190). -/
  stale : Bool := false
  tile : Tile := 0
  fields : Option FieldBlock := none
  /-- Copy, re-key or rebuild the read works for: its LSN or die set. -/
  job : Nat := 0
  at_ : Nat := 0
  tMap : Nat := 0
deriving DecidableEq, Repr

/-- A set of calibration tiles in a group's reserve: when it was written, in units of 2^30 ns, and its places (R107). -/
structure CalSet where
  group : Nat := 0
  at_ : Nat := 0
  places : List (Nat × Nat) := []
deriving DecidableEq, Repr

/-- The registers in use (R73), the reference trims of every die and partition (R106), and the deep recoveries. -/
structure Reads where
  regs : List Reg := []
  /-- Trim accumulators and trims, keyed by 512 × channel + 16 × position + partition; stored offset by nothing, as
  integers. -/
  acc : SMap Int := []
  trim : SMap Int := []
  /-- Lanes held for deep recovery, oldest first: 16 × die set + lane, and the read that holds it (R110). -/
  holds : List (Nat × TileRef) := []
  /-- Gravity-table entries changed by calibration or reset, taking effect at the next slot boundary (R107, R117). -/
  gravNext : List (Nat × Nat) := []
  gravReset : List Nat := []
  /-- Tables stored in the Weali store at the hourly checkpoint (R107): (group × 256 + entry, word + 1). -/
  gravStored : SMap Nat := []
  /-- The calibration tile sets of the groups, which are on the medium and outlast every start but a first format (R107). -/
  cal : List CalSet := []
  /-- MRDs out for a deep recovery or the background (R110): (LTN, bounded). -/
  mrds : List (Nat × Bool) := []
  /-- Tiles a mirror sent in the background, for lines still poison on the medium (R110 step 6): LTN, data, poison. -/
  fixes : List (Nat × Tile × BitVec 4) := []
deriving DecidableEq, Repr

/-! ### Tile programs (spec/05) -/

/-- What a tile program is for. -/
inductive PgWhy where
  | evict | clean | mash | through | discardTile | pinned
  | copy | refresh | mark | scrubOnes | scrubMark | rekey | poisonFix | patrolFix
  | journal | checkpoint | delta | undo | pinSpill | pinIndex | keyTable | archive | lsa | format | calib | reserve
  | rebuild | selfTest
deriving DecidableEq, Repr

/-- The phase of a tile program. -/
inductive PgPhase where
  /-- An RMW read is needed or out (R127). -/
  | read
  /-- A counter read is needed or out (R129). -/
  | counter
  /-- Waits for a lane grant (R132). -/
  | ready
  /-- A wave is under way (R133). -/
  | wave
  /-- Between waves in a lane held for deep recovery (R110). -/
  | paused
  /-- The set holds two lost members, or the program of the tile waits on another (R126, R193). -/
  | blocked
deriving DecidableEq, Repr

/-- A tile program with its source in staging (R99, R125). -/
structure Prog where
  id : Nat := 0
  why : PgWhy
  cls : Nat := 0
  ltn : Nat := 0
  psn : Nat := 0
  t : Nat := 0
  phase : PgPhase
  /-- Plaintext source, sectors that hold data, sectors the program covers dirty, and poison. -/
  data : Tile := 0
  valid : BitVec 4 := 0
  dirty : BitVec 4 := 0
  poison : BitVec 4 := 0
  /-- Content programmed as it stands: ciphertext and fields (copies, refreshes, markings). -/
  raw : Option FieldBlock := none
  /-- Old fields found by the RMW or counter read (R129). -/
  old : Option FieldBlock := none
  keyidx : Nat := 0
  keyver : Nat := 0
  wcount : Nat := 0
  /-- Counted in the dirty charge on its own account (R83). -/
  charged : Bool := false
  /-- Waves: the wave under way, chunks of it not finished, chunks programmed again, chunks left failed. -/
  wave : Nat := 0
  pend : List Nat := []
  /-- Chunks of the wave not yet sent: a read of their partition is outstanding (R98). -/
  hold : List Nat := []
  again : List Nat := []
  failed : List Nat := []
  /-- One allowance or two (R133). -/
  allow : Nat := 0
  ld : Nat := 0
  /-- Chunks on a rebuilding or failed member are skipped (R133, R191). -/
  skip : List Nat := []
  job : Nat := 0
  /-- Lines were poisoned under R128 (R144); two or more chunks were left failed, and the source waits for the copy of its segment
  (R134). -/
  spoiled : Bool := false
  kept : Bool := false
deriving DecidableEq, Repr

/-- Programs and chunk programs on the medium (spec/05). -/
structure Progs where
  list : List Prog := []
  next : Nat := 0
  /-- Maintenance operations holding partitions: channels under retrain, and those whose retrain waits for its lanes (R188). -/
  retrain : List Nat := []
  retrainWait : List Nat := []
deriving DecidableEq, Repr

/-! ### Segment map (spec/06) -/

/-- A map entry (R145). -/
structure MapEntry where
  psn : Nat := 0
  keyidx : Nat := 0
  keyver : Nat := 0
  note : Nat := 0
  lwt : Nat := 0
  state : Nat := 0
  mirror : Nat := 0
  cask : Bool := false
  heat : Nat := 0
deriving DecidableEq, Repr

/-- Why a segment is copied (R158). -/
inductive CopyWhy where
  | racking | patrol | verify | verifyNow | endure | worn | vacate | evacuate | doubleLoss | mirrorLoss
deriving DecidableEq, Repr

/-- What a kind 0Ah record tells of a copy under way (R151, R154), with the copy's purpose. The record's body has no place for the
purpose: that it is kept with the record is a DESIGN CHOICE (log 154). -/
structure CopyRec where
  lsn : Nat := 0
  target : Nat := 0
  prev : Nat := 0
  why : CopyWhy := .patrol
deriving DecidableEq, Repr

/-- A copy under way (R158). -/
structure Copy where
  lsn : Nat := 0
  target : Nat := 0
  source : Nat := 0
  why : CopyWhy
  prev : Nat := 0
  /-- Tiles still to copy in this pass, tiles to copy in the next, tiles whose read or program is out. -/
  pend : BitVec 4096 := 0
  redo : BitVec 4096 := 0
  out : List Nat := []
  pass : Nat := 0
  held : Bool := false
  retireSource : Bool := false
deriving DecidableEq, Repr

/-- A slot being release-marked or scrubbed (R157, R171). -/
structure Marking where
  psn : Nat := 0
  /-- Waits for R101. -/
  waiting : Bool := false
  since : Nat := 0
  next : Nat := 0
  /-- Passes left: 1 marking; 2 all-ones first. -/
  scrub : Bool := false
  /-- The slot keeps its place in the free list while it is scrubbed (R171). -/
  keeps : Bool := false
  failed : Bool := false
  /-- The slot is retired afterwards whatever happens. -/
  retire : Bool := false
  lsn : Nat := 0
  started : Bool := false
  /-- Tiles whose program is out. -/
  out : List Nat := []
deriving DecidableEq, Repr

/-- The scope a discard names. -/
inductive DiscScope where
  | segments | tiles
deriving DecidableEq, Repr

/-- A discard in progress (R169 to R173). -/
structure Discard where
  id : Nat := 0
  scope : DiscScope
  secure : Bool := false
  first : Nat := 0
  count : Nat := 0
  /-- First DPA as the command gave it; segments still to take, in runs (first LSN, count); units completed. -/
  dpa : Nat := 0
  runs : List (Nat × Nat) := []
  done : Nat := 0
  /-- Tiles whose program is awaited, and mirrored segments whose MDACK is (R170, R172). -/
  tiles : List Nat := []
  mirror : List Nat := []
  /-- Segments held with their requests admitted before still to complete (R169 step 1). -/
  draining : List Nat := []
  /-- Scrubs the discard waits for: segment and slot (R171). -/
  scrubbing : List (Nat × Nat) := []
  src : Option CmdSrc := none
  fromReg : Bool := false
  /-- Block or LD work the discard serves: 0 none; 1 + block for a release; LD for a sanitize. -/
  why : Nat := 0
  advance : Bool := false
deriving DecidableEq, Repr

/-- A journal record (R151). -/
structure JRec where
  lsn : Nat := 0
  kind : Nat := 0
  body : Nat := 0
  seq : Nat := 0
  crc : Nat := 0
  /-- The purpose of the copy a kind 0Ah record names. -/
  why : CopyWhy := .patrol
deriving DecidableEq, Repr

/-- A segment queued for re-key (R215): class 1 exhausted or counter unknown, 2 early, 3 rotation, 4 binding. -/
structure Rekey where
  lsn : Nat := 0
  cls : Nat := 0
  newIdx : Option Nat := none
deriving DecidableEq, Repr

/-- What a checkpoint or a drydown delta holds of the map (R152, R153). -/
structure MapImage where
  number : Nat := 0
  seq : Nat := 0
  entries : SMap MapEntry := []
  pcount : SMap Nat := []
  copies : List CopyRec := []
  /-- Has the heat walk been made, and the lists of this chapter that stand in the controller tables, as they stood. -/
  walked : Bool := false
  worn : List Nat := []
  retired : List Nat := []
  residue : List (Nat × Nat) := []
  poison : SMap (BitVec 4) := []
  rekeyTab : SMap (Nat × Nat) := []
  rekeyLd : List (Nat × Nat) := []
  rekeys : List Rekey := []
  /-- Slots under release marking or scrub, whose marking starts again (R157). -/
  marks : List Marking := []
  valid : Bool := false
deriving DecidableEq, Repr

/-- A re-key under way: next tile, tiles out. -/
structure RekeyRun where
  lsn : Nat := 0
  oldIdx : Nat := 0
  oldVer : Nat := 0
  next : Nat := 0
  out : List Nat := []
deriving DecidableEq, Repr

/-- A pin-spill entry (R166): LTN, cause, dirty and poison bits, contents. -/
structure PinSpill where
  ltn : Nat := 0
  cause : Nat := 0
  valid : BitVec 4 := 0
  dirty : BitVec 4 := 0
  poison : BitVec 4 := 0
  data : Tile := 0
  /-- Its tile slot in the pin spill, which is its place in the index too. -/
  slot : Nat := 0
deriving DecidableEq, Repr

/-- The segment map and what stands beside it (spec/06). -/
structure MapSt where
  entries : SMap MapEntry := []
  /-- Tile programs of each slot: PCOUNT × 4,096 + residue (R155). -/
  pcount : SMap Nat := []
  /-- First formats so far: each programmed every tile of every slot once (R213, R376). -/
  formats : Nat := 0
  retired : List Nat := []
  /-- Slots out of the free list awaiting or under marking, and scrubs (R157, R171). -/
  marks : List Marking := []
  /-- The poison list: LTN and line mask (R165). -/
  poison : SMap (BitVec 4) := []
  residue : List (Nat × Nat) := []
  /-- Segments mapped afresh after their data were lost: the tiles not rewritten since, whose lines read poison (R194). -/
  afresh : SMap (BitVec 4096) := []
  /-- Reserve slots that hold the history archive (R176, R503). -/
  archive : List Nat := []
  /-- Entries that wait for a place in the full residue list (R171). -/
  residueWait : List (Nat × Nat) := []
  /-- Worn segments in the order they became worn (R168). -/
  worn : List Nat := []
  copies : List Copy := []
  copyWait : List (Nat × CopyWhy) := []
  discards : List Discard := []
  discNext : Nat := 0
  /-- Die set of the previous new mapping (R156). -/
  lastSet : Nat := 0
  jseq : Nat := 0
  /-- Records in staging not yet in a full tile, and records on the medium (R150). -/
  jstage : List JRec := []
  jmedia : List JRec := []
  /-- Records of journal tiles in flight, by program; segments whose record must be on the medium first in
  write-through mode (R150). -/
  jfly : List (Nat × List JRec) := []
  jwait : List Nat := []
  /-- Entries in force for lookups of segments whose change waits for its journal tile in write-through mode (R150). -/
  inForce : List (Nat × MapEntry) := []
  ckpts : List MapImage := []
  delta : Option MapImage := none
  ckptBusy : Bool := false
  ckptDue : Bool := false
  /-- Slot number at which the last checkpoint started (R152). -/
  ckptLast : Nat := 0
  rekeys : List Rekey := []
  rekeyTab : SMap (Nat × Nat) := []
  rekeyRun : List RekeyRun := []
  rekeyLd : List (Nat × Nat) := []
  spill : List PinSpill := []
  racking : Bool := false
  /-- Does racking's next move take the top segment (R161)? -/
  rackTop : Bool := false
  /-- Has the heat walk been made: entries never stored read NOTE base since (R149)? -/
  walked : Bool := false
  /-- Has the first write that was not stored been told (R164)? -/
  lossTold : Bool := false
  /-- Segments queued for a walk: events told once (R214). -/
  told : List (Nat × Nat) := []
  loaded : Bool := false
deriving DecidableEq, Repr

/-! ### Patrol and sparing (spec/07) -/

/-- A rebuild (R190). -/
structure Rebuild where
  ds : Nat := 0
  member : Nat := 0
  /-- 0 reserve slots, 1 mapped data slots, 2 free data slots, 3 ended (R190). -/
  phase : Nat := 0
  /-- Slot and tile the cursor has reached, active or waiting (R192). -/
  slot : Nat := 0
  tile : Nat := 0
  active : Bool := false
  out : List Nat := []
deriving DecidableEq, Repr

/-- A refresh waiting (R180): place, content. -/
structure Refresh where
  psn : Nat := 0
  t : Nat := 0
  lsn : Nat := 0
  /-- The segment's map entry as it stood (R182). -/
  entry : MapEntry := {}
deriving DecidableEq, Repr

/-- Patrol and sparing (spec/07). -/
structure Patrol where
  /-- Cursors: slot × 4,096 + tile per die set (R176). -/
  cursor : SMap Nat := []
  stored : SMap Nat := []
  /-- Cursors that had wrapped in their pass at the last counter checkpoint (R483). -/
  storedWrap : List Nat := []
  passes : Nat := 0
  wrapped : List Nat := []
  accel : SMap Nat := []
  accelOn : Bool := false
  queue : List Refresh := []
  drops : Nat := 0
  /-- Tallies of R184: (LSN, tiles). -/
  tally : SMap Nat := []
  freeTally : SMap Nat := []
  /-- Corrected bits per die (R179), keyed 32 × channel + position. -/
  bits : SMap Nat := []
  /-- Failure-count window: (die, slot number) of each failure (R186). -/
  fails : List (Nat × Nat) := []
  failed : SMap Nat := []
  /-- Dies declared failed in the frame under way, by channel (R187). -/
  frameFails : List (Nat × Nat) := []
  rebuilds : List Rebuild := []
  lost : SMap Nat := []
  /-- Lost members for which no spare was found, 16 × die set + member (R195). -/
  noSpare : List Nat := []
  /-- DCRC refusals in a row per die (R60, R186), refusals of this slot (R188), retrains failed in a row (R187). -/
  refused : SMap Nat := []
  slotRef : SMap Nat := []
  retries : SMap Nat := []
  /-- Unanswered commands in a row per die (R186) and CRC-failed responses resent (R61). -/
  silent : SMap Nat := []
  crcTries : SMap Nat := []
  chFailed : List Nat := []
  /-- Channels whose ALERT_N is low (R62, R187). -/
  alerts : List Nat := []
  /-- IDENT answered correctly at this start, by package 2 × channel + package (R55, R371). -/
  ident : SMap Bool := []
  trained : Bool := false
  /-- Population fixed at first format: packages per channel, 0 before it (R55). -/
  pop : Nat := 0
  /-- Package readings in quarter degrees plus 2^16, 0 while a package has given none, keyed 2 × channel + package (R61,
  R62). -/
  temps : SMap Nat := []
deriving DecidableEq, Repr

/-! ### Keys (spec/08) -/

/-- A key context (R207); `root` and `subkey` are the secret words. -/
structure KeyCtx where
  root : BitVec 256 := 0
  valid : Bool := false
  persist : Bool := false
  locked : Bool := false
  rotating : Bool := false
  succ : Nat := 0
  kcv : BitVec 32 := 0
deriving DecidableEq, Repr

/-- A key-table record in the reserve (R208): wrapped root (persistent) or KCV alone, in two copies in turn. -/
structure KeyRec where
  root : Option (BitVec 256) := none
  kcv : BitVec 32 := 0
  seq : Nat := 0
  /-- The successor of an index in ROTATING state, which a start finds again (R215, R217). -/
  succ : Option Nat := none
deriving DecidableEq, Repr

/-- An SPDM session (R208, R241). -/
structure Session where
  id : BitVec 32 := 0
  at_ : DoeOn
  withMutual : Bool := false
  secret : BitVec 256 := 0
deriving DecidableEq, Repr

/-- A KEY_LOAD or KEY_RETIRE under way whose completion waits for the key table (R208) or discards (R212). -/
structure KeyOp where
  idx : Nat := 0
  retire : Bool := false
  src : Option CmdSrc := none
  /-- The root unwrapped, PERSIST, and ROTATE_FROM. -/
  root : BitVec 256 := 0
  persist : Bool := false
  from_ : Option Nat := none
deriving DecidableEq, Repr

/-- Keys, sessions and the wipe (spec/08). -/
structure Keys where
  ctx : SMap KeyCtx := []
  table : SMap KeyRec := []
  dgen : Nat := 0
  rgen : Nat := 0
  /-- Derived keys (index, version), most recently used first (R210). -/
  derived : List (Nat × Nat) := []
  sessions : List Session := []
  lifecycle : Nat := 0
  wiping : Bool := false
  wiped : Bool := false
  wipeFilled : Bool := false
  fuse : Bool := false
  ops : List KeyOp := []
  staged : BitVec 320 := 0
  /-- Events told once per index and slot, and per index and root (R209, R214). -/
  toldSlot : List Nat := []
  toldRoot : List Nat := []
  /-- Writes are held for a lifecycle transition (R219). -/
  holdWrites : Bool := false
  /-- A lifecycle transition that waits: its target and its command (R219, R434). -/
  lcWait : Option (Nat × CmdSrc) := none
  /-- Indexes reserved by a timed KEY_LOAD, with the root it holds (R325). -/
  resv : List (Nat × BitVec 256) := []
deriving DecidableEq, Repr

/-! ### Host ports (spec/09) -/

/-- An LD's assignment in force (R229): its head, LD-ID and memory type. -/
structure LdAsg where
  head : Nat := 0
  ldId : Nat := 0
  db : Bool := false
  /-- A change written and not yet in force, and the heads that must still reset (R229, R248). -/
  heads : List Nat := []
deriving DecidableEq, Repr

/-- A device block's owner (R231): kind 0 free, 1 static, 2 DC region 0, 3 DC region 1; `ready` is a DC block that host
software has accepted. -/
structure Block where
  kind : Nat := 0
  ld : Nat := 0
  num : Nat := 0
  releasing : Bool := false
  ready : Bool := false
deriving DecidableEq, Repr

/-- An HDM decoder (R233), with the DPA it starts at as committed. -/
structure Decoder where
  committed : Bool := false
  err : Bool := false
  cfg : DecoderCfg
  dpa : Nat := 0
deriving DecidableEq, Repr

/-- What a head holds beside its registers. -/
structure HeadSt where
  /-- RwD credits granted and not used (R84, R228); M2S credit withheld under R74 or R251. -/
  rwdOut : Nat := 0
  withheld : Bool := false
  /-- Stays down after an IDE failure until a fresh key is programmed (R242). -/
  ideNeeded : Bool := false
  key : Option (BitVec 256) := none
  standby : Option (BitVec 256) := none
deriving DecidableEq, Repr

/-- A line, by its line key, in the device's poison list (R238), and whether a scan or the patrol found it. -/
structure PoisonLine where
  line : Nat := 0
  scan : Bool := false
deriving DecidableEq, Repr

/-- The standard return codes of a mailbox command (R397, R406). -/
inductive Rc where
  | success | started | invalidInput | unsupported | internalError | busy | aborted
deriving DecidableEq, Repr

/-- A command path that carries one command at a time (R394): whether it holds one, and its opcode and payload length. -/
structure MboxSt where
  busy : Bool := false
  /-- Its command is being carried out. -/
  run : Bool := false
  opc : Nat := 0
  len : Nat := 0
  /-- FT of the doorbell (R495). -/
  at_ : Nat := 0
deriving DecidableEq, Repr

/-- The background operation of an LD function (R397): its path and opcode, 0 for none; its outcome once its work has
ended; the opcode and outcome of the last one reported. -/
structure BgOp where
  path : Nat := 0
  opc : Nat := 0
  res : Option (Rc × List Byte) := none
  lastOpc : Nat := 0
  lastRc : Rc := .success
deriving DecidableEq, Repr

/-- Dynamic capacity offered to an LD and not yet answered (R235). -/
structure DcAdd where
  ld : Nat := 0
  region : Nat := 0
  extents : List DcExtent := []
  blocks : List Nat := []
deriving DecidableEq, Repr

/-- Host ports, LDs, blocks and what the standard commands keep (spec/09, spec/16 R395). -/
structure HostSt where
  ld : SMap LdAsg := []
  blocks : SMap Block := []
  decoders : SMap Decoder := []
  heads : SMap HeadSt := []
  memActive : Bool := false
  mediaError : Bool := false
  resetNeeded : Bool := false
  /-- Unmapped events written this slot, by port (R234); denial event written this slot (R294). -/
  unmTold : List Nat := []
  denyTold : Bool := false
  poisonList : List PoisonLine := []
  poisonOver : Bool := false
  poisonOverAt : Nat := 0
  /-- Offered DC extents not yet answered (R235). -/
  dcOffers : List DcAdd := []
  dcExtents : List (Nat × DcExtent) := []
  perst : BitVec 4 := 0
  mbox : SMap MboxSt := []
  /-- Background operations by LD function (64 + h for the FM-owned LD of head h), and the response message limit of
  the management bus by path. -/
  bgs : SMap BgOp := []
  msgLimit : SMap Nat := []
  logs : SMap EvLog := []
  evHandle : Nat := 0
  /-- Failure and Fatal records written to the history archive: EVSEQ, and the reserve slot (R503). -/
  archived : List (Nat × Nat) := []
  evPolicy : SMap Nat := []
  tsOffset : SMap Int := []
  lsa : SMap Memory := []
  alertCfg : SMap Nat := []
  shutdown : SMap Nat := []
  /-- Scan Media by LD: first DPA tile, tiles, tiles passed; and its results as line keys (R238). -/
  scans : SMap (Nat × Nat × Nat) := []
  scanRes : SMap (List Nat) := []
  busMaster : SMap Bool := []
  msixMasked : SMap Bool := []
  /-- Sanitize or Secure Erase under way, by LD: 1 + the path that asked for it (R397). -/
  erasing : SMap Nat := []
  /-- Port configurations in force, by port, as the bits of HP_PORT_CFG (R226, R248). -/
  ports : SMap Nat := []
  /-- PCIe and Dorosh reference clocks absent: bit n for port n, bit 4 for Dorosh (R530). -/
  refAbsent : BitVec 5 := 0
  /-- The mailbox stage of the start has been reached (R370). -/
  mailbox : Bool := false
  /-- GPF requests that wait for their writes: heads (R239). -/
  gpf : List Nat := []
deriving DecidableEq, Repr

/-! ### Dorosh fabric (spec/11, spec/08 R221 and R222) -/

/-- A mirror entry (R299, R306): state 0 unused, 1 RESYNC, 2 MIRRORED, 3 BROKEN, 4 PROMOTED. -/
structure MirrorEnt where
  homeLsn : Nat := 0
  count : Nat := 0
  mirrorLsn : Nat := 0
  partner : Nat := 0
  role : Nat := 0
  state : Nat := 0
  /-- Resynchronisation: next tile of the range, RSACKs awaited (R301). -/
  next : Nat := 0
  out : List Nat := []
  /-- Requests to the range wait for the exchange of home and mirror (R304). -/
  swap : Bool := false
  /-- What the partner has been asked to record (1 PAIR, 2 UNPAIR, 3 RESYNC, 4 SWAP; 0 nothing), and the command that waits
  for its answer (R423). -/
  op : Nat := 0
  src : Option CmdSrc := none
deriving DecidableEq, Repr

/-- An export (R294). -/
structure ExportEnt where
  first : Nat := 0
  count : Nat := 0
  node : Nat := 0
  write : Bool := false
  valid : Bool := false
deriving DecidableEq, Repr

/-- An import (R295). -/
structure ImportEnt where
  ld : Nat := 0
  region : Nat := 0
  first : Nat := 0
  count : Nat := 0
  pool : Nat := 0
  valid : Bool := false
  gone : Bool := false
deriving DecidableEq, Repr

/-- A route entry (R290): links primary, first and second alternate, hops, valid, pinned. -/
structure Route where
  primary : Nat := 0
  alt1 : Nat := 0
  alt2 : Nat := 0
  hops : Nat := 0
  valid : Bool := false
  pinned : Bool := false
deriving DecidableEq, Repr

/-- The handshake of a link (R221, R222). -/
structure Handshake where
  renewal : Bool := false
  own : Option OfferBody := none
  peer : Option OfferBody := none
  frags : List (Nat × List Byte) := []
  confirmed : Bool := false
  gotConfirm : Bool := false
deriving DecidableEq, Repr

/-- A frame as its sender keeps it until it is acknowledged (R283, R287). -/
structure SentFrame where
  seq : Nat := 0
  src : Nat := 0
  dst : Nat := 0
  type : Nat := 0
  vc : Nat := 0
  hops : Nat := 1
  fallback : Bool := false
  len : Nat := 0
  body : Nat := 0
deriving DecidableEq, Repr

/-- A frame that waits in its VC for a route, or on its link for credit (R286, R291). -/
structure HeldFrame where
  link : Option Nat := none
  frame : SentFrame
deriving DecidableEq, Repr

/-- One link (R282 to R287). -/
structure LinkSt where
  /-- Next SEQ to send and next SEQ expected, ACK received. -/
  txSeq : Nat := 0
  rxSeq : Nat := 0
  kept : List SentFrame := []
  retry : Bool := false
  /-- By VC, in 16-byte units: buffer use at the receiver, credit owed to it, and VC0 credit withheld (R286). -/
  used : List Nat := []
  owe : List Nat := []
  withheld : Nat := 0
  tagFails : Nat := 0
  replays : Nat := 0
  keyed : Bool := false
  frames : Nat := 0
  keySlots : Nat := 0
  neighUid : Nat := 0
  hs : Option Handshake := none
deriving DecidableEq, Repr

/-- A COH or MIRROR message sent and unanswered, or an answer kept (R293). -/
structure SentMsg where
  dst : Nat := 0
  type : Nat := 0
  hdr : BitVec 128 := 0
  data : Option Tile := none
  mask : BitVec 64 := 0
  trailer : Nat := 0
  answer : Bool := false
deriving DecidableEq, Repr

/-- The fabric (spec/11). -/
structure FabricSt where
  links : SMap LinkSt := []
  lsdb : List LsaBody := []
  lsaSeq : Nat := 0
  leaving : Bool := false
  lsaSlots : Nat := 0
  quiet : Nat := 0
  settled : Bool := false
  /-- (node ID, UID) of the settled view, and of the last primary view. -/
  view : List (Nat × BitVec 64) := []
  lastPrimary : List Nat := []
  failed : List Nat := []
  absent : SMap Nat := []
  routes : SMap Route := []
  mirrors : SMap MirrorEnt := []
  exports : SMap ExportEnt := []
  imports : SMap ImportEnt := []
  promos : List Promotion := []
  sent : List SentMsg := []
  /-- Frames that wait for a route or for credit. -/
  held : List HeldFrame := []
  /-- MCTP packets that MGMT frames brought for the management function: source node and bytes (R305). -/
  mgmtIn : List (Nat × List Byte) := []
  storedId : Nat := 0xFFF
  isolated : Bool := false
  mdiscs : List (Nat × Nat) := []
  /-- Mirror side: MRDs and MDISCs being answered: (requester, LTN or LSN, 4 × TID + kind; 0 unbounded MRD, 1 bounded MRD, 2 MDISC). -/
  serving : List (Nat × Nat × Nat) := []
deriving DecidableEq, Repr

/-! ### Casks: the undo log (spec/12, R333 to R337) -/

/-- An undo record: descriptor fields and the pre-image (R335). -/
structure UndoRec where
  ltn : Nat := 0
  dom : Nat := 0
  poison : BitVec 4 := 0
  epoch : Nat := 0
  stamp : Nat := 0
  data : Tile := 0
deriving DecidableEq, Repr

/-- An index entry (R336): LTN, domain, EPOCH[15:0]. -/
structure UndoIdx where
  ltn : Nat := 0
  dom : Nat := 0
  epoch : Nat := 0
deriving DecidableEq, Repr

/-- What a member of a domain is doing towards a recovery (R342). -/
structure CaskRecov where
  /-- The CASK_RECOVER command served here, and whether the latest image is asked for. -/
  src : Option CmdSrc := none
  latest : Bool := false
  /-- Members whose STATE and whose RECOVER_DONE arrived: (node, COMMITTED, RELEASED), (node, RESULT). -/
  states : List (Nat × Nat × Nat) := []
  done : List (Nat × Nat) := []
  target : Option Nat := none
  /-- Answer owed to the member that asked (none: this node). -/
  askedBy : Option Nat := none
  /-- Records being written back, newest first. -/
  back : List Nat := []
deriving DecidableEq, Repr

/-- A cask domain this node takes part in (R328 to R343): state 0 unused, 1 ACTIVE, 2 PENDING, 3 RECOVERING, 4 BROKEN,
5 MISMATCH, 6 STALLED. -/
structure CaskDom where
  id : Nat := 0
  state : Nat := 0
  period : Nat := 0
  start : Nat := 0
  nodes : List Nat := []
  ldMask : BitVec 64 := 0
  /-- Epoch under way, boundary slots to come beside the regular grid, first epoch begun. -/
  epoch : Nat := 0
  begun : Bool := false
  /-- FT of the boundary that began the epoch under way (R331). -/
  since : Nat := 0
  extra : List Nat := []
  ready : Nat := 0
  readyAny : Bool := false
  committed : Nat := 0
  committedAny : Bool := false
  released : Nat := 0
  /-- Coordinator: READYs held (node, epoch), commit under way and its ACKs, EARLY slot announced. -/
  readys : List (Nat × Nat) := []
  commitOf : Option Nat := none
  acks : List Nat := []
  earlyAt : Option Nat := none
  earlySent : Bool := false
  early : Bool := false
  logFull : Bool := false
  recov : Option CaskRecov := none
  /-- Target stored for the next start (R342). -/
  storedTarget : Option Nat := none
  /-- Recovered, and not yet ACTIVE again: its writes go on, and no record is saved until its next regular boundary (R342). -/
  resting : Bool := false
deriving DecidableEq, Repr

/-- The cask agent and the undo log (R328 to R343). -/
structure CaskSt where
  doms : SMap CaskDom := []
  /-- Records, oldest first; the first `spilled` of them lie in the reserve's spill area (R334, R337). -/
  log : List UndoRec := []
  spilled : Nat := 0
  /-- Index sets of eight entries (R336). -/
  idx : SMap (List UndoIdx) := []
  walks : Nat := 0
  /-- Domain state changed since it was last written to the reserve (R334). -/
  changed : Bool := false
  /-- Domains whose creation waits for discards under way on their LDs, with their commands (R434). -/
  creates : List (CaskDom × Option CmdSrc) := []
deriving DecidableEq, Repr

/-! ### Kelric queues (spec/16) -/

/-- A queue command in flight (R405), from its fetch to its posting. `ran` says that it was carried out, `done` that it
has ended with a status; `data` is what it returns to its buffer. -/
structure Flight where
  opc : Nat := 0
  cid : Nat := 0
  ops : BitVec 256 := 0
  dptr : Nat := 0
  dlen : Nat := 0
  timed : Option Nat := none
  fence : Bool := false
  ran : Bool := false
  done : Bool := false
  held : Bool := false
  status : Nat := 0
  handle : Nat := 0
  result : Nat := 0
  data : List Byte := []
deriving DecidableEq, Repr

/-- A queue pair (R398 to R405): state 0 deleted, 1 active, 2 PAUSED, 3 ERROR. `wrapped` is the complement of the phase
bit of the pass under way. -/
structure KQueue where
  state : Nat := 0
  err : Nat := 0
  head : Nat := 0
  tail : Nat := 0
  cqHead : Nat := 0
  cqTail : Nat := 0
  wrapped : Bool := false
  deleting : Bool := false
  flights : List Flight := []
deriving DecidableEq, Repr

/-- The queue pairs, whose turn it is and the entries left in the turn (R405), and by 64 × LD + vector whether the
one-microsecond hold-off runs and whether a signal was deferred by it (R404). -/
structure KelricSt where
  queues : SMap KQueue := []
  turn : Nat := 255
  left : Nat := 0
  vecs : SMap (Bool × Bool) := []
deriving DecidableEq, Repr

/-! ### Fabric time (spec/12) -/

/-- What the SYNC frames of one link told (R316, R317). Times are in units of 2^-16 ns. -/
structure SyncLink where
  txSeq : Nat := 0
  txAt : Nat := 0
  txPrev : Nat := 0
  peerSeq : Nat := 0
  peerAt : Nat := 0
  seen : Bool := false
  gm : Nat := 0
  gmClass : Nat := 0
  steps : Nat := 0
  locked : Bool := false
  theta : Int := 0
  delay : Int := 0
  haveTheta : Bool := false
deriving DecidableEq, Repr

/-- What a timed action does at its FT (R325): an UPDATE's staged words, or a command by its opcode. -/
inductive TimedWhat where
  | update (words : List (Nat × Nat))
  | command (opc : Nat) (c : KCmd)
deriving DecidableEq, Repr

/-- A timed action (R325). -/
structure TimedAct where
  at_ : Nat
  late : Bool := false
  handle : Nat
  what : TimedWhat
deriving DecidableEq, Repr

/-- The fabric time unit (R308 to R327). -/
structure TimeSt where
  /-- The node has held class 2 or 3 since its last start (R311). -/
  held : Bool := false
  /-- FTCODE_IN: the word waiting for its edge (FT_NEXT, SEQ, TRACE), the SEQ expected, pulses in a row (R312). -/
  code : Option (Nat × Nat × Bool) := none
  lastSeq : Option Nat := none
  good : Nat := 0
  ignored : Nat := 0
  /-- Slots since the last PTM dialogue that succeeded, 17 when none did (R311, R314). -/
  ptmAge : Nat := 17
  /-- The source is being met from ahead by more than 1 µs: not LOCKED until |θ| ≤ 25 ns (R320). -/
  behind : Bool := false
  /-- Offset to the own source, in ns, and whether one is known. -/
  srcTheta : Int := 0
  haveSrc : Bool := false
  links : SMap SyncLink := []
  parent : Option Nat := none
  /-- Slots in a row with |θ| below 10 ns (R318). -/
  steady : Nat := 0
  /-- Slew still owed, in units of 2^-16 ns (R320); a forward step due at the next slot boundary. -/
  slew : Int := 0
  step : Option Nat := none
  actions : List TimedAct := []
  /-- New maintenance maps waiting for their frame boundary: (word offset, word, not before FT) (R324). -/
  mapNext : List (Nat × Nat × Nat) := []
  /-- FT of the last checkpoint and of the last drydown record in the Weali store (R310). -/
  storedCkpt : Nat := 0
  storedDry : Nat := 0
  /-- Slot and frame boundaries whose work has been done. -/
  slotDone : Nat := 0
  frameDone : Nat := 0
deriving DecidableEq, Repr

/-! ### The register space (spec/18) -/

/-- A persistent-register store under way (R451): its word (the low one of a 64-bit register), the bits written and their
values, and the command that completes with it. -/
structure RwpStore where
  off : Nat := 0
  mask : Nat := 0
  val : Nat := 0
  src : Option CmdSrc := none
  /-- RESULT of that command. -/
  res : Nat := 0
  /-- Words of the same command that need no store: they come into force with it (R12, R416). -/
  more : List (Nat × Nat × Nat) := []
  /-- Stored, waiting for the command's other stores (R12, R416). -/
  ready : Bool := false
deriving DecidableEq, Repr

/-- What the register arbiter keeps beside the words (spec/18). Requesters are 0 to 63 for LD functions, 64 the
management bus, 65 the Kelric engines. -/
structure RegsSt where
  /-- Staged words by window offset (R449). -/
  staged : SMap (Option Nat) := []
  /-- The latch of each requester: the offsets of the words latched, and their shadows (R445, R507). -/
  latch : SMap (List (Nat × Nat)) := []
  /-- Armed requesters, and the wrong values written to UNLOCK since the last cold start (R448). -/
  armed : List Nat := []
  unlockBad : Nat := 0
  /-- Writes counted of each persistent register, by its offset (R451). -/
  writes : SMap Nat := []
  stores : List RwpStore := []
  /-- PWR_RAIL values stored and not yet in force, by channel (R367). -/
  rails : SMap (Option Nat) := []
deriving DecidableEq, Repr

/-! ### The whole state -/

/-- The responses of an S2M message (R261). -/
inductive S2M where
  | cmp | cmpS | cmpE | conflictAck
deriving DecidableEq, Repr

/-- What leaves the part, in order. -/
inductive Out where
  /-- S2M DRS or NDR to a head: LD, tag, completion, data and poison (R261). -/
  | s2m (head ld tag : Nat) (op : S2M) (data : Option Line) (poison : Bool)
  /-- BISnpInv or BISnpData with its BITag (R262). -/
  | bisnp (head ld tag line : Nat) (inv : Bool)
  /-- One write credit to a head (R84). -/
  | credit (head : Nat)
  /-- A frame leaves on a link: its header and body (R283). -/
  | frame (link : Nat) (hdr : BitVec 128) (body : Nat)
  /-- FTCODE_OUT's word, and an edge of FTSYNC_OUT (R313). -/
  | ftcode (word : BitVec 98)
  | ftsyncOut
  /-- A command packet on a media channel, with its data beats (R57). -/
  | media (ch pkg : Nat) (packet : BitVec 64) (data : Option Chunk)
  /-- An uncorrectable internal error reported on a head (R242, R266). -/
  | uncorrectable (head : Nat)
  /-- An MSI-X vector of an LD function signalled (R244, R404). -/
  | msix (ld vec : Nat)
  /-- A command path's answer: return code and output payload (R394, R396, R406). -/
  | mbox (path opc : Nat) (rc : Rc) (payload : List Byte)
  /-- A background operation's status reported (R397). -/
  | bgStatus (path opc : Nat) (rc : Rc) (payload : List Byte)
  /-- Data written to a host buffer of an LD function (R404). -/
  | dma (ld addr : Nat) (data : List Byte)
  /-- What a BAR2 read returns to a requester, for its offset and size (R439). -/
  | regRead (req off size val : Nat)
  /-- The response of the management bus's BAR2 message: status, and data of a read (R442). -/
  | mctp (status : Nat) (data : Option Nat)
  /-- A completion entry written at an index of a queue's CQ (R403, R404). -/
  | cqe (q idx : Nat) (bits : BitVec 128)
  /-- A frame of the SEQ bus, and a slave's reply window (R352). -/
  | seq (frame : BitVec 40)
  | seqReply (bits : BitVec 24)
  /-- A DOE response of an LD function: data object type and payload (R241, R243). -/
  | doe (ld type : Nat) (payload : List Byte)
  /-- An SPDM response to KEY_EXCHANGE: the session opened, or Busy (R241). -/
  | spdm (session : BitVec 32) (ok : Bool)
  /-- A GPF Phase 2 acknowledgement on a head (R239). -/
  | gpf (head : Nat) (ok : Bool)
  /-- A refused population reported over the management bus: bit 2 × channel + position set for each package that answered (R55; the
  bits are a DESIGN CHOICE, log 55). -/
  | population (present : BitVec 64)
deriving DecidableEq, Repr

/-- Where the power sequencer stands (R347 to R349, R360): all rails low; a step being raised; the own step complete and
the slaves' awaited (R353); the sequence complete; rails being lowered; the back-off; the hold. -/
inductive SeqPhase where
  | off | raising | settled | on | lowering | backoff | held
deriving DecidableEq, Repr

/-- What follows once the rails are lowered: a further attempt, the hold of R349, nothing (R379, R380), or the end of
rails-off (R360). -/
inductive AfterLower where
  | retry | hold | idle | railsOff
deriving DecidableEq, Repr

/-- The capacitance test (R355, R356): phase 0 none, 1 waits for V0, 2 discharges, 3 recharges; V0 in microvolts of the
bank; the lowered budget's voltage, kept while it holds; SLOW results in a row; FT of the last test; the C the lowered budget rests on
while the bank recharges from a test that has already stored its own (R26). -/
structure CapTest where
  phase : Nat := 0
  v0 : Nat := 0
  lowered : Option Nat := none
  slow : Nat := 0
  src : Option CmdSrc := none
  lastAt : Nat := 0
  capWas : Option Nat := none
deriving DecidableEq, Repr

/-- The drydown record of the Weali store (R365). -/
structure DryRec where
  cause : Nat := 0
  outcome : Nat := 0
  ft : Nat := 0
  flushNs : Nat := 0
deriving DecidableEq, Repr

/-- The drydown or reset flush under way (R359 to R364, R379, R380, R510). -/
structure Dry where
  cause : Nat := 0
  reset : Bool := false
  /-- A unit fell below its minimum: the flush ends in a hold with BRD_RST_N high (R510). -/
  below : Bool := false
  /-- A rail was lost, a limit of R388 was reached, or the flush was turned from a reset flush (R363). -/
  noWarm : Bool := false
  incomplete : Bool := false
  cutAt : Nat := 0
  flushNs : Nat := 0
  /-- Dirty tiles that rail losses left unprogrammable; groups and spare channels (3) whose media rails are cut (R364). -/
  lostTiles : Nat := 0
  deadGroups : List Nat := []
  /-- The flush has ended with everything programmed (R360). -/
  flushed : Bool := false
  /-- The checkpoint is done (R360, R363). -/
  checkpoint : Bool := false
deriving DecidableEq, Repr

/-- The supervisor's power side (spec/13, spec/14). -/
structure PowerSt where
  /-- The budget of R25 in tiles, as computed last (R357). -/
  budget : Nat := 0
  /-- VIN_SENSE: 0 below VIN_WARN, 1 from VIN_WARN, 2 from VIN_GOOD; it fell below VIN_WARN since the hold (R349). -/
  vin : Nat := 0
  fell : Bool := false
  /-- COLD_RST_N low. -/
  coldLow : Bool := false
  seq : SeqPhase := .off
  after : AfterLower := .idle
  /-- Step being raised, or lowered last. -/
  step : Nat := 0
  /-- The step under way failed and waits for the master's ABORT (R353). -/
  stepFailed : Bool := false
  /-- What the next start's CAUSE is, and its reference (R370, R383). -/
  why : Nat := 0
  refAt : Nat := 0
  /-- Reset outputs whose STRETCH runs (R366). -/
  stretch : List Nat := []
  /-- PFW_N driven low; CAP_TEST high. -/
  pfwLow : Bool := false
  capTestPin : Bool := false
  /-- Slaves answering: step reached and status byte (R352). -/
  slaves : SMap (Option (Nat × Nat)) := []
  /-- The slave waits for a new STEP 1 (R353); BRD_RST_N is held low until the slave has sent OFF (R353). -/
  awaitStep1 : Bool := false
  offWait : Bool := false
  /-- Bank samples of the last 16 ms in microvolts, newest first (R357). -/
  samples : List Nat := []
  test : CapTest := {}
  record : DryRec := {}
  dry : Option Dry := none
  /-- The last drydown was THERMAL and the sensors have not cooled (R390). -/
  hot : Bool := false
  /-- The wipe detectors of voltage, clock and temperature are armed (R220). -/
  armed : Bool := false
  /-- Fill, media, key and map stages run for a warm resume (R377). -/
  resuming : Bool := false
  /-- First format runs at this start (R376). -/
  formatting : Bool := false
  /-- A reset flush is owed once the lifecycle transition has completed (R432). -/
  restart : Bool := false
  /-- The failing step and channel recorded under R349. -/
  failRec : Option (Nat × Nat) := none
  /-- The Dirty Shutdown Count has advanced in this stop already (R365). -/
  dscDone : Bool := false
deriving DecidableEq, Repr

/-- Temperatures (spec/15). Readings are in quarter degrees. -/
structure ThermSt where
  /-- Last on-die sample, and the hottest reading of each of the last ten samples, newest first (R384). -/
  last : List Int := []
  tj : List Int := []
  excluded : List Nat := []
  /-- Sensors 20 °C off the median, and the FT since when (R385). -/
  off : List (Nat × Nat) := []
  /-- Samples in a row with a sensor at 110 °C (R388). -/
  crit : Nat := 0
  /-- Slots in a row with a package of any group at 95 °C (R388), and whether this slot has had one. -/
  medCrit : Nat := 0
  medNow : Bool := false
  /-- Samples in a row of each remote input at CRIT, and inputs whose WARN was told this slot (R388). -/
  remote : SMap Nat := []
  warnTold : List Nat := []
  /-- FT of the last THERMAL drydown (R392). -/
  lastDry : Nat := 0
  /-- Timebase corrections and bandgap retrims from which sensor: none when none is valid (R391). -/
  timebase : Option Nat := none
  bandgap : Option Nat := none
deriving DecidableEq, Repr

/-- Units the part has lost (spec/22). -/
structure AvailSt where
  /-- HBM stacks failed. -/
  stackDown : BitVec 2 := 0
  /-- The failed stack's map share is being restored (R514), and lines whose tiles wait for it (R93). -/
  shareOut : Bool := false
  lostLines : List (Nat × BitVec 4) := []
  /-- The active core PLL; PLLs out of service; oscillators dropped; planes retired (R511 to R513). -/
  pll : Nat := 0
  pllDown : BitVec 2 := 0
  oscDown : BitVec 2 := 0
  planeDown : BitVec 2 := 0
  /-- Cipher units retired, and within the slot the CRC mismatches traced to plane p (p) and to cipher unit u (2 + u), and the sectors of
  stack k read uncorrectable (18 + k) (R513, R514). -/
  cipherDown : BitVec 16 := 0
  misses : SMap Nat := []
  /-- A unit is below its minimum (R510). -/
  below : Bool := false
deriving DecidableEq, Repr

/-- Engines, movers and on-die memories (spec/19). -/
structure EngSt where
  /-- Engines failed and out of service until a cold start, with the cause: recorded in the Weali store (R459). -/
  failed : List (Nat × Nat) := []
  /-- Engines that missed the last heartbeat check (R456). -/
  missed : List Nat := []
  /-- Handovers under way: the spare, the role and duty it takes (R457). -/
  moves : List (Nat × Nat × Nat) := []
  /-- Key indices with a failing word in a macro taken out (R462). -/
  faulty : List Nat := []
  /-- Former supervisor engines under test, and on-die words corrected in this frame (R459, R464). -/
  testing : List Nat := []
  fixed : List Nat := []
  /-- Words written raw through MEMTEST: 16,384 × macro + word, data and check bits (R471). -/
  words : SMap (Option (BitVec 64 × BitVec 8)) := []
deriving DecidableEq, Repr

/-- A self-test (R425 to R427): state 1 running, 2 passed, 3 failed, 4 aborted. -/
structure SelfTest where
  id : Nat := 0
  variant : Nat := 0
  cap : Nat := 0
  scope : Nat := 0
  ld : Nat := 0
  key : Nat := 0
  state : Nat := 0
  aborting : Bool := false
  errors : List TestError := []
  ft : Nat := 0
  /-- Discard a MEDIA_PATTERN waits for (R425, R427). -/
  disc : Option Nat := none
  /-- MEDIA_PATTERN: segments still to program, the next tile of the first, tiles whose programs are out, and tiles to read back.
  MEDIA_SCAN: the place each die set's scan has reached (R425). -/
  runs : List (Nat × Nat) := []
  next : Nat := 0
  progs : List Nat := []
  back : List Nat := []
  cursor : SMap Nat := []
deriving DecidableEq, Repr

/-- What is known of a patch slot (R428): its bytes, and whether they were checked. -/
structure PatchSlot where
  bytes : List Byte := []
  level : Nat := 0
  svn : Nat := 0
  checked : Bool := false
  stagings : Nat := 0
deriving DecidableEq, Repr

/-- The boundary-scan side of JTAG (R534): whether boundary scan is in use, whether its instruction is EXTEST, and the register: balls
that EXTEST selects, keyed by 54 × (row − 1) + column − 1, with the level it drives. No command of the interface reaches it. -/
structure JtagSt where
  scan : Bool := false
  extest : Bool := false
  reg : SMap (Option Bool) := []
deriving DecidableEq, Repr

/-- Self-tests and patches (R425 to R431). -/
structure MaintSt where
  tests : List SelfTest := []
  nextTest : Nat := 1
  active : PatchSlot := {}
  staged : PatchSlot := {}
  /-- Staging under way: bytes so far. -/
  staging : Option (List Byte) := none
  stageResult : Nat := 0
  svnMin : Nat := 0
  /-- Activation under way: COMMIT_SVN, its command, engines moved, engines already moved, rounds back (R431). -/
  activating : Option Bool := none
  back : Bool := false
  actSrc : Option CmdSrc := none
  moved : List Nat := []
deriving DecidableEq, Repr

/-- The Weali store beside what other chapters' records hold (spec/20): the board area, its writes by page, the board
operation under way, pages retired, pages that differed at the last sweep. -/
structure WealiSt where
  board : Memory := []
  writes : SMap Nat := []
  /-- Board writes under way in arrival order: offset and bytes, and the command of each, none for a register write. -/
  boardOps : List (Nat × List Byte × Option CmdSrc) := []
  retired : List Nat := []
  differ : List Nat := []
  /-- Pages the sweep under way has read. -/
  swept : Nat := 0
  /-- Power-on hours (R483). -/
  hours : Nat := 0
  /-- Records of the last counter checkpoint: lifetime totals (R483). -/
  life : SMap Nat := []
  /-- Slots of the timed-action log written so far, one per action (R480). -/
  actions : Nat := 0
  /-- The record of the last emergency wipe: its cause and the dirty charge lost (R220). -/
  wipe : Option (Nat × Nat) := none
  /-- The persistent-register rings: the record in slot n of ring r under 64 × r + n, 0 where none was written (R479, R481). -/
  rings : SMap Nat := []
deriving DecidableEq, Repr

/-- The per-LD counts of the counter pages (R505), and the longest read and write of the window under way. -/
structure LdCounts where
  rdReq : Nat := 0
  wrReq : Nat := 0
  rdBytes : Nat := 0
  wrBytes : Nat := 0
  poison : Nat := 0
  unmapped : Nat := 0
  rdMax : Nat := 0
  wrMax : Nat := 0
deriving DecidableEq, Repr

/-- What a counter page shows (R505): the counts captured at the last window end and what was computed there. -/
structure LdPage where
  counts : LdCounts := {}
  rdMbps : Nat := 0
  wrMbps : Nat := 0
deriving DecidableEq, Repr

/-- The summary interval under way (R499). -/
structure Interval where
  start : Nat := 0
  cut : Bool := true
  flags : Nat := 0
  tjMax : Option Int := none
  tjMin : Option Int := none
  medMax : SMap Int := []
  capMin : Nat := 100
  vbankMin : Option Nat := none
  chargeMax : Nat := 0
  rdLat : Nat := 0
  wrLat : Nat := 0
  rdBytes : SMap Nat := []
  wrBytes : SMap Nat := []
  peak : SMap Nat := []
  deep : Nat := 0
  poison : Nat := 0
  programs : Nat := 0
  events : SMap Nat := []
  poolMin : Option Nat := none
  drydowns : Nat := 0
  lost : Nat := 0
deriving DecidableEq, Repr

/-- The sample buffer (R496 to R498): the LFSR, the sample number, the bank being filled, the readable banks oldest first,
the reader's word position and the last word it returned. -/
structure Sampling where
  lfsr : Nat := 1
  seq : Nat := 0
  filling : List Nat := []
  ready : List (List Nat) := []
  word : Nat := 0
  last : Nat := 0
  lost : Nat := 0
deriving DecidableEq, Repr

/-- The sillage log (R499 to R502): records oldest first with their SEQ, the repeat count of the newest, the count
dropped, GEN, the control-ring and slot writes counted towards the pass limit (R480), and whether it stopped. -/
structure Sillage where
  recs : List (Nat × Nat) := []
  next : Nat := 0
  repeats : Nat := 0
  dropped : Nat := 0
  gen : Nat := 0
  writes : Nat := 0
  stopped : Bool := false
  full : Bool := false
deriving DecidableEq, Repr

/-- The tally unit (spec/21). -/
structure TallySt where
  /-- Block counters, 48 bits, by 8 × block + counter (R488, R490). -/
  cnt : SMap Nat := []
  /-- Their values at the last capture, and the lifetime totals (R491, R493). -/
  cap : SMap Nat := []
  life : SMap Nat := []
  /-- Histogram bins by 32 × (8 × head + kind) + bin (R495). -/
  hist : SMap Nat := []
  /-- Per-LD counts, and the counter pages of the last window end (R492, R505). -/
  ld : SMap LdCounts := []
  page : SMap LdPage := []
  winEnd : Nat := 0
  /-- Bytes of each head, read then written, by 2 × head, and at the last capture (R492). -/
  head : SMap Nat := []
  headCap : SMap Nat := []
  /-- WINDOW_MS in force (R492). -/
  window : Nat := 1000
  sample : Sampling := {}
  interval : Interval := {}
  sill : Sillage := {}
deriving DecidableEq, Repr

/-- The machine's state. `words` holds the words of BAR2's control window that differ from their reset values, `rsv` what their RSV
bits hold; `free` counts the free values drawn (log 5), and is the model's own. -/
structure State where
  /-- Commands that wait, first in first out. -/
  pending : List Instr := []
  /-- What has left the part. -/
  out : List Out := []
  free : Nat := 0
  /-- Fabric time in nanoseconds, and its fraction in units of 2^-16 ns (R308). -/
  ft : Nat := 0
  frac : Nat := 0
  words : SMap Nat := []
  rsv : SMap Nat := []
  tally : TallySt := {}
  host : HostSt := {}
  home : Home := {}
  cache : Cache := {}
  reads : Reads := {}
  progs : Progs := {}
  map : MapSt := {}
  patrol : Patrol := {}
  keys : Keys := {}
  fabric : FabricSt := {}
  power : PowerSt := {}
  avail : AvailSt := {}
  cask : CaskSt := {}
  time : TimeSt := {}
  kelric : KelricSt := {}
  regs : RegsSt := {}
  therm : ThermSt := {}
  eng : EngSt := {}
  maint : MaintSt := {}
  weali : WealiSt := {}
  /-- Boundary scan (spec/23, R534). -/
  jtag : JtagSt := {}
deriving DecidableEq, Repr

/-- The machine right after reset: VDDIO_AON has risen for the first time, every register holds its Reset value, the rails are low
and START_STAT shows STAGE 1 (R369, R370, R381, R383). No word is listed, since a word not listed holds its reset value. The RSV bits,
which R9 leaves undefined and possibly live, hold 0 here and no command changes them (`rsv` lists none; DESIGN CHOICE, log 2). -/
def State.reset : State := {}

end Sys2Proof.Machine
end

