-- ==== Sys2Proof/Machine/Ops.lean ====
section
/-!
DEFINITION. The named operations over the state that every chapter uses: sparse maps and memory, the words and fields of
BAR2, outputs, free values, events and block counters.
-/

namespace Sys2Proof.Machine

/-- What a step answers. -/
abbrev Res := Host.Outcome State Fault Refusal

/-! ### Sparse maps -/

/-- The value of a map at a key; `d` is the map's default. -/
def mget {α : Type} (d : α) : List (Nat × α) → Nat → α
  | [], _ => d
  | (j, v) :: r, k => if j = k then v else mget d r k

/-- A value put before the first that it does not come after. -/
def insertBy {α : Type} (le : α → α → Bool) (a : α) : List α → List α
  | [] => [a]
  | b :: r => if le a b then a :: b :: r else b :: insertBy le a r

/-- A list in order; equal values stay as they stand. -/
def sortBy {α : Type} (le : α → α → Bool) (l : List α) : List α := l.foldr (insertBy le) []

/-- An entry put before the first one with a larger key. -/
def mins {α : Type} (k : Nat) (v : α) : List (Nat × α) → List (Nat × α)
  | [] => [(k, v)]
  | (j, w) :: r => if k < j then (k, v) :: (j, w) :: r else (j, w) :: mins k v r

/-- The map with one key set; the canonical form is kept: keys strictly rising, no entry equal to the default. -/
def mset {α : Type} [DecidableEq α] (d : α) (m : List (Nat × α)) (k : Nat) (v : α) : List (Nat × α) :=
  let r := m.filter (fun x => x.1 != k)
  if v = d then r else mins k v r

/-- The map with the value at one key changed by a function. -/
def mmod {α : Type} [DecidableEq α] (d : α) (m : List (Nat × α)) (k : Nat) (f : α → α) : List (Nat × α) :=
  mset d m k (f (mget d m k))

/-- Keys strictly rising from a lower bound, no entry equal to the default. -/
def mwfFrom {α : Type} [DecidableEq α] (d : α) : Nat → List (Nat × α) → Bool
  | _, [] => true
  | b, (j, v) :: r => decide (b ≤ j) && !decide (v = d) && mwfFrom d (j + 1) r

/-- The canonical form of a map. -/
def mwf {α : Type} [DecidableEq α] (d : α) (m : List (Nat × α)) : Bool := mwfFrom d 0 m

/-- Memory in canonical form: what an unlisted byte reads as is 0 (R479, R395; log 7). -/
def Memory.wf (m : Memory) : Bool := mwf (0 : Byte) m

/-- The byte of a memory at an address. -/
def memByte (m : Memory) (a : Nat) : Byte := mget 0 m a

/-- A byte written. -/
def memSet (m : Memory) (a : Nat) (v : Byte) : Memory := mset 0 m a v

/-- Bytes written from an address upwards. -/
def memWrite (m : Memory) (a : Nat) : List Byte → Memory
  | [] => m
  | v :: r => memWrite (memSet m a v) (a + 1) r

/-- `n` bytes read from an address upwards. -/
def memRead (m : Memory) (a n : Nat) : List Byte := (List.range n).map (fun i => memByte m (a + i))

/-- The element of a list with an index replaced by a function of it. -/
def lmod {α : Type} (l : List α) (i : Nat) (f : α → α) : List α := l.modify i f

/-- Replace the first element that satisfies `p` by `f` of it. -/
def lupd {α : Type} (p : α → Bool) (f : α → α) : List α → List α
  | [] => []
  | a :: r => if p a then f a :: r else a :: lupd p f r

/-- Remove the first element that satisfies `p`. -/
def ldrop {α : Type} (p : α → Bool) : List α → List α
  | [] => []
  | a :: r => if p a then r else a :: ldrop p r

/-! ### The words of BAR2 (spec/18) -/

/-- Does a register description cover the word at `off`? -/
def RegDef.covers (r : RegDef) (off : Nat) : Bool :=
  decide (r.base ≤ off) && decide ((off - r.base) / r.s1 < r.c1)
    && decide ((off - r.base) % r.s1 / r.s2 < r.c2) && decide ((off - r.base) % r.s1 % r.s2 = 0)

/-- The description of the word at a window offset; none when no chapter defines it (R438). -/
def regDef (off : Nat) : Option RegDef := (regBlock (off / 0x10000)).find? (fun r => r.covers off)

/-- The reset values that depend on the register's index: DIESET_MEMBER (R64), GRAV_ENTRY (R546), HP_LD_CFG (R248),
MAINT_MAP (R343), PWR_RAIL (R345), ENG_STAT (R453); and DF_NODE NODE_ID, 0xFFF while none is stored (R306). -/
def resetIndexed (off : Nat) : Nat :=
  if 0x30100 ≤ off ∧ off < 0x31900 then
    let i := (off - 0x30100) / 64; let m := (off - 0x30100) % 64 / 4
    if m < 10 then 10 * (i / 32) + m + (i % 32) * 32 else 0
  else if 0x51000 ≤ off ∧ off < 0x51C00 then
    let e := (off - 0x51000) % 0x400 / 4; let a := e / 8; let b := e % 8
    ofSigned (max (-32) (-((a * (4 + b) / 8 : Nat) : Int))) 6 + (2 + a / 8) * 64
  else if 0xA0100 ≤ off ∧ off < 0xA0200 then
    let n := (off - 0xA0100) / 4; 2 * (n % 4) + (n / 4) * 8
  else if 0xD0100 ≤ off ∧ off < 0xD0160 then
    0x11111111 * 2 ^ ((off - 0xD0100) / 0x20)
  else if 0xE0100 ≤ off ∧ off < 0xE0148 then
    [1, 2, 3, 3, 4, 4, 5, 6, 7, 8, 9, 9, 9, 9, 10, 10, 10, 10].getD ((off - 0xE0100) / 4) 0
  else if 0x14000 ≤ off ∧ off < 0x14100 then
    let e := (off - 0x14000) / 4
    if e < 32 then e * 256 else if e < 44 then 1 + (e - 32) * 256 else if e < 52 then 2 + (e - 44) * 256
    else if e < 58 then 3 + (e - 52) * 256 else if e < 62 then 5 + (e - 58) * 256 else 4 + (e - 62) * 256
  else if off = 0xC0004 then 0xFFF
  else 0

/-- The word a register holds after reset: the fields' Reset column, with the indexed resets. -/
def resetWord (off : Nat) : Nat :=
  match regDef off with
  | none => 0
  | some r => (r.fields.foldl (fun a f => a + f.reset * 2 ^ f.lsb) 0) + resetIndexed off

/-- The word held at a window offset. -/
def State.word (s : State) (off : Nat) : Nat := mget (resetWord off) s.words off

/-- The state with one word held. -/
def State.setWord (s : State) (off v : Nat) : State :=
  { s with words := mset (resetWord off) s.words off (v % 2 ^ 32) }

/-- `n` words from an offset as one number, lowest word first. -/
def State.wide (s : State) (off : Nat) : Nat → Nat
  | 0 => 0
  | n + 1 => s.word off + 2 ^ 32 * s.wide (off + 4) n

/-- `n` words set from one number. -/
def State.setWide (s : State) (off v : Nat) : Nat → State
  | 0 => s
  | n + 1 => (s.setWord off (v % 2 ^ 32)).setWide (off + 4) (v / 2 ^ 32) n

/-- Words a field reaches over. -/
def Field.words (f : Field) : Nat := (f.lsb + f.width + 31) / 32

/-- The value of a field. -/
def State.getF (s : State) (f : Field) : Nat := bitsOf (s.wide f.off f.words) f.lsb f.width

/-- The state with a field set. -/
def State.setF (s : State) (f : Field) (v : Nat) : State :=
  s.setWide f.off (putBits (s.wide f.off f.words) f.lsb f.width v) f.words

/-- A one-bit field as a Bool. -/
def State.flag (s : State) (f : Field) : Bool := s.getF f != 0

/-- A one-bit field set to 1. -/
def State.raise (s : State) (f : Field) : State := s.setF f 1

/-- A one-bit field set from a Bool. -/
def State.setFlag (s : State) (f : Field) (b : Bool) : State := s.setF f (b2n b)

/-! ### Outputs and free values -/

/-- Something leaves the part. -/
def State.emit (s : State) (o : Out) : State := { s with out := s.out ++ [o] }

/-- Several things leave the part, in order. -/
def State.emits (s : State) (l : List Out) : State := { s with out := s.out ++ l }

/-- A free number and the state after it was drawn (log 5). -/
def State.draw (s : State) : Nat × State := (Config.freeNat s.free, { s with free := s.free + 1 })

/-! ### Block counters (R488 to R491) -/

/-- Counter c of block b. -/
def State.counter (s : State) (b c : Nat) : Nat := mget 0 s.tally.cnt (8 * b + c)

/-- CHAIN of pair k of block b (R490). -/
def State.chained (s : State) (b k : Nat) : Bool := bitAt (s.getF (Reg.CNT_CTRL.CHAIN b)) k

/-- One counter's bare value set. -/
def State.setCounter (s : State) (b c v : Nat) : State :=
  { s with tally := { s.tally with cnt := mset 0 s.tally.cnt (8 * b + c) (v % 2 ^ 48) } }

/-- `n` events of counter c of block b (R490). -/
def State.count (s : State) (b c n : Nat) : State :=
  if s.chained b (c / 2) then
    if c % 2 = 1 then s
    else
      let v := s.counter b c + n
      (s.setCounter b c v).setCounter b (c + 1) (s.counter b (c + 1) + v / 2 ^ 48)
  else s.setCounter b c (s.counter b c + n)

/-! ### Events (R503, R504) -/

/-- The log of a level (R503). -/
def EvLevel.log : EvLevel → Nat
  | .info => 0 | .warning => 1 | .critical => 2 | .fatal => 3 | .dynCap => 4

/-- A log with one more record, or its overflow counted (R503). -/
def EvLog.push (l : EvLog) (e : EvRec) : EvLog :=
  if l.recs.length < 256 then { l with recs := l.recs ++ [e] }
  else { l with overflow := l.overflow + 1, firstOver := if l.overflow = 0 then e.stamp else l.firstOver, lastOver := e.stamp }

/-- The owner of a device block, if it is owned (R231). -/
def State.block (s : State) (b : Nat) : Block := mget {} s.host.blocks b

/-- The LD whose range holds a tile, if any (R231). -/
def State.tileLd (s : State) (ltn : Nat) : Option Nat :=
  let b := s.block (ltn / 2 ^ 20)
  if b.kind = 0 then none else some b.ld

/-- The LD functions an event goes to: the one named, or every one and each head's FM-owned LD, numbered 64 to 71. -/
def evTargets : Option Nat → List Nat
  | some l => [l]
  | none => List.range 72

/-- The Get Timestamp value of an LD function, or of a head's FM-owned LD as 64 + head: FT and the offset recorded (R395). -/
def State.stamp (s : State) (fn : Nat) : Nat := (((s.ft : Int) + mget 0 s.host.tsOffset fn) % 2 ^ 64).toNat

/-- An event record skeleton with the fields every event has (R504). -/
def mkEv (lv : EvLevel) (block unit : Nat) (k : EvKind) : EvRec where
  level := lv
  block := block
  unit := unit
  kind := k
  evseq := 0
  ft := 0
  stamp := 0
  addr := 0
  psn := 0
  ld := 0
  lines := 0
  statOff := 0xFFFFFFFF
  statBit := 0
  detail := []
  media := false
  handle := 0

/-- The event record that names the status bit it sets (R504 STAT_OFFSET, STAT_BIT). -/
def EvRec.stat (e : EvRec) (f : Field) : EvRec := { e with statOff := f.off + 4 * (f.lsb / 32), statBit := f.lsb % 32 }

/-- An event is written: EVSEQ and the log's lifetime total advance, the logs take the record and, for a failure outcome or a torn
line, the standard General Media record beside it (R493, R503, R504), and vector 1 of the LD functions whose event interrupt policy
asks for it is signalled (R244, R395). -/
def State.event (s : State) (e : EvRec) (ld : Option Nat) : State :=
  let n := mget 0 s.tally.life 120 + 1
  let lg := e.level.log
  let two := e.media && lg == 2
  let e1 := { e with evseq := n, ft := s.ft, ld := ld.getD e.ld, handle := s.host.evHandle % 65536, media := false }
  let e2 := { e1 with handle := (s.host.evHandle + 1) % 65536, media := true }
  let life := mmod 0 (mset 0 s.tally.life 120 n) (121 + lg) (· + 1)
  let put := fun (m : SMap EvLog) (t : Nat) => mmod {} m (5 * t + lg) (fun l =>
    let l := l.push { e1 with stamp := s.stamp t }
    if two then l.push { e2 with stamp := s.stamp t } else l)
  let logs := (evTargets ld).foldl put s.host.logs
  let sig := (evTargets ld).filter (fun t => decide (t < 64) && mget 0 s.host.evPolicy t / 2 ^ (8 * lg) % 4 == 1
    && !mget false s.host.msixMasked t)
  let iv := s.tally.interval
  { s with tally := { s.tally with life := life, interval := { iv with events := mmod 0 iv.events lg (· + 1) } },
           host := { s.host with logs := logs, evHandle := s.host.evHandle + 1 + b2n two },
           out := s.out ++ sig.map (fun t => Out.msix t 1) }

/-- An event about a tile: it goes to the LD whose range holds it, or to every LD when none does. -/
def State.tileEvent (s : State) (e : EvRec) (ltn : Nat) : State := s.event { e with addr := ltn } (s.tileLd ltn)

/-! ### Tile CRCs (R47 to R49, R65) and the tile switch (R15, R513) -/

/-- A plane of the tile switch is out of service: all traffic moves to the other (R15, R513). -/
def State.planeOut (s : State) (p : Nat) : State :=
  ({ s with avail := { s.avail with planeDown := s.avail.planeDown ||| BitVec.ofNat 2 (2 ^ p) } }.raise Reg.AVAIL_STAT.PLANE_SINGLE).event
    ({ mkEv .warning 13 (2 + p) .fault with detail := [p] }.stat Reg.AVAIL_STAT.PLANE_SINGLE) none

/-- One CRC mismatch more of the slot for a plane or cipher unit (R513). -/
def State.missOf (s : State) (k : Nat) : State := { s with avail := { s.avail with misses := mmod 0 s.avail.misses k (· + 1) } }

/-- A CRC mismatch traces to the plane that moved the tile, a free choice of those in service; 16 within one slot retire it
(R513). -/
def State.planeMiss (s : State) : State :=
  let (n, s) := s.draw
  let p := if s.avail.planeDown = 0 then n % 2 else b2n (s.avail.planeDown.getLsbD 0)
  let s := s.missOf p
  if mget 0 s.avail.misses p = 16 ∧ !s.avail.planeDown.getLsbD p then s.planeOut p else s

/-- A mismatch at the cache writer traces to the cipher unit that made the CRC, a free choice; four within one slot retire it
(R513). -/
def State.unitMiss (s : State) : State :=
  let (n, s) := s.draw
  let u := n % 16
  let s := s.missOf (2 + u)
  if mget 0 s.avail.misses (2 + u) = 4 ∧ !s.avail.cipherDown.getLsbD u then
    ({ s with avail := { s.avail with cipherDown := s.avail.cipherDown ||| BitVec.ofNat 16 (2 ^ u) } }.setF
      Reg.AVAIL_STAT.CIPHER_UNITS (s.getF Reg.AVAIL_STAT.CIPHER_UNITS - 1)).event { mkEv .warning 10 u .fault with detail := [u] } none
  else s

/-- Is CRC_INJECT armed for a point? It acts in MANUFACTURE and PROVISIONED alone (R65). -/
def State.crcArmed (s : State) (point unit : Nat) : Bool :=
  decide (s.keys.lifecycle ≤ 1) && s.flag Reg.CRC_INJECT.ARM && s.getF Reg.CRC_INJECT.POINT == point
    && (point == 3 || s.getF Reg.CRC_INJECT.UNIT == unit)

/-- The CRC that a tile carries to a verifying point: generated over it where it first stood whole, and corrupted where
CRC_INJECT is armed for the point (R47, R48, R65). -/
def State.carriedCrc (s : State) (point unit : Nat) (t : Tile) (ltn : Nat) : BitVec 32 :=
  let c := tileCrc t (BitVec.ofNat 37 ltn)
  if s.crcArmed point unit then ~~~c else c

/-- A tile passes a verifying point: does its CRC match (R48)? -/
def State.crcGood (s : State) (point unit : Nat) (t : Tile) (ltn : Nat) : Bool :=
  s.carriedCrc point unit t ltn == tileCrc t (BitVec.ofNat 37 ltn)

/-- A tile passes the port egress or a cipher unit: a mismatch has its source resend it, and BOTH has the second copy fail too;
answers whether both failed (R48, R49, R65, R504). -/
def State.crcPass (s : State) (block point unit : Nat) (t : Tile) (ltn : Nat) : Bool × State :=
  if s.crcGood point unit t ltn then (false, s)
  else
    let both := s.flag Reg.CRC_INJECT.BOTH
    let s := (s.setF Reg.CRC_INJECT.ARM 0).planeMiss
    let s := if both then s.planeMiss else s
    (both, s.tileEvent { mkEv (if both then .critical else .warning) block point (if both then .lost else .fault) with detail := [point, unit] } ltn)

/-! ### Lists of conditions a command needs -/

/-- Do `f` when the condition holds; otherwise nothing changes (log 3: an event with no cause pending). -/
def State.when (s : State) (c : Bool) (f : State → State) : State := if c then f s else s

/-- `n` page writes of the Weali store are counted (R475, R487). -/
def State.pageWrites (s : State) (n : Nat) : State := s.count 16 0 n

end Sys2Proof.Machine
end

