-- ==== Sys2Proof/Machine/MapOps.lean ====
section
/-!
DEFINITION. The segment map, its journal, program counts, the free list and the key store as shared operations
(spec/06 R145 to R168, spec/08 R199 to R210), and the building of tile programs (spec/05 R125).
-/

namespace Sys2Proof.Machine

/-! ### Entries -/

/-- The entry at first format (R145). -/
def MapEntry.first : MapEntry where
  psn := 0x3FFFFFF
  keyidx := 0
  keyver := 0
  note := 1
  lwt := 0
  state := 2
  mirror := 0xFFF
  cask := false
  heat := 0

/-- The 128 bits of an entry (R145). -/
def MapEntry.bits (e : MapEntry) : Nat :=
  e.psn + e.keyidx * 2 ^ 26 + e.keyver * 2 ^ 44 + e.note * 2 ^ 60 + e.lwt * 2 ^ 62 + e.state * 2 ^ 94
    + e.mirror * 2 ^ 98 + b2n e.cask * 2 ^ 110 + e.heat * 2 ^ 111

/-- No physical segment (R145). -/
def noPsn : Nat := 0x3FFFFFF
/-- STATE mapped (R146). -/
def stMapped : Nat := 1
/-- STATE discarded (R146). -/
def stDiscarded : Nat := 2
/-- STATE worn-read-only (R146). -/
def stWorn : Nat := 3
/-- STATE rebuilding (R146). -/
def stRebuilding : Nat := 4
/-- Rated endurance (R155). -/
def endure : Nat := 5000000

/-- An entry never stored: that of first format, with NOTE base once the heat walk has seen HEAT 0 (R145, R149). -/
def MapSt.plain (m : MapSt) : MapEntry := { MapEntry.first with note := if m.walked then 0 else 1 }

/-- The map entry of a segment. -/
def State.entry (s : State) (lsn : Nat) : MapEntry :=
  ((s.map.entries.find? (fun (l, _) => l == lsn)).map (·.2)).getD s.map.plain

/-- The map entry in force for lookups: in write-through mode the one before a change whose journal tile is not yet programmed
(R150). -/
def State.entryNow (s : State) (lsn : Nat) : MapEntry :=
  ((s.map.inForce.find? (fun (l, _) => l == lsn)).map (·.2)).getD (s.entry lsn)

/-- TOP_MIN in force: 0 is taken as 64 (R174). -/
def State.topMin (s : State) : Nat := if s.getF Reg.MAP_CONFIG.TOP_MIN = 0 then 64 else s.getF Reg.MAP_CONFIG.TOP_MIN
/-- BASE_MAX in force: below TOP_MIN (R174). -/
def State.baseMax (s : State) : Nat := min (s.getF Reg.MAP_CONFIG.BASE_MAX) (s.topMin - 1)
/-- RACK_MAX in force: 0 is taken as 1 (R174). -/
def State.rackMax (s : State) : Nat := max 1 (s.getF Reg.MAP_CONFIG.RACK_MAX)
/-- RACK_LIMIT in force: values outside 10,000 to 1,000,000 are taken as 200,000 (R174). -/
def State.rackLimit (s : State) : Nat :=
  let v := s.getF Reg.MAP_RACK_LIMIT.LIMIT
  if 10000 ≤ v ∧ v ≤ 1000000 then v else 200000
/-- HEAT_DECAY in force: values below 16 are taken as 16 (R174). -/
def State.heatDecay (s : State) : Nat := max 16 (s.getF Reg.MAP_PERIODS.HEAT_DECAY)
/-- CKPT_PERIOD in force, in slots: 0 is taken as 16 units of 4,096 (R152, R174). -/
def State.ckptPeriod (s : State) : Nat :=
  4096 * (if s.getF Reg.MAP_PERIODS.CKPT_PERIOD = 0 then 16 else s.getF Reg.MAP_PERIODS.CKPT_PERIOD)

/-- Is the slot under way a maintenance slot of the group (R24, R309)? -/
def State.inMaint (s : State) (g : Nat) : Bool :=
  let n := s.ft / 2 ^ 20 % 256
  bitAt (s.getF (Reg.MAINT_MAP.SLOTS g (n / 32))) (n % 32)

/-- The node ID in force, 0xFFF none (R289). -/
def State.nodeId (s : State) : Nat := s.getF Reg.DF_NODE.NODE_ID

/-- Is the segment mirrored to another node (R145 MIRROR)? -/
def State.mirrored (s : State) (lsn : Nat) : Bool :=
  (s.entry lsn).mirror != 0xFFF && (s.entry lsn).mirror != s.nodeId

/-- Has the entry a physical segment that may be read (R96)? -/
def MapEntry.onMedium (e : MapEntry) : Bool :=
  e.psn != noPsn && (e.state == stMapped || e.state == stWorn || e.state == stRebuilding)

/-- Age bucket of a last-write time at FT (R102). -/
def ageBucket (ft lwt : Nat) : Nat :=
  let a := ((ft / 2 ^ 30 : Nat) + 2 ^ 32 - lwt % 2 ^ 32) % 2 ^ 32
  if a = 0 then 0 else min 31 (1 + Nat.log2 a)

/-! ### Write-through and budget (R83, R139) -/

/-- Write-through is in force: R27 holds or WT_FORCE is 1 (R139). -/
def State.writeThrough (s : State) : Bool := s.flag Reg.WP_STATUS.WT_HOLDUP || s.flag Reg.WP_CONFIG.WT_FORCE

/-- The budget in force, in tiles (R83). -/
def State.budget (s : State) : Nat :=
  if s.writeThrough then 0
  else if s.getF Reg.LC_BUDGET_LIMIT.LIMIT_MIB = 0 then s.power.budget
  else min s.power.budget (4096 * s.getF Reg.LC_BUDGET_LIMIT.LIMIT_MIB)

/-! ### Tile programs -/

/-- Is the program of a reserve tile (R213)? -/
def PgWhy.reserve? : PgWhy → Bool
  | .journal | .checkpoint | .delta | .undo | .pinSpill | .pinIndex | .keyTable | .archive | .lsa | .format | .calib | .reserve => true
  | _ => false

/-- Is the program one of a user tile at its home, built from the cache path (R125)? -/
def PgWhy.user? : PgWhy → Bool
  | .evict | .clean | .mash | .through | .discardTile | .pinned | .rekey | .poisonFix | .patrolFix => true
  | _ => false

/-- Does the program write a user tile, at its home, as a copy, or as a rebuild's chunk, so that it takes its turn among the tile's
programs (R126, R191)? -/
def PgWhy.tile? (w : PgWhy) : Bool := w.user? || w == .refresh || w == .copy || w == .rebuild

/-- The LTN of a program that writes no user tile: past the last. -/
def noLtn : Nat := 2 ^ 37

/-- Is the tile of the program sealed by the cipher unit: neither a raw move nor a clear tile of R199? -/
def Prog.sealed? (p : Prog) : Bool :=
  p.raw.isNone && (p.why.reserve? || p.why.tile?) && p.why != .rebuild && p.why != .calib

/-- Has a program's grant been given? -/
def Prog.granted (p : Prog) : Bool := p.phase == .wave || p.phase == .paused

/-- A program enters the list of its lane's arbiter, with a number of its own; ids rise in order of arrival (R23). -/
def State.addProg (s : State) (p : Prog) : State :=
  { s with progs := { s.progs with list := s.progs.list ++ [{ p with id := s.progs.next }], next := s.progs.next + 1 } }

/-- Programs enter the list together, in their order. -/
def State.addProgs (s : State) (l : List Prog) : State :=
  { s with progs := { s.progs with list := s.progs.list ++ l.zipIdx.map (fun (p, i) => { p with id := s.progs.next + i }),
                                   next := s.progs.next + l.length } }

/-- Packages per channel that the population gives, two before first format. -/
def State.pkgs (s : State) : Nat := if s.patrol.pop = 1 then 1 else 2

/-- Is the die set present (R50)? -/
def State.setPresent (s : State) (ds : Nat) : Bool := decide (ds < 96) && decide (ds % 32 < 16 * s.pkgs)

/-- Are a channel's media rails cut since a rail was lost in the drydown (R364)? -/
def State.railDead (s : State) (ch : Nat) : Bool :=
  match s.power.dry with
  | some d => d.deadGroups.contains (min 3 (ch / 10))
  | none => false

/-- Lost members of a die set (R193). -/
def State.lost (s : State) (ds : Nat) : Nat :=
  mget 0 s.patrol.lost ds + (if s.power.dry.isNone then 0 else
    ((List.range 10).filter (fun m => s.flag (Reg.DIESET_MEMBER.VALID ds m) && !s.flag (Reg.DIESET_MEMBER.REBUILDING ds m)
      && s.railDead (s.getF (Reg.DIESET_MEMBER.CHANNEL ds m)))).length)

/-- Reserve slots of a die set (R51). -/
def reserveSlots : Nat := 26214

/-- The first place from `i` onwards of m places from a base, wrapping, that is not in the list; `n` places are tried. -/
def firstOutside (base m : Nat) (l : List Nat) (i : Nat) : Nat → Option Nat
  | 0 => none
  | n + 1 => if l.contains (base + i % m) then firstOutside base m l (i + 1) n else some (base + i % m)

/-- A reserve slot of a die set that is not retired, a least-worn one; which of equals is a free value (R156). -/
def State.reserveSlot (s : State) (ds r : Nat) : Nat :=
  let base := ds * slotsPerSet + dataSlots
  let mine := fun (p : Nat) => psnSet p == ds && decide (dataSlots ≤ psnSlot p)
  let used := s.map.pcount.filterMap (fun (p, v) => if mine p && decide (4096 ≤ v) && !s.map.retired.contains p then some p else none)
  let gone := s.map.retired.filter mine
  match firstOutside base reserveSlots (used ++ gone) r (used.length + gone.length + 1) with
  | some p => if (used ++ gone).length < reserveSlots then p
      else (used.foldl (fun b q => if mget 0 s.map.pcount q / 4096 < mget 0 s.map.pcount b / 4096 then q else b) (used.getD 0 p))
  | none => used.foldl (fun b q => if mget 0 s.map.pcount q / 4096 < mget 0 s.map.pcount b / 4096 then q else b) (used.getD 0 base)

/-- A reserve tile place drawn for new reserve contents: the reserve's inner layout is not given, so the die set among those present
and the tile of the slot are free values; the slot is a least-worn one of the set (R51, R156). -/
def State.reservePlace (s : State) : (Nat × Nat) × State :=
  let (a, s) := s.draw
  let (b, s) := s.draw
  let ds := (a / reserveSlots) % 96
  let ds := if s.setPresent ds then ds else ds - 16
  ((s.reserveSlot ds (a % reserveSlots), b % 4096), s)

/-- The data bytes of a list of bytes as a tile, byte 0 lowest. -/
def tileOfNat (n : Nat) : Tile := BitVec.ofNat 2048 n

/-- A reserve tile is sent for programming: FMT 010b, counter read first (R213). Answers its program's number. -/
def State.reserveProg (s : State) (why : PgWhy) (cls : Nat) (data : Tile) (job : Nat) : Nat × State :=
  let (pl, s) := s.reservePlace
  (s.progs.next,
   s.addProg { why := why, cls := cls, ltn := 0, psn := pl.1, t := pl.2, phase := .counter, data := data,
               valid := 15, dirty := 0, poison := 0, id := 0, raw := none, old := none, keyidx := 0, keyver := 0,
               wcount := 0, charged := false, wave := 0, pend := [], again := [], failed := [], allow := 2, ld := 0,
               skip := [], job := job })

/-! ### Journal (R150, R151) -/

/-- Bits [223:0] of a journal record (R151). -/
def JRec.low (r : JRec) : Nat :=
  r.lsn % 2 ^ 25 + (r.kind % 128) * 2 ^ 25 + (r.body % 2 ^ 128) * 2 ^ 32 + (r.seq % 2 ^ 64) * 2 ^ 160

/-- The CRC-32C over them (R151). -/
def JRec.check (r : JRec) : Nat := crc32c (bytesOf r.low 28)

/-- The 256 bits of a journal record (R151). -/
def JRec.bits (r : JRec) : Nat := r.low + r.crc * 2 ^ 224

/-- A journal tile: a 32-byte header, then seven records (R151). -/
def journalTile (rs : List JRec) : Tile :=
  tileOfNat ((rs.zipIdx).foldl (fun a (r, i) => a + r.bits * 2 ^ (256 * (i + 1))) 0)

/-- The records in staging leave as a journal tile of class 3, or 1 in a drydown (R150, R360). -/
def State.journalFlush (s : State) : State :=
  if s.map.jstage.isEmpty then s
  else
    let rs := s.map.jstage
    let (id, s) := s.reserveProg .journal (if s.getF Reg.DRY_STAT.PHASE != 0 then 1 else 3) (journalTile rs) 0
    { s with map := { s.map with jstage := [], jfly := s.map.jfly ++ [(id, rs)] } }

/-- A journal record is written to journal staging; a full tile is programmed, and in write-through mode every tile at
once (R150). -/
def State.journal (s : State) (lsn kind body : Nat) (why : CopyWhy := .patrol) : State :=
  let r : JRec := { lsn := lsn, kind := kind, body := body, seq := s.map.jseq, why := why }
  let r := { r with crc := r.check }
  let s1 := { s with map := { s.map with jstage := s.map.jstage ++ [r], jseq := s.map.jseq + 1 } }
  if s1.writeThrough then
    { s1.journalFlush with map := { s1.journalFlush.map with jwait := s1.journalFlush.map.jwait ++ [lsn] } }
  else if s1.map.jstage.length ≥ 7 then s1.journalFlush else s1

/-- A journalled change of an entry: the record first, then the change; in write-through mode lookups go on with the entry before until
the record's journal tile is programmed (R150 kind 01h). -/
def State.setEntry (s : State) (lsn : Nat) (e : MapEntry) : State :=
  let was := s.entryNow lsn
  let s1 := s.journal lsn 1 e.bits
  let held := if s.writeThrough then (lsn, was) :: s1.map.inForce.filter (fun x => x.1 != lsn) else s1.map.inForce
  { s1 with map := { s1.map with entries := mset MapEntry.first s1.map.entries lsn e, inForce := held } }

/-- A change of NOTE, LWT or HEAT, which are not journalled (R150). -/
def State.setEntryQuiet (s : State) (lsn : Nat) (e : MapEntry) : State :=
  { s with map := { s.map with entries := mset MapEntry.first s.map.entries lsn e } }

/-- A slot is retired (kind 02h); counted among the map's events (R155, R175). -/
def State.retire (s : State) (psn : Nat) : State :=
  if s.map.retired.contains psn then s
  else
    let s := s.journal 0 2 psn
    let s := { s with map := { s.map with retired := psn :: s.map.retired } }
    s.count 8 5 1

/-- Lines join the poison list (kind 05h); nothing is added when the list is full (R165). -/
def State.poisonAdd (s : State) (ltn : Nat) (mask : BitVec 4) : State :=
  let old := mget 0 s.map.poison ltn
  if old = 0 ∧ s.map.poison.length ≥ 1048576 then
    (s.raise Reg.MAP_PINS.LIST_FULL).tileEvent ((mkEv .critical 8 0 .limit).stat Reg.MAP_PINS.LIST_FULL) ltn
  else
    let s := s.journal (ltnSeg ltn) 5 (ltn * 2 ^ 26 + mask.toNat * 2 ^ 63)
    { s with map := { s.map with poison := mset 0 s.map.poison ltn (old ||| mask) } }

/-- The lines of a tile that read poison whatever the medium holds: those listed, and all of a tile of a segment mapped afresh after a
data loss until it is rewritten (R165, R194). -/
def State.listed (s : State) (ltn : Nat) : BitVec 4 :=
  if (mget 0 s.map.afresh (ltnSeg ltn)).getLsbD (ltnTile ltn) then 15 else mget 0 s.map.poison ltn

/-- A tile has been rewritten since its segment was mapped afresh (R194). -/
def State.rewritten (s : State) (ltn : Nat) : State :=
  { s with map := { s.map with afresh := mmod 0 s.map.afresh (ltnSeg ltn) (fun b => b &&& ~~~(1#4096 <<< ltnTile ltn)) } }

/-- A tile's poison-list entry is removed (kind 06h). -/
def State.poisonDrop (s : State) (ltn : Nat) : State :=
  if mget 0 s.map.poison ltn = 0 then s
  else
    let s := s.journal (ltnSeg ltn) 6 (ltn * 2 ^ 26 + (mget 0 s.map.poison ltn).toNat * 2 ^ 63)
    { s with map := { s.map with poison := mset 0 s.map.poison ltn 0 } }

/-- The map's state changed. -/
def State.modMap (s : State) (f : MapSt → MapSt) : State := { s with map := f s.map }

/-- Programs removed from the list. -/
def State.dropProgs (s : State) (p : Prog → Bool) : State :=
  { s with progs := { s.progs with list := s.progs.list.filter (fun q => !p q) } }

/-- A slot is released from the map: it waits for R101, then is marked, or scrubbed and marked (R157, R171). -/
def State.releaseSlot (s : State) (psn lsn : Nat) (retire scrub keeps : Bool) : State :=
  if psn = noPsn then s
  else s.modMap (fun m => { m with
    marks := m.marks ++ [{ psn := psn, waiting := true, since := s.ft, retire := retire, scrub := scrub, keeps := keeps, lsn := lsn }] })

/-! ### Copies enter and leave (R158, R160) -/

/-- The class of a copy's programs (R23, R158, R163, R168, R171, R184, R193, R195). -/
def CopyWhy.cls : CopyWhy → Nat
  | .racking | .vacate => 6
  | .patrol | .verify | .endure => 5
  | .worn | .verifyNow | .evacuate | .doubleLoss | .mirrorLoss => 4

/-- Does the copy's purpose retire the source slot: R134's relocations, a slot at ENDURE, a worn segment (R163, R168, R184)? -/
def CopyWhy.retires (w : CopyWhy) : Bool := w == .verify || w == .verifyNow || w == .endure || w == .worn

/-- A segment waits to be copied, once (R158); a more urgent purpose takes the place of a less urgent one, and of two of one class one
that retires the source. A copy under way retires its source if a purpose that comes up meanwhile does (R134, R184). -/
def State.queueCopy (s : State) (lsn : Nat) (why : CopyWhy) : State :=
  if s.map.copies.any (fun c => c.lsn == lsn) then
    s.modMap (fun m => { m with copies := lupd (fun c => c.lsn == lsn) (fun c => { c with retireSource := c.retireSource || why.retires }) m.copies })
  else if s.map.copyWait.any (fun w => w.1 == lsn && (decide (w.2.cls < why.cls) || (w.2.cls == why.cls && (w.2.retires || !why.retires)))) then s
  else s.modMap (fun m => { m with copyWait := m.copyWait.filter (fun w => w.1 != lsn) ++ [(lsn, why)] })

/-- A copy leaves without its switch: its waiting programs go, the target is retired or release-marked (R160). -/
def State.copyDrop (s : State) (c : Copy) (retire : Bool) : State :=
  let s := s.modMap (fun m => { m with copies := m.copies.filter (fun d => d.lsn != c.lsn) })
  let s := s.dropProgs (fun p => p.psn == c.target && !p.granted && !p.why.user?)
  -- sources kept for the copy wait for the next one (R134)
  let s : State := { s with progs := { s.progs with list := s.progs.list.map (fun p =>
    if p.psn == c.target && !p.granted then { p with psn := c.source, kept := true, phase := .blocked } else p) } }
  if retire then s.retire c.target else s.releaseSlot c.target c.lsn false false false

/-- A copy is abandoned and waits to start again at tile 0 (R160). -/
def State.copyAbandon (s : State) (lsn : Nat) (failed : Bool) : State :=
  match s.map.copies.find? (fun c => c.lsn == lsn) with
  | none => s
  | some c =>
    let s := s.setEntry lsn { s.entry lsn with state := c.prev }
    let s := (s.copyDrop c failed).count 8 4 1
    s.queueCopy lsn c.why

/-- A journalled change of an entry other than by a copy's own switch: it abandons the segment's copy first, which starts again (R160). -/
def State.changeEntry (s : State) (lsn : Nat) (f : MapEntry → MapEntry) : State :=
  let s := s.copyAbandon lsn false
  s.setEntry lsn (f (s.entry lsn))

/-- MIRROR of the map entries of a range (R145, R299). -/
def State.setMirror (s : State) (first n node : Nat) : State :=
  (List.range n).foldl (fun s i => s.changeEntry (first + i) (fun e => { e with mirror := node })) s

/-- A change of the pin-spill list is journalled; R151 gives its records no KIND: 0Dh adds an entry and 0Eh removes one, with the LTN
where kinds 05h and 06h have it (R150, R166; DESIGN CHOICE, log 151). -/
def State.journalSpill (s : State) (ltn : Nat) (add : Bool) : State :=
  s.journal (ltnSeg ltn) (if add then 0x0D else 0x0E) (ltn * 2 ^ 26)

/-- A tile's pin-spill entry is removed (R166). -/
def State.spillRemove (s : State) (ltn : Nat) : State :=
  if s.map.spill.any (fun x => x.ltn == ltn) then
    (s.journalSpill ltn false).modMap (fun m => { m with spill := m.spill.filter (fun x => x.ltn != ltn) })
  else s

/-- Tile slots of the pin spill (R166). -/
def spillSlots : Nat := 4194304

/-- One 16-byte index entry of the pin spill: LTN, cause, DIRTY, POISON, in that order from bit 0 (R166; the order is a DESIGN CHOICE, log 151). -/
def PinSpill.index (x : PinSpill) : Nat := x.ltn + x.cause * 2 ^ 37 + x.dirty.toNat * 2 ^ 40 + x.poison.toNat * 2 ^ 44

/-- The index tile that holds a slot's entry, sixteen entries to a tile (R166). -/
def State.indexTile (s : State) (slot : Nat) : Tile :=
  tileOfNat ((s.map.spill.filter (fun x => x.slot / 16 == slot / 16)).foldl (fun a x => a + x.index * 2 ^ (128 * (x.slot % 16))) 0)

/-! ### Program counts (R155) -/

/-- Tile programs counted in a slot. -/
def State.progCount (s : State) (psn : Nat) : Nat := 4096 * s.map.formats + mget 0 s.map.pcount psn

/-- PCOUNT of a slot: 0xFFFF_FFFF when retired, else whole-segment programs up to 0xFFFF_FFFE (R155). -/
def State.pcount (s : State) (psn : Nat) : Nat :=
  if s.map.retired.contains psn then 0xFFFFFFFF else min 0xFFFFFFFE (s.progCount psn / 4096)

/-- One tile program more in a slot (R155). -/
def State.countProgram (s : State) (psn : Nat) : State :=
  { s with map := { s.map with pcount := mmod 0 s.map.pcount psn (· + 1) } }

/-! ### Free list (R156) -/

/-- Is the slot mapped by some entry, or the target of a copy? -/
def State.slotTaken (s : State) (psn : Nat) : Bool :=
  s.map.entries.any (fun (_, e) => e.psn == psn && e.psn != noPsn) || s.map.copies.any (fun c => c.target == psn)
    || s.map.marks.any (fun m => m.psn == psn && !m.keeps) || s.map.retired.contains psn

/-- A data slot in the free list, with PCOUNT below ENDURE (R156). -/
def State.slotFree (s : State) (psn : Nat) : Bool :=
  decide (psn < 96 * slotsPerSet) && decide (psnSlot psn < dataSlots) && s.setPresent (psnSet psn)
    && decide (s.lost (psnSet psn) < 2) && !s.slotTaken psn && decide (s.pcount psn < endure)

/-- Slots of a die set that are not free and unworn: taken, or programmed at least one whole segment. -/
def State.touchedSlots (s : State) (ds : Nat) : List Nat :=
  let a := s.map.entries.filterMap (fun (_, e) => if e.psn != noPsn && psnSet e.psn == ds then some e.psn else none)
  let b := s.map.copies.filterMap (fun c => if psnSet c.target == ds then some c.target else none)
  let c := s.map.marks.filterMap (fun m => if psnSet m.psn == ds then some m.psn else none)
  let d := s.map.retired.filter (fun p => psnSet p == ds)
  let e := s.map.pcount.filterMap (fun (p, v) => if psnSet p == ds && decide (4096 ≤ v) then some p else none)
  ((a ++ b ++ c ++ d ++ e).filter (fun p => decide (psnSlot p < dataSlots))).eraseDups


/-- The free slot of least (or most) PCOUNT in a die set; which of equals is a free value (R156, log 8). -/
def State.pickSlot (s : State) (ds : Nat) (most : Bool) : Option Nat × State :=
  if !s.setPresent ds || decide (2 ≤ s.lost ds) then (none, s)
  else
    let touched := s.touchedSlots ds
    let (r, s1) := s.draw
    let fresh := if touched.length < dataSlots then firstOutside (ds * slotsPerSet) dataSlots touched r (touched.length + 1) else none
    -- a slot under scrub keeps its place in the list and is not drawn (R171)
    let worn := (touched.rotateLeft (r % (touched.length + 1))).filter (fun p => s.slotFree p && !s.map.marks.any (fun m => m.psn == p))
    let best := worn.foldl (fun b p => match b with
      | none => some p
      | some q => if (if most then s.pcount q < s.pcount p else s.pcount p < s.pcount q) then some p else some q) none
    (match most, fresh, best with
     | true, _, some p => some p
     | true, f, none => f
     | false, some p, _ => some p
     | false, none, b => b, s1)

/-- The die sets in rotation after one (R156). -/
def setsAfter (ds : Nat) : List Nat := (List.range 96).map (fun i => (ds + 1 + i) % 96)

/-- The first set of a list that yields a slot. -/
def State.pickFrom (s : State) (most : Bool) : List Nat → Option Nat × State
  | [] => (none, s)
  | ds :: r =>
    match s.pickSlot ds most with
    | (some p, s1) => (some p, s1)
    | (none, _) => s.pickFrom most r

/-- The slot a new mapping takes: rotation over the sets; within the set the least-worn, or for a base segment the most worn (R156). -/
def State.slotForMapping (s : State) (note : Nat) : Option Nat × State := s.pickFrom (note == 0) (setsAfter s.map.lastSet)

/-- The slot a copy takes: another die set than the source's while one has a slot; base segments the most worn (R156). -/
def State.slotForCopy (s : State) (source note : Nat) : Option Nat × State :=
  let ds := psnSet source
  s.pickFrom (note == 0) ((setsAfter ds).filter (· != ds) ++ [ds])

/-- The slot a racking move takes: the most worn free slot for a base segment, the least worn for a top one, over the die sets other
than the source's, else in its own (R156, R161). -/
def State.slotForRack (s : State) (source note : Nat) : Option Nat × State :=
  let ds := psnSet source
  let most := note == 0
  let c := ((List.range 96).filter (· != ds)).filterMap (fun d => (s.pickSlot d most).1)
  let best := c.foldl (fun b p => match b with
    | none => some p
    | some q => if (if most then s.pcount q < s.pcount p else s.pcount p < s.pcount q) then some p else some q) none
  let (own, s1) := s.pickSlot ds most
  (best.orElse (fun _ => own), s1)

/-- Spare-pool slots ready, the value of MAP_POOL FREE; 0 before the map is loaded (R156, R174). -/
def State.freeSlots (s : State) : Nat :=
  let sets := ((List.range 96).filter (fun ds => s.setPresent ds && decide (s.lost ds < 2)))
  if s.patrol.pop = 0 ∨ !s.map.loaded then 0
  else
    let taken := (s.map.entries.filterMap (fun (_, e) => if e.psn != noPsn then some e.psn else none)
      ++ s.map.copies.map (·.target) ++ (s.map.marks.filter (fun m => !m.keeps)).map (·.psn) ++ s.map.retired).eraseDups
    sets.length * dataSlots
      - (taken.filter (fun p => decide (psnSlot p < dataSlots) && sets.contains (psnSet p))).length

/-! ### Keys (R199 to R210) -/

/-- The context of a key index (R207). -/
def State.key (s : State) (i : Nat) : KeyCtx := mget {} s.keys.ctx i

/-- A key context set. -/
def State.setKey (s : State) (i : Nat) (k : KeyCtx) : State :=
  { s with keys := { s.keys with ctx := mset {} s.keys.ctx i k } }

/-- The label words of R205, four ASCII bytes. -/
def labelDK : Nat := 0x5047444B
/-- "PGRK" (R205). -/
def labelRK : Nat := 0x5047524B
/-- "PGD0" (R205). -/
def labelD0 : Nat := 0x50474430
/-- "PGTK" (R205). -/
def labelTK : Nat := 0x5047544B
/-- "PGKC" (R206). -/
def labelKC : Nat := 0x50474B43
/-- "PGST" (R206). -/
def labelST : Nat := 0x50475354

/-- "PGKW" (R205). -/
def labelKW : Nat := 0x50474B57

/-- KEK_dev: it wraps the roots kept in the Weali store and the reserve (R205). -/
def kekDev : BitVec 256 := kdf Config.drs labelKW 0 0

/-- The 512 bits of a key context (R207). -/
def KeyCtx.bits (k : KeyCtx) : Nat :=
  if !k.valid then b2n k.locked * 2 ^ 386 + (if k.locked then k.kcv.toNat * 2 ^ 406 else 0)
  else k.root.toNat + cmacK1 k.root * 2 ^ 256 + 2 ^ 384 + b2n k.persist * 2 ^ 385 + b2n k.rotating * 2 ^ 387
    + (if k.rotating then k.succ % 2 ^ 18 else 0) * 2 ^ 388 + k.kcv.toNat * 2 ^ 406

/-- A record of the key table: for a persistent index the root wrapped under KEK_dev, for every index its KCV, the sequence number and a
check (R208). DESIGN CHOICE (log 95): the order of the fields and CRC-32C as the check. -/
def keyRecordTile (idx : Nat) (root : BitVec 256) (kcv : BitVec 32) (persist : Bool) (seq : Nat) : Tile :=
  let low := idx % 2 ^ 32 + seq % 2 ^ 64 * 2 ^ 32 + kcv.toNat * 2 ^ 96 + b2n persist * 2 ^ 128
    + (if persist then (keyWrap kekDev root).toNat else 0) * 2 ^ 136
  tileOfNat (low + crc32c (bytesOf low 57) * 2 ^ 456)

/-- The data key of an index and version (R205). -/
def State.dataKey (s : State) (idx ver : Nat) : BitVec 256 := kdf (s.key idx).root labelDK idx ver

/-- The reserve key (R205). -/
def State.reserveKey (s : State) : BitVec 256 := kdf Config.drs labelRK s.keys.rgen 0

/-- The key check value of a root: the first 4 bytes of its "PGKC" output (R206). -/
def kcvOf (root : BitVec 256) (idx : Nat) : BitVec 32 := (kdf root labelKC idx 0).extractLsb' 224 32

/-- The derived-key cache is asked for (index, version): least recently used replacement, misses counted (R210, R225). -/
def State.derive (s : State) (idx ver : Nat) : State :=
  let k := (idx, ver)
  if s.keys.derived.contains k then
    { s with keys := { s.keys with derived := k :: s.keys.derived.erase k } }
  else
    let s := { s with keys := { s.keys with derived := (k :: s.keys.derived).take 8192 } }
    s.count 10 3 1

/-- The IV of R200. -/
def tileIv (t seg wcount : Nat) : BitVec 96 := BitVec.ofNat 96 (t % 2 ^ 12 + seg * 2 ^ 12 + wcount * 2 ^ 38)

/-- The additional data of R201. -/
def tileAad (addr : Nat) (f : FieldBlock) : BitVec 128 :=
  BitVec.ofNat 128 (addr % 2 ^ 38 + f.wcount.toNat * 2 ^ 38 + f.keyver.toNat * 2 ^ 62 + f.poison.toNat * 2 ^ 78
    + b2n f.discard * 2 ^ 82 + f.fmt.toNat * 2 ^ 83)

/-- A tile is encrypted and its TAG computed (R199 to R202). -/
def sealTile (key : BitVec 256) (addr seg t : Nat) (f : FieldBlock) (p : Tile) : Tile × FieldBlock :=
  let iv := tileIv t seg f.wcount.toNat
  let c := p ^^^ gcmStream key iv
  (c, { f with tag := gcmTag key iv (tileAad addr f) c })

/-- A tile is verified and decrypted; none on a tag mismatch (R202). -/
def openTile (key : BitVec 256) (addr seg t : Nat) (f : FieldBlock) (c : Tile) : Option Tile :=
  let iv := tileIv t seg f.wcount.toNat
  if gcmTag key iv (tileAad addr f) c = f.tag then some (c ^^^ gcmStream key iv) else none

/-- The old pair of a segment whose re-key is under way (R203, R215). -/
def State.oldPair (s : State) (lsn : Nat) : Option (Nat × Nat) :=
  (s.map.rekeyTab.find? (fun (l, _) => l == lsn)).map (fun (_, o) => (o.1, o.2 - 1))

/-- The key pair that a tile's version selects among the pair and the old pair which its read carries from the map lookup
(R17, R203). -/
def pickPair (ver idx now : Nat) (old : Option (Nat × Nat)) : Option (Nat × Nat) :=
  if ver = 0 then none
  else if ver = now then some (idx, ver)
  else match old with
    | some (i, v) => if ver = v then some (i, v) else none
    | none => none

/-- Is the index LOCKED, or marked faulty in the key store (R207, R209, R462)? -/
def State.keyLocked (s : State) (idx : Nat) : Bool := (s.key idx).locked || s.eng.faulty.contains idx

/-- KEY_ABSENT is set and one event per index and slot is raised (R209, R225). -/
def State.keyAbsent (s : State) (idx : Nat) : State :=
  let s := (s.raise Reg.CIPHER_STATUS.KEY_ABSENT).count 10 6 1
  if s.keys.toldSlot.contains idx then s
  else
    let s := { s with keys := { s.keys with toldSlot := idx :: s.keys.toldSlot } }
    s.event { (mkEv .warning 10 0 .refused).stat Reg.CIPHER_STATUS.KEY_ABSENT with detail := [idx] } none

/-- The index a LD's new mappings take (R211). -/
def State.ldKey (s : State) (ld : Nat) : Nat := s.getF (Reg.LD_KEY.KEYIDX ld)

/-! ### Spare pool and new mappings (R147, R156, R167, R168) -/

/-- The spare-pool events when the pool falls to a bound (R168). -/
def State.poolEvents (s : State) (before : Nat) : State :=
  let n := s.freeSlots
  let s := if n < 1048576 ∧ 1048576 ≤ before then s.event ((mkEv .warning 8 0 .limit).stat Reg.MAP_POOL.LOW) none else s
  let s := if n < 65536 ∧ 65536 ≤ before then s.event ((mkEv .critical 8 0 .limit).stat Reg.MAP_POOL.CRIT) none else s
  if n = 0 ∧ 0 < before then s.event ((mkEv .critical 8 0 .limit).stat Reg.MAP_POOL.EMPTY) none else s

/-- A segment waits to be re-keyed (R215), once. -/
def State.queueRekey (s : State) (lsn cls : Nat) (idx : Option Nat) : State :=
  if s.map.rekeys.any (fun r => r.lsn == lsn && decide (r.cls ≤ cls)) || s.map.rekeyRun.any (fun r => r.lsn == lsn) then s
  else { s with map := { s.map with
    rekeys := (s.map.rekeys.filter (fun r => r.lsn != lsn)) ++ [{ lsn := lsn, cls := cls, newIdx := idx }] } }

/-- VERSION_EXH and the critical event of R217. -/
def State.versionExhausted (s : State) (idx : Nat) : State :=
  (s.raise Reg.CIPHER_STATUS.VERSION_EXH).event
    { (mkEv .critical 10 0 .limit).stat Reg.CIPHER_STATUS.VERSION_EXH with detail := [idx] } none

/-- The warning at KEYVER 58,982, once per index and root (R214). -/
def State.keyverWarn (s : State) (idx ver : Nat) : State :=
  if ver < 58982 || s.keys.toldRoot.contains idx then s
  else
    let s := { s with keys := { s.keys with toldRoot := idx :: s.keys.toldRoot } }
    s.event { mkEv .warning 10 0 .limit with detail := [idx] } none

/-- A segment whose data are lost: its set holds three lost members or more and it is not mirrored (R194). -/
def State.segLost (s : State) (lsn : Nat) : Bool :=
  let e := s.entry lsn
  e.onMedium && decide (3 ≤ s.lost (psnSet e.psn)) && !s.mirrored lsn

/-- A discarded segment is mapped for an LD (R147, R156); with the pool empty it becomes worn-read-only without a
physical segment (R167); at KEYVER 65,535 the version is not advanced (R217). -/
def State.newMapping (s : State) (lsn ld : Nat) (cask : Bool) : State :=
  let e := s.entry lsn
  let before := s.freeSlots
  if e.keyver = 65535 then s.versionExhausted e.keyidx
  else
    let ver := e.keyver + 1
    let idx := s.ldKey ld
    match s.slotForMapping e.note with
    | (some p, s1) =>
      let s2 := s1.setEntry lsn { e with psn := p, keyidx := idx, keyver := ver, state := stMapped, cask := cask || e.cask }
      let s2 := { s2 with map := { s2.map with lastSet := psnSet p } }
      (((s2.count 8 0 1).keyverWarn idx ver).poolEvents before)
    | (none, s1) =>
      let s2 := s1.setEntry lsn { e with psn := noPsn, keyidx := idx, keyver := ver, state := stWorn, cask := cask || e.cask }
      { s2 with map := { s2.map with worn := s2.map.worn ++ [lsn] } }

/-- A full-line write maps a segment whose data are lost afresh; its old slot is retired from use, and its other tiles read poison until
they are rewritten (R194). -/
def State.mapAfresh (s : State) (lsn ld : Nat) : State :=
  let s := (s.copyAbandon lsn false).modMap (fun m => { m with copyWait := m.copyWait.filter (fun w => w.1 != lsn) })
  let old := s.entry lsn
  let s1 := s.newMapping lsn ld old.cask
  if (s1.entry lsn).psn = old.psn then s1
  else (s1.releaseSlot old.psn lsn false false false).modMap (fun m => { m with afresh := mset 0 m.afresh lsn (BitVec.allOnes 4096) })

/-! ### Building a program's content (R125, R129) -/

/-- The field block a program writes before its TAG is computed (R125). -/
def progFields (p : Prog) (fmt : Nat) (disc : Bool) : FieldBlock where
  tag := 0
  wcount := BitVec.ofNat 24 p.wcount
  keyver := BitVec.ofNat 16 p.keyver
  poison := p.poison
  discard := disc
  fmt := BitVec.ofNat 3 fmt
  achk := BitVec.ofNat 16 (if fmt = 2 then p.psn * 4096 + p.t else p.ltn)

/-- The release marking of R157: DISCARD alone. -/
def markFields : FieldBlock where
  tag := 0
  wcount := 0
  keyver := 0
  poison := 0
  discard := true
  fmt := 1
  achk := 0

/-- The tile and fields a program writes: content as it stands for copies, refreshes and markings (R157, R158, R181), plain for
calibration tiles (R199), else sealed under the data or reserve key. -/
def State.progSealed (s : State) (p : Prog) : Tile × FieldBlock :=
  match p.raw with
  | some f => (p.data, f)
  | none =>
    if p.why = .calib then (p.data, { progFields p 7 false with tag := 0 })
    else if p.why.reserve? then
      sealTile s.reserveKey (p.psn * 4096 + p.t) p.psn p.t { progFields p 2 false with keyver := 0 } p.data
    else sealTile (s.dataKey p.keyidx p.keyver) p.ltn (ltnSeg p.ltn) (ltnTile p.ltn) (progFields p 1 (p.why == .discardTile)) p.data

/-- The ten chunks a program writes: all ones for a scrub's first pass (R171), else its tile and fields encoded (R35 to R41). -/
def State.progChunks (s : State) (p : Prog) : List Chunk :=
  if p.why = .scrubOnes then List.replicate 10 (BitVec.allOnes 320)
  else
    let (c, f) := s.progSealed p
    encodeTile c f

/-- What the staging source of a tile's program holds of the tile: contents, lines held, poison lines (R99). A refresh carries the
tile's ciphertext, and a tile discard's source reads as zeros; both count once they are in flight. -/
def State.progHolds (s : State) (p : Prog) : Tile × BitVec 4 × BitVec 4 :=
  if !p.why.user? && p.why != .refresh then (0, 0, 0)
  else if p.why = .discardTile then (0, if p.granted then 15 else 0, 0)
  else match p.raw with
  | none => (p.data, p.valid ||| p.poison, p.poison)
  | some f =>
    if p.why != .refresh || !p.granted then (0, 0, 0)
    else if f.discard then (0, 15, 0)
    else
      let lsn := ltnSeg p.ltn
      let e := s.entry lsn
      match pickPair f.keyver.toNat e.keyidx e.keyver (s.oldPair lsn) with
      | some (i, v) => match openTile (s.dataKey i v) p.ltn lsn (ltnTile p.ltn) f p.data with
        | some x => (x, 15, f.poison)
        | none => (0, 0, 0)
      | none => (0, 0, 0)

end Sys2Proof.Machine
end

