-- ==== Sys2Proof/Machine/CacheOps.lean ====
section
/-!
DEFINITION. The line cache as shared operations (spec/03): sets and ways, victim choice and the replacement tree (R70,
R71), sectors (R76, R77), eviction staging (R78), the streaming detector and the mash buffer (R80 to R82), the dirty
charge (R83), and the entry of miss registers and tile programs (R73, R127, R129).
-/

namespace Sys2Proof.Machine

/-! ### Lines of a tile -/

/-- The line mask bit of line l. -/
def lbit (l : Nat) : BitVec 4 := 1#4 <<< (l % 4)

/-- A tile with one line replaced. -/
def putLine (t : Tile) (l : Nat) (d : Line) : Tile :=
  BitVec.ofNat 2048 (putBits t.toNat (512 * (l % 4)) 512 d.toNat)

/-- The bytes a mask enables, as a line of ones. -/
def maskLine (m : BitVec 64) : Line :=
  BitVec.ofNat 512 ((List.range 64).foldl (fun a b => a + (if m.getLsbD b then 255 * 2 ^ (8 * b) else 0)) 0)

/-- The bytes named by a mask taken from `new`, the others from `old`. -/
def mergeLine (old new : Line) (m : BitVec 64) : Line := (old &&& ~~~(maskLine m)) ||| (new &&& maskLine m)

/-- The lines named by a mask taken from `new`, the others from `old`. -/
def mergeTile (old new : Tile) (m : BitVec 4) : Tile :=
  [0, 1, 2, 3].foldl (fun t l => if m.getLsbD l then putLine t l (new.line l) else t) old

/-! ### Sets (R68) -/

/-- An empty set. -/
def CacheSet.empty : CacheSet where
  ways := List.replicate 16 {}
  tree := 0

/-- Number of sets of the host partition (R68). -/
def hostSets : Nat := 10485760

/-- Set of a tile: host partition for node 0xFFF, visitor partition for a tile of another node (R68). -/
def setOf (node ltn : Nat) : Nat :=
  if node = 0xFFF then ltn % hostSets else (ltn % 2 ^ 20) ^^^ (node * 256 % 2 ^ 20)

/-- The 60 bits of a way entry (R69): a host tile's TAG is LTN div 10,485,760, a visitor's LTN[36:20] and the node. -/
def Way.entry (y : Way) : Nat :=
  let tag := if y.valid = 0 then 0 else if y.node = 0xFFF then y.ltn / hostSets else bitsOf y.ltn 20 17 + y.node * 2 ^ 17
  tag % 2 ^ 29 + y.valid.toNat * 2 ^ 29 + y.dirty.toNat * 2 ^ 33 + y.poison.toNat * 2 ^ 37
    + (if y.node = 0xFFF then y.ld % 64 else 0) * 2 ^ 41 + b2n y.pfu * 2 ^ 47 + b2n y.pin * 2 ^ 48 + b2n y.evq * 2 ^ 49

/-- The 1,024 bits of a set's tag record (R69): the way entries, the tree, zeros, and the check over record and address. -/
def CacheSet.record (c : CacheSet) (tree : BitVec 15) (addr : Nat) : Nat :=
  let low := (c.ways.take 16).zipIdx.foldl (fun a (y, w) => a + y.entry * 2 ^ (60 * w)) 0 + tree.toNat * 2 ^ 960
  low + (Config.tagCheck low addr).toNat * 2 ^ 992

/-- The record of set `n` of a partition as the tag cache has it, and as both stacks' side-band has it (R67): the same but for the
tree. -/
def State.tagRecord (s : State) (visitor hbm : Bool) (n : Nat) : Nat :=
  let c := mget CacheSet.empty (if visitor then s.cache.vsets else s.cache.sets) n
  c.record (if hbm then c.saved else c.tree) n

/-- A set, by its number among the tag records (R72), changed. -/
def State.modTagSet (s : State) (key : Nat) (f : CacheSet → CacheSet) : State :=
  if key % 2 = 0 then { s with cache := { s.cache with sets := mmod CacheSet.empty s.cache.sets (key / 2) f } }
  else { s with cache := { s.cache with vsets := mmod CacheSet.empty s.cache.vsets (key / 2) f } }

/-- On-die macros of a range that are in service (R462). -/
def State.macrosIn (s : State) (first n : Nat) : Nat := ((List.range n).filter (fun i => !s.flag (Reg.MEM_MACRO.OUT (first + i)))).length

/-- Records the tag cache holds: 1,024 for each macro in service (R72, R462). -/
def State.tagRoom (s : State) : Nat := 1024 * s.macrosIn 128 192

/-- Sets the directory cache holds: 2,048 for each macro in service (R254, R462). -/
def State.dirRoom (s : State) : Nat := 2048 * s.macrosIn 320 64

/-- A record enters the tag cache; one that leaves takes its tree to HBM (R67, R72). DESIGN CHOICE (log 19): the least recently used
leaves. -/
def State.tagEnter (s : State) (k : Nat) : State :=
  let l := k :: s.cache.tags.filter (· != k)
  let s : State := { s with cache := { s.cache with tags := l.take s.tagRoom } }
  (l.drop s.tagRoom).foldl (fun s k => s.modTagSet k (fun c => { c with saved := c.tree })) s

/-- A tag-cache macro is taken out: its records are read from HBM again, with the tree as it stands there (R67, R462). DESIGN CHOICE
(log 94): record k lies in macro k mod 192. -/
def State.tagMacroOut (s : State) (m : Nat) : State :=
  let gone := s.cache.tags.filter (fun k => k % 192 == m - 128)
  let s : State := { s with cache := { s.cache with tags := s.cache.tags.filter (fun k => !gone.contains k) } }
  gone.foldl (fun s k => s.modTagSet k (fun c => { c with tree := c.saved })) s

/-- The set of a tile. -/
def State.cset (s : State) (node ltn : Nat) : CacheSet :=
  if node = 0xFFF then mget CacheSet.empty s.cache.sets (setOf node ltn)
  else mget CacheSet.empty s.cache.vsets (setOf node ltn)

/-- The set of a tile replaced. -/
def State.setCset (s : State) (node ltn : Nat) (c : CacheSet) : State :=
  if node = 0xFFF then { s with cache := { s.cache with sets := mset CacheSet.empty s.cache.sets (setOf node ltn) c } }
  else { s with cache := { s.cache with vsets := mset CacheSet.empty s.cache.vsets (setOf node ltn) c } }

/-- A way of a tile's set. -/
def State.way (s : State) (node ltn w : Nat) : Way := (s.cset node ltn).ways.getD w {}

/-- A way of a tile's set changed. -/
def State.modWay (s : State) (node ltn w : Nat) (f : Way → Way) : State :=
  let c := s.cset node ltn
  s.setCset node ltn { c with ways := lmod c.ways w f }

/-- Ways of an encoding of WAYS_REQ and WAYS_NOW (R94). -/
def waysOf (e : Nat) : Nat := if e = 1 then 12 else if e = 2 then 8 else 16

/-- Ways in force (R91). -/
def State.waysNow (s : State) : Nat := waysOf (s.getF Reg.LC_WAYS.WAYS_NOW)

/-- Ways of the host partition that take allocations: fewer while a reduction is under way (R91). -/
def State.allocWays (s : State) : Nat := min s.waysNow (s.cache.wayTarget.getD 16)

/-- Is lookup off for the LD (R88)? -/
def State.lookupOff (s : State) (ld : Nat) : Bool := s.cache.lookupOff.contains ld

/-- Has the set no ways because its stack failed (R93, R514)? A visitor set's stack is taken from its number as a host set's is (R68
gives it for host sets: DEDUCED, log 68). -/
def State.noWays (s : State) (node ltn : Nat) : Bool :=
  s.avail.stackDown.getLsbD (setOf node ltn % 2)

/-- Lines of a tile that were lost with a stack and are not programmed yet (R93). -/
def State.lostMask (s : State) (ltn : Nat) : BitVec 4 := ((s.avail.lostLines.find? (fun (t, _) => t == ltn)).map (·.2)).getD 0

/-- Does a way hold the tile and may it be looked up (R69, R88)? -/
def Way.holds (w : Way) (node ltn : Nat) : Bool := w.valid != 0 && w.ltn == ltn && w.node == node

/-- The way that holds a tile, if lookup finds it. -/
def State.findWay (s : State) (node ltn : Nat) : Option Nat :=
  if s.noWays node ltn then none
  else
    ((s.cset node ltn).ways.findIdx? (fun w => w.holds node ltn && !(node == 0xFFF && s.lookupOff w.ld)))

/-! ### Victim choice and the replacement tree (R70, R71) -/

/-- The walk of R70 down the tree: `n` levels are left. -/
def treeWalk (tree : BitVec 15) (ways : Nat) : Nat → Nat → Nat
  | 0, n => n
  | k + 1, n =>
    if n < 15 then
      let b := if (n = 0 ∧ ways = 8) ∨ (n = 2 ∧ ways = 12) then 0 else b2n (tree.getLsbD n)
      treeWalk tree ways k (2 * n + 1 + b)
    else n

/-- The first eligible way from w upwards, wrapping (R70). -/
def nextEligible (ok : Nat → Bool) (ways : Nat) : Nat → Nat → Option Nat
  | 0, _ => none
  | k + 1, w => if ok (w % ways) then some (w % ways) else nextEligible ok ways k (w + 1)

/-- R70 victim over the ways that `ok` admits; `isEmpty` tells the ways that count as holding no valid sector. -/
def victimOf (tree : BitVec 15) (ways : Nat) (ok isEmpty : Nat → Bool) : Option Nat :=
  match (List.range ways).find? (fun w => ok w && isEmpty w) with
  | some w => some w
  | none => nextEligible ok ways ways (treeWalk tree ways 4 0 - 15)

/-- R70 touch. -/
def touchTree (tree : BitVec 15) : Nat → Nat → BitVec 15
  | 0, _ => tree
  | k + 1, n =>
    if n = 0 then tree
    else
      let p := (n - 1) / 2
      touchTree (if n = 2 * p + 1 then tree ||| (1#15 <<< p) else tree &&& ~~~(1#15 <<< p)) k p

/-- R71: a hit, a demand fill or a write allocation touches the tree. -/
def State.touch (s : State) (node ltn w : Nat) : State :=
  let c := s.cset node ltn
  s.setCset node ltn { c with tree := touchTree c.tree 4 (w + 15) }

/-- Ways a set of the partition uses. -/
def State.setWays (s : State) (node : Nat) : Nat := if node = 0xFFF then s.allocWays else 16

/-- Does the way count as empty (R70)? -/
def State.wayEmpty (s : State) (node : Nat) (w : Way) : Bool :=
  w.valid == 0 || (node == 0xFFF && s.lookupOff w.ld)

/-- Tile slots of a staging area, given as its first macro and its macros: 512 for each macro not taken out (R462, R463). -/
def State.areaSlots (s : State) (first n : Nat) : Nat :=
  512 * ((List.range n).filter (fun i => !s.flag (Reg.MEM_MACRO.OUT (first + i)))).length

/-- Programs of host origin waiting or in flight: the tiles in eviction staging (R78). -/
def State.staged (s : State) : Nat := (s.progs.list.filter (fun p => p.why == .evict || p.why == .through)).length

/-- The victim way for a tile (R70, R78): with eviction staging full, dirty ways are passed over. -/
def State.victim (s : State) (node ltn : Nat) : Option Nat :=
  if s.noWays node ltn then none
  else
    let c := s.cset node ltn
    let stagingFull := decide (s.areaSlots 576 40 ≤ s.staged)
    victimOf c.tree (s.setWays node)
      (fun w => let y := c.ways.getD w {}
                !y.pin && !y.resv && !(stagingFull && node == 0xFFF && y.dirty != 0 && !s.wayEmpty node y))
      (fun w => s.wayEmpty node (c.ways.getD w {}))

/-! ### Charge (R83) -/

/-- Host-partition tiles with a dirty sector. -/
def State.dirtyWays (s : State) : Nat :=
  (s.cache.sets.map (fun (_, c) => (c.ways.filter (fun w => w.valid != 0 && w.dirty != 0)).length)).sum

/-- Is a home tile charged on its own account: dirty in a way, in the mash buffer, or in eviction staging (R83)? -/
def State.tileCharged (s : State) (ltn : Nat) : Bool :=
  (s.cset 0xFFF ltn).ways.any (fun w => w.holds 0xFFF ltn && w.dirty != 0) || s.cache.mash.any (fun m => m.ltn == ltn)
    || s.progs.list.any (fun p => p.charged && p.ltn == ltn)

/-- Tiles of writes that are placed and whose mirror has not confirmed: they keep their charge (R124). -/
def State.heldCharge (s : State) : Nat :=
  ((((s.home.act.filter (fun a => a.wantMirror && !a.answered && a.phase == .placed && decide (a.req.line < 2 ^ 39))).map
      (fun a => a.req.line / 4)).eraseDups).filter (fun t => !s.tileCharged t)).length

/-- The dirty charge in tiles (R83, R124). -/
def State.charge (s : State) : Nat :=
  s.dirtyWays + (s.progs.list.filter (fun p => p.charged)).length + s.cache.mash.length + s.heldCharge

/-- Pinned tiles of all causes (R164). -/
def State.pinned (s : State) : Nat :=
  (s.cache.sets.map (fun (_, c) => (c.ways.filter (fun w => w.valid != 0 && w.pin)).length)).sum

/-- The pin limit of R164. -/
def pinLimit : Nat := 4194304

/-- Is a drydown under way (R360)? -/
def State.inDrydown (s : State) : Bool := s.getF Reg.DRY_STAT.PHASE != 0

/-- The class of mash programs (R23, R81, R139, R360). -/
def State.mashClass (s : State) : Nat := if s.inDrydown then 1 else if s.writeThrough then 2 else 3

/-- The class of evictions and cleaning (R23, R85, R139, R360). -/
def State.evictClass (s : State) : Nat :=
  if s.inDrydown then 1
  else if s.writeThrough then 2
  else if s.budget * 9 < s.charge * 10 then 2
  else 3

/-! ### Miss registers and programs enter (R73, R126, R127, R129) -/

/-- The register of a tile, if it has one. -/
def State.regOf (s : State) (k : TileRef) : Option Reg := s.reads.regs.find? (fun r => r.key == k)

/-- Free miss registers (R94). -/
def State.regsFree (s : State) : Nat := s.areaSlots 616 16 - s.reads.regs.length

/-- A new miss register (R73): map entry first for a logical tile, issue at once for a physical one or a counter read. -/
def mkReg (k : TileRef) (why : RdWhy) (at_ : Nat) : Reg where
  key := k
  why := why
  phase := match k, why with
    | .physical _ _, _ => .issue
    | _, .counter => .issue
    | _, _ => .map
  way := none
  secs := []
  psn := match k with | .physical p _ => p.toNat | _ => 0
  t := match k with | .physical _ t => t.toNat | .logical l => l.toNat % 4096
  keyidx := 0
  keyver := 0
  age := 0
  bucket := 0
  round := 0
  chunks := []
  sparge := false
  busy := 0

  tile := 0
  fields := none
  job := 0
  at_ := at_

/-- A register is taken. -/
def State.addReg (s : State) (r : Reg) : State := { s with reads := { s.reads with regs := s.reads.regs ++ [r] } }

/-- The register of a tile changed. -/
def State.modReg (s : State) (k : TileRef) (f : Reg → Reg) : State :=
  { s with reads := { s.reads with regs := lupd (fun r => r.key == k) f s.reads.regs } }

/-- The tile a program reads its old contents and fields from. -/
def Prog.ref (p : Prog) : TileRef :=
  if p.why.reserve? then .physical (BitVec.ofNat 26 p.psn) (BitVec.ofNat 12 p.t) else .logical (BitVec.ofNat 37 p.ltn)

/-- One program changed. -/
def State.modProg (s : State) (id : Nat) (f : Prog → Prog) : State :=
  { s with progs := { s.progs with list := lupd (fun p => p.id == id) f s.progs.list } }

/-- A program that needs old contents or fields takes a register for them, if one is free and the tile holds none; a
tile's register serves its program too (R127, R129). -/
def State.feedProg (s : State) (p : Prog) : State :=
  if p.phase != .read && p.phase != .counter then s
  else if (s.regOf p.ref).isSome then s.modProg p.id (fun q => { q with phase := .read })
  else if s.regsFree = 0 then s
  else
    let why := if p.phase = .read then RdWhy.rmw else RdWhy.counter
    let s := s.addReg { mkReg p.ref why s.ft with psn := p.psn, t := p.t }
    s.count 7 (if why = .rmw then 1 else 2) 1

/-- Programs that wait for a register are served in order while registers are free (R74). -/
def State.feedProgs (s : State) : State :=
  (s.progs.list.filter (fun p => (p.phase == .read || p.phase == .counter) && (s.regOf p.ref).isNone)).foldl
    (fun s p => s.feedProg p) s

/-- A tile that must be programmed in a set with two or more lost members has its segment relocated at once, at class 4 (R193). -/
def State.doubleLossCopy (s : State) (p : Prog) : State :=
  if p.why.user? && p.psn != noPsn && s.power.dry.isNone && decide (2 ≤ s.lost (psnSet p.psn)) then s.queueCopy (ltnSeg p.ltn) .doubleLoss
  else s

/-- A program of a user tile is sent (R125 to R127, R129): it waits while another program of the tile is ahead (R126);
with a sector missing it needs an RMW read, otherwise a counter read. Pairs come from the map entry. -/
def State.sendProg (s : State) (why : PgWhy) (cls ltn ld : Nat) (data : Tile) (valid dirty poison : BitVec 4)
    (charged : Bool) (job : Nat) : State :=
  let e := s.entry (ltnSeg ltn)
  let ahead := s.progs.list.any (fun q => q.ltn == ltn && q.why.tile?)
  let whole := (valid ||| poison) == 15 || why == .discardTile
  let p : Prog := {
    id := s.progs.next, why := why, cls := cls, ltn := ltn, psn := e.psn, t := ltnTile ltn,
    phase := if ahead then .blocked else if whole then .counter else .read,
    data := data, valid := valid, dirty := dirty, poison := poison, raw := none, old := none,
    keyidx := e.keyidx, keyver := e.keyver, wcount := 0, charged := charged, wave := 0, pend := [], again := [],
    failed := [], allow := 2, ld := ld, skip := [], job := job }
  let s1 := (s.doubleLossCopy p).addProg p
  s1.feedProg p

/-- A dirty way's contents go to eviction staging and the way is freed (R78). Visitor ways are only dropped (R267). -/
def State.evictWay (s : State) (node ltn w : Nat) : State :=
  let y := s.way node ltn w
  let s1 := s.modWay node ltn w (fun _ => {})
  if node = 0xFFF ∧ y.valid ≠ 0 ∧ y.dirty ≠ 0 ∧ !s.lookupOff y.ld then
    s1.sendProg .evict s.evictClass y.ltn y.ld y.data y.valid y.dirty y.poison true 0
  else s1

/-- A way is taken for a tile: the victim is evicted, the way holds nothing yet (R70, R78). -/
def State.takeWay (s : State) (node ltn ld : Nat) : Option (Nat × State) :=
  match s.victim node ltn with
  | none => none
  | some w =>
    let s1 := s.evictWay node ltn w
    some (w, s1.modWay node ltn w (fun _ => { ltn := ltn, node := node, ld := ld }))

/-! ### Cleaning a tile (R85) -/

/-- A dirty, unpinned tile in a way is sent for a program and stays in its way with EVQ set (R85). -/
def State.cleanWay (s : State) (ltn w : Nat) (cls : Nat) : State :=
  let y := s.way 0xFFF ltn w
  if y.valid ≠ 0 ∧ y.dirty ≠ 0 ∧ !y.evq ∧ !y.pin then
    let s := s.modWay 0xFFF ltn w (fun y => { y with evq := true, again := 0 })
    s.sendProg .clean cls y.ltn y.ld y.data y.valid y.dirty y.poison false 0
  else s

/-! ### Writing a sector (R77, R237) -/

/-- The outcome of a write in a way that holds the line or takes it whole (R77, R237). -/
def Way.write (y : Way) (l : Nat) (d : Line) (m : BitVec 64) (poison : Bool) : Way :=
  let b := lbit l
  let full := m == BitVec.allOnes 64
  let wasPoison := (y.poison &&& b) != 0
  let y1 := { y with dirty := y.dirty ||| b, valid := y.valid ||| b, pfu := false,
                     again := if y.evq then y.again ||| b else y.again, spilled := false }
  if poison then { y1 with poison := y.poison ||| b, data := if full then putLine y.data l d else y.data }
  else if full then { y1 with poison := y.poison &&& ~~~b, data := putLine y.data l d }
  else if wasPoison then y1
  else { y1 with data := putLine y.data l (mergeLine (y.data.line l) d m) }

/-- Can the write be placed without reading the tile (R77)? -/
def Way.takes (y : Way) (l : Nat) (m : BitVec 64) (poison : Bool) : Bool :=
  m == BitVec.allOnes 64 || poison || (y.valid &&& lbit l) != 0

/-! ### Fill (R76, R112) -/

/-- A way filled with a tile read: dirty sectors keep their data, the others take the tile's, poison lines are marked;
`mark` marks every sector filled dirty (R112). -/
def Way.fill (y : Way) (t : Tile) (poison : BitVec 4) (mark : Bool) : Way :=
  let fresh := ~~~(y.dirty &&& y.valid)
  { y with valid := 15, data := mergeTile y.data t fresh,
           poison := (y.poison &&& ~~~fresh) ||| (poison &&& fresh),
           dirty := if mark then y.dirty ||| fresh else y.dirty, resv := false }

/-! ### Streaming (R80, R81) -/

/-- Does a tracker accept a write to a tile (R80)? -/
def Tracker.accepts (t : Tracker) (ld ltn : Nat) : Bool :=
  t.ld == ld && (t.parts.any (fun p => p.1 == ltn)
    || (decide (0 < t.run) && decide (t.last < ltn) && decide (ltn ≤ t.last + 4)))

/-- A line of a tile seen by a tracker: a tile whose four lines were seen is completed (R80). -/
def Tracker.see (t : Tracker) (ltn l : Nat) : Tracker :=
  let old := ((t.parts.find? (fun p => p.1 == ltn)).map (·.2)).getD 0
  let m := old ||| lbit l
  let rest := t.parts.filter (fun p => p.1 != ltn)
  if m = 15 then { t with last := ltn, run := t.run + 1, parts := rest.filter (fun p => decide (ltn < p.1)) }
  else { t with parts := (ltn, m) :: rest }

/-- STREAM_RUN in force: values outside 16 to 1,023 are taken as 64 (R94). -/
def State.streamRun (s : State) : Nat :=
  let v := s.getF Reg.LC_CONFIG.STREAM_RUN
  if 16 ≤ v ∧ v ≤ 1023 then v else 64

/-- The streaming detector sees a full-line write; answers whether a streaming tracker matched it (R80). Of two accepting trackers
with equally many completed tiles the one longest without a match takes it (DESIGN CHOICE, log 80). -/
def State.trackWrite (s : State) (ld ltn l : Nat) : Bool × State :=
  if !s.flag Reg.LC_CONFIG.STREAM_EN || !s.flag (Reg.LC_LD_CTRL.STREAM_OK ld) then (false, s)
  else
    let ts := s.cache.trackers
    let best := (ts.filter (fun t => t.accepts ld ltn)).foldl
      (fun b t => match b with | none => some t | some (c : Tracker) => if c.run < t.run then some t else b) none
    match best with
    | some t =>
      let streams := decide (s.streamRun ≤ t.run)
      let ts1 := ts.filter (fun u => u.id != t.id) ++ [t.see ltn l]
      (streams, { s with cache := { s.cache with trackers := ts1 } })
    | none =>
      let freeId := (List.range 64).find? (fun i => !ts.any (fun t => t.id == i))
      let (id, rest) := match freeId with
        | some i => (i, ts)
        | none => match ts with
          | t :: r => (t.id, r)
          | [] => (0, [])
      let t : Tracker := { id := id, ld := ld, last := ltn, run := 0, parts := [(ltn, lbit l)] }
      (false, { s with cache := { s.cache with trackers := rest ++ [t] } })

/-- The mash slot of a tile, if it has one. -/
def State.mashOf (s : State) (ltn : Nat) : Option Mash := s.cache.mash.find? (fun m => m.ltn == ltn)

/-- A mash slot spilled into a way as valid dirty sectors, and programmed at once in write-through (R82, R140); none when no way is
eligible or no miss register is free for the allocation (R71, R73). -/
def State.spillMash (s : State) (m : Mash) : Option State :=
  let ps := s.progs.list.filter (fun (p : Prog) => !(p.ltn == m.ltn && p.why == PgWhy.mash && !p.granted))
  let ms := s.cache.mash.filter (fun x => x.ltn != m.ltn)
  let s0 : State := { s with cache := { s.cache with mash := ms }, progs := { s.progs with list := ps } }
  match (if s.regsFree = 0 then none else s0.takeWay 0xFFF m.ltn m.ld) with
  | none => none
  | some (w, s1) =>
    let s1 := (s1.modWay 0xFFF m.ltn w (fun y => { y with valid := m.valid, dirty := m.valid, poison := m.poison, data := m.data })).touch
      0xFFF m.ltn w
    some (if s.writeThrough || s.inDrydown then s1.cleanWay m.ltn w s.evictClass else s1)

/-- A free mash slot is made: the oldest complete slot not yet programming is spilled, else the oldest incomplete (R82); none where
neither can be. A slot's age runs from its last write, since a write moves it to the end (DESIGN CHOICE, log 82). -/
def State.mashRoom (s : State) : Option State :=
  if s.cache.mash.length < s.areaSlots 512 64 then some s
  else
    match (s.cache.mash.find? (fun m => m.valid == 15
        && !(s.progs.list.any (fun (p : Prog) => p.ltn == m.ltn && p.why == PgWhy.mash && p.granted)))).orElse
          (fun _ => s.cache.mash.find? (fun m => m.valid != 15)) with
    | some m => s.spillMash m
    | none => none

/-- A full line goes into the tile's mash slot, or a new one for which there is room; a complete slot is sent at class 3
(R80 to R82). -/
def State.mashWrite (s : State) (ld ltn l : Nat) (d : Line) (poison : Bool) : State :=
  let m0 : Mash := (s.mashOf ltn).getD { ltn := ltn, ld := ld }
  let m1 := { m0 with valid := m0.valid ||| lbit l, data := putLine m0.data l d,
                      poison := if poison then m0.poison ||| lbit l else m0.poison &&& ~~~(lbit l) }
  let rest := s.cache.mash.filter (fun m => m.ltn != ltn)
  let s := { s with cache := { s.cache with mash := rest ++ [m1] } }
  if m1.valid = 15 ∧ !m1.prog then
    let s := { s with cache := { s.cache with mash := rest ++ [{ m1 with prog := true }] } }
    s.sendProg .mash s.mashClass ltn ld m1.data 15 15 m1.poison false 0
  else s

/-! ### Tiles of the ways (R85, R87) -/

/-- Every way of the host partition, as (tile, way). -/
def State.hostWays (s : State) : List (Nat × Nat × Way) :=
  s.cache.sets.flatMap (fun (_, c) =>
    (c.ways.zipIdx.filter (fun (y, _) => y.valid != 0)).map (fun (y, i) => (y.ltn, i, y)))

/-- A tile is dropped from the ways, eviction staging not yet granted, and the mash buffer, with its charge (R87, R169). -/
def State.dropTile (s : State) (ltn : Nat) : State :=
  let s := match (s.cset 0xFFF ltn).ways.findIdx? (fun w => w.holds 0xFFF ltn) with
    | some w => s.modWay 0xFFF ltn w (fun _ => {})
    | none => s
  { s with cache := { s.cache with mash := s.cache.mash.filter (fun m => m.ltn != ltn) },
           progs := { s.progs with list := s.progs.list.filter (fun (p : Prog) =>
             !(p.ltn == ltn && (p.why == .evict || p.why == .clean || p.why == .mash || p.why == .through) && !p.granted)) } }

end Sys2Proof.Machine
end

