-- ==== Sys2Proof/Machine/TallyOps.lean ====
section
/-!
DEFINITION. What the tally unit does at a request's completion and at an event (spec/21): histograms, per-LD and head
counts, sample records, and the running figures of the summary interval.
-/

namespace Sys2Proof.Machine

/-- The tally unit changed. -/
def State.modTally (s : State) (f : TallySt → TallySt) : State := { s with tally := f s.tally }

/-- The summary interval changed. -/
def State.modInterval (s : State) (f : Interval → Interval) : State :=
  s.modTally (fun t => { t with interval := f t.interval })

/-- A flag of the summary record's FLAGS noted (R499). -/
def State.noteFlag (s : State) (b : Nat) : State := s.modInterval (fun i => { i with flags := i.flags ||| 2 ^ b })

/-- The counts of an LD changed. -/
def State.modLd (s : State) (ld : Nat) (f : LdCounts → LdCounts) : State :=
  s.modTally (fun t => { t with ld := mmod {} t.ld ld f })

/-- The bin of a latency in ns (R495): floor(2 × log2(L ÷ 16)), kept in 0 to 31. Bin b starts where L² reaches
256 × 2^b. -/
def histBin (ns : Nat) : Nat := if ns * ns < 512 then 0 else min 31 (Nat.log2 (ns * ns / 256))

/-- A request of a kind counted in its head's histogram; a bin saturates (R495). -/
def State.histogram (s : State) (head kind ns : Nat) : State :=
  s.modTally (fun t => { t with hist := mmod 0 t.hist (32 * (8 * head + kind) + histBin ns) (fun n => min (n + 1) (2 ^ 32 - 1)) })

/-- One step of the sampling LFSR, x^32 + x^22 + x^2 + x + 1 (R496, log 16). -/
def lfsrStep (x : Nat) : Nat :=
  let fb := b2n ((bitAt x 31).xor ((bitAt x 21).xor ((bitAt x 1).xor (bitAt x 0))))
  (2 * x + fb) % 2 ^ 32

/-- Does the LD filter admit a request (R496, R507)? -/
def State.sampleFilter (s : State) (ld : Nat) : Bool :=
  let f := s.getF Reg.SAMPLE_CTRL.LD
  if f < 64 then f == ld else true

/-- A request advances the LFSR and may be sampled (R496). -/
def State.sampleDraw (s : State) (ld : Nat) : Bool × State :=
  if !s.flag Reg.SAMPLE_CTRL.ENABLE || !s.sampleFilter ld then (false, s)
  else
    let x := lfsrStep s.tally.sample.lfsr
    let r := min 20 (s.getF Reg.SAMPLE_CTRL.RATE_LOG)
    let s := s.modTally (fun t => { t with sample := { t.sample with lfsr := x } })
    if x % 2 ^ r = 0 then
      (true, s.modTally (fun t => { t with life := mmod 0 t.life 126 (· + 1) }))
    else (false, s)

/-- A sample record (R496). -/
def sampleRec (seq ld port : Nat) (link : Bool) (kind meta_ addr stamp tTotal node : Nat) (poison wt mir : Bool)
    (tr : Trace) : Nat :=
  let sat := fun (x : Nat) => min x (2 ^ 24 - 1)
  let since := fun (x : Nat) => if x = 0 then 0 else sat (x - stamp)
  stamp % 2 ^ 64 + seq % 2 ^ 32 * 2 ^ 64 + ld % 64 * 2 ^ 96 + port % 8 * 2 ^ 102 + b2n link * 2 ^ 105
    + kind % 16 * 2 ^ 106 + meta_ % 4 * 2 ^ 110 + addr % 2 ^ 45 * 2 ^ 112 + since tr.tHome * 2 ^ 184
    + since tr.tMap * 2 ^ 208 + since tr.tMedia * 2 ^ 232 + sat tTotal * 2 ^ 256 + b2n tr.hit * 2 ^ 280
    + b2n tr.sparge * 2 ^ 281 + tr.round % 8 * 2 ^ 282 + b2n poison * 2 ^ 285 + b2n wt * 2 ^ 286 + b2n mir * 2 ^ 287
    + tr.keyidx % 2 ^ 18 * 2 ^ 288 + tr.psn % 2 ^ 26 * 2 ^ 306 + tr.busy % 4 * 2 ^ 332 + node % 4096 * 2 ^ 334

/-- A record enters the bank being filled; a full bank becomes readable; with both banks full the sample is lost
(R497). -/
def State.sampleWrite (s : State) (rec : Nat) : State :=
  let b := s.tally.sample
  if 2 ≤ b.ready.length then
    (s.modTally (fun t =>
      { t with sample := { t.sample with lost := min (t.sample.lost + 1) (2 ^ 32 - 1) },
               interval := { t.interval with lost := t.interval.lost + 1 } })).count 17 2 1
  else
    let f := b.filling ++ [rec]
    let b := if 4096 ≤ f.length then { b with filling := [], ready := b.ready ++ [f] } else { b with filling := f }
    (s.modTally (fun t => { t with sample := { b with seq := (b.seq + 1) % 2 ^ 32 } })).count 17 1 1

/-- Read data of a request counted: head bytes, port counter, LD counts, the interval (R249, R492, R499, R505). -/
def State.countRead (s : State) (head ld bytes : Nat) (poison : Bool) : State :=
  let s := s.count (head / 2) 0 bytes
  let s := if poison then s.count (head / 2) 4 1 else s
  let s := s.modLd ld (fun l => { l with rdBytes := l.rdBytes + bytes, poison := l.poison + b2n poison })
  let s := s.modTally (fun t => { t with head := mmod 0 t.head (2 * head) (· + bytes) })
  s.modInterval (fun i =>
    { i with rdBytes := mmod 0 i.rdBytes (head / 2) (· + bytes), poison := i.poison + b2n poison,
             flags := if poison then i.flags ||| 64 else i.flags })

/-- Write data of a request counted. -/
def State.countWrite (s : State) (head ld bytes : Nat) : State :=
  let s := s.count (head / 2) 1 bytes
  let s := s.modLd ld (fun l => { l with wrBytes := l.wrBytes + bytes })
  let s := s.modTally (fun t => { t with head := mmod 0 t.head (2 * head + 1) (· + bytes) })
  s.modInterval (fun i => { i with wrBytes := mmod 0 i.wrBytes (head / 2) (· + bytes) })

/-- The longest read or write of the window and of the interval (R499, R505). -/
def State.noteLatency (s : State) (ld ns : Nat) (write : Bool) : State :=
  let s := s.modLd ld (fun l => if write then { l with wrMax := max l.wrMax ns } else { l with rdMax := max l.rdMax ns })
  s.modInterval (fun i => if write then { i with wrLat := max i.wrLat ns } else { i with rdLat := max i.rdLat ns })

end Sys2Proof.Machine
end

