-- ==== Sys2Proof/Machine/KelricOps.lean ====
section
/-!
DEFINITION. What every Kelric command shares (spec/16, spec/17 R415 to R418): paths and queues, the checks made before a
command's own, the answer of a command, timed submission (spec/12 R325), and completions of queues (R401 to R405).
-/

namespace Sys2Proof

/-- `n` bytes of operands from byte `b`, little-endian (R415). -/
def KCmd.op (c : KCmd) (b n : Nat) : Nat := bitsOf c.ops.toNat (8 * b) (8 * n)

end Sys2Proof

namespace Sys2Proof.Machine

/-! ### Statuses (R406) -/

/-- SUCCESS. -/
def kOk : Nat := 0x0000
/-- SCHEDULED. -/
def kScheduled : Nat := 0x0001
/-- INVALID_OPCODE. -/
def kOpcode : Nat := 0x0010
/-- INVALID_FIELD. -/
def kField : Nat := 0x0011
/-- INVALID_RANGE. -/
def kRange : Nat := 0x0012
/-- PERMISSION. -/
def kPermission : Nat := 0x0013
/-- CID_IN_USE. -/
def kCidInUse : Nat := 0x0014
/-- DATA_ERROR. -/
def kData : Nat := 0x0015
/-- NOT_READY. -/
def kNotReady : Nat := 0x0016
/-- LOCK. -/
def kLock : Nat := 0x0017
/-- BUSY. -/
def kBusy : Nat := 0x0018
/-- DRYDOWN. -/
def kDrydown : Nat := 0x0019
/-- ABORTED. -/
def kAborted : Nat := 0x001A
/-- LIFECYCLE. -/
def kLifecycle : Nat := 0x001B
/-- INVALIDATE_REQUIRED. -/
def kInvalidate : Nat := 0x0020
/-- CASK_MEMBER. -/
def kCaskMember : Nat := 0x0021
/-- SET_DEGRADED. -/
def kDegraded : Nat := 0x0022
/-- MAP_TOO_SPARSE. -/
def kSparse : Nat := 0x0023
/-- QUEUE_FULL. -/
def kQueueFull : Nat := 0x0024
/-- KEY_IN_USE. -/
def kKeyInUse : Nat := 0x0030
/-- KEY_MISMATCH. -/
def kKeyMismatch : Nat := 0x0031
/-- NO_SESSION. -/
def kNoSession : Nat := 0x0032
/-- UNWRAP_FAILED. -/
def kUnwrapFailed : Nat := 0x0033
/-- INVALID_INDEX. -/
def kInvalidIndex : Nat := 0x0034

/-- The mailbox return code of a status (R406). -/
def rcOf (st : Nat) : Rc :=
  if st = kOk ∨ st = kScheduled then .success
  else if st = kOpcode then .unsupported
  else if st = kData then .internalError
  else if st = kNotReady ∨ st = kBusy ∨ st = kDrydown ∨ st = kQueueFull then .busy
  else if st = kAborted then .aborted
  else .invalidInput

/-! ### Operands and data (R415) -/

/-- A number as `n` little-endian bytes. -/
def leBytes (v n : Nat) : List Byte := (List.range n).map (fun i => BitVec.ofNat 8 (v >>> (8 * i)))

/-- Little-endian bytes as a number. -/
def leNat (l : List Byte) : Nat := l.foldr (fun b a => b.toNat + 256 * a) 0

/-- The number of an event's kind in CODE (R504). -/
def EvKind.code : EvKind → Nat
  | .limit => 1 | .fault => 2 | .lost => 3 | .refused => 4 | .changed => 5 | .protocol => 6 | .timed => 7 | .selfTest => 8

/-- The 80 bytes of a vendor record after its header (R504). -/
def EvRec.body (e : EvRec) : List Byte :=
  leBytes (e.block % 2 ^ 8 + e.unit % 2 ^ 8 * 2 ^ 8 + e.kind.code * 2 ^ 16 + e.block % 2 ^ 8 * 2 ^ 24 + e.evseq % 2 ^ 64 * 2 ^ 32
    + e.ft % 2 ^ 64 * 2 ^ 96 + e.addr % 2 ^ 40 * 2 ^ 160 + e.psn % 2 ^ 26 * 2 ^ 200 + e.ld % 2 ^ 6 * 2 ^ 226
    + e.lines % 2 ^ 4 * 2 ^ 232 + e.statOff % 2 ^ 32 * 2 ^ 240 + e.statBit % 2 ^ 8 * 2 ^ 272) 35
  ++ ((List.range 5).flatMap (fun i => leBytes (e.detail.getD i 0) 8)) ++ leBytes (e.detail.getD 5 0) 5

/-- `n` bytes of a list from byte `b`, little-endian, absent bytes 0. -/
def leAt (l : List Byte) (b n : Nat) : Nat := leNat ((l.drop b).take n)

/-- The path of a command as a number: a mailbox by its LD, a management path by 64 + LD or 128 + head. -/
def pathNo : MboxPath → Nat
  | .mailbox ld => ld.val
  | .mgmt ld => 64 + ld.val
  | .mgmtFm h => 128 + h.val

/-- The LD function a path's background operation belongs to (R397): 64 + h for a head's FM-owned LD. -/
def pathFn (p : Nat) : Nat := if p < 128 then p % 64 else p - 64

/-- A queue pair. -/
def State.queue (s : State) (q : Nat) : KQueue := mget {} s.kelric.queues q

/-- A queue pair changed. -/
def State.modQueue (s : State) (q : Nat) (f : KQueue → KQueue) : State :=
  { s with kelric := { s.kelric with queues := mmod {} s.kelric.queues q f } }

/-- The LD a queue belongs to (R398). -/
def State.queueLd (s : State) (q : Nat) : Nat := s.getF (Reg.KQ_CTRL.LD q)

/-- The LD a command is issued by, or named by its path (R394, R407, R418); none for a head's FM-owned LD. -/
def State.cmdLd (s : State) : CmdSrc → Option Nat
  | .path (.mailbox ld) => some ld.val
  | .path (.mgmt ld) => some ld.val
  | .path (.mgmtFm _) => none
  | .queue q _ => some (s.queueLd q.val)
  | _ => none

/-- Did the command come over the management bus (R407)? -/
def fromMgmt : CmdSrc → Bool
  | .path (.mgmt _) => true
  | .path (.mgmtFm _) => true
  | _ => false

/-- May an LD issue device-scope commands (R407, R414 ADMIN)? -/
def State.admin (s : State) (ld : Nat) : Bool := bitAt (s.getF Reg.KQ_ADMIN.ADMIN) ld

/-! ### Completion entries (R401, R403, R404) -/

/-- Signal a queue's vector after a posting, at most once per microsecond per vector (R404). -/
def State.signalVec (s : State) (ld vec : Nat) : State :=
  let k := 64 * ld + vec
  let (hold, _) := mget (false, false) s.kelric.vecs k
  let s1 := { s with kelric := { s.kelric with vecs := mset (false, false) s.kelric.vecs k (true, hold) } }
  if hold || mget false s.host.msixMasked ld then s1 else s1.emit (.msix ld vec)

/-- Entries of a queue's SQ and CQ (R398). -/
def State.sqSize (s : State) (q : Nat) : Nat := 2 ^ s.getF (Reg.KQ_CTRL.SQ_LOG q)
/-- CQ entries. -/
def State.cqSize (s : State) (q : Nat) : Nat := 2 ^ s.getF (Reg.KQ_CTRL.CQ_LOG q)

/-- Is there a CQ slot (R401)? -/
def State.cqRoom (s : State) (q : Nat) : Bool :=
  (s.queue q).cqTail + 1 != (s.queue q).cqHead + (if (s.queue q).cqHead ≤ (s.queue q).cqTail then s.cqSize q else 0)

/-- The bits of a completion entry (R403). -/
def cqeBits (f : Flight) (sqhd : Nat) (p : Bool) : BitVec 128 :=
  BitVec.ofNat 128 (f.cid + f.status * 2 ^ 16 + sqhd % 4096 * 2 ^ 32 + f.handle % 65536 * 2 ^ 48
    + f.result % 2 ^ 63 * 2 ^ 64 + b2n p * 2 ^ 127)

/-- A finished command is posted: data, entry, signal; a deletion that waited is completed (R401, R404, R413). -/
def State.post (s : State) (q : Nat) (f : Flight) : State :=
  let k := s.queue q
  let ld := s.queueLd q
  let s := if f.data.isEmpty then s else s.emit (.dma ld f.dptr f.data)
  let s := s.emit (.cqe q k.cqTail (cqeBits f k.head (!k.wrapped)))
  let t := (k.cqTail + 1) % s.cqSize q
  let s := s.modQueue q (fun k =>
    { k with cqTail := t, wrapped := (if t = 0 then !k.wrapped else k.wrapped), flights := ldrop (fun g => g == f) k.flights })
  let s := s.signalVec ld (s.getF (Reg.KQ_CTRL.VECTOR q))
  if (s.queue q).deleting && (s.queue q).flights.isEmpty then s.modQueue q (fun _ => {}) else s

/-- Held completions of a queue are posted while its CQ has room (R405). -/
def State.postHeld (s : State) (q : Nat) : Nat → State
  | 0 => s
  | n + 1 =>
    match (s.queue q).flights.find? (fun f => f.held) with
    | some f => if s.cqRoom q && (s.queue q).state == 1 then (s.post q f).postHeld q n else s
    | none => s

/-- A queue enters ERROR with a warning event naming it and its ERR_CAUSE: fetch stops, commands in flight run to their end
and none is posted any more (R409). -/
def State.queueError (s : State) (q cause : Nat) : State :=
  let s := s.modQueue q (fun k =>
    { k with state := 3, err := cause, deleting := false, flights := k.flights.filter (fun f => !f.done) })
  s.event { mkEv .warning 14 q .fault with detail := [q, cause] } (some (s.queueLd q))

/-- The queues of an LD are deleted without posting (R409). -/
def State.dropQueues (s : State) (p : Nat → Bool) : State :=
  (s.kelric.queues.filter (fun (q, _) => p (s.queueLd q))).foldl
    (fun s (q, _) => (s.modQueue q (fun _ => {})).setF (Reg.KQ_CTRL.ENABLE q) 0) s

/-- Commands in flight on all queues (R405). -/
def State.inflight (s : State) : Nat := (s.kelric.queues.map (fun (_, k) => k.flights.length)).sum

/-! ### The answer of a command (R396, R397, R403, R406) -/

/-- The completion entry of the mailbox, followed by data (R396). -/
def mboxPayload (status handle result : Nat) (data : List Byte) : List Byte :=
  leBytes ((cqeBits { status := status, handle := handle, result := result } 0 false).toNat) 16 ++ data

/-- A path's command ends with a return code and a payload (R394). A path reset meanwhile answers nothing (R245); vector 0
signals an LD's mailbox (R244), and its time from the doorbell goes to its head's histogram (R495). -/
def State.endPath (s : State) (p : Nat) (rc : Rc) (payload : List Byte) : State :=
  let m := mget {} s.host.mbox p
  if !m.busy then s
  else
    let s := ({ s with host := { s.host with mbox := mset {} s.host.mbox p {} } }).emit (.mbox p m.opc rc payload)
    if 64 ≤ p then s
    else
      let s := s.histogram (mget { head := 2 * (p % 4), ldId := p / 4 } s.host.ld p).head 7 (s.ft - m.at_)
      if mget false s.host.msixMasked p then s else s.emit (.msix p 0)

/-- The work of a path's background operation ends; BACKGROUND_OP_END reports it (R397). -/
def State.endBg (s : State) (p : Nat) (rc : Rc) (payload : List Byte) : State :=
  let b := mget {} s.host.bgs (pathFn p)
  if b.opc = 0 ∨ b.path ≠ p then s
  else { s with host := { s.host with bgs := mset {} s.host.bgs (pathFn p) { b with res := some (rc, payload) } } }

/-- A command ends: on a queue its flight is finished (posted under R404), on a path it is answered, from the
timed-action queue its informational event is written and TA_FAILED set if it failed (R326). A flight deleted under R409
posts nothing. A standard command's payload has no completion entry (R396). -/
def State.respond (s : State) (src : CmdSrc) (status handle result : Nat) (data : List Byte) : State :=
  match src with
  | .queue q cid =>
    let r := if status = kOk then result else 0
    let d := if status = kOk then data else []
    let fin := fun (f : Flight) =>
      { f with ran := true, done := true, status := status, handle := handle, result := r, data := d }
    s.modQueue q.val (fun k => { k with flights := lupd (fun f => f.cid == cid.toNat && !f.done) fin k.flights })
  | .path p =>
    let r := if status = kOk then result else 0
    let d := if status = kOk then data else []
    s.endPath (pathNo p) (rcOf status) (if (mget {} s.host.mbox (pathNo p)).opc < 0xC000 then d else mboxPayload status handle r d)
  | .bg p =>
    let r := if status = kOk then result else 0
    let d := if status = kOk then data else []
    s.endBg (pathNo p) (rcOf status) (if (mget {} s.host.bgs (pathFn (pathNo p))).opc < 0xC000 then d else mboxPayload status handle r d)
  | .timed h =>
    let s := s.event { mkEv .info 12 0 .timed with detail := [h.toNat, status] } none
    let s := s.count 12 (if status = kOk then 2 else 3) 1
    if status = kOk then s else s.raise Reg.TA_STAT.TA_FAILED

/-- A command fails with a status and changes nothing (R406). -/
def State.fail (s : State) (re : CmdSrc) (status : Nat) : State := s.respond re status 0 0 []

/-- A command succeeds at once, with a result and data. -/
def State.done (s : State) (re : CmdSrc) (result : Nat) (data : List Byte) : State := s.respond re kOk 0 result data

/-- A job that named a command ends (R408). -/
def State.respondTo (s : State) (src : Option CmdSrc) (status result : Nat) (data : List Byte) : State :=
  match src with
  | some re => s.respond re status 0 result data
  | none => s

/-! ### The table of R418 -/

/-- Scopes of R407. -/
inductive KScope where
  | ld | session | device
deriving DecidableEq, Repr

/-- The scope of an opcode; CACHE_ENABLE and CACHE_DISABLE are LD scope for SCOPE 0 (R418). -/
def kScope (opc : Nat) (c : KCmd) : KScope :=
  if opc = 0xC010 ∨ opc = 0xC011 then (if c.op 0 1 = 0 then .ld else .device)
  else if opc ∈ [0xC000, 0xC012, 0xC013, 0xC020, 0xC021, 0xC033, 0xC052, 0xC0F0] then .ld
  else if opc ∈ [0xC030, 0xC031, 0xC032, 0xC0D0] then .session
  else .device

/-- May the opcode be submitted timed (R325, R418)? -/
def kTimed (opc : Nat) (c : KCmd) : Bool :=
  (opc ∈ [0xC010, 0xC011, 0xC030, 0xC032, 0xC040, 0xC051, 0xC060, 0xC070, 0xC080, 0xC0A0, 0xC0E1])
    || (opc == 0xC042 && c.op 0 1 == 0)

/-- Does the command need Memory_Active (R418)? -/
def kActive (opc : Nat) (c : KCmd) : Bool :=
  (opc ∈ [0xC011, 0xC012, 0xC020, 0xC030, 0xC031, 0xC032, 0xC033, 0xC051, 0xC052, 0xC060, 0xC080, 0xC082, 0xC0B0, 0xC0C1])
    || (opc == 0xC070 && c.op 3 1 == 1)

/-- The operand bits a command names, as (first bit, width) pairs (R415, R419, R422, R424 to R433). -/
def kNamed (opc : Nat) (c : KCmd) : List (Nat × Nat) :=
  match opc with
  | 0xC010 | 0xC011 => [(0, 16)]
  | 0xC012 => [(0, 16), (64, 128)]
  | 0xC020 => [(0, 16), (64, 96)]
  | 0xC030 => [(0, 26), (32, 32), (64, 24)]
  | 0xC031 => [(0, 25), (32, 32)]
  | 0xC032 => [(0, 25), (32, 40)]
  | 0xC033 => [(0, 24)]
  | 0xC040 => [(0, 5), (8, 41)]
  | 0xC042 => [(0, 32)]
  | 0xC051 => if c.op 0 1 = 0 then [(0, 11), (16, 24)] else if c.op 0 1 = 1 then [(0, 8), (16, 8)] else [(0, 8), (16, 16)]
  | 0xC060 => [(0, 16), (32, 128)]
  | 0xC061 => [(0, 8), (32, 16)]
  | 0xC062 =>
    match c.op 0 1 with
    | 0 => [(0, 8), (16, 24)]
    | 1 => [(0, 8), (16, 24)]
    | 2 => [(0, 16), (32, 81)]
    | 3 => [(0, 16)]
    | 4 => [(0, 96), (128, 64)]
    | 5 => [(0, 16)]
    | _ => [(0, 8), (32, 8)]
  | 0xC070 => [(0, 5), (8, 5), (16, 16)]
  | 0xC080 => [(0, 192)]
  | 0xC081 => [(32, 32)]
  | 0xC082 => [(0, 8), (32, 32)]
  | 0xC0A0 => [(0, 6), (8, 72)]
  | 0xC0B0 => [(0, 16), (32, 32)]
  | 0xC0B1 => [(0, 9)]
  | 0xC0C0 => [(0, 8), (32, 32)]
  | 0xC0C1 => [(0, 1)]
  | 0xC0D0 => [(0, 16), (32, 32)]
  | 0xC0E0 => [(0, 32)]
  | 0xC0E1 => [(0, 256)]
  | 0xC0F0 => [(0, 8), (32, 40), (96, 64)]
  | 0xC0F1 => [(0, 32)]
  | 0xC0F2 => [(0, 18), (32, 41)]
  | _ => []

/-- Are the bits outside the named ones zero (R415)? -/
def kReserved (opc : Nat) (c : KCmd) : Bool :=
  ((kNamed opc c).foldl (fun (x : Nat) f => putBits x f.1 f.2 0) c.ops.toNat) == 0

/-- The opcodes answered during a drydown (R410). -/
def kDryOk (opc : Nat) : Bool := opc == 0xC000 || opc == 0xC090 || opc == 0xC0A1

/-- Does the path admit the command (R407)? -/
def State.kPermitted (s : State) (opc : Nat) (c : KCmd) : Bool :=
  match kScope opc c with
  | .ld => (s.cmdLd c.src).isSome || fromMgmt c.src
  | .session => opc != 0xC0D0 || (match c.src with | .queue _ _ => false | _ => true)
  | .device => fromMgmt c.src || (match s.cmdLd c.src with | some l => s.admin l | none => false)

/-- Does the command, for its operands, have a maximum time above 2 ms and so need a background operation on a mailbox
path (R397, R418)? The ERASE form of KEY_RETIRE is as a discard of the index's segments. -/
def State.kLong (s : State) (opc : Nat) (c : KCmd) : Bool :=
  match opc with
  | 0xC011 | 0xC012 | 0xC060 | 0xC080 | 0xC082 | 0xC091 | 0xC0C0 | 0xC0C1 | 0xC0D0 | 0xC0F0 => true
  | 0xC020 =>
    decide (500 < c.op 16 4) || c.op 0 1 == 2 || (c.op 0 1 == 0 && s.flag Reg.MAP_CONFIG.SECURE_DEFAULT)
  | 0xC031 => bitAt (c.op 3 1) 0 &&
      (s.flag Reg.MAP_CONFIG.SECURE_DEFAULT
        || decide (500 < (s.map.entries.filter (fun (_, e) => e.state != stDiscarded && e.keyidx == c.op 0 3)).length))
  | 0xC062 => c.op 0 1 == 3
  | 0xC070 => c.op 3 1 == 1
  | _ => false

/-! ### Starting a command -/

/-- A command of a queue as its submission entry gives it, if it may start now: its flight was fetched, has not run, carries this
opcode, every earlier entry of the queue has started, and no FENCE holds it (R405). -/
def KQueue.next (k : KQueue) (cid opc : Nat) : Option Flight :=
  let before := k.flights.takeWhile (fun f => f.cid != cid || f.ran)
  match k.flights.find? (fun f => f.cid == cid && !f.ran) with
  | some f =>
    if f.opc ≠ opc ∨ k.state = 0 then none
    else if f.fence ∧ !before.isEmpty then none
    else if before.any (fun g => !g.ran) then none
    else some f
  | none => none

/-- The command as it is carried out: from a queue with its entry's operands; none when nothing submitted it, or before the mailbox
stage of the start (R370). -/
def State.kTake (s : State) (c : KCmd) (opc : Nat) : Option KCmd :=
  match c.src with
  | .queue q cid =>
    ((s.queue q.val).next cid.toNat opc).map (fun f =>
      { c with ops := f.ops, dlen := BitVec.ofNat 32 f.dlen, timedAt := f.timed.map (BitVec.ofNat 64) })
  | .path _ => if s.host.mailbox then some c else none
  | _ => none

/-- The checks every command meets before its own, in this order: DRYDOWN, a TIMED submission not listed, reserved
fields, PERMISSION, NOT_READY (R402, R406, R407, R410, R417, R418). -/
def State.kGate (s : State) (opc : Nat) (c : KCmd) : Nat :=
  if s.inDrydown && !kDryOk opc then kDrydown
  else if c.timedAt.isSome && !kTimed opc c then kField
  else if !kReserved opc c then kField
  else if !s.kPermitted opc c then kPermission
  else if kActive opc c && !s.host.memActive then kNotReady
  else kOk

/-- Does the path hold another command than one of this opcode whose doorbell was rung (R394)? -/
def State.pathBusy (s : State) (p opc : Nat) : Bool :=
  (mget {} s.host.mbox p).busy && ((mget {} s.host.mbox p).run || (mget {} s.host.mbox p).opc != opc)

/-- The flight of a queue command is marked carried out, or the path marked as holding the command. -/
def State.kMark (s : State) (src : CmdSrc) (opc : Nat) : State :=
  match src with
  | .queue q cid =>
    let go := fun (f : Flight) => { f with ran := true }
    s.modQueue q.val (fun k => { k with flights := lupd (fun f => f.cid == cid.toNat && !f.ran) go k.flights })
  | .path p =>
    let m := mget {} s.host.mbox (pathNo p)
    let at_ := if m.busy then m.at_ else s.ft
    { s with host := { s.host with mbox := mset {} s.host.mbox (pathNo p) { m with busy := true, run := true, opc := opc, at_ := at_ } } }
  | _ => s

/-- A background operation starts: Background Command Started is returned and the path is free (R397). -/
def State.startBg (s : State) (p opc : Nat) : State :=
  let b := mget {} s.host.bgs (pathFn p)
  let bgs := mset {} s.host.bgs (pathFn p) { b with path := p, opc := opc, res := none }
  ({ s with host := { s.host with bgs := bgs } }).endPath p .started []

/-- Is a background operation held by the path's LD function (R397)? -/
def State.bgHeld (s : State) (p : Nat) : Bool := (mget {} s.host.bgs (pathFn p)).opc != 0

/-- Can no further action be queued: 256 wait, or the timed-action log has made 100,000 passes of its 8,192 slots (R325, R480)? -/
def State.actionsFull (s : State) : Bool := decide (256 ≤ s.time.actions.length) || decide (100000 * 8192 ≤ s.weali.actions)

/-- Queue a timed action: its handle is a free value unlike those pending (R325). -/
def State.addAction (s : State) (at_ : Nat) (w : TimedWhat) : Nat × State :=
  let (r, s) := s.draw
  let used := s.time.actions.map (·.handle)
  let h := ((List.range 257).map (fun i => (r + i) % 65536)).find? (fun x => !used.contains x) |>.getD 0
  let late := decide (at_ < s.ft)
  let s := (if late then s.raise Reg.TA_STAT.LATE else s).count 16 0 1
  let n := s.weali.actions + 1
  let s := { s with weali := { s.weali with actions := n } }
  let s := if n = 90000 * 8192 then s.event (mkEv .warning 16 2 .limit) none
    else if n = 100000 * 8192 then s.event (mkEv .critical 16 2 .limit) none else s
  let a : TimedAct := { at_ := at_, handle := h, what := w, late := late }
  (h, { s with time := { s.time with actions := s.time.actions ++ [a] } })

/-- A command is carried out through the shared checks: `check` gives its own status, `act` its effect and its answer to
the source it is given. A timed submission whose checks pass is queued (R325); `hold` is what its submission does
beside (KEY_LOAD). -/
def State.kRun (s : State) (opc : Nat) (c : KCmd) (check : KCmd → State → Nat)
    (act : KCmd → CmdSrc → State → State) (hold : KCmd → State → State := fun _ s => s) : State :=
  match s.kTake c opc with
  | none => s
  | some c =>
    let busy := match c.src with | .path p => s.pathBusy (pathNo p) opc | _ => false
    if busy then
      match c.src with
      | .path p => s.emit (.mbox (pathNo p) opc .busy [])
      | _ => s
    else
      let s := s.kMark c.src opc
      let st := s.kGate opc c
      let st := if st = kOk then check c s else st
      if st ≠ kOk then s.fail c.src st
      else match c.timedAt with
        | some t =>
          if s.actionsFull then s.fail c.src kQueueFull
          else
            let (h, s) := (hold c s).addAction t.toNat (.command opc { c with timedAt := none })
            s.respond c.src kScheduled h 0 []
        | none =>
          match c.src with
          | .path p =>
            if s.kLong opc c then
              if s.bgHeld (pathNo p) then s.fail c.src kBusy
              else act c (.bg p) (s.startBg (pathNo p) opc)
            else act c c.src s
          | _ => act c c.src s

/-- Data a command returns: with DLEN below their length it ends with DATA_ERROR on a queue (R415). -/
def State.doneData (s : State) (c : KCmd) (re : CmdSrc) (result : Nat) (data : List Byte) : State :=
  match re with
  | .queue _ _ => if c.dlen.toNat < data.length then s.fail re kData else s.done re result data
  | _ => s.done re result data

end Sys2Proof.Machine
end

