-- ==== Sys2Proof/Machine/CaskOps.lean ====
section
/-!
DEFINITION. The undo log as shared operations (spec/12, R333 to R337): which writes save a pre-image, the record, and the
index.
-/

namespace Sys2Proof.Machine

/-- Records the data ring can hold (R334). -/
def ringCap : Nat := 7340032

/-- Records the log can hold: the data ring and the spill area (R334, R337). -/
def undoCap : Nat := ringCap + 268435456

/-- The domain slot that captures an LD, if any (R328). -/
def State.ldDomain (s : State) (ld : Nat) : Option Nat :=
  (s.cask.doms.find? (fun (_, d) => d.state != 0 && d.ldMask.getLsbD ld)).map (·.1)

/-- The domain slot that captures a home tile: its segment carries CASK and its LD is a member (R328). -/
def State.tileDomain (s : State) (ltn : Nat) : Option Nat :=
  if !(s.entry (ltnSeg ltn)).cask then none
  else match s.tileLd ltn with
    | some l => s.ldDomain l
    | none => none

/-- A domain. -/
def State.dom (s : State) (i : Nat) : CaskDom := mget {} s.cask.doms i

/-- A domain changed; its state is written to the reserve within the slot (R334). -/
def State.modDom (s : State) (i : Nat) (f : CaskDom → CaskDom) : State :=
  { s with cask := { s.cask with doms := mmod {} s.cask.doms i f, changed := true } }

/-- Is a discard under way on an LD of a mask (R434)? -/
def State.discardOn (s : State) (mask : BitVec 64) : Bool :=
  let lsns := fun (d : Discard) => d.runs.map (·.1) ++ d.draining ++ d.mirror ++ d.tiles.map (· / 4096)
    ++ d.scrubbing.map (·.1)
  s.map.discards.any (fun d => (lsns d).any (fun l => match s.tileLd (4096 * l) with | some n => mask.getLsbD n | none => false))

/-- A domain comes into being in the lowest free slot: CASK is set on every mapped segment of its LDs (R328, R329). -/
def State.caskMake (s : State) (d : CaskDom) (src : Option CmdSrc) : State :=
  match (List.range 16).find? (fun i => (s.dom i).state == 0) with
  | none => s.respondTo src kBusy 0 []
  | some i =>
    let mine := s.map.entries.filter (fun (l, e) => e.state != stDiscarded
      && (match s.tileLd (4096 * l) with | some n => d.ldMask.getLsbD n | none => false))
    let s := s.modDom i (fun _ => d)
    let s := mine.foldl (fun s (l, _) => s.changeEntry l (fun e => { e with cask := true })) s
    s.respondTo src kOk 0 []

/-- Creations that waited for discards go on (R434). -/
def State.createCheck (s : State) : State :=
  let go := s.cask.creates.filter (fun x => !s.discardOn x.1.ldMask)
  go.foldl (fun s x => s.caskMake x.1 x.2) { s with cask := { s.cask with creates := s.cask.creates.filter (fun x => !go.contains x) } }

/-- The epoch that holds a stamp (R331). -/
def CaskDom.epochOf (d : CaskDom) (stamp : Nat) : Nat := if stamp < d.since then d.epoch - 1 else d.epoch

/-- A descriptor of the undo log (R335). -/
def UndoRec.desc (r : UndoRec) : Nat :=
  r.ltn + r.dom * 2 ^ 37 + r.poison.toNat * 2 ^ 41 + r.epoch % 2 ^ 48 * 2 ^ 45 + r.stamp % 2 ^ 32 * 2 ^ 93

/-- A tile of sixteen descriptors (R335, R337). -/
def undoDescs (l : List UndoRec) : Tile := tileOfNat (l.zipIdx.foldl (fun a (r, k) => a + r.desc * 2 ^ (128 * k)) 0)

/-- A domain's state as a reserve tile holds it: slot, state, epoch, READY, COMMITTED, RELEASED, recovery target (R334; their order is a
DESIGN CHOICE, log 334). -/
def domTile (i : Nat) (d : CaskDom) : Tile :=
  tileOfNat (i + d.state * 2 ^ 4 + d.epoch % 2 ^ 48 * 2 ^ 16 + d.ready % 2 ^ 48 * 2 ^ 64 + d.committed % 2 ^ 48 * 2 ^ 112
    + d.released % 2 ^ 48 * 2 ^ 160 + (match d.storedTarget with | some t => t % 2 ^ 48 + 1 | none => 0) * 2 ^ 208)

/-- Index set of a tile (R334). -/
def undoSet (ltn : Nat) : Nat := ltn % 2 ^ 21

/-- Does the index show a record of the tile in the epoch (R333, R336)? -/
def State.undoShown (s : State) (ltn dom epoch : Nat) : Bool :=
  (mget [] s.cask.idx (undoSet ltn)).any (fun e => e.ltn == ltn && e.dom == dom && e.epoch == epoch % 65536)

/-- A new index entry in a set: a free way, else one of an earlier epoch (the lowest), else way 0 (R336, log 15). -/
def undoPlace (s : State) (es : List UndoIdx) (n : UndoIdx) : List UndoIdx :=
  if es.length < 8 then es ++ [n]
  else match es.findIdx? (fun e => e.epoch != (s.dom e.dom).epoch % 65536) with
    | some i => lmod es i (fun _ => n)
    | none => lmod es 0 (fun _ => n)

/-- What the cache path holds of a tile: contents, sectors held, poison (R333): way, mash slot, staged program. -/
def State.tileNow (s : State) (ltn : Nat) : Tile × BitVec 4 × BitVec 4 :=
  let a := match (s.cset 0xFFF ltn).ways.find? (fun w => w.holds 0xFFF ltn) with
    | some w => (w.data, w.valid, w.poison)
    | none => (0, 0, 0)
  let add := fun (x : Tile × BitVec 4 × BitVec 4) (d : Tile) (v p : BitVec 4) =>
    let m := v &&& ~~~x.2.1
    (mergeTile x.1 d m, x.2.1 ||| m, x.2.2 ||| (p &&& m))
  let b := match s.mashOf ltn with
    | some m => add a m.data m.valid m.poison
    | none => a
  (s.progs.list.reverse.filter (fun p => p.ltn == ltn)).foldl (fun x p =>
    let (d, v, po) := s.progHolds p
    add x d v po) b

/-- What a save of a tile needs now. -/
inductive UndoNeed where
  /-- No save: no domain, or a record is shown. -/
  | none
  /-- The save can be made. -/
  | ready
  /-- Sectors must be read from the medium first. -/
  | read
  /-- Every record is in use (R341), or the domain waits for CASK_RECOVER (R342). -/
  | wait
deriving DecidableEq, Repr

/-- What a write to a tile with a stamp needs before it is placed; `got` is a tile just read from the medium (R333). -/
def State.undoNeed (s : State) (ltn stamp : Nat) (got : Option (Tile × BitVec 4)) : UndoNeed :=
  match s.tileDomain ltn with
  | Option.none => .none
  | some i =>
    let d := s.dom i
    if d.resting then .none
    else if d.state = 2 ∨ d.state = 3 then .wait
    else if !d.begun then .none
    else if s.undoShown ltn i (d.epochOf stamp) then .none
    else if undoCap ≤ s.cask.log.length ∨ ringCap ≤ s.cask.log.length - s.cask.spilled then .wait
    else if got.isSome ∨ (s.tileNow ltn).2.1 = 15 ∨ !(s.entry (ltnSeg ltn)).onMedium then .ready
    else .read

/-- The pre-image is saved as a record and entered in the index (R333 to R336). -/
def State.undoSave (s : State) (ltn stamp : Nat) (got : Option (Tile × BitVec 4)) : State :=
  match s.tileDomain ltn with
  | Option.none => s
  | some i =>
    let e := (s.dom i).epochOf stamp
    let (t, v, p) := s.tileNow ltn
    let (m, mp) := got.getD (0, 0)
    let data := mergeTile t m (~~~v)
    let poison := (p &&& v) ||| (mp &&& ~~~v)
    let r : UndoRec := { ltn := ltn, dom := i, poison := poison, epoch := e, stamp := stamp % 2 ^ 32, data := data }
    let es := mget [] s.cask.idx (undoSet ltn)
    let n : UndoIdx := { ltn := ltn, dom := i, epoch := e % 65536 }
    ({ s with cask := { s.cask with log := s.cask.log ++ [r], idx := mset [] s.cask.idx (undoSet ltn) (undoPlace s es n) } }).count 12 4 1

/-- Every record in use: LOG_FULL of the domain and a critical event, once while it lasts (R341). -/
def State.undoFull (s : State) (ltn : Nat) : State :=
  match s.tileDomain ltn with
  | Option.none => s
  | some i =>
    if (s.dom i).logFull || decide (s.cask.log.length < undoCap) then s
    else (s.modDom i (fun d => { d with logFull := true })).event (mkEv .critical 12 0 .limit) none

end Sys2Proof.Machine
end

