-- ==== Sys2Proof/Machine/LinkOps.lean ====
section
/-!
DEFINITION. The Dorosh links as a sender sees them (spec/11, R283 to R293): link state, routes, frames sent, and COH and
MIRROR messages laid out as frame bodies.
-/

namespace Sys2Proof.Machine

/-- The fabric changed. -/
def State.modFabric (s : State) (f : FabricSt → FabricSt) : State := { s with fabric := f s.fabric }

/-- A link's state beside its register. -/
def State.link (s : State) (k : Nat) : LinkSt := mget {} s.fabric.links k

/-- One link changed. -/
def State.modLink (s : State) (k : Nat) (f : LinkSt → LinkSt) : State :=
  s.modFabric (fun x => { x with links := mmod {} x.links k f })

/-- Is the link in UP (R282)? -/
def State.linkUp (s : State) (k : Nat) : Bool := s.getF (Reg.DF_LINK.STATE k) == 3

/-- Links in UP. -/
def State.upLinks (s : State) : List Nat := (List.range 8).filter s.linkUp

/-! ### Routing (R290 to R292) -/

/-- Coordinate of dimension k of a node ID (R291). -/
def nodeCoord (n k : Nat) : Nat := n / 8 ^ k % 8

/-- The dimension-order link towards a node (R291): the lowest differing dimension, the shorter way, upward on a tie; a step
that would enter the position of ID 0xFFF is not taken. -/
def dimLink (me dst : Nat) : Option Nat :=
  ([0, 1, 2, 3] : List Nat).findSome? (fun k =>
    let a := nodeCoord me k
    let b := nodeCoord dst k
    if a = b then none
    else
      let up := decide ((b + 8 - a) % 8 ≤ 4)
      let c := if up then (a + 1) % 8 else (a + 7) % 8
      if me - a * 8 ^ k + c * 8 ^ k = 0xFFF then none else some (2 * k + (if up then 0 else 1)))

/-- The link a frame to a node takes, and whether it is routed by dimension order; none while it must wait (R290, R291). -/
def State.routeTo (s : State) (dst : Nat) : Option (Nat × Bool) :=
  let r := mget {} s.fabric.routes dst
  match (if r.valid then ([r.primary, r.alt1, r.alt2] : List Nat).find? s.linkUp else none) with
  | some k => some (k, false)
  | none => match dimLink s.nodeId dst with
    | some k => if s.linkUp k then some (k, true) else none
    | none => none

/-- Receive buffer of a VC in 16-byte units (R286). -/
def vcCap (vc : Nat) : Nat := ([512, 256, 1024, 64, 128] : List Nat).getD vc 0

/-- Units of a VC counted in a five-entry list. -/
def vcGet (l : List Nat) (vc : Nat) : Nat := l.getD vc 0
/-- Units of a VC set in a five-entry list. -/
def vcSet (l : List Nat) (vc n : Nat) : List Nat := (List.range 5).map (fun i => if i = vc then n else vcGet l i)

/-- A frame's header with the link fields in force (R283): ACK names the last frame received in order, CRED returns credit of
the lowest VC that is owed any. -/
def LinkSt.header (l : LinkSt) (f : SentFrame) : BitVec 128 :=
  let cv := ((List.range 5).find? (fun v => vcGet l.owe v != 0)).getD 0
  BitVec.ofNat 128 (f.dst % 4096 + f.src % 4096 * 2 ^ 12 + f.type * 2 ^ 24 + f.vc * 2 ^ 28 + b2n f.fallback * 2 ^ 31 + f.len * 2 ^ 32
    + f.hops * 2 ^ 37 + f.seq * 2 ^ 48 + (l.rxSeq + 65535) % 65536 * 2 ^ 64 + min 1023 (vcGet l.owe cv) * 2 ^ 80 + cv * 2 ^ 90
    + b2n l.retry * 2 ^ 93)

/-- A frame goes onto its link: owed credit and a replay request leave with it, its bytes are counted (R283, R307). -/
def State.putLink (s : State) (k : Nat) (f : SentFrame) : State :=
  let l := s.link k
  let cv := ((List.range 5).find? (fun v => vcGet l.owe v != 0)).getD 0
  let s := s.modLink k (fun l => { l with owe := vcSet l.owe cv (vcGet l.owe cv - 1023), retry := false })
  (s.emit (.frame k (l.header f) f.body)).count 11 0 (32 + 16 * f.len)

/-- A frame leaves on a link, when its VC has credit for the body: its number, its place in the replay buffer (R283, R286,
R287). Without credit it waits in its VC. -/
def State.sendOn (s : State) (k : Nat) (f : SentFrame) (held : HeldFrame) : State :=
  let l := s.link k
  if vcCap f.vc < vcGet l.used f.vc + f.len then s.modFabric (fun x => { x with held := x.held ++ [held] })
  else
    let f := { f with seq := l.txSeq }
    let s := s.modLink k (fun l => { l with txSeq := (l.txSeq + 1) % 65536, frames := l.frames + 1, kept := l.kept ++ [f],
                                            used := vcSet l.used f.vc (vcGet l.used f.vc + f.len) })
    s.putLink k f

/-- A frame of this node for its neighbour leaves on a link. -/
def State.sendLink (s : State) (k dst type vc hops len body : Nat) : State :=
  let f : SentFrame := { src := s.nodeId, dst := dst, type := type, vc := vc, hops := hops, len := len, body := body }
  s.sendOn k f { link := some k, frame := f }

/-- A frame is sent towards its DST, or waits in its VC for a route, behind one that waits already (R287, R290, R291). -/
def State.route (s : State) (f : SentFrame) : State :=
  let held : HeldFrame := { frame := f }
  match s.routeTo f.dst with
  | some (k, dim) =>
    if s.fabric.held.any (fun h => h.link.isNone && h.frame.vc == f.vc && h.frame.dst == f.dst) then
      s.modFabric (fun x => { x with held := x.held ++ [held] })
    else (if dim then s.count 11 4 1 else s).sendOn k { f with fallback := dim } held
  | none => s.modFabric (fun x => { x with held := x.held ++ [held] })

/-- A frame of this node is sent towards a node. -/
def State.sendFrame (s : State) (dst type vc hops len body : Nat) : State :=
  s.route { src := s.nodeId, dst := dst, type := type, vc := vc, hops := hops, len := len, body := body }

/-- Frames that waited for a route or credit are tried again (R286, R291). -/
def State.releaseHeld (s : State) : State :=
  let l := s.fabric.held
  l.foldl (fun s h => match h.link with
    | some k => if s.linkUp k then s.sendOn k h.frame h else s
    | none => s.route h.frame) (s.modFabric (fun x => { x with held := [] }))

/-- A NULL frame carries link fields alone (R284). -/
def State.sendNull (s : State) (k : Nat) : State := s.sendLink k 0xFFF 8 4 1 0 0

/-! ### COH and MIRROR messages (R270, R284, R285, R293, R298) -/

/-- A COH or MIRROR header (R270). -/
def cohHdr (opc src dst aux tid line grant : Nat) (nc dirty stale data : Bool) : BitVec 128 :=
  BitVec.ofNat 128 (opc % 64 + src % 4096 * 2 ^ 6 + dst % 4096 * 2 ^ 18 + aux % 4096 * 2 ^ 30 + tid % 4096 * 2 ^ 42
    + line % 2 ^ 39 * 2 ^ 54 + grant % 4 * 2 ^ 93 + b2n nc * 2 ^ 95 + b2n dirty * 2 ^ 96 + b2n stale * 2 ^ 97
    + b2n data * 2 ^ 98)

/-- Bytes of data behind a header: 64, or 256 for a tile message (R285, R298). -/
def msgBytes (type opc : Nat) (data : Bool) : Nat :=
  if !data then 0 else if type = 4 ∧ opc ≠ 0x30 then 256 else 64

/-- A message as a frame body with its LEN16: header, data, mask of WR or MWR, trailer (R285). -/
def msgBody (type : Nat) (hdr : BitVec 128) (data : Option Tile) (mask : BitVec 64) (trailer : Nat) : Nat × Nat :=
  let opc := hdr.toNat % 64
  let n := msgBytes type opc data.isSome
  let m := if opc = 5 ∨ opc = 0x30 then 16 else 0
  let d := match data with | some t => t.toNat % 2 ^ (8 * n) | none => 0
  (2 + (n + m) / 16,
   hdr.toNat + d * 2 ^ 128 + (if m = 0 then 0 else mask.toNat) * 2 ^ (128 + 8 * n) + trailer * 2 ^ (128 + 8 * (n + m)))

/-- The VC of a message: requests 0, snoops 1, responses 2 (R284). -/
def msgVc (type opc : Nat) : Nat :=
  if type = 3 then (if opc < 0x10 then 0 else if opc < 0x20 then 1 else 2) else if opc % 2 = 0 then 0 else 2

/-- A message leaves towards a node as a frame and is kept: a request or snoop until it is answered, an answer in place of
an earlier one for the same node, OPC and line (R293). -/
def State.sendMsg (s : State) (type dst : Nat) (hdr : BitVec 128) (data : Option Tile) (mask : BitVec 64)
    (trailer : Nat) (answer : Bool) : State :=
  let (len, body) := msgBody type hdr data mask trailer
  let s := s.sendFrame dst type (msgVc type (hdr.toNat % 64)) 1 len body
  let m : SentMsg := { dst := dst, type := type, hdr := hdr, data := data, mask := mask, trailer := trailer, answer := answer }
  let same := fun (x : SentMsg) => x.answer && x.type == type && x.dst == dst && x.hdr.toNat % 64 == hdr.toNat % 64
    && bitsOf x.hdr.toNat 54 39 == bitsOf hdr.toNat 54 39
  s.modFabric (fun x => { x with sent := (if answer then x.sent.filter (fun y => !same y) else x.sent) ++ [m] })

/-- A kept message is sent again (R293). -/
def State.resendMsg (s : State) (m : SentMsg) : State :=
  let (len, body) := msgBody m.type m.hdr m.data m.mask m.trailer
  s.sendFrame m.dst m.type (msgVc m.type (m.hdr.toNat % 64)) 1 len body

/-! ### What mirror partners tell each other (R299, R304, R423) -/

/-- The packet by which a node asks its partner to record a pairing, or answers: kind (1 PAIR, 2 UNPAIR, 3 RESYNC, 4 SWAP; 8
added in an answer), status, first segment at home and mirror, segments. The manual says that both nodes record the entry
and gives no message for it; this layout is the model's own, with a first byte that no MCTP packet has. -/
def mirPacket (kind status homeLsn mirrorLsn count : Nat) : List Byte :=
  leBytes 0 1 ++ leBytes kind 1 ++ leBytes status 2 ++ leBytes homeLsn 4 ++ leBytes mirrorLsn 4 ++ leBytes count 4

/-- That packet leaves for the partner in an MGMT frame (R305). -/
def State.mirTell (s : State) (dst kind status homeLsn mirrorLsn count : Nat) : State :=
  s.sendFrame dst 7 4 1 1 (leNat (mirPacket kind status homeLsn mirrorLsn count))

end Sys2Proof.Machine
end

