-- ==== Sys2Proof/Machine/HomeOps.lean ====
section
/-!
DEFINITION. The coherence home as shared operations (spec/10): line keys, address decode (spec/09, R229 to R234), the
directory, snoops, peer messages, the cache access of a granted request (spec/03, spec/05), its answer and its close.
A request lives in `home.wait` until the home admits it, then as a transaction (`Act`) until it closes.
-/

namespace Sys2Proof.Machine

/-! ### Line keys -/

/-- The home node of a line key, 0xFFF for this node. A visitor line's key is (node + 1) × 2^39 + L. -/
def keyNode (k : Nat) : Nat := if k < 2 ^ 39 then 0xFFF else k / 2 ^ 39 - 1
/-- L of a line key. -/
def keyL (k : Nat) : Nat := k % 2 ^ 39
/-- The LTN of a line key. -/
def keyTile (k : Nat) : Nat := keyL k / 4
/-- The key of line L of a node. -/
def lineKey (node L : Nat) : Nat := if node = 0xFFF then L % 2 ^ 39 else (node + 1) * 2 ^ 39 + L % 2 ^ 39
/-- The tile a miss register of a line key is for. -/
def keyRef (k : Nat) : TileRef := .logical (BitVec.ofNat 37 (keyTile k))

/-! ### Logical devices and address decode (R229 to R234, R295) -/

/-- An LD's assignment in force; at first format head 2 × (n mod 4), LD-ID n div 4 (R248). -/
def State.ldAsg (s : State) (n : Nat) : LdAsg := mget { head := 2 * (n % 4), ldId := n / 4 } s.host.ld n

/-- The LD of a head with an LD-ID (R229). -/
def State.headLd (s : State) (h i : Nat) : Option Nat :=
  (List.range 64).find? (fun n => (s.ldAsg n).head == h && (s.ldAsg n).ldId == i)

/-- Static blocks of an LD (R232). -/
def State.staticBlocks (s : State) (ld : Nat) : Nat := (s.host.blocks.filter (fun (_, b) => b.kind == 1 && b.ld == ld)).length

/-- Blocks of a DC region at most: 16 TiB (R235). -/
def dcBlocks : Nat := 65536

/-- The first LD block of DC region r: after the static capacity, then after region 0's 16 TiB (log 17). -/
def State.dcBase (s : State) (ld r : Nat) : Nat := s.staticBlocks ld + r * dcBlocks

/-- The DPA base of decoder d: the skips and shares of the decoders below it and its own skip (R233). -/
def State.decoderBase (s : State) (ld : Nat) : Nat → Nat
  | 0 => (mget { cfg := ⟨0, 0, 0, 0, 0, 0, false⟩ } s.host.decoders (4 * ld)).cfg.skip.toNat
  | d + 1 =>
    let lo := (mget { cfg := ⟨0, 0, 0, 0, 0, 0, false⟩ } s.host.decoders (4 * ld + d)).cfg
    let me := (mget { cfg := ⟨0, 0, 0, 0, 0, 0, false⟩ } s.host.decoders (4 * ld + d + 1)).cfg
    s.decoderBase ld d + lo.size.toNat / max 1 lo.ways.toNat + me.skip.toNat

/-- The DPA of a host address in one committed decoder, if it hits (R233); granule mod ways is the position
(log 18). -/
def decodeHpa (d : Decoder) (hpa : Nat) : Option Nat :=
  let base := d.dpa
  let c := d.cfg
  if !d.committed || hpa < c.base.toNat || c.base.toNat + c.size.toNat ≤ hpa || c.gran = 0 || c.ways = 0 then none
  else
    let off := hpa - c.base.toNat
    let g := off / c.gran.toNat
    if g % c.ways.toNat ≠ c.pos.toNat then none
    else some (base + g / c.ways.toNat * c.gran.toNat + off % c.gran.toNat)

/-- The DPA of a host address through an LD's decoders (R233). -/
def State.hpaToDpa (s : State) (ld hpa : Nat) : Option Nat :=
  (List.range 4).findSome? (fun d =>
    match s.host.decoders.find? (fun (k, _) => k == 4 * ld + d) with
    | some (_, dec) => decodeHpa dec hpa
    | none => none)

/-- The node ID of a UID in the settled view. -/
def State.idOfUid (s : State) (u : BitVec 64) : Option Nat := (s.fabric.view.find? (fun (_, v) => v == u)).map (·.1)

/-- Where a line's home lies: the promotion records of the LSAs held redirect a failed home's range to its copy (R302, R304).
`node` 0xFFF is this node. -/
def State.rehome (s : State) (node L : Nat) : Nat :=
  let home := if node = 0xFFF then s.nodeId else node
  let hit := s.fabric.lsdb.findSome? (fun a => a.promos.findSome? (fun p =>
    let b := p.homeLsn.toNat * 16384
    if p.failed.toNat = home ∧ b ≤ L ∧ L < b + p.count.toNat * 16384 then some (a.uid, L - b + p.copyLsn.toNat * 16384) else none))
  match hit with
  | some (u, l) => match s.idOfUid u with
    | some n => lineKey (if n = s.nodeId then 0xFFF else n) l
    | none => lineKey node L
  | none => lineKey node L

/-- What an LD block is: a block of the device, or of an import; its line's home is where a promotion has put it. -/
def State.dpaKey (s : State) (ld dpa : Nat) : Option Nat :=
  let n := dpa / 2 ^ 28
  let st := s.staticBlocks ld
  if s.keys.lifecycle = 3 then none
  else
  let (kind, num) := if n < st then (1, n) else if n < st + dcBlocks then (2, n - st)
    else if n < st + 2 * dcBlocks then (3, n - st - dcBlocks) else (0, 0)
  if kind = 0 then none
  else match s.host.blocks.find? (fun (_, b) => b.ld == ld && b.kind == kind && b.num == num
      && (kind == 1 || b.ready) && !b.releasing) with
    | some (k, _) => some (s.rehome 0xFFF (k * 2 ^ 22 + dpa % 2 ^ 28 / 64))
    | none =>
      if kind = 1 then none
      else match s.fabric.imports.find? (fun (_, m) => m.valid && !m.gone && m.ld == ld && m.region + 2 == kind
          && decide (m.first ≤ num) && decide (num < m.first + m.count)) with
        | some (_, m) =>
          if s.host.dcExtents.any (fun (l, e) => l == ld && e.region.val + 2 == kind && decide (e.first.toNat ≤ num)
              && decide (num < e.first.toNat + e.count.toNat)) then
            let a := m.pool % 2 ^ 45 + (num - m.first) * 2 ^ 28 + dpa % 2 ^ 28
            let node := m.pool / 2 ^ 45
            some (s.rehome (if node = s.nodeId then 0xFFF else node) (a / 64))
          else none
        | none => none

/-- Does this node hold the copy of a mirror entry over the segment, active (R299)? -/
def State.mirrorCopy (s : State) (lsn : Nat) : Bool :=
  s.fabric.mirrors.any (fun (_, m) => m.role == 1 && (m.state == 1 || m.state == 2 || m.state == 3)
    && decide (m.mirrorLsn ≤ lsn) && decide (lsn < m.mirrorLsn + m.count))

/-! ### The directory (R254 to R260) -/

/-- Directory set of a line (R254). -/
def dirSet (k : Nat) : Nat :=
  if keyNode k = 0xFFF then keyL k % 2 ^ 24 else ((keyL k % 2 ^ 24) ^^^ (keyNode k * 4096)) % 2 ^ 24

/-- The eight entries of a set. -/
def State.dirEntries (s : State) (k : Nat) : List DirEntry := mget (List.replicate 8 {}) s.home.dir (dirSet k)

/-- One way of a set replaced. -/
def State.setDir (s : State) (k w : Nat) (e : DirEntry) : State :=
  let l := lmod (s.dirEntries k) w (fun _ => e)
  { s with home := { s.home with dir := mset (List.replicate 8 {}) s.home.dir (dirSet k) l } }

/-- Does an entry stand for the line? -/
def DirEntry.isFor (e : DirEntry) (k : Nat) : Bool :=
  e.state != 0 && decide (e.state < 4) && e.tag == keyL k / 2 ^ 24
    && (if keyNode k = 0xFFF then !e.proxy else e.proxy && e.ext == keyNode k)

/-- The line key an entry of a set stands for. -/
def DirEntry.key (e : DirEntry) (k : Nat) : Nat :=
  if e.proxy then lineKey e.ext (e.tag * 2 ^ 24 + ((dirSet k) ^^^ (e.ext * 4096 % 2 ^ 24)))
  else e.tag * 2 ^ 24 + dirSet k

/-- The way of a line's entry. -/
def State.dirWay (s : State) (k : Nat) : Option Nat := (s.dirEntries k).findIdx? (fun e => e.isFor k)

/-- The BI slots under purge, as a mask (R257). -/
def State.purgeMask (s : State) : BitVec 32 :=
  (List.range 32).foldl (fun m i => if s.flag (Reg.COH_SLOT.PURGING i) then m ||| (1#32 <<< i) else m) 0

/-- The entry of a line as a lookup sees it: purging slots read clear (R257); a free entry when there is none. -/
def State.dirGet (s : State) (k : Nat) : DirEntry :=
  match s.dirWay k with
  | some w => let e := (s.dirEntries k).getD w {}; { e with sharers := e.sharers &&& ~~~s.purgeMask }
  | none => {}

/-- An entry stored, or freed when nothing holds the line (R260); while a transaction of the line is active its entry stays,
empty. -/
def State.dirPut (s : State) (k : Nat) (e : DirEntry) : State :=
  match s.dirWay k with
  | none => s
  | some w =>
    let empty := e.state == 0 || (!e.proxy && e.sharers == 0 && e.state != 3 && e.ext == 0)
    if !empty then s.setDir k w e
    else if keyNode k = 0xFFF ∧ s.home.act.any (fun a => !a.wb && (a.req.line == k)) then
      s.setDir k w { tag := keyL k / 2 ^ 24, state := 1, age := true }
    else s.setDir k w {}

/-- The lookup of a line: AGE is set, the set enters the on-die directory cache (R254, R255, log 19). -/
def State.dirLookup (s : State) (k : Nat) : State :=
  let s := { s with home := { s.home with dirCache := (dirSet k :: s.home.dirCache.erase (dirSet k)).take s.dirRoom } }
  match s.dirWay k with
  | some w => s.setDir k w { (s.dirEntries k).getD w {} with age := true }
  | none => s

/-- The BI slot of an LD (R257). -/
def State.slotOf (s : State) (ld : Nat) : Option Nat :=
  (List.range 32).find? (fun i => s.flag (Reg.COH_SLOT.VALID i) && !s.flag (Reg.COH_SLOT.PURGING i)
    && s.getF (Reg.COH_SLOT.LD i) == ld)

/-- Is the LD HDM-DB in force? -/
def State.isDb (s : State) (ld : Nat) : Bool := (s.slotOf ld).isSome

/-- Is a node recorded as caching peer (R258)? -/
def State.peerSlot (s : State) (node : Nat) : Option Nat :=
  (List.range 64).find? (fun j => s.flag (Reg.COH_PEER.VALID j) && s.getF (Reg.COH_PEER.NODE j) == node)

/-- Recorded peers of the groups in a mask (R258). -/
def State.groupPeers (s : State) (groups : Nat) : List Nat :=
  (List.range 64).filterMap (fun j =>
    let n := s.getF (Reg.COH_PEER.NODE j)
    if s.flag (Reg.COH_PEER.VALID j) && bitAt groups (n % 4) then some n else none)

/-- A peer is recorded when first granted S or E, in the lowest free slot (R258). -/
def State.recordPeer (s : State) (node : Nat) : State :=
  if (s.peerSlot node).isSome then s
  else match (List.range 64).find? (fun j => !s.flag (Reg.COH_PEER.VALID j) && !s.flag (Reg.COH_PEER.PURGING j)) with
    | some j => ((s.setF (Reg.COH_PEER.NODE j) node).setF (Reg.COH_PEER.GROUP j) (node % 4)).raise (Reg.COH_PEER.VALID j)
    | none => s

/-- Set bits of a sharer mask as slots. -/
def slotsOf (m : BitVec 32) : List Nat := (List.range 32).filter (fun i => m.getLsbD i)

/-- Holders of an entry (R256). -/
def State.holders (s : State) (e : DirEntry) : List SnoopTo :=
  if e.state = 0 then []
  else if !e.proxy ∧ e.state = 3 then [.peer e.ext]
  else (slotsOf e.sharers).map SnoopTo.slot ++ (if e.proxy then [] else (s.groupPeers e.ext).map SnoopTo.peer)

/-- Exclusive holders of an entry: HE, PX, PEH (R256). -/
def State.exclusive (s : State) (e : DirEntry) : List SnoopTo :=
  if (!e.proxy ∧ (e.state = 2 ∨ e.state = 3)) ∨ (e.proxy ∧ e.state = 3) then s.holders e else []

/-- A party taken out of an entry (R260, R262). -/
def DirEntry.drop (e : DirEntry) : SnoopTo → DirEntry
  | .slot i =>
    let m := e.sharers &&& ~~~(1#32 <<< i)
    if e.proxy then { e with sharers := m, state := if e.state = 3 then 2 else e.state }
    else { e with sharers := m, state := if m = 0 ∧ (e.state = 2 ∨ e.ext = 0) then 0 else e.state }
  | .peer _ => if !e.proxy ∧ e.state = 3 then { e with state := 0, ext := 0 } else e

/-- A party downgraded to S in an entry. -/
def DirEntry.share (e : DirEntry) : SnoopTo → DirEntry
  | .slot _ => if e.proxy then { e with state := if e.state = 3 then 2 else e.state }
               else if e.state = 2 then { e with state := 1, ext := 0 } else e
  | .peer n => if !e.proxy ∧ e.state = 3 then { e with state := 1, ext := 2 ^ (n % 4) } else e

/-! ### Transactions -/

/-- A transaction. -/
def State.act (s : State) (id : Nat) : Option Act := s.home.act.find? (fun a => a.id == id)

/-- A transaction changed. -/
def State.modAct (s : State) (id : Nat) (f : Act → Act) : State :=
  { s with home := { s.home with act := lupd (fun a => a.id == id) f s.home.act } }

/-- Has the line an active transaction, or is it being invalidated as a directory victim (R250, R259)? -/
def State.lineBusy (s : State) (k : Nat) : Bool :=
  s.home.act.any (fun a => (a.req.line == k && !a.wb) || (match a.phase with | .victim v _ => v == k | _ => false))

/-- The LD a request is made for, if a host's or this part's own. -/
def HReq.ld : HReq → Nat
  | r => match r.src with | .host _ l _ => l | .own l => l | _ => 0

/-- The requester as a holder, if it is tracked (R253). -/
def State.party (s : State) (r : HReq) : Option SnoopTo :=
  match r.src with
  | .host _ l _ => (s.slotOf l).map SnoopTo.slot
  | .peer _ n _ => some (.peer n)
  | _ => none

/-- Is the request a write? -/
def ReqOp.write? : ReqOp → Bool
  | .wrI | .wrS => true
  | _ => false

/-- A request of the part that takes a line back from its holders, kind 1 from peers alone (R304, R423). -/
def HReq.recall (r : HReq) : Bool :=
  r.op == .invA && (match r.src with | .own _ => true | _ => false)

/-! ### Fabric messages (R270, R285, R298) -/

/-- A COH message, TYPE 3h (R284). -/
def State.coh (s : State) (opc dst aux tid line grant : Nat) (nc dirty stale : Bool) (data : Option Line)
    (mask : BitVec 64) (trailer : Nat) : State :=
  s.sendMsg 3 dst (cohHdr opc s.nodeId dst aux tid line grant nc dirty stale data.isSome)
    (data.map (fun d => d.setWidth 2048)) mask trailer (decide (0x20 ≤ opc))

/-- A MIRROR message, TYPE 4h (R284, R298). -/
def State.mir (s : State) (opc dst tid line : Nat) (data : Option Tile) (mask : BitVec 64) (trailer : Nat) : State :=
  s.sendMsg 4 dst (cohHdr opc s.nodeId dst 0 tid line 0 false false false data.isSome) data mask trailer
    (opc == 0x31 || opc == 0x33 || opc == 0x35 || opc == 0x37)

/-- A message kept for resending is dropped: it was answered (R293). -/
def State.unsend (s : State) (p : SentMsg → Bool) : State :=
  { s with fabric := { s.fabric with sent := ldrop p s.fabric.sent } }

/-! ### Snoops (R262) -/

/-- The free BITag of a head: the lowest not in use (R262). -/
def State.freeTag (s : State) (h : Nat) : Option Nat :=
  let used := (s.home.act.flatMap (·.snoops) ++ s.home.owed.flatMap (·.snoops)).filterMap (fun n =>
    match n.dest with | .slot _ => if n.sent && n.head == h then some n.tag else none | .peer _ => none)
  (List.range 64).find? (fun t => !used.contains t)

/-- A snoop is sent: BISnpInv or BISnpData to a host, INV or SNP_S to a peer; with 64 BISnps outstanding on the head it
waits (R262, R271, R279). -/
def State.sendSnoop (s : State) (k : Nat) (n : Snoop) : Snoop × State :=
  match n.dest with
  | .slot i =>
    let ld := s.getF (Reg.COH_SLOT.LD i)
    let h := (s.ldAsg ld).head
    match s.freeTag h with
    | some t => ({ n with head := h, tag := t, sent := true, at_ := s.ft },
                 (s.emit (.bisnp h ld t (keyL k) n.inv)).count 5 0 1)
    | none => ({ n with head := h, sent := false }, s)
  | .peer p => ({ n with sent := true, at_ := s.ft },
                s.coh (if n.inv then 0x10 else 0x11) p 0 n.tid (keyL k) 0 false false false none 0 0)

/-- The TID of a transaction's snoops to peers (R270): the requester's own, for a local requester the number of the
transaction here. -/
def Act.tid (a : Act) : Nat :=
  match a.req.src with
  | .peer _ _ t => t
  | _ => a.id % 4096

/-- Snoops to holders are made part of a transaction and sent in order. -/
def State.snoopAll (s : State) (id k : Nat) (dest : List SnoopTo) (inv : Bool) : State :=
  dest.foldl (fun s t =>
    let tid := match s.act id with | some a => a.tid | none => 0
    let (n, s) := s.sendSnoop k { dest := t, inv := inv, tid := tid }
    s.modAct id (fun a => { a with snoops := a.snoops ++ [n] })) s

/-- The line a transaction's snoops are about: its victim's line, or its own. -/
def Act.snoopKey (a : Act) : Nat :=
  match a.phase with
  | .victim v _ => v
  | _ => a.req.line

/-- Waiting snoops go out as tags come free. -/
def State.sendWaiting (s : State) : State :=
  let s := s.home.owed.foldl (fun s o => o.snoops.foldl (fun s n =>
    if n.sent then s
    else
      let (m, s) := s.sendSnoop o.key n
      let mark := fun (x : Owed) => { x with snoops := lupd (fun y => y == n) (fun _ => m) x.snoops }
      let owed := lupd (fun (x : Owed) => x.key == o.key && x.opc == o.opc) mark s.home.owed
      { s with home := { s.home with owed := owed } }) s) s
  s.home.act.foldl (fun s a => a.snoops.foldl (fun s n =>
    if n.sent then s
    else
      let (m, s) := s.sendSnoop a.snoopKey n
      s.modAct a.id (fun b => { b with snoops := lupd (fun x => x == n) (fun _ => m) b.snoops })) s) s

/-! ### Answers (R261, R269, R272) -/

/-- A host's BIConflictAck that waited for the answer (R265). -/
def State.conflictAcks (s : State) (ld k : Nat) : State :=
  let n := (s.home.conflicts.filter (fun c => c == (ld, k))).length
  let s := { s with home := { s.home with conflicts := s.home.conflicts.filter (fun c => c != (ld, k)) } }
  s.emits (List.replicate n (.s2m (s.ldAsg ld).head ld 0 .conflictAck none false))

/-- A line returned as poison joins the device's poison list, at most 4,096 lines (R238). -/
def State.notePoison (s : State) (line : Nat) (scan : Bool) : State :=
  if s.host.poisonList.any (fun p => p.line == line) then s
  else if 4096 ≤ s.host.poisonList.length then
    { s with host := { s.host with
        poisonOver := true,
        poisonOverAt := if s.host.poisonOver then s.host.poisonOverAt else s.ft } }
  else { s with host := { s.host with poisonList := s.host.poisonList ++ [{ line := line, scan := scan }] } }

/-- A line written whole without poison is no longer known to be poison (R77, R237, R238). -/
def State.dropPoison (s : State) (r : HReq) : State :=
  if r.poison || r.mask != BitVec.allOnes 64 then s
  else { s with host := { s.host with poisonList := s.host.poisonList.filter (fun p => p.line != r.line) } }

/-- The META encoding of a sample record (R496): I 0, S 1, A 2, none 3 (log 20). -/
def metaCode : MetaValue → Nat
  | .i => 0 | .s => 1 | .a => 2 | .none => 3

/-- The record of a sampled request and its latency (R495, R496). -/
def State.finishTally (s : State) (a : Act) (poison : Bool) : State :=
  let r := a.req
  let ns := s.ft - r.at_
  let wt := r.op.write? && s.writeThrough
  let mir := r.op.write? && decide (r.line < 2 ^ 39) && s.mirrored (ltnSeg (keyTile r.line))
  let s := match r.src with
    | .host h l _ =>
      let kind := if r.op.write? then (if mir then 5 else if wt then 4 else 3)
        else if 2 ^ 39 ≤ r.line then 2 else if a.trace.hit then 0 else 1
      (s.histogram h kind ns).noteLatency l ns r.op.write?
    | _ => s
  if !r.sampled then s
  else match r.src with
    | .host h l _ => s.sampleWrite (sampleRec s.tally.sample.seq l h false r.kind r.meta_ (keyL r.line * 64) r.at_ ns 0 poison wt mir a.trace)
    | .peer k n _ => s.sampleWrite (sampleRec s.tally.sample.seq 0 k true r.kind r.meta_ (keyL r.line * 64) r.at_ ns n poison wt mir a.trace)
    | _ => s

/-- A tile's line leaves at a port, where its CRC is verified: when both copies fail the line is returned as poison (R49, R65). -/
def State.egressCheck (s : State) (h ltn l : Nat) (d : Line) : Bool × State :=
  s.crcPass (h / 2) 1 (h / 2) (putLine 0 l d) ltn

/-- A read is answered with a line (R261, R272). `grant` is the state granted: 0 I, 1 S, 2 E. -/
def State.answerRead (s : State) (a : Act) (d : Line) (poison : Bool) (grant : Nat) : State :=
  let r := a.req
  let s := s.modAct a.id (fun a => { a with answered := true })
  match r.src with
  | .host h l tag =>
    let op := if grant = 2 then S2M.cmpE else if grant = 1 then S2M.cmpS else S2M.cmp
    let (bad, s) := s.egressCheck h (keyTile r.line) (r.line % 4) d
    let poison := poison || bad
    let s := if poison then s.notePoison r.line false else s
    let s := s.emit (.s2m h l tag op (if poison then none else some d) poison)
    (((s.countRead h l 64 poison).finishTally a poison).conflictAcks l r.line)
  | .peer _ n tid =>
    let s := if poison then s.notePoison r.line false else s
    let s := s.coh 0x20 n 0 tid (keyL r.line) grant (r.op == .rdI || grant == 0) false false (some d) 0 (b2n poison)
    (s.modAct a.id (fun a => { a with wantAck := true })).finishTally a poison
  | _ => s

/-- A request is completed without data: Cmp to a host, CMP to a peer (R261, R269, R272). -/
def State.answerCmp (s : State) (a : Act) (grant : Nat) : State :=
  let r := a.req
  let s := s.modAct a.id (fun a => { a with answered := true })
  match r.src with
  | .host h l tag =>
    let op := if grant = 2 then S2M.cmpE else if grant = 1 && !r.op.write? then S2M.cmpS else S2M.cmp
    let s := s.emit (.s2m h l tag op none false)
    (s.finishTally a false).conflictAcks l r.line
  | .peer _ n tid =>
    let s := s.coh 0x21 n 0 tid (keyL r.line) grant false false false none 0 0
    (s.modAct a.id (fun a => { a with wantAck := true })).finishTally a false
  | .mirror n tid line => s.mir 0x31 n tid line none 0 0
  | .resync n tid line =>
    let open_ := s.home.act.any (fun b => b.req.src == r.src && !b.answered) || s.home.wait.any (fun q => q.src == r.src)
      || s.home.stall.any (fun q => q.src == r.src)
    if open_ then s else s.mir 0x37 n tid line none 0 0
  | .own _ => s

/-- A transaction with nothing left to await closes (R250, R274). -/
def State.tryClose (s : State) (id : Nat) : State :=
  match s.act id with
  | none => s
  | some a =>
    if a.answered && !a.wantAck && !a.wantMirror && !a.wantProg && !a.oweCmp && a.snoops.isEmpty then
      let s := { s with home := { s.home with act := s.home.act.filter (fun b => b.id != id) } }
      if a.wb then s else s.dirPut a.req.line (s.dirGet a.req.line)
    else s

/-! ### Cache access of a granted request -/

/-- What became of a cache access. -/
inductive CacheRes where
  /-- The line, whether poison, and whether it was a hit. -/
  | data (d : Line) (poison hit : Bool)
  /-- The write is placed (or completes unstored); whether its tile's program must end first (R140), and whether it was a hit. -/
  | placed (wait hit : Bool)
  /-- It waits in a phase: tag record, miss register, miss-wait buffer, hold. -/
  | wait (p : ActPhase)
deriving DecidableEq, Repr

/-- The tag record of a tile's set as one number (R72). -/
def tagKey (node ltn : Nat) : Nat := 2 * setOf node ltn + b2n (node != 0xFFF)

/-- The tag cache is asked for a tile's record: present, or its read is issued (R72). A request's lookup is tallied once (R489). -/
def State.tagLook (s : State) (a : Act) (node ltn : Nat) : Bool × State :=
  let k := tagKey node ltn
  let here := s.cache.tags.contains k
  let s := if a.looked then s else (s.modAct a.id (fun a => { a with looked := true })).count 4 (if here then 0 else 1) 1
  if here then (true, { s with cache := { s.cache with tags := k :: s.cache.tags.erase k } })
  else if s.cache.tagReads.contains k then (false, s)
  else (false, { s with cache := { s.cache with tagReads := k :: s.cache.tagReads } })

/-- A host request's hit or miss is tallied once (R489). -/
def State.tallyAccess (s : State) (a : Act) (hit : Bool) : State :=
  if a.tallied then s
  else
    let s := s.modAct a.id (fun a => { a with tallied := true })
    match a.req.src with
    | .host _ _ _ => s.count 4 (if hit then 2 else 3) 1
    | _ => s

/-- The request that waits last for a tile, in a miss-wait buffer or the overflow queue (R74). -/
def State.lastWaiting (s : State) (ltn : Nat) : Option MissWait := s.cache.missWait.reverse.find? (fun w => w.tile == ltn)

/-- Room in a register: eight secondaries beside the request that took it (R73). -/
def Reg.room (r : Reg) : Bool := decide (r.secs.length < 8 + b2n r.primary)

/-- A request waits: behind one that waits for its tile, in the same place; in the overflow queue where the tile's register is full;
otherwise in its head's miss-wait buffer (R74). -/
def State.missEnqueue (s : State) (id ltn head : Nat) : State :=
  let w : MissWait := match s.lastWaiting ltn with
    | some w => { w with act := id }
    | none => { act := id, tile := ltn, head := head, overflow := (s.regOf (.logical (BitVec.ofNat 37 ltn))).isSome }
  let s := { s with cache := { s.cache with missWait := s.cache.missWait ++ [w] } }
  s.modAct id (fun a => { a with phase := .missWait })

/-- A miss joins or takes a register, or waits (R73, R74). `why` is the read's purpose; a way is reserved for a read that
fills (R70), else none. -/
def State.missJoin (s : State) (id key : Nat) (why : RdWhy) (head ld : Nat) : State :=
  let ltn := keyTile key
  let k := keyRef key
  match s.regOf k with
  | some r =>
    if (s.lastWaiting ltn).isSome || !r.room then s.missEnqueue id ltn head
    else (s.modReg k (fun r => { r with secs := r.secs ++ [id] })).modAct id (fun a => { a with phase := .reg })
  | none =>
    if (s.lastWaiting ltn).isSome || s.regsFree = 0 then s.missEnqueue id ltn head
    else
      let node := keyNode key
      let fills := why == .demand
      let (w, s) := if !fills then (none, s)
        else match (s.cset node ltn).ways.findIdx? (fun y => y.holds node ltn) with
          | some w => (some w, s.modWay node ltn w (fun y => { y with resv := true }))
          | none => match s.takeWay node ltn ld with
            | some (w, s) => (some w, s.modWay node ltn w (fun y => { y with resv := true }))
            | none => (none, s)
      let s := s.addReg { mkReg k why s.ft with way := w, secs := [id], primary := true }
      s.modAct id (fun a => { a with phase := .reg })

/-- May misses of the LD allocate (R88, R89, R93)? -/
def State.allocates (s : State) (node ltn ld : Nat) : Bool :=
  if node = 0xFFF then s.flag (Reg.LC_LD_CTRL.ALLOC_EN ld) && !s.lookupOff ld && !s.noWays node ltn
  else s.flag Reg.LC_CONFIG.VISITOR_EN && !s.noWays node ltn

/-- A line of a tile in the staging source of a program of the tile, the newest, and whether it is poison (R78, R99). -/
def State.stagedLine (s : State) (ltn l : Nat) : Option (Line × Bool) :=
  s.progs.list.reverse.findSome? (fun p =>
    if p.ltn != ltn then none
    else
      let (t, v, po) := s.progHolds p
      if (v &&& lbit l) != 0 then some (t.line l, (po &&& lbit l) != 0) else none)

/-- The LD a home tile belongs to, 0 where none does. -/
def State.tileOwner (s : State) (ltn : Nat) : Nat := (s.tileLd ltn).getD 0

/-- Was the line dirty in a failed HBM stack, its tile not yet programmed (R93)? -/
def State.lineLost (s : State) (node ltn l : Nat) : Bool :=
  node == 0xFFF && (s.lostMask ltn &&& lbit l) != 0

/-- Does a request stand behind another that waits for its tile (R74)? -/
def State.behindWait (s : State) (node ltn : Nat) (got : Option (Tile × BitVec 4)) : Bool :=
  got.isNone && node == 0xFFF && (s.lastWaiting ltn).isSome

/-- A read that finds its line in no way and no mash slot: from eviction staging, from the tile just read, or a miss; a line lost
with its stack is poison (R78, R93, R99, R397). -/
def State.readBeyond (s : State) (node ltn l : Nat) (got : Option (Tile × BitVec 4)) : CacheRes :=
  match (if node = 0xFFF then s.stagedLine ltn l else none), got with
  | some (d, p), _ => .data d p got.isNone
  | none, some (t, p) => .data (t.line l) ((p &&& lbit l) != 0) false
  | none, none => if s.keys.wiped || s.lineLost node ltn l then .data 0 true false else .wait .reg

/-- A granted read's access to the cache (R71 to R82, R88, R397): `got` is the tile a register just read, and its
poison lines. -/
def State.accessRead (s : State) (a : Act) (got : Option (Tile × BitVec 4)) : CacheRes × State :=
  let key := a.req.line
  let node := keyNode key
  let ltn := keyTile key
  let l := key % 4
  let ld := if node = 0xFFF then s.tileOwner ltn else a.req.ld
  if node = 0xFFF && (s.host.erasing.any (fun (e, _) => e == ld)) then (.data 0 true false, s)
  else
    let off := (node == 0xFFF && s.lookupOff ld) || s.noWays node ltn
    let (tagOk, s) := if off || got.isSome then (true, s) else s.tagLook a node ltn
    if !tagOk then (.wait .tag, s)
    else if s.behindWait node ltn got then (.wait .missWait, s)
    else
      let hit := match s.findWay node ltn with
        | some w => if ((s.way node ltn w).valid &&& lbit l) != 0 then some w else none
        | none => none
      match hit, (if node = 0xFFF then s.mashOf ltn else none) with
      | some w, _ =>
        let y := s.way node ltn w
        let s := (s.modWay node ltn w (fun y => { y with pfu := false })).touch node ltn w
        (.data (y.data.line l) ((y.poison &&& lbit l) != 0) got.isNone, s)
      | none, some m =>
        if (m.valid &&& lbit l) != 0 then (.data (m.data.line l) ((m.poison &&& lbit l) != 0) got.isNone, s)
        else match s.spillMash m with
          | some s => (s.readBeyond node ltn l got, s)
          | none => (.wait .held, s)
      | none, none => (s.readBeyond node ltn l got, s)

/-- A pin's event, and its count against the limit (R164). -/
def State.pinEvents (s : State) (ltn cause : Nat) (first : Bool) : State :=
  let s := if first && cause == 3 then s.tileEvent (mkEv .critical 8 0 .limit) ltn else s
  if pinLimit * 9 ≤ s.pinned * 10 ∧ (s.pinned - 1) * 10 < pinLimit * 9 then s.event (mkEv .warning 8 0 .limit) none else s

/-- A write that the pin limit refuses: it completes unstored and its line joins the poison list (R164, R165). -/
def State.wornLoss (s : State) (ltn l : Nat) : State :=
  let first := !s.map.lossTold
  let s := ({ s with map := { s.map with lossTold := true } } : State).raise Reg.MAP_PINS.WORN_LOSS
  let s := if first then s.tileEvent ((mkEv .critical 8 0 .lost).stat Reg.MAP_PINS.WORN_LOSS) ltn else s
  s.poisonAdd ltn (lbit l)

/-- Why a write to a segment must pin its tile: worn-read-only 3, LOCKED index 4, version at its end 5 (R164, R209,
R217). -/
def State.pinCause (s : State) (lsn : Nat) : Option Nat :=
  let e := s.entry lsn
  if e.state = stWorn then some 3
  else if e.state = stDiscarded then some 5
  else if s.keyLocked e.keyidx then some 4
  else none

/-- A pinned tile's copy goes to the pin spill, where it has a tile slot for it (R166). -/
def State.spillPin (s : State) (ltn w cls : Nat) : State :=
  if spillSlots ≤ s.map.spill.length ∧ !s.map.spill.any (fun x => x.ltn == ltn) then s
  else
    let y := s.way 0xFFF ltn w
    let (_, s) := s.reserveProg .pinSpill cls y.data ltn
    s.modWay 0xFFF ltn w (fun y => { y with spilled := true })

/-- In write-through, and in a drydown at class 1, the tile's program, or its pin-spill copy, is sent at once unless one
waits to take the new contents (R140, R166, R360). -/
def State.throughNow (s : State) (ltn w : Nat) : State :=
  let y := s.way 0xFFF ltn w
  if y.pin then
    if s.progs.list.any (fun p => p.why == .pinSpill && p.job == ltn && p.phase != .wave && p.phase != .paused) then s
    else s.spillPin ltn w (if s.inDrydown then 1 else 2)
  else s.cleanWay ltn w (if s.inDrydown then 1 else 2)

/-- What follows a write placed in a way: its program at once in write-through, for a write admitted in it (R140, R141), and in a
drydown (R360); while the cleaner runs, its walk takes the tile (R85). -/
def State.afterPlace (s : State) (ltn w : Nat) (thru : Bool) : State :=
  if thru || s.writeThrough || s.inDrydown then s.throughNow ltn w
  else if s.cache.cleaning then s.cleanWay ltn w s.evictClass
  else s

/-- A write placed in a way: bytes, pin if the segment asks for it, touch (R77, R164). -/
def State.placeInWay (s : State) (r : HReq) (w : Nat) (pin : Option Nat) : State :=
  let node := keyNode r.line
  let ltn := keyTile r.line
  let first := !(s.cache.sets.any (fun (_, c) => c.ways.any (fun y => y.valid != 0 && y.pin && y.cause == 3)))
  let was := (s.way node ltn w).pin
  let s := s.modWay node ltn w (fun y =>
    let y := y.write (r.line % 4) r.data r.mask r.poison
    match pin with
    | some c => { y with pin := true, cause := if y.pin then y.cause else c }
    | none => y)
  let s := s.touch node ltn w
  match pin with
  | some c => if was then s else s.pinEvents ltn c first
  | none => s

/-- A program of the tile that has not been granted takes a full or merged line into its staging source (R78, R126). -/
def State.mergeStaged (s : State) (p : Prog) (r : HReq) : State :=
  let b := lbit (r.line % 4)
  s.modProg p.id (fun p =>
    let full := r.mask == BitVec.allOnes 64
    let d := if full then r.data else mergeLine (p.data.line (r.line % 4)) r.data r.mask
    if r.poison then { p with poison := p.poison ||| b, valid := p.valid ||| b, dirty := p.dirty ||| b }
    else if !full && (p.poison &&& b) != 0 then { p with dirty := p.dirty ||| b }
    else { p with data := putLine p.data (r.line % 4) d, valid := p.valid ||| b, dirty := p.dirty ||| b, poison := p.poison &&& ~~~b })

/-- A refresh queued for a tile is dropped when the tile is dirtied (R182). -/
def State.dropRefresh (s : State) (ltn : Nat) : State :=
  { s with patrol := { s.patrol with queue := s.patrol.queue.filter (fun q => q.lsn * 4096 + q.t != ltn) } }

/-- A write that hits a tile in a way is placed there; one that hits a departing way first moves the tile into an enabled way, with
its EVQ and its register (R77, R91 step 3, R164). `thru` says that the write is a write-through write (R140). -/
def State.placeFound (s : State) (r : HReq) (w : Nat) (thru : Bool) : CacheRes × State :=
  let ltn := keyTile r.line
  let l := r.line % 4
  let pin := s.pinCause (ltnSeg ltn)
  let y := s.way 0xFFF ltn w
  if s.allocWays ≤ w ∧ (s.victim 0xFFF ltn).isSome then
    match s.takeWay 0xFFF ltn (s.tileOwner ltn) with
    | some (v, s) =>
      let s := (s.modWay 0xFFF ltn v (fun _ => y)).modWay 0xFFF ltn w (fun _ => {})
      let s := s.modReg (keyRef r.line) (fun g => if g.way = some w then { g with way := some v } else g)
      if !y.takes l r.mask r.poison then (.wait .reg, s)
      else (.placed thru true, (s.placeInWay r v pin).afterPlace ltn v thru)
    | none => (.wait .held, s)
  else if pin.isSome ∧ !y.pin ∧ decide (pinLimit ≤ s.pinned) then (.placed false true, s.wornLoss ltn l)
  else if !y.takes l r.mask r.poison then (.wait .reg, s)
  else (.placed thru true, (s.placeInWay r w pin).afterPlace ltn w thru)

/-- A write to a tile with a mash slot: a full line takes its place there, another write moves the slot's lines into a way first
(R80 to R82). -/
def State.placeMash (s : State) (r : HReq) (m : Mash) (got : Option (Tile × BitVec 4)) (thru : Bool) : CacheRes × State :=
  let ltn := keyTile r.line
  let l := r.line % 4
  if r.mask == BitVec.allOnes 64 && (s.pinCause (ltnSeg ltn)).isNone then
    (.placed thru true, s.mashWrite (s.tileOwner ltn) ltn l r.data r.poison)
  else match s.spillMash m with
    | some s =>
      match s.findWay 0xFFF ltn, got with
      | some w, none =>
        if (s.way 0xFFF ltn w).takes l r.mask r.poison then
          (.placed thru true, (s.placeInWay r w (s.pinCause (ltnSeg ltn))).afterPlace ltn w thru)
        else (.wait .reg, s)
      | some w, some (t, p) =>
        let s := s.modWay 0xFFF ltn w (fun y => y.fill t p false)
        (.placed thru false, (s.placeInWay r w (s.pinCause (ltnSeg ltn))).afterPlace ltn w thru)
      | none, _ => (.wait .held, s)
    | none => (.wait .held, s)

/-- A write of an LD that does not allocate is written through from staging, a partial line merged first (R88, R140). A line that
staging holds is merged there (R78, R99). -/
def State.placeThrough (s : State) (r : HReq) (got : Option (Tile × BitVec 4)) : CacheRes × State :=
  let ltn := keyTile r.line
  let l := r.line % 4
  let old := (s.stagedLine ltn l).orElse (fun _ => got.map (fun (t, p) => (t.line l, (p &&& lbit l) != 0)))
  let merged := if r.mask = BitVec.allOnes 64 ∨ r.poison then some (r.data, r.poison)
    else old.map (fun (d, p) => (mergeLine d r.data r.mask, p))
  match merged with
  | some (d, po) =>
    (.placed true false, s.sendProg .through 2 ltn (s.tileOwner ltn) (putLine 0 l d) (lbit l) (lbit l) (if po then lbit l else 0) true 0)
  | none => (.wait .reg, s)

/-- A write that misses the ways allocates one: a register's reserved way takes the line, otherwise a victim's (R75, R77, R78). A way
newly taken starts with what a read has just returned and what staging holds of the tile. A full line waits for no read (R120); with
no register free for the allocation it waits for one (R73, R74). -/
def State.placeMiss (s : State) (r : HReq) (got : Option (Tile × BitVec 4)) (thru : Bool) : CacheRes × State :=
  let ltn := keyTile r.line
  let ld := s.tileOwner ltn
  let pin := s.pinCause (ltnSeg ltn)
  let reg := s.regOf (keyRef r.line)
  match reg.bind (·.way) with
  | some w =>
    (.placed thru false, ((s.placeInWay r w pin).modWay 0xFFF ltn w (fun y => { y with ltn := ltn, node := 0xFFF, ld := ld })).afterPlace
      ltn w thru)
  | none =>
    if reg.isNone ∧ s.regsFree = 0 then (.wait .missWait, s)
    else
      let (t, v, p) := s.tileNow ltn
      match s.takeWay 0xFFF ltn ld with
      | some (w, s) =>
        let s := s.modWay 0xFFF ltn w (fun y => match got with
          | some (m, mp) => { y with valid := 15, data := mergeTile m t v, poison := (mp &&& ~~~v) ||| p }
          | none => { y with valid := v, data := t, poison := p })
        (.placed thru false, (s.placeInWay r w pin).afterPlace ltn w thru)
      | none => (.wait .held, s)

/-- A write to a tile that no way holds (R75, R78, R80 to R82, R88, R140, R164). -/
def State.placeNew (s : State) (r : HReq) (got : Option (Tile × BitVec 4)) (off streams thru : Bool) : CacheRes × State :=
  let ltn := keyTile r.line
  let l := r.line % 4
  let ld := s.tileOwner ltn
  let full := r.mask == BitVec.allOnes 64
  let pin := s.pinCause (ltnSeg ltn)
  if pin.isSome ∧ decide (pinLimit ≤ s.pinned) then (.placed false false, s.wornLoss ltn l)
  else
    let waiting := s.progs.list.find? (fun p => p.ltn == ltn && (p.why == .evict || p.why == .through)
      && !p.granted && p.raw.isNone && (full || r.poison || ((p.valid &&& lbit l) != 0)))
    match waiting, s.mashOf ltn, off with
    | some p, _, _ => (.placed (thru || off) true, s.mergeStaged p r)
    | none, some m, false => s.placeMash r m got thru
    | none, _, _ =>
      if pin.isNone && (off || !s.flag (Reg.LC_LD_CTRL.ALLOC_EN ld)) then s.placeThrough r got
      else
        let room := if streams && full && pin.isNone && !s.inDrydown && !s.writeThrough && !thru && (s.regOf (keyRef r.line)).isNone
          then s.mashRoom else none
        match room with
        | some s => (.placed thru false, s.mashWrite ld ltn l r.data r.poison)
        | none =>
          if !(full || r.poison) && got.isNone && (s.stagedLine ltn l).isNone then (.wait .reg, s)
          else s.placeMiss r got thru

/-- The streaming detector sees a full-line write once, whatever holds its tile (R80). -/
def State.trackOnce (s : State) (a : Act) : Bool × State :=
  let ltn := keyTile a.req.line
  if a.tracked then (a.streams, s)
  else if a.req.mask != BitVec.allOnes 64 then (false, s)
  else
    let (x, s) := s.trackWrite (s.tileOwner ltn) ltn (a.req.line % 4)
    (x, s.modAct a.id (fun a => { a with tracked := true, streams := x }))

/-- A write to a home tile, its mapping and undo record settled, is placed (R75, R77, R78, R80 to R82, R88, R140,
R164). -/
def State.placeHome (s : State) (a : Act) (got : Option (Tile × BitVec 4)) : CacheRes × State :=
  let r := a.req
  let ltn := keyTile r.line
  let off := s.lookupOff (s.tileOwner ltn) || s.noWays 0xFFF ltn
  let (tagOk, s) := if off || got.isSome then (true, s) else s.tagLook a 0xFFF ltn
  if !tagOk then (.wait .tag, s)
  else if s.behindWait 0xFFF ltn got then (.wait .missWait, s)
  else
    let (streams, s) := s.trackOnce a
    let s := s.dropRefresh ltn
    match (if off then none else s.findWay 0xFFF ltn) with
    | some w => s.placeFound r w a.thru
    | none => s.placeNew r got off streams a.thru

/-- A granted write's access (R147, R331, R333, R397). -/
def State.accessWrite (s : State) (a : Act) (got : Option (Tile × BitVec 4)) : CacheRes × State :=
  let r := a.req
  let ltn := keyTile r.line
  let lsn := ltnSeg ltn
  let ld := s.tileOwner ltn
  if s.host.erasing.any (fun (e, _) => e == ld) then (.placed false false, s)
  else
    let s := s.dropPoison r
    let s := if (s.entry lsn).state = stDiscarded then s.newMapping lsn ld (s.ldDomain ld).isSome
      else if r.mask == BitVec.allOnes 64 && s.segLost lsn then s.mapAfresh lsn ld else s
    -- copies from a mirror's home save no record (R333)
    let copy : Bool := match r.src with
      | .mirror _ _ _ => true
      | .resync _ _ _ => true
      | _ => false
    match if copy then .none else s.undoNeed ltn r.at_ got with
    | .wait => (.wait .held, s.undoFull ltn)
    | .read => (.wait .reg, s)
    | .ready => (s.undoSave ltn r.at_ got).placeHome a got
    | .none => s.placeHome a got

/-- The purpose of the read a waiting access asks for: it fills a way, or only returns the tile (R73, R88). -/
def State.missWhy (s : State) (key ld : Nat) : RdWhy :=
  let node := keyNode key
  let owner := if node = 0xFFF then s.tileOwner (keyTile key) else ld
  if s.allocates node (keyTile key) owner then .demand else .noFill

/-- A transaction goes into the phase its access left it in. -/
def State.actWait (s : State) (a : Act) (p : ActPhase) : State :=
  let head := match a.req.src with | .host h _ _ => h | .peer k _ _ => 8 + k | _ => 16
  match p with
  | .reg => (s.tallyAccess a false).missJoin a.id a.req.line (s.missWhy a.req.line a.req.ld) head a.req.ld
  | .missWait => s.missEnqueue a.id (keyTile a.req.line) head
  | p => s.modAct a.id (fun a => { a with phase := p })

/-- The copy of a mirrored write leaves for the mirror node as soon as the home has admitted it (R123, R300). -/
def State.sendMwr (s : State) (a : Act) : State :=
  let lsn := ltnSeg (keyTile a.req.line)
  let e := s.entry lsn
  if s.mirrored lsn && !a.wantMirror then
    let s := s.mir 0x30 e.mirror (a.id % 4096) a.req.line (some (a.req.data.setWidth 2048)) a.req.mask (b2n a.req.poison)
    s.modAct a.id (fun a => { a with wantMirror := true })
  else s

/-- The data of a dirty forward are in the domain: its requester gets CMP (R273). -/
def State.cmpOwed (s : State) (k : Nat) : State :=
  match s.home.act.find? (fun a => a.oweCmp && a.req.line == k) with
  | some a =>
    let s := s.modAct a.id (fun a => { a with oweCmp := false })
    match a.req.src with
    | .peer _ n tid =>
      (s.coh 0x21 n 0 tid (keyL k) (if a.req.op = .rdA ∨ a.req.op = .invA then 2 else 1) false false false none 0 0).tryClose a.id
    | _ => s.tryClose a.id
  | none => s

/-- What remains once a write is placed: its completion leaves when the copy is confirmed and the program has ended
(R118, R123, R140). -/
def State.writeDone (s : State) (id : Nat) (grant : Nat) : State :=
  match s.act id with
  | none => s
  | some a =>
    if a.wantMirror || a.wantProg || a.answered then s
    else
      let s := (s.answerCmp a grant).tryClose id
      if a.wb then s.cmpOwed a.req.line else s

/-- The state a writer keeps: S or E for a peer under the GRANT it asked for and the directory shows (R261, R269). -/
def State.writeGrant (s : State) (r : HReq) : Nat :=
  match r.src with
  | .peer _ n _ =>
    let e := s.dirGet r.line
    if !r.keepE ∧ r.op = .wrI then 0
    else if e.state = 3 ∧ e.ext = n then (if r.keepE then 2 else 1)
    else if e.state = 1 ∧ bitAt e.ext (n % 4) then 1 else 0
  | _ => 0

/-- The directory after a grant (R261, R272). -/
def State.grantDir (s : State) (r : HReq) : State :=
  let e := s.dirGet r.line
  let party := s.party r
  match r.op with
  | .rdS =>
    match party with
    | some (.slot i) => s.dirPut r.line { e with state := 1, sharers := e.sharers ||| (1#32 <<< i), ext := if e.state = 1 then e.ext else 0 }
    | some (.peer n) => (s.recordPeer n).dirPut r.line
        { e with state := 1, ext := (if e.state = 1 then e.ext else 0) ||| 2 ^ (n % 4) }
    | none => s
  | .rdA | .invA =>
    match party with
    | some (.slot i) => s.dirPut r.line { e with state := 2, sharers := 1#32 <<< i, ext := 0 }
    | some (.peer n) => (s.recordPeer n).dirPut r.line { e with state := 3, sharers := 0, ext := n }
    | none => s
  | .invI | .wrI =>
    match party with
    | some (.slot i) => s.dirPut r.line (e.drop (.slot i))
    | some (.peer n) => if r.op = .wrI ∧ !r.keepE then s.dirPut r.line (e.drop (.peer n)) else s
    | none => s
  | .wrS =>
    match party with
    | some p => if !r.keepE then s.dirPut r.line (e.share p) else s
    | none => s
  | .rdI => s

/-- Does the requester's bit stand in the directory (R261 MemInv A)? -/
def State.shown (s : State) (r : HReq) : Bool :=
  let e := s.dirGet r.line
  match s.party r with
  | some (.slot i) => e.state != 0 && e.sharers.getLsbD i
  | some (.peer n) => (e.state == 1 && bitAt e.ext (n % 4)) || (e.state == 3 && e.ext == n)
  | none => false

/-- May a node be granted a cached state: PEER_CACHE is set, and it is recorded or a peer slot is free (R258, R280)? -/
def State.peerMayCache (s : State) (n : Nat) : Bool :=
  s.flag Reg.COH_CONFIG.PEER_CACHE && ((s.peerSlot n).isSome
    || (List.range 64).any (fun j => !s.flag (Reg.COH_PEER.VALID j) && !s.flag (Reg.COH_PEER.PURGING j)))

/-- A peer's request as the home serves it: uncached where the peer may not cache; PEER_LIMIT when its record is what
lacks (R258, R280). -/
def State.peerServed (s : State) (id : Nat) : State :=
  match s.act id with
  | none => s
  | some a =>
    match a.req.src with
    | .peer _ n _ =>
      if a.req.op != .rdS && a.req.op != .rdA && a.req.op != .invA || s.peerMayCache n then s
      else
        let s := if s.flag Reg.COH_CONFIG.PEER_CACHE then s.raise Reg.COH_STATUS.PEER_LIMIT else s
        s.modAct id (fun a => { a with req := { a.req with op := .rdI } })
    | _ => s

/-- The state a read or MemInv grants. -/
def ReqOp.grant : ReqOp → Nat
  | .rdS => 1
  | .rdA | .invA => 2
  | _ => 0

/-- The access of a granted transaction is made, and answered where it can be (R261). -/
def State.serve (s : State) (id : Nat) (got : Option (Tile × BitVec 4)) : State :=
  match s.act id with
  | none => s
  | some a =>
    let r := a.req
    if r.op.write? then
      let (res, s) := s.accessWrite a got
      match res with
      | .placed wait hit =>
        let s := (s.tallyAccess a hit).modAct id (fun a => { a with phase := .placed, wantProg := wait, thru := a.thru || wait })
        s.writeDone id (s.writeGrant r)
      | .wait p => s.actWait a p
      | .data _ _ _ => s
    else
      match a.fwdData with
      | some d => (s.answerRead a d false r.op.grant).tryClose id
      | none =>
        let (res, s) := s.accessRead a got
        match res with
        | .data d p h =>
          let s := (s.tallyAccess a h).modAct id (fun a => { a with trace := { a.trace with hit := h } })
          let a := { a with trace := { a.trace with hit := h } }
          (s.answerRead a d p r.op.grant).tryClose id
        | .wait p => s.actWait a p
        | .placed _ _ => s

/-! ### The proxy of a visitor line (R267 to R269) -/

/-- Is a visitor line held in the visitor partition? -/
def State.visitorHeld (s : State) (k : Nat) : Bool :=
  match s.findWay (keyNode k) (keyTile k) with
  | some w => ((s.way (keyNode k) (keyTile k) w).valid &&& lbit (k % 4)) != 0
  | none => false

/-- A visitor line leaves the visitor partition. -/
def State.dropVisitor (s : State) (k : Nat) : State :=
  match (s.cset (keyNode k) (keyTile k)).ways.findIdx? (fun w => w.holds (keyNode k) (keyTile k)) with
  | some w => s.modWay (keyNode k) (keyTile k) w (fun y =>
      let v := y.valid &&& ~~~(lbit (k % 4))
      if v = 0 then {} else { y with valid := v, poison := y.poison &&& ~~~(lbit (k % 4)) })
  | none => s

/-- Does the proxy cache visitor lines (R267, R295 VISITOR_EN)? -/
def State.visitorOn (s : State) : Bool := s.flag Reg.LC_CONFIG.VISITOR_EN

/-- The same for one line: the visitor sets of a failed stack have no ways (R514). -/
def State.visitorFor (s : State) (k : Nat) : Bool := s.visitorOn && !s.noWays (keyNode k) (keyTile k)

/-- A visitor line enters the visitor partition. -/
def State.fillVisitor (s : State) (k : Nat) (d : Line) (poison : Bool) : State :=
  let node := keyNode k
  let ltn := keyTile k
  let put := fun (y : Way) => { y with valid := y.valid ||| lbit (k % 4), data := putLine y.data (k % 4) d,
                                       poison := if poison then y.poison ||| lbit (k % 4) else y.poison &&& ~~~(lbit (k % 4)) }
  match (s.cset node ltn).ways.findIdx? (fun w => w.holds node ltn) with
  | some w => (s.modWay node ltn w put).touch node ltn w
  | none => match s.takeWay node ltn 0 with
    | some (w, s) => (s.modWay node ltn w put).touch node ltn w
    | none => s

/-- A free TID towards a home, the lowest (R270, R279). -/
def State.freeTid (s : State) (home : Nat) : Option Nat :=
  let used := (s.home.proxy.filter (fun p => p.home == home)).map (·.tid)
  (List.range (used.length + 1)).find? (fun t => !used.contains t && decide (t < 4096))

/-- The home of a visitor line is asked (R267 to R269). -/
def State.askHome (s : State) (a : Act) (opc wish : Nat) : State :=
  let k := a.req.line
  match s.freeTid (keyNode k) with
  | none => s.modAct a.id (fun a => { a with phase := .held })
  | some t =>
    let s := s.modAct a.id (fun a => { a with phase := .remote })
    let p : ProxyTxn := { act := a.id, tid := t, home := keyNode k, opc := opc, line := k }
    let s := { s with home := { s.home with proxy := s.home.proxy ++ [p] } }
    let wr := opc == 5
    let put := fun (y : Way) =>
      let l := k % 4
      { y with data := putLine y.data l (mergeLine (y.data.line l) a.req.data a.req.mask),
               poison := if a.req.poison then y.poison ||| lbit l
                 else if a.req.mask = BitVec.allOnes 64 then y.poison &&& ~~~(lbit l) else y.poison }
    let s := match s.findWay (keyNode k) (keyTile k) with
      | some w => if wr && s.visitorHeld k then s.modWay (keyNode k) (keyTile k) w put else s
      | none => s
    s.coh opc (keyNode k) 0 t (keyL k) wish false false false (if wr then some a.req.data else none) a.req.mask
      (if wr then b2n a.req.poison else 0)

/-- The local grant of a proxy (R256, R268): rdS adds a sharer, rdA and MemInv A make the requester the one holder. -/
def State.proxyGrant (s : State) (r : HReq) : State :=
  let e := s.dirGet r.line
  match r.op, s.party r with
  | .rdS, some (.slot i) => s.dirPut r.line { e with sharers := e.sharers ||| (1#32 <<< i) }
  | .rdA, some (.slot i) => s.dirPut r.line { e with state := 3, sharers := 1#32 <<< i }
  | .invA, some (.slot i) => s.dirPut r.line { e with state := 3, sharers := 1#32 <<< i }
  | .invI, some p => s.dirPut r.line (e.drop p)
  | .wrI, some p => s.dirPut r.line (e.drop p)
  | _, _ => s

/-- The proxy's part once its local holders are settled: served here, or the home is asked (R267 to R269, R295). -/
def State.proxyGo (s : State) (id : Nat) : State :=
  match s.act id with
  | none => s
  | some a =>
    let r := a.req
    let e := s.dirGet r.line
    let held := s.visitorHeld r.line || a.fwdData.isSome
    let ask := fun (opc : Nat) => s.askHome a (if s.visitorFor r.line then opc else 3) 0
    match r.op with
    | .rdS | .rdI => if e.state ≠ 0 ∧ held then (s.proxyGrant r).serve id none else ask 1
    | .rdA =>
      if 2 ≤ e.state ∧ held then (s.proxyGrant r).serve id none
      else if e.state = 1 ∧ held ∧ s.visitorFor r.line then s.askHome a 4 0 else ask 2
    | .invA =>
      if 2 ≤ e.state ∧ s.shown r then ((s.proxyGrant r).answerCmp a 2).tryClose id
      else if 2 ≤ e.state ∧ held then (s.proxyGrant r).serve id none
      else if e.state = 1 ∧ s.shown r ∧ s.visitorFor r.line then s.askHome a 4 0 else ask 2
    | .invI => ((s.proxyGrant r).answerCmp a 0).tryClose id
    | .wrI | .wrS =>
      let s := s.proxyGrant r
      let wish := if s.visitorFor r.line && (s.visitorHeld r.line || (s.dirGet r.line).sharers != 0) then min 2 (s.dirGet r.line).state else 0
      s.askHome a 5 wish

/-- The grant: directory, then the access; MemInv without data completes at once (R261). -/
def State.grantStage (s : State) (id : Nat) : State :=
  let s := s.peerServed id
  match s.act id with
  | none => s
  | some a =>
    let r := a.req
    if keyNode r.line ≠ 0xFFF then s.proxyGo id
    else
    let s := s.modAct id (fun a => { a with phase := .placed })
    let nodata := match r.op with
      | .invI => true
      | .invA => r.recall || s.shown r
      | _ => false
    let s := s.grantDir r
    if nodata then (s.answerCmp a r.op.grant).tryClose id
    else s.serve id none

/-- Snoops before the grant, or a forward to the PX owner for a peer's request (R261, R272). -/
def State.snoopStage (s : State) (id : Nat) : State :=
  let s := s.peerServed id
  match s.act id with
  | none => s
  | some a =>
    let r := a.req
    let e := s.dirGet r.line
    let me := s.party r
    let others := (s.holders e).filter (fun t => some t != me)
    let excl := (s.exclusive e).filter (fun t => some t != me)
    let isPeer := match r.src with | .peer _ _ _ => true | _ => false
    if isPeer && !e.proxy && e.state == 3 && !excl.isEmpty && !r.op.write? && r.op != .invI then
      match r.src with
      | .peer _ n tid =>
        let opc := if r.op = .rdA ∨ r.op = .invA then 0x13 else 0x12
        let s := s.modAct id (fun a => { a with phase := .fwd, wantAck := true })
        (s.coh opc e.ext n tid (keyL r.line) 0 false false false none 0 0).count 5 5 1
      | _ => s
    else
      let (dest, inv) := match r.op with
        | .rdS | .rdI | .wrS => (excl, false)
        | .rdA | .wrI => (others, true)
        | .invA => (if r.recall && r.kind == 1 then others.filter (fun t => match t with | .peer _ => true | .slot _ => false)
            else others, true)
        | .invI => ([], false)
      if dest.isEmpty then s.grantStage id
      else (s.modAct id (fun a => { a with phase := .snoop })).snoopAll id r.line dest inv

/-- The entry a new line starts with (R255): home entries HS, proxy entries PS, without holders. -/
def newEntry (k : Nat) : DirEntry :=
  if keyNode k = 0xFFF then { tag := keyL k / 2 ^ 24, state := 1, age := true }
  else { tag := keyL k / 2 ^ 24, state := 1, proxy := true, ext := keyNode k, age := true }

/-- Is a line's directory set unknown since its HBM stack failed, and its line without an entry (R515)? Set S lies in
stack S mod 2 (log 21). -/
def State.dirUnknown (s : State) (k : Nat) : Bool :=
  s.home.unknown && s.avail.stackDown.getLsbD (dirSet k % 2) && (s.dirWay k).isNone

/-- Every valid BI slot and, for a home line, every valid peer slot: who may hold a line of an unknown set (R515). -/
def State.everyHolder (s : State) : List SnoopTo :=
  ((List.range 32).filter (fun i => s.flag (Reg.COH_SLOT.VALID i) && !s.flag (Reg.COH_SLOT.PURGING i))).map SnoopTo.slot
    ++ ((List.range 64).filter (fun j => s.flag (Reg.COH_PEER.VALID j))).map (fun j => SnoopTo.peer (s.getF (Reg.COH_PEER.NODE j)))

/-- The directory stage: the lookup, the broadcast of an unknown set (R515), and a way for a new entry (R259). -/
def State.dirStage (s : State) (id : Nat) : State :=
  match s.act id with
  | none => s
  | some a =>
    let r := a.req
    let s := s.dirLookup r.line
    let ask := if s.dirUnknown r.line && a.asked == 0 then
        s.everyHolder.filter (fun t => keyNode r.line == 0xFFF || (match t with | .slot _ => true | .peer _ => false))
      else []
    if !ask.isEmpty then
      (s.modAct id (fun a => { a with phase := .snoop, asked := 1 })).snoopAll id r.line ask true
    else
    let tracked := if keyNode r.line = 0xFFF then (s.party r).isSome && (r.op == .rdS || r.op == .rdA || r.op == .invA)
      else s.visitorFor r.line && (r.op == .rdS || r.op == .rdI || r.op == .rdA || r.op == .invA)
    if !tracked || (s.dirWay r.line).isSome then s.snoopStage id
    else
      let new := newEntry r.line
      let es := s.dirEntries r.line
      match es.findIdx? (fun e => e.state == 0 || decide (4 ≤ e.state)) with
      | some w => (s.setDir r.line w new).snoopStage id
      | none =>
        let s := if es.all (·.age) then
            { s with home := { s.home with
                dir := mset (List.replicate 8 {}) s.home.dir (dirSet r.line) (es.map (fun e => { e with age := false })) } }
          else s
        let es := s.dirEntries r.line
        let idle := fun (e : DirEntry) => !s.lineBusy (e.key r.line)
        match (es.findIdx? (fun e => !e.age && idle e)).orElse (fun _ => es.findIdx? idle) with
        | none => s.modAct id (fun a => { a with phase := .dirFull })
        | some w =>
          let v := es.getD w {}
          let s := s.count 5 3 1
          let hs := s.holders { v with sharers := v.sharers &&& ~~~s.purgeMask }
          if hs.isEmpty then
            ((if v.proxy then s.dropVisitor (v.key r.line) else s).setDir r.line w new).snoopStage id
          else (s.modAct id (fun a => { a with phase := .victim (v.key r.line) w })).snoopAll id (v.key r.line) hs true

/-- Every snoop of a transaction is answered: the victim's way is reused, or the grant is made (R259, R261). -/
def State.snoopsDone (s : State) (id : Nat) : State :=
  match s.act id with
  | none => s
  | some a =>
    if !a.snoops.isEmpty then s
    else if a.phase == .snoop && s.home.act.any (fun b => b.wb && b.req.line == a.req.line && b.phase != .placed && b.phase != .remote) then s
    else match a.phase with
      | .victim _ w =>
        let s := if (((s.dirEntries a.req.line).getD w {})).proxy then s.dropVisitor a.snoopKey else s
        let s := s.setDir a.req.line w (newEntry a.req.line)
        (s.modAct id (fun a => { a with phase := .snoop })).snoopStage id
      | .snoop =>
        if a.asked = 1 then (s.modAct id (fun a => { a with asked := 2 })).dirStage id
        else if !a.answered then s.grantStage id
        else if keyNode a.req.line = 0xFFF then (s.grantDir a.req).tryClose id
        else (s.proxyGrant a.req).tryClose id
      | _ => s.tryClose id

/-! ### Holding, queueing and admission (R250, R251) -/

/-- Is a write to the line's segment held at the home: an LD disable (R89), a domain that
waits for CASK_RECOVER (R342), a lifecycle transition (R219)? -/
def State.writeHeld (s : State) (r : HReq) : Bool :=
  let ltn := keyTile r.line
  let lsn := ltnSeg ltn
  s.cache.disabling.any (fun d => some d.ld == s.tileLd ltn && d.phase == .holdClean)
    || (match s.tileDomain ltn with | some i => ((s.dom i).state == 2 || (s.dom i).state == 3) && !(s.dom i).resting | none => false)
    || s.keys.holdWrites

/-- Does a request wait for what a failed HBM stack held: its map entry or its tile's undo data (R514)? The entry of
segment LSN and the undo set lie in the stack of their number mod 2 (log 21). -/
def State.shareHeld (s : State) (r : HReq) : Bool :=
  s.avail.shareOut && decide (r.line < 2 ^ 39)
    && (s.avail.stackDown.getLsbD (ltnSeg (keyTile r.line) % 2)
        || ((s.tileDomain (keyTile r.line)).isSome && s.avail.stackDown.getLsbD (keyTile r.line % 2)))

/-- Are requests to a segment of this home held while home and mirror are exchanged (R304)? Its range is the home's before the
exchange and the mirror's after it. -/
def State.swapHeld (s : State) (lsn : Nat) : Bool :=
  s.fabric.mirrors.any (fun (_, m) =>
    let first := if m.role = 0 then m.homeLsn else m.mirrorLsn
    m.swap && decide (first ≤ lsn) && decide (lsn < first + m.count))

/-- Is a request held at the home: before Memory_Active (R374), while ways wake (R91), by a segment discard (R169), on a
side that is not primary whose mirror is out of reach (R303), by a mirror exchange (R304), or by a write hold? -/
def State.reqHeld (s : State) (r : HReq) : Bool :=
  !s.host.memActive || s.shareHeld r
    || (decide (r.line < 2 ^ 39)
        && (s.cache.waking || s.map.discards.any (fun d => d.draining.contains (ltnSeg (keyTile r.line)))
            || (r.op.write? && s.writeHeld r)
            || (!r.recall && s.swapHeld (ltnSeg (keyTile r.line)))
            || (s.mirrored (ltnSeg (keyTile r.line)) && !s.flag Reg.DF_NODE.PRIMARY
                && !s.fabric.view.any (fun (n, _) => n == (s.entry (ltnSeg (keyTile r.line))).mirror))))
    || (decide (2 ^ 39 ≤ r.line) && !s.flag Reg.DF_NODE.PRIMARY && !s.fabric.view.any (fun (n, _) => n == keyNode r.line))

/-- The source a request waits behind (R251). -/
def ReqSrc.port : ReqSrc → Nat
  | .host h _ _ => h
  | .peer k _ _ => 8 + k
  | _ => 16

/-- A transaction is made of a request, at its admission; a write to a home line in write-through, or of an LD whose lookup is off, is
a write-through write (R88, R139, R141). The copy of a mirrored write leaves at once (R123). -/
def State.newAct (s : State) (r : HReq) (wb : Bool) : Nat × State :=
  let id := s.home.next
  let home := r.op.write? && decide (r.line < 2 ^ 39)
  let thru := home && (s.writeThrough || s.lookupOff (s.tileOwner (keyTile r.line)))
  let a : Act := { id := id, req := r, phase := .snoop, wb := wb, thru := thru, trace := { tHome := s.ft } }
  let s : State := { s with home := { s.home with act := s.home.act ++ [a], next := id + 1 } }
  (id, if home then s.sendMwr a else s)

/-- A transaction starts: the directory stage (R250, R254). -/
def State.start (s : State) (r : HReq) : State :=
  let (id, s) := s.newAct r false
  s.dirStage id

/-- Transactions held for another reason are tried again: those waiting for a way, a set or a hold (R71, R259). -/
def State.retryHeld (s : State) : State :=
  (s.home.act.filter (fun a => a.phase == .held || a.phase == .dirFull || (a.phase == .snoop && a.snoops.isEmpty))).foldl (fun s a =>
    if a.phase == .snoop then s.snoopsDone a.id
    else if a.phase == .dirFull then s.dirStage a.id
    else if keyNode a.req.line ≠ 0xFFF then s.proxyGo a.id else s.serve a.id none) s

/-- The first waiting request that may be admitted: its line is free, nothing holds it, no earlier one names its line. -/
def nextAdmit (s : State) : List HReq → List HReq → Option (HReq × List HReq)
  | _, [] => none
  | seen, r :: rest =>
    if seen.any (fun q => q.line == r.line) || s.lineBusy r.line || s.reqHeld r || 16384 ≤ s.home.act.length then
      nextAdmit s (seen ++ [r]) rest
    else some (r, seen ++ rest)

/-- Stalled requests enter the line queues as room comes, each port's in order (R251). -/
def unstall (s : State) : List HReq → State
  | [] => s
  | r :: rest =>
    let room := decide ((s.home.wait.filter (fun q => q.line == r.line)).length < 64) && decide (s.home.wait.length < 65536)
    if room && !(s.home.stall.takeWhile (fun q => q != r)).any (fun q => q.src.port == r.src.port) then
      unstall { s with home := { s.home with wait := s.home.wait ++ [r], stall := s.home.stall.erase r } } rest
    else unstall s rest

/-- The home admits waiting requests while any may be admitted (R250). -/
def State.pumpN : Nat → State → State
  | 0, s => s
  | n + 1, s =>
    let s := unstall s s.home.stall
    match nextAdmit s [] s.home.wait with
    | some (r, rest) => State.pumpN n ({ s with home := { s.home with wait := rest } }.start r)
    | none => s

/-- A GPF Phase 2 request is answered once every write admitted has completed (R239). -/
def State.gpfCheck (s : State) : State :=
  if s.home.act.any (fun a => a.req.op.write? && !a.answered) || s.home.wait.any (fun r => r.op.write?)
      || s.home.stall.any (fun r => r.op.write?) then s
  else ({ s with host := { s.host with gpf := [] } }).emits (s.host.gpf.map (fun h => Out.gpf h true))

/-- The highest dirty charge and the smallest free pool of the summary interval, and its write-through flag (R499). -/
def State.noteCharge (s : State) : State :=
  let c := s.charge
  let n := s.freeSlots
  s.modInterval (fun i => { i with chargeMax := max i.chargeMax c, flags := if s.writeThrough then i.flags ||| 8 else i.flags,
                                   poolMin := if s.map.loaded then some (min n (i.poolMin.getD n)) else i.poolMin })

/-- What an own request waited for has come: the path or command is answered; the partner of a mirror entry is asked to
exchange roles (R238, R304, R423). -/
def State.ownEnd (s : State) (w : OwnWait) : State :=
  let s : State := { s with home := { s.home with owns := s.home.owns.filter (fun x => x != w) } }
  match w.after with
  | .path p => s.endPath p .success []
  | .cmd src => s.respondTo src kOk 0 []
  | .swap k =>
    match s.fabric.mirrors.find? (fun x => x.1 == k) with
    | some (_, e) => s.mirTell e.partner 4 0 e.homeLsn e.mirrorLsn e.count
    | none => s

/-- Own requests that have all been served (R238, R423); an exchange waits for every request under way in its range (R304). -/
def State.ownCheck (s : State) : State :=
  let mine := fun (w : OwnWait) (r : HReq) => decide (w.first ≤ r.line) && decide (r.line < w.first + w.count)
    && (match w.after, r.src with
      | .swap _, _ => true
      | _, .own _ => true
      | _, _ => false)
  let waits := fun (w : OwnWait) (r : HReq) => mine w r && (match r.src with | .own _ => true | _ => false)
  let busy := fun (w : OwnWait) => s.home.act.any (fun a => mine w a.req && !a.answered) || s.home.wait.any (waits w)
    || s.home.stall.any (waits w)
  (s.home.owns.filter (fun w => !busy w)).foldl (fun s w => s.ownEnd w) s

/-- The home settles after a step: held transactions are tried again, snoops that waited for a tag go out, and waiting
requests are admitted. -/
def State.pump (s : State) : State :=
  let s := s.retryHeld.sendWaiting
  (s.pumpN (s.home.wait.length + s.home.stall.length + 1)).ownCheck.createCheck.gpfCheck.noteCharge

/-- A write of an LD to a line with a snoop of the LD outstanding is taken at once as that snoop's data (R263, R264). -/
def State.takeWriteback (s : State) (r : HReq) (slot : Nat) : State :=
  let isIt := fun (n : Snoop) => n.dest == .slot slot && n.sent
  let owner := s.home.act.find? (fun a => a.snoopKey == r.line && a.snoops.any isIt)
  let owed := s.home.owed.any (fun o => o.key == r.line && o.snoops.any isIt)
  let keep := r.mask == BitVec.allOnes 64 && !r.poison
  let (id, s) := s.newAct r true
  let s := if keyNode r.line ≠ 0xFFF then
      (match s.act id with
       | some a =>
         if owed && keep then
           -- R271, R273: the answer to the home's snoop carries the data
           let s := { s with home := { s.home with owed := lupd (fun o => o.key == r.line) (fun o => { o with data := some r.data }) s.home.owed } }
           (s.answerCmp a 0).tryClose id
         else s.askHome a 5 (if owed then 0 else min 2 (s.dirGet r.line).state)
       | none => s)
    else s.serve id none
  match owner with
  | some a =>
    if a.req.line ≠ r.line || !keep || a.req.op.write? then s
    else
      let s := (s.modAct a.id (fun a => { a with fwdData := some r.data })).count 5 4 1
      let hostReq : Bool := match a.req.src with | .host _ _ _ => true | _ => false
      if (a.req.op = .rdS ∨ a.req.op = .rdI) ∧ a.snoops.length = 1 ∧ !a.answered ∧ hostReq then
        match s.act a.id with
        | some a => s.answerRead a r.data false a.req.op.grant
        | none => s
      else s
  | none => s

/-- A request reaches the home (R250, R251, R263). -/
def State.submit (s : State) (r : HReq) : State :=
  let slot := match r.src with | .host _ l _ => s.slotOf l | _ => none
  let isWb := r.op.write? && (match slot with
    | some i => s.home.act.any (fun a => a.snoopKey == r.line && a.snoops.any (fun n => n.dest == .slot i && n.sent))
        || s.home.owed.any (fun o => o.key == r.line && o.snoops.any (fun n => n.dest == .slot i && n.sent))
    | none => false)
  if isWb then s.takeWriteback r (slot.getD 0)
  else
    let mine := (s.home.wait.filter (fun q => q.line == r.line)).length
    let full := decide (64 ≤ mine) || decide (65536 ≤ s.home.wait.length) || s.home.stall.any (fun q => q.src.port == r.src.port)
    if full then
      ({ s with home := { s.home with stall := s.home.stall ++ [r] } }.raise Reg.COH_STATUS.QUEUE_FULL).count 5 7 1
    else { s with home := { s.home with wait := s.home.wait ++ [r] } }

/-! ### Snoops answered (R262, R273, R276) -/

/-- The answer to another home's snoop once its local snoops are answered: to INV and SNP_S an SNP_RSP, to a forward the
DATA and FWD_ACK (R271, R273, R275). -/
def State.finishOwed (s : State) (o : Owed) : State :=
  let k := o.key
  let home := keyNode k
  let e := s.dirGet k
  let s := { s with home := { s.home with owed := ldrop (fun x => x == o) s.home.owed } }
  let cached := match s.findWay home (keyTile k) with
    | some w => if ((s.way home (keyTile k) w).valid &&& lbit (k % 4)) != 0 then some ((s.way home (keyTile k) w).data.line (k % 4)) else none
    | none => none
  let toI := fun (s : State) => (s.dirPut k { e with state := 0, sharers := 0 }).dropVisitor k
  let toS := fun (s : State) =>
    let s := s.dirPut k { e with state := min 1 e.state }
    match o.data with
    | some d => if cached.isSome then s.fillVisitor k d false else s
    | none => s
  let line := keyL k
  match o.opc with
  | 0x10 => (toI s).coh 0x22 home 0 o.tid line 0 false false false o.data 0 0
  | 0xFD => toI s
  | 0xFE =>
    let s := toI s
    if s.home.owed.any (fun o => o.opc == 0xFE) then s
    else
      let src := s.cache.visSrc
      { s with cache := { s.cache with visSrc := none } }.respondTo src kOk (s.getF Reg.LC_WAYS.WAYS_NOW) []
  | 0x11 => (toS s).coh 0x22 home 0 o.tid line (min 1 e.state) false false false o.data 0 0
  | opc =>
    match o.data.orElse (fun _ => if e.state = 0 then none else cached) with
    | none => (toI s).coh 0x23 home o.aux o.tid line 0 false false true none 0 0
    | some d =>
      let dirty := o.data.isSome
      if opc = 0x12 then
        let s := s.coh 0x20 o.aux home o.tid line 1 false dirty false (some d) 0 0
        (toS s).coh 0x23 home o.aux o.tid line 1 false false false o.data 0 0
      else
        let s := s.coh 0x20 o.aux home o.tid line 2 false dirty false (some d) 0 0
        (toI s).coh 0x23 home o.aux o.tid line 0 false false false o.data 0 0

/-- A snoop of a party is answered: `gotS` says that a downgraded party kept S (R260, R262). -/
def State.snoopAnswered (s : State) (dest : SnoopTo) (isIt : Snoop → Bool) (gotS : Bool) : State :=
  match s.home.act.find? (fun a => a.snoops.any (fun n => n.dest == dest && isIt n)) with
  | some a =>
    let k := a.snoopKey
    let e := s.dirGet k
    let s := s.dirPut k (if gotS then e.share dest else e.drop dest)
    let s := if gotS then s else s.count 5 2 1
    let s := s.modAct a.id (fun a => { a with snoops := ldrop (fun n => n.dest == dest && isIt n) a.snoops })
    s.snoopsDone a.id
  | none =>
    match s.home.owed.find? (fun o => o.snoops.any (fun n => n.dest == dest && isIt n)) with
    | some o =>
      let e := s.dirGet o.key
      let s := s.dirPut o.key (if gotS then e.share dest else e.drop dest)
      let s := if gotS then s else s.count 5 2 1
      let o' := { o with snoops := ldrop (fun n => n.dest == dest && isIt n) o.snoops }
      let s := { s with home := { s.home with owed := lupd (fun x => x == o) (fun _ => o') s.home.owed } }
      if o'.snoops.isEmpty then s.finishOwed o' else s
    | none => s

/-! ### Host requests arrive (R229, R234, R261) -/

/-- The first unmapped request of a port in a slot writes a warning event with the address (R234). -/
def State.unmapped (s : State) (h ld hpa : Nat) : State :=
  let s := (s.count (h / 2) 6 1).modLd ld (fun l => { l with unmapped := l.unmapped + 1 })
  if s.host.unmTold.contains (h / 2) then s
  else
    let s := { s with host := { s.host with unmTold := (h / 2) :: s.host.unmTold } }
    s.event { mkEv .warning (h / 2) (h / 2) .refused with addr := hpa } (some ld)

/-- Is a head's link up, so that requests can arrive? -/
def State.headUp (s : State) (h : Nat) : Bool := s.flag (Reg.HP_HEAD_STAT.LINK_UP h)

/-- A host request arrives at a head: LD, decode, then the home; an unmapped read returns poison and an unmapped write
completes unstored (R229, R234, R251, R299, R331). After an IDE failure traffic waits for a fresh key (R242). -/
def State.hostRequest (s : State) (h ldId tag hpa : Nat) (op : ReqOp) (kind : Nat) (meta_ : MetaValue) (data : Line)
    (mask : BitVec 64) (poison : Bool) : State :=
  if !s.headUp h || (mget {} s.host.heads h).ideNeeded then s
  else
    let w := op.write?
    let s := s.count (h / 2) (if w then 3 else 2) 1
    let s := if w && poison then s.count (h / 2) 5 1 else s
    let s := if w then
        { s with host := { s.host with heads := mmod {} s.host.heads h (fun x => { x with rwdOut := x.rwdOut - 1 }) } }
      else s
    match s.headLd h ldId with
    | none =>
      (s.unmapped h 64 hpa).emit (.s2m h (64 + ldId) tag .cmp none (!w))
    | some ld =>
      if s.keys.wipeFilled then s.emit (.s2m h ld tag .cmp none (!w))
      else
      let s := s.modLd ld (fun l => if w then { l with wrReq := l.wrReq + 1 } else { l with rdReq := l.rdReq + 1 })
      let s := if w then s.countWrite h ld (if mask = BitVec.allOnes 64 then 64 else
          ((List.range 64).filter (fun b => mask.getLsbD b)).length) else s
      let key := (s.hpaToDpa ld hpa).bind (s.dpaKey ld)
      let key := match key with
        | some k => if w && decide (k < 2 ^ 39) && s.mirrorCopy (ltnSeg (keyTile k)) then none else some k
        | none => none
      match key with
      | none =>
        let s := s.unmapped h ld hpa
        let s := s.emit (.s2m h ld tag .cmp none (!w))
        if w then s else s.countRead h ld 64 true
      | some k =>
        let db := s.isDb ld
        let op := if db then op else match op with
          | .rdS | .rdA => .rdI
          | .invA => .invI
          | .wrS => .wrI
          | o => o
        let (smp, s) := s.sampleDraw ld
        let r : HReq := { src := if kind = 3 then .own ld else .host h ld tag, op := op, line := k, data := data, mask := mask, poison := poison,
                          kind := kind, meta_ := metaCode meta_, at_ := s.ft, credit := w, sampled := smp }
        (s.submit r).pump

end Sys2Proof.Machine
end

