-- ==== Sys2Proof/Machine/Home.lean ====
section
/-!
DEFINITION. The commands of the host ports and of back-invalidate at the coherence home (spec/09, spec/10).
-/

namespace Sys2Proof.Machine

/-- The KIND code of a request (R496). -/
def kindCode : ReqKind → Nat
  | .memRd => 0 | .memRdData => 1 | .memInv => 2 | .memInvNT => 2 | .memSpecRd => 3

/-- MEMRD (R261). -/
def execMemrd (h : HeadNo) (q : M2SReq) (s : State) : Res :=
  let op := match q.meta_ with | .s => ReqOp.rdS | .a => .rdA | .i => .rdI | .none => .rdI
  .next (s.hostRequest h.val q.ldId.val q.tag.toNat q.hpa.toNat op (kindCode q.kind) q.meta_ 0 0 false)

/-- MEMINV (R261): MetaValue A, or I; any other MetaValue is taken as I. -/
def execMeminv (h : HeadNo) (q : M2SReq) (s : State) : Res :=
  let op := match q.meta_ with | .a => ReqOp.invA | .s => .invI | .i => .invI | .none => .invI
  .next (s.hostRequest h.val q.ldId.val q.tag.toNat q.hpa.toNat op 2 q.meta_ 0 0 false)

/-- The write form of a MetaValue (R261): S keeps S; A is not in the table and is taken as S. -/
def writeOp : MetaValue → ReqOp
  | .s => .wrS | .a => .wrS | .i => .wrI | .none => .wrI

/-- MEMWR (R77, R237). -/
def execMemwr (h : HeadNo) (w : M2SRwD) (s : State) : Res :=
  .next (s.hostRequest h.val w.ldId.val w.tag.toNat w.hpa.toNat (writeOp w.meta_) 4 w.meta_ w.data (BitVec.allOnes 64) w.poison)

/-- MEMWRPTL (R77, R237). -/
def execMemwrptl (h : HeadNo) (w : M2SRwD) (mask : BitVec 64) (s : State) : Res :=
  .next (s.hostRequest h.val w.ldId.val w.tag.toNat w.hpa.toNat (writeOp w.meta_) 5 w.meta_ w.data mask w.poison)

/-- The party a head's BISnp with a tag was sent to, and whether it was invalidating. -/
def State.snoopOf (s : State) (h tag : Nat) : Option Snoop :=
  (s.home.act.flatMap (·.snoops) ++ s.home.owed.flatMap (·.snoops)).find? (fun n =>
    n.sent && n.head == h && n.tag == tag && (match n.dest with | .slot _ => true | .peer _ => false))

/-- BIRSP (R262): BIRspI clears the LD's bit, BIRspS to a BISnpData keeps S, anything else is logged and taken as
BIRspI. -/
def execBirsp (h : HeadNo) (biTag : Fin 64) (rsp : BiRsp) (s : State) : Res :=
  match s.snoopOf h.val biTag.val with
  | none => .next s
  | some n =>
    let gotS := rsp == .s && !n.inv
    let s := if rsp = .i ∨ gotS then s else s.event { mkEv .warning 5 h.val .protocol with detail := [biTag.val] } none
    let s := s.histogram h.val 6 (s.ft - n.at_)
    .next ((s.snoopAnswered n.dest (fun m => m.sent && m.head == h.val && m.tag == biTag.val) gotS).pump)

/-- BICONFLICT (R265): the ack leaves at once, or behind the answer owed for an admitted request of the LD to the line. -/
def execBiconflict (h : HeadNo) (ldId : Fin 16) (line : BitVec 39) (s : State) : Res :=
  match s.headLd h.val ldId.val with
  | none => .next s
  | some ld =>
    let s := s.count 5 1 1
    let owes := s.home.act.any (fun a => a.req.line == line.toNat && !a.answered
      && (match a.req.src with | .host _ l _ => l == ld | _ => false))
    if owes then .next { s with home := { s.home with conflicts := s.home.conflicts ++ [(ld, line.toNat)] } }
    else .next (s.emit (.s2m h.val ld 0 .conflictAck none false))

/-- The lowest free BI slot given to an LD (R257). -/
def State.takeSlot (s : State) (ld : Nat) : State :=
  match (List.range 32).find? (fun i => !s.flag (Reg.COH_SLOT.VALID i) && !s.flag (Reg.COH_SLOT.PURGING i)) with
  | some i => (s.setF (Reg.COH_SLOT.LD i) ld).raise (Reg.COH_SLOT.VALID i)
  | none => s

/-- A directory entry without the bit of a purged slot (R257). -/
def DirEntry.purge (e : DirEntry) (i : Nat) : DirEntry :=
  let m := e.sharers &&& ~~~(1#32 <<< i)
  if !e.proxy ∧ m = 0 ∧ e.state ≠ 3 ∧ (e.state = 2 ∨ e.ext = 0) then {}
  else { e with sharers := m, state := if e.proxy ∧ e.state = 3 ∧ m = 0 then 2 else e.state }

/-- The slot's bit is clear in every entry (R257). -/
def State.purgeDir (s : State) (i : Nat) : State :=
  let dir := s.home.dir.foldl (fun d (k, es) => mset (List.replicate 8 {}) d k (es.map (·.purge i))) s.home.dir
  { s with home := { s.home with dir := dir } }

/-- The slot is free (R256, R257). -/
def State.dirSlotFree (s : State) (i : Nat) : State :=
  let s := ((s.setF (Reg.COH_SLOT.PURGING i) 0).setF (Reg.COH_SLOT.VALID i) 0).setF (Reg.COH_SLOT.LD i) 0
  s.setFlag Reg.COH_STATUS.PURGING ((List.range 32).any (fun j => s.flag (Reg.COH_SLOT.PURGING j)))

/-- The LD that waits longest for a slot takes one (R256). -/
def State.dirSlotNext (s : State) : State :=
  match s.home.slotWait with
  | l :: rest => { s with home := { s.home with slotWait := rest } }.takeSlot l
  | [] => s

/-- SLOT_PURGE_END (R257): the slot's bit is clear in every entry, the slot is free, and an LD that waits takes one. -/
def execSlotPurgeEnd (slot : Fin 32) (s : State) : Res :=
  if !s.flag (Reg.COH_SLOT.PURGING slot.val) then .next s
  else .next (((s.purgeDir slot.val).dirSlotFree slot.val).dirSlotNext).pump

/-! ### Write credit (R84, R139, R286) -/

/-- Write credits granted by every head and not yet used, and writes that used theirs and wait for admission (R84, R139). -/
def State.creditsOut (s : State) : Nat :=
  (s.host.heads.map (fun (_, h) => h.rwdOut)).sum
    + ((s.home.wait ++ s.home.stall).filter (fun r => r.op.write? && decide (r.line < 2 ^ 39))).length

/-- 16-byte units of a WR frame (R283, R285). -/
def wrUnits : Nat := 7

/-- Writes that the VC0 credit held by the peers of the links can still bring: the Dorosh equivalent of write credits (R84, R286). -/
def State.linkCredits (s : State) : Nat :=
  ((List.range 8).map (fun k => if s.linkUp k then (vcCap 0 - (s.link k).withheld - vcGet (s.link k).owe 0) / wrUnits else 0)).sum

/-- Writes admitted that are not yet placed, and placed ones that keep their credit for the mirror's confirmation (R84, R124). -/
def State.openWrites (s : State) : Nat :=
  (s.home.act.filter (fun a => a.req.op.write? && !a.answered && decide (a.req.line < 2 ^ 39)
    && (a.phase != .placed || a.wantMirror))).length

/-- Write-through writes admitted and not yet completed (R139, R143). -/
def State.wtPending (s : State) : Nat := (s.home.act.filter (fun a => a.thru && !a.answered)).length

/-- WT_INFLIGHT in force (R143). -/
def State.wtInflight (s : State) : Nat :=
  let v := s.getF Reg.WP_CONFIG.WT_INFLIGHT
  if 256 ≤ v ∧ v ≤ 4095 then v else 4095

/-- Writes for which credit may still be granted, under the budget or under WT_INFLIGHT (R84, R139). -/
def State.writeRoom (s : State) : Nat :=
  if s.writeThrough then s.wtInflight - (s.wtPending + s.creditsOut)
  else s.budget - (s.charge + s.creditsOut + s.linkCredits + s.openWrites)

/-- Is there room for one write more (R84, R139)? -/
def State.creditRoom (s : State) : Bool := s.keys.wipeFilled || decide (0 < s.writeRoom)

/-- Does a head or link withhold credit for another reason: a full miss-wait buffer or overflow queue (R74), a request
stalled at its input (R251), a drydown from its cut (R122, R360), no Memory_Active (R374)? After a wipe's fill credit is
granted again (R220). -/
def State.creditHeld (s : State) (port : Nat) : Bool :=
  !s.keys.wipeFilled && (!s.host.memActive || s.keys.wiped || decide (2 ≤ s.getF Reg.DRY_STAT.PHASE))
    || decide (64 ≤ (s.cache.missWait.filter (fun w => w.head == port && !w.overflow)).length)
    || decide (512 ≤ (s.cache.missWait.filter (fun w => w.overflow)).length)
    || s.home.stall.any (fun r => r.src.port == port)

/-- WRITE_CREDIT_GRANT (R84, R139, R228, R286): one credit leaves when there is room; otherwise it stays withheld. -/
def execWriteCreditGrant (port : CreditPort) (s : State) : Res :=
  match port with
  | .head h =>
    let x := mget {} s.host.heads h.val
    if !s.headUp h.val || 256 ≤ x.rwdOut || s.creditHeld h.val then .next s
    else if s.creditRoom then
      let s := if x.withheld then s.count 4 7 1 else s
      .next ({ s with host := { s.host with
        heads := mset {} s.host.heads h.val { x with rwdOut := x.rwdOut + 1, withheld := false } } }.emit (.credit h.val))
    else .next { s with host := { s.host with heads := mset {} s.host.heads h.val { x with withheld := true } } }
  | .link k =>
    if s.getF (Reg.DF_LINK.STATE k.val) ≠ 3 || s.creditHeld (8 + k.val) || !s.creditRoom then .next s
    else
      -- as much of the withheld credit as the writes that it could bring have room for
      let n := if s.keys.wipeFilled then (s.link k.val).withheld else min (s.link k.val).withheld (wrUnits * s.writeRoom)
      let s := s.modLink k.val (fun l => { l with owe := vcSet l.owe 0 (vcGet l.owe 0 + n), withheld := l.withheld - n })
      .next (s.sendNull k.val)

end Sys2Proof.Machine
end

