-- ==== Sys2Proof/Machine/RegOps.lean ====
section
/-!
DEFINITION. How the register arbiter writes a word of BAR2's control window (spec/18): access types (spec/00, R9 and
R10), locks and arming, staging, and persistent registers. What a write triggers besides stands in
Machine/Registers.lean.
-/

namespace Sys2Proof.Machine

/-- The bits of a word whose access type satisfies `p`. -/
def RegDef.mask (r : RegDef) (p : Access → Bool) : Nat :=
  r.fields.foldl (fun a f => if p f.acc then a ||| ((2 ^ f.width - 1) * 2 ^ f.lsb) else a) 0

/-- The bits of a window word of one access type; none for a word no chapter defines (R438). -/
def accMask (off : Nat) (p : Access → Bool) : Nat :=
  match regDef off with
  | some r => r.mask p
  | none => 0

/-- Is the word buffered (R449)? -/
def bufferedWord (off : Nat) : Bool :=
  match regDef off with
  | some r => r.buffered
  | none => false

/-- `x` with the bits of a mask taken from `v`. -/
def setMask (x m v : Nat) : Nat := (x - (x &&& m)) ||| (v &&& m)

/-- The number of a requester. -/
def reqNo : Requester → Nat
  | .ld n => n.val
  | .mgmt => 64
  | .kelric => 65

/-- The register space changed. -/
def State.modRegs (s : State) (f : RegsSt → RegsSt) : State := { s with regs := f s.regs }

/-! ### Persistent registers (R451) -/

/-- The register a persistent word belongs to: the two 64-bit ones are named by their low word. -/
def rwpReg (off : Nat) : Nat := if off = 0x1200C then 0x12008 else if off = 0x1014 then 0x1010 else off

/-- Is the word one of PWR_RAIL (R367)? -/
def isRail (off : Nat) : Bool := decide (0xE0100 ≤ off) && decide (off < 0xE0160)

/-- Does the register hold RWP fields, or is it a PWR_RAIL word (R452 IS_RWP)? -/
def isRwp (off : Nat) : Bool := accMask off (· == .rwp) != 0 || isRail off

/-- Writes counted (R451). -/
def State.rwpCount (s : State) (off : Nat) : Nat := mget 0 s.regs.writes (rwpReg off)

/-- Is the register frozen (R451)? -/
def State.frozen (s : State) (off : Nat) : Bool := decide (6000000 ≤ s.rwpCount off)

/-- A write reaches a persistent register: it is stored, counts one write, and takes effect when the store completes; a
frozen register ignores it (R451). -/
def State.rwpWrite (s : State) (off mask val : Nat) (src : Option CmdSrc) (res : Nat := 0) (more : List (Nat × Nat × Nat) := []) :
    State :=
  if s.frozen off then s.raise Reg.REG_STATUS.FROZEN_WR
  else
    let n := s.rwpCount off + 1
    let s := s.modRegs (fun r =>
      { r with writes := mset 0 r.writes (rwpReg off) n, stores := r.stores ++ [{ off := off, mask := mask, val := val, src := src, res := res, more := more }] })
    if n = 5400000 then s.event { mkEv .warning 13 0 .limit with detail := [off] } none else s

/-! ### The rings of persistent registers (R479, R481, R482)

Which ring belongs to which register is not stated: ring n is the n-th of the registers below, in the order of their offsets (DESIGN
CHOICE, log 91). -/

/-- The persistent registers and the PWR_RAIL words, in the order of their offsets. -/
def ringRegs : List Nat :=
  let run := fun (base n step : Nat) => (List.range n).map (fun i => base + step * i)
  [0x1000, 0x1010, 0x3000, 0x12008, 0x14E10, 0x14E18, 0x20000] ++ run 0x20100 16 8 ++ [0x40004] ++ run 0x40100 64 4
    ++ [0x50000, 0x60000, 0x70000, 0x70004, 0x70008, 0x80000, 0x80010, 0x90000] ++ run 0xA0000 4 4 ++ run 0xA0100 64 4
    ++ [0xB0000, 0xC0000, 0xD0010] ++ run 0xD0100 24 4 ++ [0xD0390, 0xE0000, 0xE0010, 0xE0014, 0xE0030] ++ run 0xE0080 5 4 ++ run 0xE0100 24 4

/-- The ring of a persistent register. -/
def ringOf (off : Nat) : Nat := ringRegs.idxOf (rwpReg off)

/-- The newest valid record of a ring: its VALUE and SEQ (R482). -/
def State.ringNewest (s : State) (r : Nat) : Option (Nat × Nat) :=
  let l := ((List.range 64).map (fun n => mget 0 s.weali.rings (64 * r + n))).filter (ringValid r)
  (l.map (fun x => (bitsOf x 0 64, bitsOf x 64 32))).foldl (fun b x => match b with
    | none => some x
    | some y => if y.2 < x.2 then some x else some y) none

/-- A persistent register's value at first format. -/
def firstValue (off : Nat) : Nat := resetWord off + (if rwpReg (off + 4) = off then resetWord (off + 4) * 2 ^ 32 else 0)

/-- The value and count a register's ring gives: those of its newest valid record, or the value at first format and no write. -/
def State.ringValue (s : State) (off : Nat) : Nat × Nat := (s.ringNewest (ringOf off)).getD (firstValue (rwpReg off), 0)

/-- The record of a store that has completed is written into the next slot of its register's ring (R481). -/
def State.ringPut (s : State) (x : RwpStore) : State :=
  let r := ringOf x.off
  let later := (s.regs.stores.filter (fun y => rwpReg y.off == rwpReg x.off && !y.ready)).length
  let seq := s.rwpCount x.off - later
  let k := 2 ^ (8 * (x.off - rwpReg x.off))
  let rec_ := ringRecord r (setMask (s.ringValue x.off).1 (k * x.mask) (k * x.val)) seq
  { s with weali := { s.weali with rings := mset 0 s.weali.rings (64 * r + seq % 64) rec_ } }

/-- A register's persistent bits stand as its ring gives them, with the count of its writes (R482). -/
def State.ringTake (s : State) (off : Nat) : State :=
  let reg := rwpReg off
  let (v, n) := s.ringValue reg
  let put := fun (s : State) (o w : Nat) => s.setWord o (setMask (s.word o) (accMask o (fun a => a == .rwp || a == .rwl)) w)
  let s := put s reg (v % 2 ^ 32)
  let s := if rwpReg (reg + 4) = reg then put s (reg + 4) (v / 2 ^ 32) else s
  s.modRegs (fun r => { r with writes := mset 0 r.writes reg n })

/-- Records whose words cannot be read: their rings fall back on the newest record left; a ring with none takes the value at first format,
with RING_EMPTY and a warning (R482). -/
def State.ringLost (s : State) (keys : List Nat) : State :=
  keys.foldl (fun (s : State) k =>
    if mget 0 s.weali.rings k = 0 then s
    else
      let r := k / 64
      let was := s.ringNewest r
      -- the cell's content is not a record any more: a word that no CRC matches
      let s := ({ s with weali := { s.weali with rings := mset 0 s.weali.rings k 1 } } : State).count 16 5 1
      if s.ringNewest r == was then s
      else
        let s := s.ringTake (ringRegs.getD r 0)
        if (s.ringNewest r).isSome then s
        else (s.raise Reg.WEALI_STAT.RING_EMPTY).event
          ({ mkEv .warning 16 1 .fault with detail := [ringRegs.getD r 0] }.stat Reg.WEALI_STAT.RING_EMPTY) none) s

/-- Stores that the loss of the store's supply interrupted had not taken effect: the previous records stand (R451, R482). -/
def State.storesCut (s : State) (l : List RwpStore) : State :=
  let s := s.modRegs (fun r => { r with stores := [] })
  let left := l.filter (fun x => !x.ready)
  let s := left.foldl (fun (s : State) x =>
    s.modRegs (fun r => { r with writes := mmod 0 r.writes (rwpReg x.off) (· - 1) })) s
  let s := (l.map (fun x => rwpReg x.off)).eraseDups.foldl (fun (s : State) off =>
    let n := s.rwpCount off
    if isRail off then s else (s.ringTake off).modRegs (fun r => { r with writes := mset 0 r.writes off n })) s
  s.count 16 5 left.length

/-! ### Locks (R447, R448) -/

/-- Are the guarded fields of the word locked (R447)? -/
def State.lockedWord (s : State) (off : Nat) : Bool :=
  if isRail off then s.flag Reg.REG_LOCK.PWR_LOCK else s.flag Reg.REG_LOCK.KEY_LOCK

/-- The write of an armed requester ends its arming; answers whether it was armed (R448). -/
def State.useArm (s : State) (req : Nat) : Bool × State :=
  (s.regs.armed.contains req, s.modRegs (fun r => { r with armed := r.armed.filter (· != req) }))

/-! ### A word written (R9, R443, R444, R449) -/

/-- The staged value of a word, or the value in force (R444). -/
def State.stagedWord (s : State) (off : Nat) : Nat := (mget none s.regs.staged off).getD (s.word off)

/-- A write of the bits `bits` of a word: RW1C, RW1S, then the RW, RWP and unlocked RWL bits, staged in a buffered
register. A PWR_RAIL word is stored and takes effect at the next power-up (R367). LD_KEY KEYIDX is left to its own
command (R211). -/
def State.wordWrite (s : State) (off val bits : Nat) (free : Bool) : State :=
  let m := fun (a : Access) => accMask off (· == a) &&& bits
  let cur := s.word off
  let cur := cur - (cur &&& (val &&& m .rw1c))
  let s := s.setWord off (cur ||| (val &&& m .rw1s))
  let rwl := if s.lockedWord off && !free then 0 else m .rwl
  if bufferedWord off then
    let k := m .rw ||| m .rwp
    if k = 0 then s
    else s.modRegs (fun r => { r with staged := mset none r.staged off (some (setMask (s.stagedWord off) k val)) })
  else
    let s := s.setWord off (setMask (s.word off) (m .rw) val)
    let s := if m .rwp = 0 then s else s.rwpWrite off (m .rwp) val none
    if isRail off && rwl != 0 then s.rwpWrite off rwl val none else s

/-- Bits of a defined word that are RSV and would change (R10). -/
def State.rsvClash (s : State) (off val : Nat) : Bool :=
  (val &&& accMask off (· == .rsv)) != (mget 0 s.rsv off &&& accMask off (· == .rsv))

/-! ### Staged blocks (R450) -/

/-- The staged words of the blocks in a mask. -/
def State.stagedIn (s : State) (mask : Nat) : List (Nat × Nat) :=
  s.regs.staged.filterMap (fun (off, v) => if bitAt mask (off / 65536) then v.map (fun x => (off, x)) else none)

/-- The staging of the blocks in a mask is emptied. -/
def State.dropStaged (s : State) (mask : Nat) : State :=
  s.modRegs (fun r => { r with staged := r.staged.filter (fun (off, _) => !bitAt mask (off / 65536)) })

/-- Blocks with something staged (R452 STAGED). -/
def State.stagedBlocks (s : State) : Nat :=
  s.regs.staged.foldl (fun a (off, _) => a ||| 2 ^ (off / 65536)) 0

/-- A command whose fields are written completes at once when no store of its own is under way, otherwise with the last
of them (R416). -/
def State.cmdStored (s : State) (src : CmdSrc) (result : Nat) (data : List Byte) : State :=
  if s.regs.stores.any (fun r => r.src == some src) then s else s.done src result data

end Sys2Proof.Machine
end

