-- ==== Sys2Proof/Machine/CacheJobs.lean ====
section
/-!
DEFINITION. The line cache's work that outlasts a request (spec/03): the cleaner (R85), range jobs (R86, R87), an LD's
disable sequence (R88 to R90), changes of the ways (R91) and the visitor partition's power-down.
-/

namespace Sys2Proof.Machine

/-- The cache changed. -/
def State.modCache (s : State) (f : Cache → Cache) : State := { s with cache := f s.cache }

/-- Set bits of a line mask. -/
def bits4 (m : BitVec 4) : Nat := ([0, 1, 2, 3].filter (fun l => m.getLsbD l)).length

/-! ### Writes that waited for a program (R140) -/

/-- Does a line of a home tile still stand undone: dirty in its way or mash slot, or held by a program? -/
def State.lineUndone (s : State) (ltn l : Nat) : Bool :=
  (s.cset 0xFFF ltn).ways.any (fun w => w.holds 0xFFF ltn && (w.dirty &&& lbit l) != 0 && !(w.pin && w.spilled))
    || s.cache.mash.any (fun m => m.ltn == ltn && (m.valid &&& lbit l) != 0)
    || s.progs.list.any (fun p => p.ltn == ltn && !p.why.reserve? && p.raw.isNone && (p.dirty &&& lbit l) != 0)
    || s.progs.list.any (fun p => (p.why == .pinSpill || p.why == .pinIndex) && p.job == ltn)

/-- Writes to a tile whose program has ended complete (R140). -/
def State.settleWrites (s : State) (ltn : Nat) : State :=
  (s.home.act.filter (fun a => a.wantProg && keyNode a.req.line == 0xFFF && keyTile a.req.line == ltn)).foldl (fun s a =>
    if s.lineUndone ltn (a.req.line % 4) then s
    else
      let s := s.modAct a.id (fun a => { a with wantProg := false })
      s.writeDone a.id (s.writeGrant a.req)) s

/-! ### The cleaner (R85) -/

/-- CLEAN_HI in force (R94). -/
def State.cleanHi (s : State) : Nat :=
  let v := s.getF Reg.LC_CONFIG.CLEAN_HI
  if 1 ≤ v ∧ v ≤ 100 then v else 50

/-- CLEAN_LO in force: always below CLEAN_HI (R94). -/
def State.cleanLo (s : State) : Nat :=
  let v := s.getF Reg.LC_CONFIG.CLEAN_LO
  if v < s.cleanHi then v else s.cleanHi - 10

/-- The dirty tiles of a set programmed in victim order (R85); `n` bounds the tiles. -/
def State.cleanSet (s : State) (ltn cls : Nat) : Nat → State
  | 0 => s
  | n + 1 =>
    let c := s.cset 0xFFF ltn
    let ok := fun w => let y := c.ways.getD w {}; y.valid != 0 && y.dirty != 0 && !y.evq && !y.pin
    match victimOf c.tree s.allocWays ok (fun _ => false) with
    | some w => (s.cleanWay ltn w cls).cleanSet ltn cls n
    | none => s

/-- The cleaner's walk from its cursor over the host sets, wrapping at the last (R85). It waits for no program, so it goes
round once; the cursor then stands behind the last set in which it sent one (DESIGN CHOICE, log entry 23). -/
def State.cleanWalk (s : State) : State :=
  let sets := s.cache.sets.map (·.1)
  let order := sets.filter (fun i => decide (s.cache.cleanAt ≤ i)) ++ sets.filter (fun i => decide (i < s.cache.cleanAt))
  order.foldl (fun (s : State) i =>
    let some' := (s.cset 0xFFF i).ways.any (fun y => y.valid != 0 && y.dirty != 0 && !y.evq && !y.pin)
    if some' then (s.cleanSet i s.evictClass 16).modCache (fun c => { c with cleanAt := i + 1 }) else s) s

/-- Write-through comes into force: the programs of the existing charge that wait go to class 2, incomplete mash slots are spilled,
and every dirty tile is cleaned (R85, R139). -/
def State.throughStart (s : State) : State :=
  let up := fun (p : Prog) =>
    if (p.why == .evict || p.why == .clean || p.why == .mash) && !p.granted then { p with cls := min p.cls 2 } else p
  let s : State := { s with progs := { s.progs with list := s.progs.list.map up } }
  let s := (s.cache.mash.filter (fun m => m.valid != 15)).foldl (fun (s : State) m => (s.spillMash m).getD s) s
  (s.noteFlag 3).cleanWalk

/-! ### Tiles in a scope -/

/-- Home tiles the cache path holds: in ways, in the mash buffer, in staging, or by a miss register (R86, R87). -/
def State.heldTiles (s : State) : List Nat :=
  (s.hostWays.map (·.1) ++ s.cache.mash.map (·.ltn)
    ++ (s.progs.list.filter (fun p => p.why == .evict || p.why == .through)).map (·.ltn)
    ++ s.reads.regs.filterMap (fun r => match r.key with | .logical l => some l.toNat | .physical _ _ => none)).eraseDups

/-- Has a tile a program of the cache path waiting or in flight? -/
def State.progOf (s : State) (ltn : Nat) : Bool :=
  s.progs.list.any (fun p => p.ltn == ltn && (p.why == .evict || p.why == .clean || p.why == .mash || p.why == .through))

/-- Is a tile dirty in a way or held in the mash buffer? -/
def State.tileDirty (s : State) (ltn : Nat) : Bool :=
  (s.cset 0xFFF ltn).ways.any (fun w => w.holds 0xFFF ltn && w.dirty != 0) || (s.mashOf ltn).isSome

/-- A tile is cleaned: its mash slot spilled first, its dirty way sent (R87). -/
def State.cleanTile (s : State) (ltn : Nat) : State :=
  let s := match s.mashOf ltn with
    | some m => if m.prog then s else (s.spillMash m).getD s
    | none => s
  match (s.cset 0xFFF ltn).ways.findIdx? (fun w => w.holds 0xFFF ltn) with
  | some w => s.cleanWay ltn w s.evictClass
  | none => s

/-- Dirty sectors a drop of the tile discards (R87 DROPPED). -/
def State.dirtySectors (s : State) (ltn : Nat) : Nat :=
  ((s.cset 0xFFF ltn).ways.map (fun w => if w.holds 0xFFF ltn then bits4 w.dirty else 0)).sum
    + (match s.mashOf ltn with | some m => bits4 m.valid | none => 0)
    + ((s.progs.list.filter (fun p => p.ltn == ltn && (p.why == .evict || p.why == .through) && p.phase != .wave && p.phase != .paused)).map
        (fun p => bits4 p.dirty)).sum

/-! ### The range engine (R86, R87) -/

/-- The tiles of a job's scope that the cache path holds: an LD's, or those of its range; in ascending order. -/
def State.rangeTiles (s : State) (j : RangeJob) : List Nat :=
  s.heldTiles.filter (fun t => if j.scopeLd then s.tileLd t == some j.ld else j.tiles.any (fun (f, n) => decide (f ≤ t) && decide (t < f + n)))

/-- The job at work, the first. -/
def State.modJob (s : State) (f : RangeJob → RangeJob) : State :=
  s.modCache (fun c => { c with jobs := match c.jobs with | [] => [] | j :: r => f j :: r })

/-- A tile is treated by a job as the walk reaches it (R87). -/
def State.rangeTreat (s : State) (j : RangeJob) (ltn : Nat) : State :=
  if (s.regOf (.logical (BitVec.ofNat 37 ltn))).isSome then s.modJob (fun j => { j with late := j.late ++ [ltn] })
  else match j.op with
    | .invalidate =>
      let n := s.dirtySectors ltn
      let s := (s.dropTile ltn).settleWrites ltn
      let s := s.setF Reg.LC_RANGE_DROPPED.DROPPED ((s.getF Reg.LC_RANGE_DROPPED.DROPPED + n) % 2 ^ 32)
      s.modJob (fun j => { j with dropped := (j.dropped + n) % 2 ^ 32 })
    | op =>
      let s := s.cleanTile ltn
      if s.progOf ltn || (op == .flush && s.tileDirty ltn) then s.modJob (fun j => { j with left := j.left ++ [ltn] })
      else if op == .flush then s.dropTile ltn
      else s

/-- The first job starts when none runs (R86). -/
def State.rangeStart (s : State) : State :=
  match s.cache.jobs with
  | j :: _ =>
    if j.started then s
    else
      let inv := j.scopeLd && j.op != .clean && s.lookupOff j.ld
      let s := s.modJob (fun j => { j with started := true, invDone := inv })
      (s.rangeTiles j).foldl (fun s t => s.rangeTreat j t) s
  | [] => s

/-- A job is held; it starts at once when no other is (R86). -/
def State.rangeQueue (s : State) (j : RangeJob) : State :=
  (s.modCache (fun c => { c with jobs := c.jobs ++ [j] })).rangeStart

/-- A program of a tile has ended, or its register has retired: the job at work sees the tile again (R87). -/
def State.rangeSeen (s : State) (ltn : Nat) : State :=
  match s.cache.jobs with
  | j :: _ =>
    if !j.started then s
    else if j.late.contains ltn then
      if (s.regOf (.logical (BitVec.ofNat 37 ltn))).isSome then s
      else (s.modJob (fun j => { j with late := j.late.filter (· != ltn) })).rangeTreat j ltn
    else if j.left.contains ltn && !s.progOf ltn then
      let s := s.modJob (fun j => { j with left := j.left.filter (· != ltn) })
      if j.op == .flush then s.rangeTreat j ltn else s
    else s
  | [] => s

/-- The job at work ends when nothing of its scope is left: DONE, INV_DONE if R90 owes it, the command's answer, and the
next job (R86, R87, R90). -/
def State.rangeEnd (s : State) : State :=
  match s.cache.jobs with
  | j :: r =>
    if !j.started || !j.left.isEmpty || !j.late.isEmpty then s
    else
      let s := s.modCache (fun c => { c with jobs := r })
      let s := s.raise Reg.LC_RANGE_CTRL.DONE
      let s := if j.invDone && s.lookupOff j.ld then s.raise (Reg.LC_LD_CTRL.INV_DONE j.ld) else s
      (s.respondTo j.src kOk j.dropped []).rangeStart
  | [] => s

/-! ### An LD's allocation (R88 to R90, R95) -/

/-- Is the LD's disable sequence under way (R94 DISABLING)? -/
def State.disabling (s : State) (ld : Nat) : Bool := s.cache.disabling.any (fun d => d.ld == ld)

/-- The LD's dirty tiles are cleaned; those with a program pending are what the sequence waits for (R89). -/
def State.cleanLd (s : State) (ld : Nat) : List Nat × State :=
  let ts := s.heldTiles.filter (fun t => s.tileLd t == some ld)
  let s := ts.foldl (fun s t => s.cleanTile t) s
  (ts.filter (fun t => s.progOf t), s)

/-- The disable sequence of an enabled LD starts (R89). ALLOC_EN and INV_DONE become 0. -/
def State.disableStart (s : State) (ld : Nat) (src : Option CmdSrc) : State :=
  let s := (s.setF (Reg.LC_LD_CTRL.INV_DONE ld) 0).setF (Reg.LC_LD_CTRL.ALLOC_EN ld) 0
  let (left, s) := s.cleanLd ld
  s.modCache (fun c => { c with disabling := c.disabling ++ [{ ld := ld, phase := .firstClean, left := left, src := src }] })

/-- A cleaning step of the sequence has ended: the LD's writes are held and its re-queued tiles cleaned, or lookup goes off
and the held writes are released (R89). -/
def State.disableStep (s : State) (ld : Nat) : State :=
  match s.cache.disabling.find? (fun d => d.ld == ld) with
  | none => s
  | some d =>
    if d.left.any (fun t => s.progOf t) then s
    else match d.phase with
      | .firstClean =>
        let (left, s) := s.cleanLd ld
        s.modCache (fun c => { c with disabling := lupd (fun d => d.ld == ld) (fun d => { d with phase := .holdClean, left := left }) c.disabling })
      | .holdClean =>
        -- tiles dirtied meanwhile by writes admitted before the hold are cleaned too before lookup goes off
        let (left, s) := s.cleanLd ld
        if !left.isEmpty then
          s.modCache (fun c => { c with disabling := lupd (fun d => d.ld == ld) (fun d => { d with left := left }) c.disabling })
        else
        let s := s.modCache (fun c =>
          { c with disabling := c.disabling.filter (fun d => d.ld != ld),
                   lookupOff := ld :: c.lookupOff.filter (· != ld) })
        (s.respondTo d.src kOk (s.getF Reg.LC_WAYS.WAYS_NOW) []).pump

/-- Allocation of an LD is enabled: it looks up the cache again (R88, R90). -/
def State.enableLd (s : State) (ld : Nat) : State :=
  (s.raise (Reg.LC_LD_CTRL.ALLOC_EN ld)).modCache (fun c => { c with lookupOff := c.lookupOff.filter (· != ld) })

/-! ### Way power-down (R91) -/

/-- Is a change of ways under way (R94 CHANGING)? -/
def State.waysChanging (s : State) : Bool := s.cache.wayTarget.isSome

/-- A departing way is treated: clean tiles are dropped, dirty ones programmed first, a pinned tile moved (R91). -/
def State.wayTreat (s : State) (ltn w : Nat) : State :=
  let y := s.way 0xFFF ltn w
  if y.valid = 0 ∨ y.resv then s
  else if y.pin then
    match s.takeWay 0xFFF ltn y.ld with
    | some (v, s) => (s.modWay 0xFFF ltn v (fun _ => y)).modWay 0xFFF ltn w (fun _ => {})
    | none => s
  else if y.dirty ≠ 0 then s.cleanWay ltn w s.evictClass
  else if y.evq then s
  else s.modWay 0xFFF ltn w (fun _ => {})

/-- Ways a reduction under way takes out that hold a valid entry or that a register has reserved, as (tile, way). -/
def State.departing (s : State) : List (Nat × Nat) :=
  match s.cache.wayTarget with
  | some n => if s.cache.waking then [] else
      s.cache.sets.flatMap (fun (_, c) =>
        (c.ways.zipIdx.filter (fun (y, i) => decide (n ≤ i) && (y.valid != 0 || y.resv))).map (fun (y, i) => (y.ltn, i)))
  | none => []

/-- The cleaner walks the departing ways of every set (R91 step 2). -/
def State.wayWalk (s : State) : State := s.departing.foldl (fun s (t, w) => s.wayTreat t w) s

/-- A change to an encoding of ways starts: a reduction empties the departing ways, an increase wakes their regions
(R91). -/
def State.wayStart (s : State) (enc : Nat) (src : Option CmdSrc) : State :=
  let n := waysOf enc
  if n = s.waysNow then s.respondTo src kOk (s.getF Reg.LC_WAYS.WAYS_NOW) []
  else
    let up := decide (s.waysNow < n)
    let s := s.modCache (fun c => { c with wayTarget := some n, waySrc := src, waking := up })
    if up then s else s.wayWalk

/-- WAYS_REQ asks for other ways than those in force: the change starts unless one is under way (R91). After the loss of
a stack 00b is ignored. -/
def State.wayWant (s : State) : State :=
  let e := s.getF Reg.LC_WAYS.WAYS_REQ
  if s.waysChanging || e = 3 || (e = 0 && s.avail.stackDown != 0) then s else s.wayStart e none

/-- The encoding of a number of ways (R94). -/
def waysEnc (n : Nat) : Nat := if n = 12 then 1 else if n = 8 then 2 else 0

/-- A change ends: WAYS_NOW changes, its command completes, and a request made meanwhile is taken up (R91). While a store of
WAYS_REQ is under way the command completes with that store, and what it asks for is taken up then (R12, R451). -/
def State.wayFinish (s : State) : State :=
  match s.cache.wayTarget with
  | none => s
  | some n =>
    let src := s.cache.waySrc
    let s := s.setF Reg.LC_WAYS.WAYS_NOW (waysEnc n)
    let s := s.modCache (fun c => { c with wayTarget := none, waySrc := none, waking := false })
    if s.regs.stores.any (fun x => x.off == 0x40004 && x.src.isNone) then
      let mine := fun (x : RwpStore) => x.off == 0x40004 && x.src.isNone && src.isSome
      { s with regs := { s.regs with stores := s.regs.stores.map (fun x => if mine x then { x with src := src, res := waysEnc n } else x) } }.pump
    else (s.respondTo src kOk (waysEnc n) []).wayWant.pump

/-- A program or register of a tile has ended: a departing way of it is treated again. -/
def State.waySeen (s : State) (ltn : Nat) : State :=
  (s.departing.filter (fun (t, _) => t == ltn)).foldl (fun s (t, w) => s.wayTreat t w) s

/-! ### The visitor partition (R267, R94 VISITOR_EN) -/

/-- Directory entries this node holds as proxy, as (line, entry). -/
def State.proxyEntries (s : State) : List (Nat × DirEntry) :=
  s.home.dir.flatMap (fun (i, es) =>
    (es.filter (fun e => e.proxy && e.state != 0)).map (fun e =>
      (lineKey e.ext (e.tag * 2 ^ 24 + (i ^^^ (e.ext * 4096 % 2 ^ 24))), e)))

/-- Every visitor line is returned: local holders are invalidated, entries without holders are freed, and the partition is
powered down (R267, R295). The command completes with the last answer. -/
def State.visitorOut (s : State) (src : Option CmdSrc) : State :=
  let s := s.setF Reg.LC_CONFIG.VISITOR_EN 0
  let s := s.proxyEntries.foldl (fun s (k, e) =>
    let slots := slotsOf e.sharers
    if slots.isEmpty then (s.dirPut k { e with state := 0 }).dropVisitor k
    else
      let s := s.modCache (fun c => { c with visSrc := src })
      slots.foldl (fun (s : State) i =>
        let (n, s) := s.sendSnoop k { dest := .slot i, inv := true }
        let known := s.home.owed.any (fun o => o.opc == 0xFE && o.key == k)
        let owed := if known then lupd (fun (o : Owed) => o.opc == 0xFE && o.key == k) (fun o => { o with snoops := o.snoops ++ [n] }) s.home.owed
          else s.home.owed ++ [{ key := k, opc := 0xFE, snoops := [n] }]
        { s with home := { s.home with owed := owed } }) s) s
  let s := if s.home.owed.any (fun o => o.opc == 0xFE) then s
    else s.respondTo src kOk (s.getF Reg.LC_WAYS.WAYS_NOW) []
  s.modCache (fun c => { c with vsets := [] })

end Sys2Proof.Machine
end

