-- ==== Sys2Proof/Machine/MapWork.lean ====
section
/-!
DEFINITION. The segment map's work that outlasts a command: release marking and scrubs (spec/06, R157, R171), copies
(R158 to R160), worn segments (R163 to R168), discards (R169 to R173), and re-key (spec/08, R215 to R217).
-/

namespace Sys2Proof.Machine

/-- Every program changed. -/
def State.mapProgs (s : State) (f : Prog → Prog) : State :=
  { s with progs := { s.progs with list := s.progs.list.map f } }

/-- The segment mapped to a slot, if any. -/
def State.slotOwner (s : State) (psn : Nat) : Option Nat :=
  if psn = noPsn then none else (s.map.entries.find? (fun (_, e) => e.psn == psn)).map (·.1)

/-! ### The tiles of a checkpoint and of a delta (R152, R153) -/

/-- Tiles of the map, of the program counts and of the residues: 16 entries of 128 bits, 64 counts of 32 bits, 128 residues of 16 bits to
a tile (R152: 512, 153.6 and 76.8 MiB). -/
def mapTiles : Nat := 2097152
/-- Tiles of the program counts. -/
def countTiles : Nat := 629145
/-- Tiles of the count residues. -/
def residueTiles : Nat := 314573
/-- Tiles of a whole image (R152). -/
def imageTiles : Nat := mapTiles + countTiles + residueTiles

/-- A tile of the image as it stands: map tiles, then count tiles, then residue tiles (R145, R152, R155). -/
def State.imageTile (s : State) (k : Nat) : Tile :=
  if k < mapTiles then
    tileOfNat ((List.range 16).foldl (fun a i => a + (s.entry (16 * k + i)).bits * 2 ^ (128 * i)) 0)
  else if k < mapTiles + countTiles then
    let b := 64 * (k - mapTiles)
    tileOfNat ((List.range 64).foldl (fun a i => a + s.pcount (b + i) * 2 ^ (32 * i)) 0)
  else
    let b := 128 * (k - mapTiles - countTiles)
    tileOfNat ((List.range 128).foldl (fun a i => a + s.progCount (b + i) % 4096 * 2 ^ (16 * i)) 0)

/-- The trailer tile: checkpoint number, SEQ of the 07h record, and a CRC-32C over both, in that order from bit 0 (R152; the order is a
DESIGN CHOICE, log 152). -/
def trailerTile (number seq : Nat) : Tile :=
  let x := number % 2 ^ 64 + seq % 2 ^ 64 * 2 ^ 64
  tileOfNat (x + crc32c (bytesOf x 16) * 2 ^ 128)

/-- The tiles of the image that have changed since an image: those of entries and of counts that differ (R153). -/
def State.changedTiles (s : State) (i : MapImage) : List Nat :=
  let es := ((s.map.entries ++ i.entries).map (·.1)).filter (fun l =>
    s.entry l != ((i.entries.find? (fun (k, _) => k == l)).map (·.2)).getD { MapEntry.first with note := if i.walked then 0 else 1 })
  let ps := ((s.map.pcount ++ i.pcount).map (·.1)).filter (fun p => mget 0 s.map.pcount p != mget 0 i.pcount p)
  (es.map (· / 16) ++ ps.map (fun p => mapTiles + p / 64) ++ ps.map (fun p => mapTiles + countTiles + p / 128)).eraseDups

/-! ### Release marking and scrubs (R101, R157, R171) -/

/-- One mark changed. -/
def State.modMark (s : State) (psn : Nat) (f : Marking → Marking) : State :=
  s.modMap (fun m => { m with marks := lupd (fun k => k.psn == psn) f m.marks })

/-- Tile programs a mark takes: one pass, or two for a scrub. -/
def Marking.total (k : Marking) : Nat := if k.scrub then 8192 else 4096

/-- The marking programs of a pass are sent, all of them: release marking has no limit of its own (R132, R157); a scrub's second pass
begins when its first has ended (R171). -/
def State.markFeed (s : State) (psn : Nat) : State :=
  match s.map.marks.find? (fun k => k.psn == psn) with
  | some k =>
    if !k.started || decide (k.total ≤ k.next) || !k.out.isEmpty then s
    else
      let ones := k.scrub && decide (k.next < 4096)
      let p : Prog := { why := if ones then .scrubOnes else .mark, cls := 6, ltn := noLtn, psn := psn, phase := .ready,
                        valid := 15, raw := some markFields, allow := 2 }
      let tiles := List.range 4096
      (s.addProgs (tiles.map (fun t => { p with t := t }))).modMark psn (fun k => { k with next := k.next + 4096, out := tiles })
  | none => s

/-- May the marking of a released slot start, in a maintenance slot of its group (R24, R101, R157)? In write-through mode the change
that released the slot is in force first (R150). -/
def State.markMayStart (s : State) (k : Marking) : Bool :=
  k.waiting && !k.started && decide (k.since + 2 ^ 20 ≤ s.ft) && s.inMaint (psnSet k.psn / 32) && !s.map.jwait.contains k.lsn && !s.reads.regs.any (fun r => r.psn == k.psn && r.phase != .map)
    && decide (s.lost (psnSet k.psn) < 2) && (s.slotOwner k.psn).isNone && !s.map.copies.any (fun c => c.target == k.psn)

/-- A marking program ended (R134, R157, R175). -/
def State.markProgDone (s : State) (p : Prog) : State :=
  let s := s.count 8 (if p.why = .scrubOnes then 7 else if (s.map.marks.any (fun k => k.psn == p.psn && k.scrub)) then 7 else 6) 1
  (s.modMark p.psn (fun k => { k with out := k.out.erase p.t, failed := k.failed || !p.failed.isEmpty })).markFeed p.psn

/-! ### Programs of a tile in turn (R126) -/

/-- The programs of a user tile in their order. -/
def State.tileProgs (s : State) (ltn : Nat) : List Prog :=
  s.progs.list.filter (fun p => p.ltn == ltn && p.why.tile?)

/-- Do the old fields continue the program's counter (R129, R213)? -/
def Prog.continues (p : Prog) (f : FieldBlock) : Bool :=
  if p.why = .calib then f.fmt == 7
  else if p.why.reserve? then f.fmt == 2 && f.achk.toNat == (p.psn * 4096 + p.t) % 65536
  else f.fmt == 1 && f.achk.toNat == p.ltn % 65536 && f.keyver.toNat == p.keyver

/-- WCOUNT after the old fields: one more, or 0 where they differ (R129). -/
def Prog.nextCount (p : Prog) : Nat :=
  match p.old with
  | some f => if p.continues f then f.wcount.toNat + 1 else 0
  | none => 0

/-- The next program of a tile takes its turn (R126). One that needs an RMW read takes it, with the old fields, from the staging source
of the program that has just ended where that holds the tile whole (R127, R129); otherwise it reads what it lacks. One whose source
waits for the copy of its segment goes on waiting (R134). -/
def State.unblockWith (s : State) (ltn : Nat) (prev : Option Prog) : State :=
  match s.tileProgs ltn with
  | p :: _ =>
    if p.phase ≠ .blocked || p.kept then s
    else
      let whole := (p.valid ||| p.poison) == 15 || p.why == .discardTile
      let src := prev.filter (fun (q : Prog) => !whole && p.raw.isNone && q.raw.isNone && q.valid == 15 && q.failed.isEmpty && q.psn == p.psn)
      let next : Option Prog := src.bind (fun q =>
        let miss := ~~~(p.valid ||| p.poison)
        let x := { p with data := mergeTile p.data q.data miss, poison := p.poison ||| (q.poison &&& miss), valid := 15,
                          old := some (progFields q 1 (q.why == PgWhy.discardTile)) }
        if x.nextCount < 15099494 then some { x with phase := .ready, wcount := x.nextCount } else none)
      match next with
      | some x => s.modProg p.id (fun _ => x)
      | none =>
        let ph := if p.raw.isSome then PgPhase.ready else if whole then .counter else .read
        let s := s.modProg p.id (fun p => { p with phase := ph, old := none })
        s.feedProg { p with phase := ph }
  | [] => s

/-- The next program of a tile takes its turn (R126). -/
def State.unblock (s : State) (ltn : Nat) : State := s.unblockWith ltn none

/-! ### Copies start (R158, R160) -/

/-- A copy changed. -/
def State.modCopy (s : State) (lsn : Nat) (f : Copy → Copy) : State :=
  s.modMap (fun m => { m with copies := lupd (fun c => c.lsn == lsn) f m.copies })

/-- May a waiting copy start now: classes 5 and 6 in a maintenance slot of the group (R24, R160, R161, R162)? -/
def State.copyMayStart (s : State) (lsn : Nat) (why : CopyWhy) : Bool :=
  let e := s.entry lsn
  let ds := psnSet e.psn
  (e.state == stMapped || e.state == stWorn) && e.psn != noPsn && !s.map.copies.any (fun c => c.lsn == lsn)
    && (decide (why.cls < 5) || s.inMaint (ds / 32))
    && (why != .racking || (decide ((s.map.copies.filter (fun c => c.why == .racking && psnSet c.source / 32 == ds / 32)).length < s.rackMax)
          && decide (65536 ≤ s.freeSlots) && e.state == stMapped && s.lost ds == 0))

/-- A copy begins: a target is drawn, kind 0Ah journals it with the state held before, the entry becomes rebuilding (R151,
R156, R158). With no target it goes on waiting. -/
def State.copyBegin (s : State) (lsn : Nat) (why : CopyWhy) : State :=
  let e := s.entry lsn
  match (if why == .racking then s.slotForRack e.psn e.note else s.slotForCopy e.psn e.note) with
  | (none, s) => s
  | (some p, s) =>
    let before := s.freeSlots
    let s := s.modMap (fun m => { m with copyWait := m.copyWait.filter (fun w => w.1 != lsn) })
    let s := s.journal lsn 0x0A (p + e.state * 2 ^ 26) why
    let c : Copy := { lsn := lsn, target := p, source := e.psn, why := why, prev := e.state, pend := BitVec.allOnes 4096,
                      retireSource := why.retires || e.state == stWorn }
    let s := s.modMap (fun m => { m with copies := m.copies ++ [c] })
    let s := if why == .patrol || why == .verify || why == .verifyNow then s.count 9 3 1 else s
    ((s.setEntry lsn { e with state := stRebuilding }).poolEvents before)

/-- A copied tile reached the target, or left the pending set (R158). -/
def State.copyTileDone (s : State) (lsn t : Nat) : State :=
  s.modCopy lsn (fun c => { c with pend := c.pend &&& ~~~(1#4096 <<< t), out := c.out.erase t })

/-- A tile was programmed at the source since its copy: it is copied again (R158). -/
def State.copyRedo (s : State) (lsn t psn : Nat) : State :=
  s.modCopy lsn (fun c => if c.source = psn then { c with redo := c.redo ||| (1#4096 <<< t) } else c)

/-- Are a segment's programs held at the source by the last pass of a copy (R158)? -/
def State.copyHolds (s : State) (lsn psn : Nat) : Bool :=
  s.map.copies.any (fun c => c.lsn == lsn && c.held && c.source == psn)

/-! ### Pins and worn segments (R163 to R168) -/

/-- Pins of a segment are released into ordinary cleaning; `p` chooses by cause (R168, R209, R215). -/
def State.unpin (s : State) (p : Nat → Nat → Bool) : State :=
  (s.hostWays.filter (fun (t, _, y) => y.pin && p (ltnSeg t) y.cause)).foldl (fun s (t, w, _) =>
    s.modWay 0xFFF t w (fun y => { y with pin := false, cause := 0 })) s

/-- The poison list's lines of a tile are set as poison in its way, or sent for a program (R128, R168). -/
def State.listedOut (s : State) (ltn cls : Nat) (mask : BitVec 4) : State :=
  match (s.cset 0xFFF ltn).ways.findIdx? (fun w => w.holds 0xFFF ltn) with
  | some w => s.modWay 0xFFF ltn w (fun y =>
      let m := mask &&& ~~~(y.dirty &&& y.valid)
      { y with valid := y.valid ||| m, dirty := y.dirty ||| m, poison := y.poison ||| m })
  | none => s.sendProg .poisonFix cls ltn (s.tileOwner ltn) 0 15 0 mask false 0

/-- Poison-list tiles of a segment. -/
def State.listedTiles (s : State) (lsn : Nat) : List (Nat × BitVec 4) := s.map.poison.filter (fun (t, _) => ltnSeg t == lsn)

/-- A worn segment without a physical segment is mapped (R168): its pins are released and its listed lines programmed. -/
def State.mapWorn (s : State) (lsn : Nat) : State :=
  match s.slotForMapping (s.entry lsn).note with
  | (none, s) => s
  | (some p, s) =>
    let before := s.freeSlots
    let s := s.setEntry lsn { s.entry lsn with psn := p, state := stMapped }
    let s := s.modMap (fun m => { m with lastSet := psnSet p, worn := m.worn.filter (· != lsn) })
    let s := s.unpin (fun l c => l == lsn && c == 3)
    ((s.listedTiles lsn).foldl (fun s (t, m) => s.listedOut t 4 m) s).poolEvents before

/-- Worn segments are relocated, or mapped, in the order in which they became worn, one for each slot of the pool (R168). -/
def State.poolGain (s : State) : State :=
  let due := s.map.worn.filter (fun l => !s.map.copies.any (fun c => c.lsn == l))
  (due.take s.freeSlots).foldl (fun (s : State) l => if (s.entry l).psn = noPsn then s.mapWorn l else s.queueCopy l .worn) s

/-- The same where the pool has gained slots, with the pool's events (R168). -/
def State.poolGains (s : State) (before : Nat) : State := (if before < s.freeSlots then s.poolGain else s).poolEvents before

/-! ### Racking (R161, R162) -/

/-- Racking moves of a group under way or waiting. -/
def State.rackMoves (s : State) (g : Nat) : Nat :=
  (s.map.copies.filter (fun c => c.why == .racking && psnSet c.source / 32 == g)).length
    + (s.map.copyWait.filter (fun w => w.2 == .racking && psnSet (s.entry w.1).psn / 32 == g)).length

/-- The segment a racking move takes, in a group with room for one: kind 1 the base segment of the least-worn slot, kind 2 the top
segment of the most-worn (R161, R162). -/
def State.rackPick (s : State) (top : Bool) : Option Nat :=
  let ok := fun (l : Nat) (e : MapEntry) => e.state == stMapped && e.psn != noPsn && e.note == (if top then 2 else 0)
    && s.lost (psnSet e.psn) == 0 && decide (s.rackMoves (psnSet e.psn / 32) < s.rackMax)
    && !s.map.copies.any (fun c => c.lsn == l) && !s.map.copyWait.any (fun w => w.1 == l)
  ((s.map.entries.filter (fun (l, e) => ok l e)).foldl (fun b (l, e) => match b with
    | none => some (l, s.pcount e.psn)
    | some (x : Nat × Nat) => if (if top then x.2 < s.pcount e.psn else s.pcount e.psn < x.2) then some (l, s.pcount e.psn) else b) none).map (·.1)

/-- Racking moves are queued, in turn of the two kinds, while groups have room for them (R161, R162). -/
def State.rackFeed (s : State) : Nat → State
  | 0 => s
  | n + 1 =>
    if !s.map.racking || !s.flag Reg.MAP_CONFIG.RACK_EN || decide (s.freeSlots < 65536) then s
    else
      let top := s.map.rackTop
      match s.rackPick top, s.rackPick (!top) with
      | some l, _ => ((s.queueCopy l .racking).modMap (fun m => { m with rackTop := !top })).rackFeed n
      | none, some l => (s.queueCopy l .racking).rackFeed n
      | none, none => s

/-- A segment becomes worn-read-only (R163). -/
def State.becomeWorn (s : State) (lsn : Nat) : State :=
  let s := s.setEntry lsn { s.entry lsn with state := stWorn }
  s.modMap (fun m => { m with worn := m.worn.filter (· != lsn) ++ [lsn] })

/-- A slot's scrub has ended: its residue entries are removed (kind 04h), and discards that waited for it count the segments whose last
scrub it was (R171, R174). -/
def State.scrubbed (s : State) (psn : Nat) : State :=
  let gone := fun (l : List (Nat × Nat)) => l.filter (fun r => r.2 != psn)
  let after := fun (d : Discard) =>
    let ended := ((d.scrubbing.filter (fun r => r.2 == psn)).map (·.1)).eraseDups.filter (fun l => !(gone d.scrubbing).any (fun r => r.1 == l))
    { d with scrubbing := gone d.scrubbing, done := d.done + ended.length }
  let s := (s.map.residue.filter (fun r => r.2 == psn)).foldl (fun (s : State) r => s.journal r.1 4 psn) s
  s.modMap (fun m => { m with residue := gone m.residue, residueWait := gone m.residueWait, discards := m.discards.map after })

/-- Entries that waited join the residue list while it has room (kind 03h, R171). -/
def State.residueFeed (s : State) : Nat → State
  | 0 => s
  | n + 1 =>
    match s.map.residueWait with
    | x :: r =>
      if 4194304 ≤ s.map.residue.length then s
      else ((s.journal x.1 3 x.2).modMap (fun m => { m with residue := m.residue ++ [x], residueWait := r })).residueFeed n
    | [] => s

/-- A mark ends: the slot is retired if a chunk failed, it was to be, or its count reached ENDURE; otherwise it enters the
free list. A scrub's residue entries are removed (R156, R157, R171). -/
def State.markEnd (s : State) (psn : Nat) : State :=
  match s.map.marks.find? (fun k => k.psn == psn) with
  | none => s
  | some k =>
    if !k.started || decide (k.next < k.total) || !k.out.isEmpty then s
    else
      let s := s.modMap (fun m => { m with marks := m.marks.filter (fun j => j.psn != psn) })
      let s := if k.scrub then (s.scrubbed psn).residueFeed s.map.residueWait.length else s
      if k.failed || k.retire || decide (endure ≤ s.pcount psn) then s.retire psn else s.poolGain

/-! ### Residue and scrubs (R171) -/

/-- A slot of a segment is scrubbed; a slot mapped to another segment is vacated by a copy first (R171). -/
def State.scrubSlot (s : State) (lsn psn : Nat) : State :=
  match s.map.marks.find? (fun k => k.psn == psn) with
  | some _ => s.modMark psn (fun k => if k.started && !k.scrub then { k with scrub := true, next := 0, lsn := lsn }
                                       else { k with scrub := true, lsn := lsn })
  | none =>
    let keeps := s.slotFree psn
    let s := s.releaseSlot psn lsn false true keeps
    match s.slotOwner psn with
    | some l => s.queueCopy l .vacate
    | none => s

/-- A slot a segment leaves joins the residue list; when the list is full, the slot of its oldest entry not yet under scrub is scrubbed
and the new entry waits for the place (R169, R171). -/
def State.residueAdd (s : State) (lsn psn : Nat) : State :=
  if psn = noPsn || (s.map.residue ++ s.map.residueWait).contains (lsn, psn) then s
  else
    let full := decide (4194304 ≤ s.map.residue.length)
    let s := s.modMap (fun m => { m with residueWait := m.residueWait ++ [(lsn, psn)] })
    match (if full then s.map.residue.find? (fun r => !s.map.marks.any (fun k => k.psn == r.2 && k.scrub)) else none) with
    | some (l, p) => s.scrubSlot l p
    | none => s.residueFeed s.map.residueWait.length

/-- The map switches to a copy's target: the source is released or retired, pins of a worn segment are released. The segment is mapped
as before; a worn one, relocated by R168, is mapped too, since its pins go into ordinary programs (R158, R159, R168; DEDUCED, log
158). -/
def State.copySwitch (s : State) (c : Copy) : State :=
  let e := s.entry c.lsn
  let worn := c.prev == stWorn
  let before := s.freeSlots
  let s := s.setEntry c.lsn { e with psn := c.target, state := stMapped, lwt := s.ft / 2 ^ 30 % 2 ^ 32 }
  let s := s.modMap (fun m => { m with copies := m.copies.filter (fun d => d.lsn != c.lsn),
                                       worn := m.worn.filter (· != c.lsn) })
  let s := s.residueAdd c.lsn c.source
  let s := if c.retireSource then s.retire c.source else s.releaseSlot c.source c.lsn false false false
  let s := s.modMap (fun m => { m with
    marks := m.marks.map (fun k => if k.psn = c.source && k.scrub then { k with since := s.ft } else k) })
  -- programs of the segment not yet granted go to the target
  let s := s.mapProgs (fun p =>
      if p.why.user? && ltnSeg p.ltn == c.lsn && p.psn == c.source && !p.granted then { p with psn := c.target } else p)
  let s := if worn then s.unpin (fun l k => l == c.lsn && k == 3) else s
  let held := (s.progs.list.filter (fun p => p.why.user? && ltnSeg p.ltn == c.lsn && p.phase == .blocked)).map (·.ltn)
  let s := held.eraseDups.foldl (fun s t => s.unblock t) s
  let s : State := { s with patrol := { s.patrol with tally := mset 0 s.patrol.tally c.lsn 0 } }
  (((s.count 8 3 1).poolGains before).rackFeed 64).pump

/-- A pass over the pending tiles ends: the next pass, with the source's programs held after pass 2, or the switch
(R158). -/
def State.copyPassEnd (s : State) (lsn : Nat) : State :=
  match s.map.copies.find? (fun c => c.lsn == lsn) with
  | none => s
  | some c =>
    if c.pend ≠ 0 ∨ !c.out.isEmpty then s
    else if c.redo ≠ 0 then
      s.modCopy lsn (fun c => { c with pend := c.redo, redo := 0, pass := c.pass + 1, held := decide (2 ≤ c.pass + 1) })
    else if s.progs.list.any (fun p => p.why.user? && ltnSeg p.ltn == lsn && p.psn == c.source && p.granted) then s
    else s.copySwitch c

/-! ### Re-key (spec/08, R215 to R217) -/

/-- Is a tile dirty or pinned in the cache path? -/
def State.tileHeld (s : State) (ltn : Nat) : Option Nat :=
  (s.cset 0xFFF ltn).ways.findIdx? (fun w => w.holds 0xFFF ltn && (w.dirty != 0 || w.pin))

/-- The re-key run of a segment changed. -/
def State.modRun (s : State) (lsn : Nat) (f : RekeyRun → RekeyRun) : State :=
  s.modMap (fun m => { m with rekeyRun := lupd (fun r => r.lsn == lsn) f m.rekeyRun })

/-- Dirty and pinned tiles at the run's cursor are programmed from the cache and their pins released; the cursor stops at
the first tile that must be read (R215). -/
def State.rekeyFeed (s : State) (lsn : Nat) : Nat → State
  | 0 => s
  | n + 1 =>
    match s.map.rekeyRun.find? (fun r => r.lsn == lsn) with
    | none => s
    | some r =>
      if 4096 ≤ r.next then s
      else
        let ltn := lsn * 4096 + r.next
        match s.tileHeld ltn with
        | none => s
        | some w =>
          let y := s.way 0xFFF ltn w
          let s := s.modWay 0xFFF ltn w (fun y => { y with pin := false, cause := 0, evq := true, again := 0 })
          let s := s.sendProg .rekey 6 ltn y.ld y.data y.valid y.dirty y.poison false 0
          (s.modRun lsn (fun r => { r with next := r.next + 1, out := r.out ++ [r.next] })).rekeyFeed lsn n

/-- The segments an LD's re-key has still to do: those of the LD whose index is not the one bound (R215). -/
def State.ldRekeyLeft (s : State) (ld idx : Nat) : List Nat :=
  (s.map.entries.filter (fun (l, e) => e.state != stDiscarded && e.keyidx != idx && s.tileLd (l * 4096) == some ld)).map (·.1)

/-- LDs whose re-key of KEY_BIND has nothing left leave the record (kind 0Ch, R215). -/
def State.rekeyLdDone (s : State) : State :=
  (s.map.rekeyLd.filter (fun (l, i) => (s.ldRekeyLeft l i).isEmpty)).foldl (fun s (l, i) =>
    (s.journal 0 0x0C (l + i * 64)).modMap (fun m => { m with rekeyLd := m.rekeyLd.filter (fun x => x != (l, i)) })) s

/-- Segments that name an index. -/
def State.namesKey (s : State) (idx : Nat) : List Nat :=
  (s.map.entries.filter (fun (_, e) => e.state != stDiscarded && e.keyidx == idx)).map (·.1)

/-- An index's context is deleted: key-table record, root, derived keys (R212). -/
def State.keyDelete (s : State) (idx : Nat) : State :=
  { s with keys := { s.keys with ctx := mset {} s.keys.ctx idx {}, table := mset {} s.keys.table idx {},
                                 derived := s.keys.derived.filter (fun d => d.1 != idx),
                                 toldRoot := s.keys.toldRoot.filter (· != idx) } }

/-- Old indexes under rotation that no segment names any more are retired, with an event (R217); index 0 cannot be retired
(R212) and only ceases to rotate. -/
def State.rotationRetire (s : State) : State :=
  (s.keys.ctx.filter (fun (i, k) => k.rotating && (s.namesKey i).isEmpty)).foldl (fun s (i, _) =>
    let s := if i = 0 then s.setKey 0 { s.key 0 with rotating := false, succ := 0 } else s.keyDelete i
    s.event { mkEv .info 10 0 .changed with detail := [i] } none) s

/-- The order of a queued segment's class (R215). -/
def rekeyBefore (a b : Rekey) : Bool := decide (a.cls < b.cls)

/-- The next queued segment of a group that may start, in a maintenance slot of the group (R24, R215, R216): by class, then order of
queueing. -/
def State.rekeyNext (s : State) (g : Nat) : Option Rekey :=
  let ok := fun (r : Rekey) =>
    let e := s.entry r.lsn
    s.inMaint g && e.state == stMapped && e.psn != noPsn && psnSet e.psn / 32 == g && !s.map.copies.any (fun c => c.lsn == r.lsn)
      && !s.keyLocked e.keyidx
  [1, 2, 3, 4].findSome? (fun k => s.map.rekeys.find? (fun r => r.cls == k && ok r))

/-- A segment's re-key starts: the old pair is recorded (kind 08h), the entry takes the new pair, and the cursor starts at
tile 0 (R215). At KEYVER 65,535 outside rotation the version is not advanced (R217). -/
def State.rekeyBegin (s : State) (r : Rekey) : State :=
  let e := s.entry r.lsn
  let s := s.modMap (fun m => { m with rekeys := m.rekeys.filter (fun q => q.lsn != r.lsn) })
  let rot := (s.key e.keyidx).rotating
  let idx := if rot then (s.key e.keyidx).succ else r.newIdx.getD e.keyidx
  if !rot && e.keyver = 65535 then s.versionExhausted e.keyidx
  else
    let ver := if rot then (if e.keyver = 1 then 2 else 1) else e.keyver + 1
    let s := s.journal r.lsn 8 (e.keyidx + e.keyver * 2 ^ 18 + idx * 2 ^ 34 + ver * 2 ^ 52)
    let s := s.modMap (fun m => { m with rekeyTab := mset (0, 0) m.rekeyTab r.lsn (e.keyidx, e.keyver + 1),
                                         rekeyRun := m.rekeyRun ++ [{ lsn := r.lsn, oldIdx := e.keyidx, oldVer := e.keyver }] })
    let s := (s.setEntry r.lsn { e with keyidx := idx, keyver := ver }).keyverWarn idx ver
    s.rekeyFeed r.lsn 4096

/-- A re-key ends when every tile is at the new version (R215): the table entry goes (kind 09h), LD records and rotated
indexes that wait for it go too. -/
def State.rekeyEnd (s : State) (lsn : Nat) : State :=
  match s.map.rekeyRun.find? (fun r => r.lsn == lsn) with
  | none => s
  | some r =>
    if r.next < 4096 ∨ !r.out.isEmpty then s.rekeyFeed lsn 4096
    else
      let s := s.journal lsn 9 0
      let s := s.modMap (fun m => { m with rekeyTab := mset (0, 0) m.rekeyTab lsn (0, 0),
                                           rekeyRun := m.rekeyRun.filter (fun q => q.lsn != lsn) })
      (s.count 10 4 1).rekeyLdDone.rotationRetire

/-- A discard or a lost entry ends a re-key (R216). -/
def State.rekeyStop (s : State) (lsn : Nat) : State :=
  let s := s.modMap (fun m => { m with rekeys := m.rekeys.filter (fun q => q.lsn != lsn) })
  if s.map.rekeyRun.any (fun r => r.lsn == lsn) then
    (s.journal lsn 9 0).modMap (fun m => { m with rekeyTab := mset (0, 0) m.rekeyTab lsn (0, 0),
                                                   rekeyRun := m.rekeyRun.filter (fun q => q.lsn != lsn) })
  else s

/-! ### Discards (R169 to R173) -/

/-- A discard changed. -/
def State.modDisc (s : State) (id : Nat) (f : Discard → Discard) : State :=
  s.modMap (fun m => { m with discards := lupd (fun d => d.id == id) f m.discards })

/-- Segments handled at once, over all discards (R169). -/
def State.discActive (s : State) : Nat := (s.map.discards.map (fun d => d.draining.length)).sum

/-- The first segment of a list of runs, and the runs after it. -/
def nextOfRuns : List (Nat × Nat) → Option (Nat × List (Nat × Nat))
  | [] => none
  | (f, n) :: r => if n = 0 then nextOfRuns r else some (f, if n = 1 then r else (f + 1, n - 1) :: r)

/-- Discards take segments in the order of their ranges while fewer than 64 are handled; new requests to them are held
(R169 step 1, R173). -/
def State.discFeed (s : State) : Nat → State
  | 0 => s
  | n + 1 =>
    if 64 ≤ s.discActive then s
    else match s.map.discards.find? (fun d => (nextOfRuns d.runs).isSome) with
      | none => s
      | some d =>
        match nextOfRuns d.runs with
        | none => s
        | some (l, r) => (s.modDisc d.id (fun d => { d with runs := r, draining := d.draining ++ [l] })).discFeed n

/-- Are the requests to a segment admitted before the hold all complete (R169 step 1)? -/
def State.segDrained (s : State) (lsn : Nat) : Bool :=
  !s.home.act.any (fun a => decide (a.req.line < 2 ^ 39) && ltnSeg (keyTile a.req.line) == lsn && !a.answered)

/-- What the end of a discard owes: a key's retirement goes on (R212), a Sanitize or Secure Erase ends (R397), a MEDIA_PATTERN test
reports what it found or that it was aborted (R425, R427), a released block becomes free (R236). `why` is 0, 1 + key index,
2^20 + LD, 2^20 + 64 + TEST_ID, 2^21 + block, or 2^22 + segment for an MDISC, answered with MDACK (R300). -/
def State.discAfter (s : State) (d : Discard) : State :=
  if d.why = 0 then s
  else if d.why < 2 ^ 20 then
    let idx := d.why - 1
    match s.keys.ops.find? (fun o => o.retire && o.idx == idx) with
    | some o =>
      let s := { s with keys := { s.keys with ops := s.keys.ops.filter (fun x => x != o) } }
      let s := s.keyDelete idx
      match o.src with
      | some src => s.done src d.done []
      | none => (s.setF Reg.KEY_CMD.RESULT 0).setF Reg.KEY_CMD.BUSY 0
    | none => s
  else if d.why < 2 ^ 20 + 64 then
    let ld := d.why - 2 ^ 20
    let p := mget 0 s.host.erasing ld
    ({ s with host := { s.host with erasing := mset 0 s.host.erasing ld 0 } }).endBg (p - 1) .success []
  else if d.why < 2 ^ 21 then
    let end_ := fun (t : SelfTest) =>
      if t.id + 64 + 2 ^ 20 == d.why && t.disc == some d.id then
        { t with state := if t.aborting then 4 else if t.errors.isEmpty then 2 else 3, ft := s.ft }
      else t
    { s with maint := { s.maint with tests := s.maint.tests.map end_ } }
  else if d.why < 2 ^ 22 then { s with host := { s.host with blocks := mset {} s.host.blocks (d.why - 2 ^ 21) {} } }
  else
    let lsn := d.why - 2 ^ 22
    let mine := s.fabric.serving.filter (fun (_, l, k) => l == lsn && k % 4 == 2)
    let home := match s.fabric.mirrors.find? (fun (_, m) => m.role == 1 && m.state != 0 && decide (m.mirrorLsn ≤ lsn)
        && decide (lsn < m.mirrorLsn + m.count)) with
      | some (_, m) => lsn - m.mirrorLsn + m.homeLsn
      | none => lsn
    let s := { s with fabric := { s.fabric with serving := s.fabric.serving.filter (fun x => !mine.contains x) } }
    mine.foldl (fun s (n, _, k) => s.mir 0x35 n (k / 4) home none 0 0) s

/-- Discards with nothing left complete: their command, or DONE and RESULT of the register (R169, R171, R174). -/
def State.discDone (s : State) : State :=
  (s.map.discards.filter (fun d => (nextOfRuns d.runs).isNone && d.draining.isEmpty && d.tiles.isEmpty && d.mirror.isEmpty
      && d.scrubbing.isEmpty)).foldl (fun s d =>
    let s := s.modMap (fun m => { m with discards := m.discards.filter (fun e => e.id != d.id) })
    let s := if d.fromReg then
        ((s.raise Reg.DISC_CMD.DONE).setF Reg.DISC_CMD.RESULT 0).setF Reg.DISC_PROGRESS.DONE_COUNT d.done
      else s
    (s.respondTo d.src kOk d.done []).discAfter d) s

/-- What a discard drops of a segment from the cache path (R169 step 3): ways, staging not yet granted, mash slots. -/
def State.dropSegment (s : State) (lsn : Nat) : State :=
  let ts := (s.heldTiles ++ (s.progs.list.filter (fun p => p.why.user?)).map (·.ltn)).eraseDups.filter (fun t => ltnSeg t == lsn)
  let s := ts.foldl (fun s t => s.dropTile t) s
  let s := s.dropProgs (fun p => p.why.user? && ltnSeg p.ltn == lsn && !p.granted)
  let s := (s.map.spill.filter (fun x => ltnSeg x.ltn == lsn)).foldl (fun (s : State) x => s.spillRemove x.ltn) s
  ts.foldl (fun s t => s.settleWrites t) s

/-- The segment part of a discard (R169 steps 2 to 6; R171): `secure` advances KEYVER at once and scrubs; `advance` alone advances
KEYVER (R395 Secure Erase). -/
def State.discSegment (s : State) (lsn : Nat) (secure : Bool) (advance : Bool := false) : State :=
  let e := s.entry lsn
  let copy := s.map.copies.find? (fun c => c.lsn == lsn)
  let s := match copy with
    | some c => s.copyDrop c false
    | none => s
  let s := (s.modMap (fun m => { m with copyWait := m.copyWait.filter (fun w => w.1 != lsn), worn := m.worn.filter (· != lsn) })).rekeyStop lsn
  let full := e.keyver == 65535
  let ver := if (secure || advance) && !full then e.keyver + 1 else e.keyver
  let was := e.state == stWorn || copy.any (fun c => c.prev == stWorn)
  let s := if e.state = stDiscarded ∧ ver = e.keyver then s
    else s.setEntry lsn { e with psn := noPsn, state := stDiscarded, keyver := ver }
  let s := if (secure || advance) && full then s.versionExhausted e.keyidx else s
  let s := (s.dropSegment lsn).modMap (fun m => { m with afresh := mset 0 m.afresh lsn 0 })
  let s := { s with patrol := { s.patrol with queue := s.patrol.queue.filter (fun q => q.lsn != lsn) } }
  let s := (s.listedTiles lsn).foldl (fun s (t, _) => s.poisonDrop t) s
  let s := s.residueAdd lsn e.psn
  let s := if e.psn = noPsn then s
    else if was && !secure then s.retire e.psn
    else s.releaseSlot e.psn lsn was secure false
  (s.count 8 1 1).rekeyLdDone.rotationRetire

/-- A secure discard's residue slots to scrub (R171). -/
def State.residueOf (s : State) (lsn : Nat) : List Nat :=
  ((s.map.residue ++ s.map.residueWait).filter (fun r => r.1 == lsn)).map (·.2)

/-- The requests to a segment have drained: its discard is carried out for every discard that names it (R169, R170,
R420), and the held requests resume. -/
def State.discDrained (s : State) (lsn : Nat) : State :=
  let ds := s.map.discards.filter (fun d => d.draining.contains lsn)
  if ds.isEmpty || !s.segDrained lsn then s
  else
    let secure := ds.any (·.secure)
    let mir := s.mirrored lsn
    let node := (s.entry lsn).mirror
    let s := s.discSegment lsn secure (ds.any (·.advance))
    let slots := if secure then s.residueOf lsn else []
    let s := slots.foldl (fun s p => s.scrubSlot lsn p) s
    let s := if mir then
        let s := s.mir 0x34 node (lsn % 4096) lsn none 0 0
        { s with fabric := { s.fabric with mdiscs := s.fabric.mdiscs ++ [(node, lsn)] } }
      else s
    let s := ds.foldl (fun s d => s.modDisc d.id (fun d =>
      { d with draining := d.draining.filter (· != lsn), done := d.done + b2n slots.isEmpty,
               scrubbing := d.scrubbing ++ slots.map (fun p => (lsn, p)), mirror := if mir then d.mirror ++ [lsn] else d.mirror })) s
    (s.discFeed 64).discDone.pump

/-- A tile discard (R172): the tile's sectors leave the cache and it is programmed with DISCARD set at class 3. A tile of a
segment without a physical segment needs no program: it reads as zeros. -/
def State.discTile (s : State) (id ltn : Nat) : State :=
  let e := s.entry (ltnSeg ltn)
  let s := (s.dropTile ltn).settleWrites ltn
  let s := s.count 8 2 1
  if e.onMedium then
    (s.modDisc id (fun d => { d with tiles := d.tiles ++ [ltn] })).sendProg .discardTile 3 ltn (s.tileOwner ltn) 0 15 0 0 false id
  else s.modDisc id (fun d => { d with done := d.done + 1 })

/-- A tile discard's program has ended. -/
def State.discTileDone (s : State) (ltn : Nat) : State :=
  ((s.modMap (fun m => { m with discards := m.discards.map (fun d =>
      if d.tiles.contains ltn then { d with tiles := d.tiles.filter (· != ltn), done := d.done + 1 } else d) })).discDone)

/-- The LSNs of runs. -/
def lsnsOf (runs : List (Nat × Nat)) : List Nat := runs.flatMap (fun (f, n) => (List.range n).map (f + ·))

/-- A run of tiles split into its whole segments and the tiles beside them (R172). -/
def splitTiles (f n : Nat) : List (Nat × Nat) × List Nat :=
  let a := (f + 4095) / 4096
  let b := (f + n) / 4096
  if a < b then
    ([(a, b - a)], (List.range (a * 4096 - f)).map (f + ·) ++ (List.range (f + n - b * 4096)).map (b * 4096 + ·))
  else ([], (List.range n).map (f + ·))

/-- May the discard of some segments or tiles start: none is in a cask (R170), and fewer than 64 are in progress (R173). -/
def State.discCheck (s : State) (segs : List Nat) : Nat :=
  if segs.any (fun l => (s.entry l).cask) then kCaskMember
  else if 64 ≤ s.map.discards.length then kBusy else kOk

/-- A discard starts over runs of segments or of tiles (R169, R172, R173). -/
def State.discStart (s : State) (scope : DiscScope) (secure : Bool) (runs : List (Nat × Nat)) (src : Option CmdSrc)
    (fromReg : Bool) (why dpa : Nat) : State :=
  let parts := match scope with
    | .segments => (runs, [])
    | .tiles => runs.foldl (fun (a, b) (f, n) => let (x, y) := splitTiles f n; (a ++ x, b ++ y)) ([], [])
  let id := s.map.discNext
  let d : Discard := { id := id, scope := scope, secure := secure, count := (runs.map (·.2)).sum, dpa := dpa, runs := parts.1,
                       src := src, fromReg := fromReg, why := why }
  let s := s.modMap (fun m => { m with discards := m.discards ++ [d], discNext := m.discNext + 1 })
  let s := parts.2.foldl (fun s t => s.discTile id t) s
  (s.discFeed 64).discDone

/-- Is the variant of a discard the secure one (R173)? -/
def State.discSecure (s : State) (variant : Nat) : Bool :=
  if variant = 1 then false else if variant = 2 then true else s.flag Reg.MAP_CONFIG.SECURE_DEFAULT

end Sys2Proof.Machine
end

