-- ==== Sys2Proof/Machine/MediaOps.lean ====
section
/-!
DEFINITION. The medium as shared operations: die-set members and busy partitions (spec/02, R50 to R53; spec/01, R21), the
packets of a channel (R57, R58), the rounds of a tile read (spec/04, R97 to R110), lane grants and the waves of a tile
program (spec/05, R132 to R134).
-/

namespace Sys2Proof.Machine

/-! ### Members (R50, R64) -/

/-- The die of a member, as 32 × channel + position (R64). -/
def State.memberDie (s : State) (ds m : Nat) : Nat :=
  32 * s.getF (Reg.DIESET_MEMBER.CHANNEL ds m) + s.getF (Reg.DIESET_MEMBER.POSITION ds m)

/-- Is the member present, trained, not being rebuilt, and its rails up (R64, R364)? -/
def State.memberGood (s : State) (ds m : Nat) : Bool :=
  s.flag (Reg.DIESET_MEMBER.VALID ds m) && !s.flag (Reg.DIESET_MEMBER.REBUILDING ds m)
    && !s.railDead (s.memberDie ds m / 32)

/-- The set and member a die serves as, if it does. -/
def State.dieMember (s : State) (die : Nat) : Option (Nat × Nat) :=
  (List.range 96).findSome? (fun ds =>
    if !s.setPresent ds then none
    else (List.range 10).findSome? (fun m => if s.memberDie ds m = die then some (ds, m) else none))

/-- Lost members of a set, counted from its members (R193). -/
def State.countLost (s : State) (ds : Nat) : Nat := ((List.range 10).filter (fun m => !s.memberGood ds m)).length

/-- The member of a program's chunk. -/
def Prog.member (p : Prog) (k : Nat) : Nat := chunkMember (psnSlot p.psn) p.t k

/-- Members of a set whose partition `lane` is programming (R21). -/
def State.busyMembers (s : State) (ds lane : Nat) : List Nat :=
  s.progs.list.flatMap (fun p =>
    if psnSet p.psn == ds && p.t % 16 == lane && p.phase == .wave then p.pend.map p.member else [])

/-- Is a channel being retrained (R188)? -/
def State.retraining (s : State) (ch : Nat) : Bool := s.progs.retrain.contains ch

/-- Retrains that hold or ask for an allowance in the lanes of a set: those of its members' channels (R188). -/
def State.setRetrains (s : State) (ds : Nat) : Nat :=
  ((s.progs.retrain ++ s.progs.retrainWait).filter (fun ch => (List.range 10).any (fun m => s.memberDie ds m / 32 == ch))).length

/-- Allowances of a lane that programs may take: two, less one for a lost member and one for a channel retrain (R21, R132,
R188). -/
def State.allowances (s : State) (ds : Nat) : Nat := 2 - min 1 (s.lost ds) - s.setRetrains ds

/-- The program that holds a lane's grant, if any (R132). -/
def State.holder (s : State) (ds lane : Nat) : Option Prog :=
  s.progs.list.find? (fun p => p.granted && p.why != .rebuild && psnSet p.psn == ds && p.t % 16 == lane)

/-- Busy partitions of a lane as LANE_STATE shows them: lost members, retrains, and the allowances that a program holds, never more
than two (R21, R143, R188, R191). -/
def State.laneBusy (s : State) (ds lane : Nat) : Nat :=
  if !s.setPresent ds then 0
  else
    let re := (s.progs.retrain.filter (fun ch => (List.range 10).any (fun m => s.memberDie ds m / 32 == ch))).length
    min 2 (s.lost ds + re + (match s.holder ds lane with | some p => p.allow | none => 0))

/-- Can the member's chunk be read now (R97, R188, R191)? -/
def State.reachable (s : State) (ds lane m : Nat) : Bool :=
  s.memberGood ds m && !s.retraining (s.memberDie ds m / 32) && !(s.busyMembers ds lane).contains m

/-! ### Packets (R57, R58) -/

/-- A command packet with its parity (R57). -/
def packet (op die part cidx arg : Nat) : BitVec 64 :=
  let x := op % 64 + die % 16 * 2 ^ 6 + part % 16 * 2 ^ 10 + cidx % 2 ^ 27 * 2 ^ 14 + arg % 2 ^ 16 * 2 ^ 41
  BitVec.ofNat 64 (x + b2n (parityGo x 0 63) * 2 ^ 63)

/-- A packet leaves on a die's channel: the package is position div 16. -/
def State.sendPacket (s : State) (op die part cidx arg : Nat) (data : Option Chunk) : State :=
  s.emit (.media (die / 32) (die % 32 / 16) (packet op (die % 16) part cidx arg) data)

/-! ### Chunk reads (R100 to R106) -/

/-- Chunk reads outstanding on a channel (R100). -/
def State.chanReads (s : State) (ch : Nat) : Nat :=
  (s.reads.regs.map (fun r => (r.chunks.map (fun c => if c.die / 32 = ch then c.out else 0)).sum)).sum

/-- Is a chunk read outstanding on a partition of a die (R98)? -/
def State.partRead (s : State) (die part : Nat) : Bool :=
  s.reads.regs.any (fun r => r.t % 16 == part && r.chunks.any (fun c => c.die == die && decide (0 < c.out)))

/-- An integer kept between two bounds. -/
def clampInt (x lo hi : Int) : Int := max lo (min x hi)

/-- The gravity entry of a group's age and temperature bucket (R104). -/
def State.gravEntry (s : State) (g age bucket : Nat) : Nat := s.word (0x51000 + 0x400 * g + 4 * (8 * age + bucket))

/-- TRIM of a die and partition as a read takes it: 0 with TRIM_EN at 0 when it was issued (R106, R117). -/
def State.trimOf (s : State) (r : Reg) (die : Nat) : Int :=
  if bitAt r.cfg 3 then mget 0 s.reads.trim (16 * die + r.t % 16) else 0

/-- The offset of a chunk read of round 0 (R105). -/
def State.roundOff (s : State) (r : Reg) (die : Nat) : Int :=
  clampInt (toSigned (bitsOf r.grav 0 6) 6 + s.trimOf r die) (-32) 31

/-- SHIFT of a gravity entry: 0 is taken as 1 (R104). -/
def gravShift (e : Nat) : Int := max 1 (bitsOf e 6 4 : Nat)
/-- SPAN of a gravity entry: 0 is taken as 1 (R104). -/
def gravSpan (e : Nat) : Nat := max 1 (bitsOf e 10 4)

/-- The members whose chunk can be read for a register, by chunk. -/
def State.reachChunks (s : State) (r : Reg) : List Nat :=
  (List.range 10).filter (fun k => s.reachable (psnSet r.psn) (r.t % 16) (chunkMember (psnSlot r.psn) r.t k))

/-- The die of a register's chunk. -/
def State.chunkDie (s : State) (r : Reg) (k : Nat) : Nat :=
  s.memberDie (psnSet r.psn) (chunkMember (psnSlot r.psn) r.t k)

/-- A READ_CHUNK of a register's chunk at an offset goes out. -/
def State.sendRead (s : State) (r : Reg) (k : Nat) (off : Int) : State :=
  let die := s.chunkDie r k
  let s := s.sendPacket 1 die (r.t % 16) (chunkIndex (psnSlot r.psn) r.t) (ofSigned off 6) none
  s.modReg r.key (fun r => { r with chunks := lmod r.chunks k (fun c => { c with out := c.out + 1, die := die }) })

/-- The round-0 offset of a register's chunk: the one it was first read with, or the one it would be read with now (R105,
R108). -/
def State.baseOff (s : State) (r : Reg) (k : Nat) : Int :=
  let c := r.chunks.getD k {}
  if c.seen then c.off else s.roundOff r (s.chunkDie r k)

/-- The chunks of a round and their offsets (R97, R108): round 0, step 1, step 2 or step 3. The patrol reads every chunk on a good
member, one whose partition is busy as soon as it is idle (R178, R179). A chunk is poor when it was not decoded or needed more than one corrected bit: 'not clean, or has more than 1
corrected bit' read with 'clean' as decoded (DEDUCED, log 108). -/
def State.roundReads (s : State) (r : Reg) : List (Nat × Int) :=
  let good := (List.range 10).filter (fun k => s.memberGood (psnSet r.psn) (chunkMember (psnSlot r.psn) r.t k))
  let reach := if r.why = .patrol then good else s.reachChunks r
  let off := fun k => s.roundOff r (s.chunkDie r k)
  match r.round with
  | 0 =>
    if r.why = .patrol then reach.map (fun k => (k, off k))
    else
    let d := (List.range 8).filter reach.contains
    let p := ([8, 9].filter reach.contains).take (8 - d.length)
    (d ++ p).map (fun k => (k, off k))
  | 1 => (reach.filter (fun k => !(r.chunks.getD k {}).seen)).map (fun k => (k, off k))
  | n =>
    let poor := reach.filter (fun k => match (r.chunks.getD k {}).dec with | none => true | some d => decide (1 < d.2))
    let sh := gravShift r.grav
    poor.map (fun k =>
      let c := r.chunks.getD k {}
      let o := s.baseOff r k
      let sg : Int := if c.u < c.w then -1 else 1
      (k, clampInt (o + (if n = 2 then sg * sh else -(sg * sh))) (-32) 31))

/-- A chunk read of a round goes out; the chunk keeps the round-0 offset it is first read with. -/
def State.sendRound (s : State) (r : Reg) (k : Nat) (o : Int) : State :=
  let base := s.baseOff r k
  (s.sendRead r k o).modReg r.key (fun r => { r with chunks := lmod r.chunks k (fun c => { c with off := base }) })

/-- Patrol chunk reads outstanding on a channel (R178). -/
def State.patrolReads (s : State) (ch : Nat) : Nat :=
  (s.reads.regs.map (fun q => if q.why = .patrol then (q.chunks.map (fun c => if c.die / 32 = ch then c.out else 0)).sum else 0)).sum

/-- Patrol chunk reads that wait go out where their partition is idle and their channel has room: fewer than 4 reads queued, and of
the patrol's own none outstanding, or at most one in the accelerated pass (R178, R185). Those of members lost meanwhile are left out. -/
def State.patrolMore (s : State) : State :=
  (s.reads.regs.filter (fun r => r.why == .patrol && !r.due.isEmpty)).foldl (fun s r =>
    r.due.foldl (fun (s : State) x =>
      let ds := psnSet r.psn
      let m := chunkMember (psnSlot r.psn) r.t x.1
      let ch := s.memberDie ds m / 32
      let away := fun (s : State) => s.modReg r.key (fun r => { r with due := r.due.filter (fun y => y != x) })
      if !s.memberGood ds m then away s
      else if s.reachable ds (r.t % 16) m && decide (s.chanReads ch < 4)
          && decide (s.patrolReads ch < (if s.patrol.accelOn then 2 else 1 : Nat)) then away (s.sendRound r x.1 x.2)
      else s) s) s

/-- The reads of a list go out; the patrol's as their channels have room (R178). -/
def State.sendReads (s : State) (r : Reg) (l : List (Nat × Int)) : State :=
  if r.why = .patrol then (s.modReg r.key (fun r => { r with phase := .reading, due := l })).patrolMore
  else l.foldl (fun s (k, o) => s.sendRound r k o) (s.modReg r.key (fun r => { r with phase := .reading }))

/-- A register is set up for round 0: map data, buckets and busy map latched (R29, R96, R102). -/
def State.latchReg (s : State) (r : Reg) : State :=
  let e := match r.key with
    | .logical l => s.entry (ltnSeg l.toNat)
    | .physical _ _ => match s.slotOwner r.psn with
      | some l => s.entry l
      | none => MapEntry.first
  let g := psnSet r.psn / 32
  let tb := s.getF (if g = 0 then Reg.RP_TEMP.BUCKET_G0 else if g = 1 then Reg.RP_TEMP.BUCKET_G1 else Reg.RP_TEMP.BUCKET_G2)
  let busy := (s.busyMembers (psnSet r.psn) (r.t % 16)).length
  let age := ageBucket s.ft e.lwt
  let pair := match r.key with
    | .logical l => if r.keyver = 0 then (e.keyidx, e.keyver, s.oldPair (ltnSeg l.toNat)) else (r.keyidx, r.keyver, r.alt)
    | .physical _ _ => (0, 0, none)
  s.modReg r.key (fun r => { r with age := age, bucket := tb, busy := busy, round := 0, cfg := s.word 0x50000,
                                    grav := s.gravEntry g age tb, chunks := List.replicate 10 {}, due := [], sparge := false,
                                    keyidx := pair.1, keyver := pair.2.1, alt := pair.2.2 })

/-! ### Maintenance slots and caps (R24, R309, R386) -/


/-- Programs a group's lanes may hold at once (R386). -/
def State.laneCap (s : State) (g : Nat) : Nat :=
  min (s.getF Reg.THERM_STAT.CAP) (s.getF (Reg.MED_TEMP.PROG_CAP g)) * (if s.pkgs = 2 then 512 else 256) / 100

/-! ### Waves (R132 to R134) -/

/-- The chunks of wave w: two with two allowances, one with one (R133). -/
def waveChunks (allow w : Nat) : List Nat := if allow = 2 then [2 * w, 2 * w + 1] else [w]

/-- Waves of a program (R133). -/
def waveCount (allow : Nat) : Nat := if allow = 2 then 5 else 10

/-- A chunk program goes out, unless a read of its partition is outstanding or its channel is being retrained: then it waits (R57,
R98, R188). -/
def State.sendChunk (s : State) (id k : Nat) : State :=
  match s.progs.list.find? (fun p => p.id == id) with
  | none => s
  | some p =>
    let die := s.memberDie (psnSet p.psn) (p.member k)
    if s.partRead die (p.t % 16) || s.retraining (die / 32) then s.modProg id (fun p => { p with hold := k :: p.hold.filter (· != k) })
    else
      let c := (s.progChunks p).getD k 0
      let s := s.modProg id (fun p => { p with hold := p.hold.filter (· != k) })
      s.sendPacket 2 die (p.t % 16) (chunkIndex (psnSlot p.psn) p.t) (dcrc c).toNat (some c)

/-- Chunk programs that waited for a read of their partition go out (R98). -/
def State.releaseHolds (s : State) : State :=
  (s.progs.list.filter (fun p => !p.hold.isEmpty)).foldl (fun s p => p.hold.foldl (fun s k => s.sendChunk p.id k) s) s

/-- The next wave of a program that has a chunk to program, from wave w; none when the last has ended. -/
def nextWave (p : Prog) (w : Nat) : Nat → Option (Nat × List Nat)
  | 0 => none
  | n + 1 =>
    if waveCount p.allow ≤ w then none
    else
      let l := (waveChunks p.allow w).filter (fun k => !p.skip.contains k)
      if l.isEmpty then nextWave p (w + 1) n else some (w, l)

/-- Is the lane held for a deep recovery (R110)? -/
def State.laneHeld (s : State) (ds lane : Nat) : Bool := s.reads.holds.any (fun h => h.1 == 16 * ds + lane)

/-- Is the spare's partition taken by a rebuild's chunk program (R191)? -/
def State.spareBusy (s : State) (ds lane m : Nat) : Bool :=
  s.progs.list.any (fun p => p.why == .rebuild && p.phase == .wave && psnSet p.psn == ds && p.t % 16 == lane
    && p.pend.any (fun k => p.member k == m))

/-- A wave starts from wave number w; `none` when no wave is left. A program whose set has lost an allowance since goes on in waves of
one chunk, or waits for one (R21, R133, R188). In a held lane the program pauses, class 1 apart (R110); a wave waits for a rebuild's
chunk program on its partition (R191). -/
def State.waveFrom (s : State) (p : Prog) (w : Nat) : Option State :=
  let ds := psnSet p.psn
  let few := decide (s.allowances ds < p.allow) && p.allow == 2
  let p := if few then { p with allow := 1 } else p
  match nextWave p (if few then 2 * w else w) 11 with
  | none => none
  | some (w, l) =>
    let lane := p.t % 16
    if decide (3 ≤ s.getF Reg.DRY_STAT.PHASE) || (s.laneHeld ds lane && p.cls != 1) || l.any (fun k => s.spareBusy ds lane (p.member k))
        || s.allowances ds == 0 then
      some (s.modProg p.id (fun q => { q with phase := .paused, wave := w, allow := p.allow, pend := [] }))
    else
      let s := s.modProg p.id (fun q => { q with phase := .wave, wave := w, allow := p.allow, pend := l, again := [] })
      some (l.foldl (fun s k => s.sendChunk p.id k) s)

/-- Paused programs of lanes no longer held go on (R110, R191). -/
def State.resumePaused (s : State) : State :=
  (s.progs.list.filter (fun p => p.phase == .paused)).foldl (fun s p => (s.waveFrom p p.wave).getD s) s

/-- A retrain that waits takes its lanes and starts once none of them has two partitions busy: by lost members, other retrains, or
waves (R21, R188). -/
def State.retrainGo (s : State) : State :=
  s.progs.retrainWait.foldl (fun (s : State) ch =>
    let mine := (List.range 96).filter (fun ds => s.setPresent ds && (List.range 10).any (fun m => s.memberDie ds m / 32 == ch))
    let full := fun ds => (List.range 16).any (fun lane =>
      let wave := match s.holder ds lane with
        | some p => if p.phase = .wave then (p.pend.filter (fun k => !p.hold.contains k)).length else 0
        | none => 0
      let re := (s.progs.retrain.filter (fun c => (List.range 10).any (fun m => s.memberDie ds m / 32 == c))).length
      decide (2 ≤ min 1 (s.lost ds) + re + wave))
    if mine.any full then s
    else { s with progs := { s.progs with retrain := s.progs.retrain ++ [ch], retrainWait := s.progs.retrainWait.filter (· != ch) } }) s

/-- Has the rebuild of a member reached a tile, the one at its cursor included, so that programs write the spare's chunk too (R190,
R191)? -/
def Rebuild.passed (b : Rebuild) (slot t : Nat) (mapped : Bool) : Bool :=
  let ph := if dataSlots ≤ slot then 0 else if mapped then 1 else 2
  decide (ph < b.phase) || (ph == b.phase && (decide (slot < b.slot) || (slot == b.slot && decide (t ≤ b.tile))))

/-- Chunks a program leaves out: those of failed members and of spares whose rebuild has not reached the tile (R133,
R191). -/
def State.skipChunks (s : State) (p : Prog) : List Nat :=
  let ds := psnSet p.psn
  (List.range 10).filter (fun k =>
    let m := p.member k
    if s.memberGood ds m then false
    else if s.flag (Reg.DIESET_MEMBER.REBUILDING ds m) then
      match s.patrol.rebuilds.find? (fun b => b.ds == ds && b.member == m) with
      | some b => !b.passed (psnSlot p.psn) p.t (s.slotOwner p.psn).isSome
      | none => true
    else true)

end Sys2Proof.Machine
end

