-- ==== Sys2Proof/Machine/SpareOps.lean ====
section
/-!
DEFINITION. Patrol and sparing as shared operations (spec/07): the refresh queue (R180 to R182), relocation (R184), failed
dies and channels (R186, R187), spares (R189), rebuilds (R190 to R192), and second and third losses (R193 to R195).
-/

namespace Sys2Proof.Machine

/-- The patrol's state changed. -/
def State.modPatrol (s : State) (f : Patrol → Patrol) : State := { s with patrol := f s.patrol }

/-! ### Refresh and relocation (R180 to R184) -/

/-- REFRESH_BITS in force: 0 is taken as 1 (R197). -/
def State.refreshBits (s : State) : Nat := max 1 (s.getF Reg.PATROL_CFG.REFRESH_BITS)
/-- RELOC_TILES in force: 0 is taken as 1 (R197). -/
def State.relocTiles (s : State) : Nat := max 1 (s.getF Reg.PATROL_CFG.RELOC_TILES)


/-- A tile of a segment was queued for refresh or failed in this pass: at RELOC_TILES the segment is relocated (R184). -/
def State.tallyTile (s : State) (lsn : Nat) : State :=
  let n := mget 0 s.patrol.tally lsn
  if n = 0 ∧ 262144 ≤ s.patrol.tally.length then s
  else
    let s := s.modPatrol (fun p => { p with tally := mset 0 p.tally lsn (n + 1) })
    if s.relocTiles ≤ n + 1 then s.queueCopy lsn .patrol else s

/-- What of an entry a refresh waits on: all but LWT, HEAT and NOTE, which host programs of other tiles move and which are not journalled
(R150, R182; DEDUCED, log 182). -/
def MapEntry.fixed (e : MapEntry) : MapEntry := { e with lwt := 0, heat := 0, note := 0 }

/-- A tile of a mapped slot is queued for refresh with the content that was decoded, or dropped with the queue full
(R180, R181). -/
def State.refreshAdd (s : State) (psn t lsn : Nat) (cipher : Tile) (f : FieldBlock) : State :=
  if s.patrol.queue.any (fun q => q.lsn == lsn && q.t == t) then s
  else if 65536 ≤ s.patrol.queue.length then
    (s.modPatrol (fun p => { p with drops := p.drops + 1 })).raise Reg.PATROL_STAT.QUEUE_FULL |>.count 9 2 1
  else
    let s := s.modPatrol (fun p => { p with queue := p.queue ++ [{ psn := psn, t := t, lsn := lsn, entry := (s.entry lsn).fixed }] })
    let p : Prog := { why := .refresh, cls := 5, ltn := lsn * 4096 + t, psn := psn, t := t, phase := .ready, data := cipher,
                      valid := 15, raw := some f, wcount := f.wcount.toNat, keyver := f.keyver.toNat, allow := 2 }
    (s.addProg p).tallyTile lsn

/-! ### Losses (R193 to R195) -/

/-- Mapped segments of a die set. -/
def State.setSegs (s : State) (ds : Nat) : List Nat :=
  (s.map.entries.filter (fun (_, e) => e.psn != noPsn && psnSet e.psn == ds && e.state != stDiscarded)).map (·.1)

/-- Copies whose target lies in a set are abandoned (R160). -/
def State.abandonInto (s : State) (ds : Nat) : State :=
  (s.map.copies.filter (fun c => psnSet c.target == ds)).foldl (fun s c => s.copyAbandon c.lsn false) s

/-- Segments of sets with two lost members that have a program waiting are relocated at class 4 (R193). -/
def State.doubleSweep (s : State) : State :=
  (s.progs.list.filter (fun p => p.why.user? && !p.granted && decide (2 ≤ s.lost (psnSet p.psn)) && p.psn != noPsn)).foldl
    (fun s p => s.queueCopy (ltnSeg p.ltn) .doubleLoss) s

/-- Has the set a lost member without a spare (R195)? -/
def State.spareless (s : State) (ds : Nat) : Bool := s.patrol.noSpare.any (fun k => k / 16 == ds)

/-- A set's lost members are counted again, with the events of a second and a third loss (R160, R193 to R195). -/
def State.lossUpdate (s : State) (ds : Nat) : State :=
  let was := s.lost ds
  let n := s.countLost ds
  let before := s.freeSlots
  let s := s.modPatrol (fun p => { p with lost := mset 0 p.lost ds n })
  if n ≤ was then s
  else
    let s := s.abandonInto ds
    let s := if was < 2 ∧ 2 ≤ n then s.event ({ mkEv .critical 9 ds .lost with detail := [ds] }.stat Reg.SPARE_STAT.DOUBLE_LOST) none |>.doubleSweep else s
    let s := if was < 2 ∧ 2 ≤ n ∧ s.spareless ds then
        (s.setSegs ds).foldl (fun s l => s.queueCopy l .evacuate) (s.event { mkEv .critical 9 ds .changed with detail := [ds] } none)
      else s
    let s := if was < 3 ∧ 3 ≤ n then
        let s := (s.raise Reg.SPARE_STAT.DATA_LOSS).event ({ mkEv .critical 9 ds .lost with detail := [ds] }.stat Reg.SPARE_STAT.DATA_LOSS) none
        ((s.setSegs ds).filter (fun l => s.mirrored l)).foldl (fun s l => s.queueCopy l .mirrorLoss) s
      else s
    s.poolEvents before

/-! ### Spares (R189, R190) -/

/-- Has a die been declared failed (R186)? -/
def State.dieFailed (s : State) (die : Nat) : Bool := mget 0 s.patrol.failed die != 0

/-- Is a die of a spare channel free: fitted, not failed, serving nowhere (R189)? -/
def State.spareFree (s : State) (die : Nat) : Bool :=
  decide (die / 32 = 30 ∨ die / 32 = 31) && decide (die % 32 < 16 * s.pkgs) && !s.dieFailed die && !s.patrol.chFailed.contains (die / 32)
    && (s.dieMember die).isNone

/-- Has the set a member on a channel? -/
def State.setUses (s : State) (ds ch : Nat) : Bool := (List.range 10).any (fun m => s.memberDie ds m / 32 == ch)

/-- The spare for the failed die at position d of a set (R189). -/
def State.spareFor (s : State) (ds d : Nat) : Option Nat :=
  let ok := fun die => s.spareFree die && !s.setUses ds (die / 32)
  (([30 * 32 + d, 31 * 32 + d] ++ (List.range 64).map (30 * 32 + ·)).find? ok)

/-- A spare takes a member's place: recorded, REBUILDING set, its accumulators cleared, its rebuild queued (R64, R117,
R190). -/
def State.spareIn (s : State) (ds m die : Nat) : State :=
  let s := s.pageWrites 1
  let s := (s.setF (Reg.DIESET_MEMBER.CHANNEL ds m) (die / 32)).setF (Reg.DIESET_MEMBER.POSITION ds m) (die % 32)
  let s := (s.setF (Reg.DIESET_MEMBER.VALID ds m) 0).raise (Reg.DIESET_MEMBER.REBUILDING ds m)
  let s := s.raise (Reg.DIE_HEALTH.IN_SET die)
  let s := { s with reads := { s.reads with acc := (List.range 16).foldl (fun a p => mset 0 a (16 * die + p) 0) s.reads.acc } }
  s.modPatrol (fun p => { p with rebuilds := p.rebuilds ++ [{ ds := ds, member := m, slot := dataSlots }] })

/-- A set with no spare for a member runs with it lost; an event tells when the set first finds none (R195). -/
def State.noSpareFor (s : State) (ds m : Nat) : State :=
  let first := !s.spareless ds
  let s := s.modPatrol (fun p => { p with noSpare := (16 * ds + m) :: p.noSpare.filter (· != 16 * ds + m) })
  if first then s.event ({ mkEv .critical 9 ds .limit with detail := [ds] }.stat Reg.SPARE_STAT.NO_SPARE) none else s

/-- A member is lost: chunks of programs under way on it are given up, a rebuild of it ends (R133, R189). -/
def State.memberLost (s : State) (ds m : Nat) : State :=
  let s := (s.setF (Reg.DIESET_MEMBER.VALID ds m) 0).setF (Reg.DIESET_MEMBER.REBUILDING ds m) 0
  let s := s.modPatrol (fun p => { p with rebuilds := p.rebuilds.filter (fun b => !(b.ds == ds && b.member == m)) })
  let mine := fun (p : Prog) => p.why == .rebuild && psnSet p.psn == ds && p.pend.any (fun k => p.member k == m)
  let behind := (s.progs.list.filter mine).map (·.ltn)
  let s := behind.foldl (fun (s : State) l => s.unblock l) (s.dropProgs mine)
  let s := s.mapProgs (fun p =>
    if psnSet p.psn == ds && p.granted then
      let gone := (List.range 10).filter (fun k => p.member k == m)
      { p with pend := p.pend.filter (fun k => !gone.contains k), hold := p.hold.filter (fun k => !gone.contains k),
               again := p.again.filter (fun k => !gone.contains k), skip := (p.skip ++ gone).eraseDups }
    else p)
  s.lossUpdate ds

/-- A spare is sought for a lost member (R189, R195). -/
def State.spareOne (s : State) (ds m d : Nat) : State :=
  match s.spareFor ds d with
  | some die => s.spareIn ds m die
  | none => s.noSpareFor ds m

/-! ### Failed dies and channels (R186, R187) -/

/-- A die is marked failed with its cause (R186, R197). -/
def State.markFailed (s : State) (die cause : Nat) : State :=
  let s := s.modPatrol (fun p => { p with failed := mset 0 p.failed die cause, frameFails := p.frameFails ++ [(die / 32, die)] })
  let s := ((s.raise (Reg.DIE_HEALTH.FAILED die)).setF (Reg.DIE_HEALTH.CAUSE die) cause).setF (Reg.DIE_HEALTH.IN_SET die) 0
  (s.count 9 5 1).event { mkEv .warning 9 (die / 32) .fault with detail := [die, cause] } none

/-- A channel is declared failed: one event; every die of it not yet failed fails with cause 7, and a whole spare channel
replaces it if one is free (R187, R189). -/
def State.chanFail (s : State) (ch : Nat) : State :=
  if s.patrol.chFailed.contains ch then s
  else
    let s := s.modPatrol (fun p => { p with chFailed := ch :: p.chFailed })
    let s := s.event { mkEv .critical 9 ch .fault with detail := [ch] } none
    let dies := ((List.range (16 * s.pkgs)).map (32 * ch + ·)).filter (fun d => !s.dieFailed d)
    let s := dies.foldl (fun s d => s.markFailed d 7) s
    let mem := dies.filterMap (fun d => (s.dieMember d).map (fun (ds, m) => (ds, m, d % 32)))
    let s := mem.foldl (fun s (ds, m, _) => s.memberLost ds m) s
    let g := ch / 10
    let whole := fun sc => (List.range (16 * s.pkgs)).all (fun d => s.spareFree (32 * sc + d))
      && (List.range 32).all (fun d => !s.setUses (32 * g + d) sc)
    match (if ch < 30 then [30, 31].find? whole else none) with
    | some sc => mem.foldl (fun s (ds, m, d) => s.spareIn ds m (32 * sc + d)) s
    | none => mem.foldl (fun s (ds, m, d) => s.spareOne ds m d) s

/-- Dies are declared failed together (R186); four of a channel within one frame fail the channel, before any of them is spared
alone (R187). -/
def State.diesFail (s : State) (dies : List Nat) (cause : Nat) : State :=
  let dies := dies.filter (fun d => !s.dieFailed d)
  let s := dies.foldl (fun s d => s.markFailed d cause) s
  let mem := dies.filterMap (fun d => (s.dieMember d).map (fun (ds, m) => (ds, m, d % 32)))
  let s := mem.foldl (fun s (ds, m, _) => s.memberLost ds m) s
  let chans := ((dies.map (· / 32)).eraseDups).filter (fun ch => decide (4 ≤ (s.patrol.frameFails.filter (fun f => f.1 == ch)).length))
  let s := chans.foldl (fun s ch => s.chanFail ch) s
  mem.foldl (fun s (ds, m, d) => s.spareOne ds m d) s

/-- A die is declared failed (R186). -/
def State.dieFail (s : State) (die cause : Nat) : State := if s.dieFailed die then s else s.diesFail [die] cause

/-- DIE_FAIL_LIMIT in force: lower values are taken as 8 (R197). -/
def State.dieLimit (s : State) : Nat := max 8 (s.getF Reg.SPARE_CFG.DIE_FAIL_LIMIT)

/-- One failure of a die in the window of 65,536 slots; at DIE_FAIL_LIMIT it is declared failed (R186). -/
def State.dieCount (s : State) (die : Nat) : State :=
  let now := s.ft / 2 ^ 20
  let l := s.patrol.fails.filter (fun (_, n) => decide (now < n + 65536)) ++ [(die, now)]
  let n := (l.filter (fun f => f.1 == die)).length
  let s := s.modPatrol (fun p => { p with fails := l })
  if s.dieLimit ≤ n then s.dieFail die 4 else s

/-! ### Rebuilds (R190 to R192) -/

/-- REBUILD_SETS in force (R197). -/
def State.rebuildSets (s : State) : Nat :=
  let v := s.getF Reg.SPARE_CFG.REBUILD_SETS
  if 1 ≤ v ∧ v ≤ 32 then v else 8

/-- One rebuild changed. -/
def State.modRebuild (s : State) (ds m : Nat) (f : Rebuild → Rebuild) : State :=
  s.modPatrol (fun p => { p with rebuilds := lupd (fun b => b.ds == ds && b.member == m) f p.rebuilds })

/-- REBUILD_PROG's fields of a set: its active rebuild, else the one that waits; nothing for an absent set (R54, R197). -/
def State.rebuildView (s : State) (ds : Nat) : List (Nat × Nat × Nat) :=
  let b := (s.patrol.rebuilds.find? (fun b => b.ds == ds && b.active)).orElse (fun _ => s.patrol.rebuilds.find? (fun b => b.ds == ds))
  if !s.setPresent ds then []
  else (25, 2, min 3 (s.lost ds)) :: (match b with
    | some b => [(0, 19, b.slot), (19, 1, b2n b.active), (20, 4, b.member), (24, 1, b2n (!b.active))]
    | none => [])

/-- Failures of a die in the window of 65,536 slots, as DIE_HEALTH shows them (R186, R197). -/
def State.failCount (s : State) (die : Nat) : Nat :=
  min 255 (s.patrol.fails.filter (fun (d, n) => d == die && decide (s.ft / 2 ^ 20 < n + 65536))).length

/-- Waiting rebuilds start while fewer than REBUILD_SETS sets rebuild, sets with two lost members first (R192). -/
def State.rebuildPump (s : State) : Nat → State
  | 0 => s
  | n + 1 =>
    let act := (s.patrol.rebuilds.filter (·.active)).map (·.ds)
    if s.rebuildSets ≤ act.eraseDups.length then s
    else
      let wait := s.patrol.rebuilds.filter (fun b => !b.active && !act.contains b.ds)
      match (wait.find? (fun b => decide (2 ≤ s.lost b.ds))).orElse (fun _ => wait.head?) with
      | some b => ((s.modRebuild b.ds b.member (fun b => { b with active := true })).noteFlag 4).rebuildPump n
      | none => s

/-- Does a slot belong to a phase of the rebuild's walk (R190)? -/
def State.rebuildTakes (s : State) (ds ph slot : Nat) : Bool :=
  let psn := ds * slotsPerSet + slot
  if s.map.retired.contains psn then false
  else match ph with
    | 0 => decide (dataSlots ≤ slot)
    | 1 => decide (slot < dataSlots) && (s.slotOwner psn).isSome
    | _ => decide (slot < dataSlots) && (s.slotOwner psn).isNone

/-- The first slot of a phase at or after a slot, within n slots. -/
def State.rebuildSlot (s : State) (ds ph slot : Nat) : Nat → Option Nat
  | 0 => none
  | n + 1 => if slotsPerSet ≤ slot then none else if s.rebuildTakes ds ph slot then some slot else s.rebuildSlot ds ph (slot + 1) n

/-- The cursor moves to a slot of its phase, or of the phases after it (R190). -/
def State.rebuildSeek (s : State) (b : Rebuild) (slot : Nat) : Nat → Rebuild
  | 0 => { b with phase := 3, slot := 0, tile := 0 }
  | n + 1 =>
    if 3 ≤ b.phase then { b with phase := 3, slot := 0, tile := 0 }
    else match s.rebuildSlot b.ds b.phase slot slotsPerSet with
      | some k => { b with slot := k, tile := 0 }
      | none => s.rebuildSeek { b with phase := b.phase + 1 } 0 n

/-- The cursor moves on by one tile (R190). -/
def State.rebuildNext (s : State) (ds m : Nat) : State :=
  match s.patrol.rebuilds.find? (fun b => b.ds == ds && b.member == m) with
  | some b =>
    let b' := if b.tile < 4095 then { b with tile := b.tile + 1 } else s.rebuildSeek b (b.slot + 1) 4
    s.modRebuild ds m (fun _ => b')
  | none => s

/-- A program of a tile is issued: a rebuild whose cursor stands at the tile moves on, since that program writes the spare's chunk; its
own chunk program that waits is dropped, and what its read finds is no longer wanted (R190, R191). -/
def State.rebuildIssued (s : State) (psn t : Nat) : State :=
  (s.patrol.rebuilds.filter (fun b => b.ds == psnSet psn && b.slot == psnSlot psn && b.tile == t && decide (b.phase < 3))).foldl
    (fun (s : State) b =>
      let s := s.dropProgs (fun p => p.why == .rebuild && p.psn == psn && p.t == t && p.job == b.member && !p.granted)
      let s : State := { s with reads := { s.reads with
        regs := s.reads.regs.map (fun r => if r.why = .rebuild && r.psn == psn && r.t == t then { r with stale := true } else r) } }
      s.rebuildNext b.ds b.member) s

/-- A rebuild's chunk program is made: only the spare's chunk, without a grant; it is a program of the tile (R191). -/
def State.rebuildChunk (s : State) (m psn t : Nat) (cipher : Tile) (f : FieldBlock) : State :=
  let k := ((List.range 10).find? (fun k => chunkMember (psnSlot psn) t k == m)).getD 0
  let ltn := match s.slotOwner psn with | some l => l * 4096 + t | none => noLtn
  s.addProg { why := .rebuild, cls := 4, ltn := ltn, psn := psn, t := t, phase := .ready, data := cipher, valid := 15,
              raw := some f, allow := 1, job := m, pend := [k], skip := (List.range 10).filter (· != k) }

/-- Waiting rebuild chunk programs start where the spare's partition is idle and no earlier program of the tile is there; the cursor
moves on as they are issued (R190, R191). -/
def State.rebuildGo (s : State) : State :=
  (s.progs.list.filter (fun p => p.why == .rebuild && p.phase == .ready)).foldl (fun s p =>
    let ahead := s.progs.list.any (fun q => q.psn == p.psn && q.t == p.t && (q.granted || decide (q.id < p.id)))
    if ahead || (s.busyMembers (psnSet p.psn) (p.t % 16)).contains p.job then s
    else
      let s := s.modProg p.id (fun p => { p with phase := .wave })
      let s := p.pend.foldl (fun s k => s.sendChunk p.id k) s
      match s.patrol.rebuilds.find? (fun b => b.ds == psnSet p.psn && b.member == p.job) with
      | some b => if b.slot = psnSlot p.psn && b.tile = p.t then s.rebuildNext b.ds b.member else s
      | none => s) s

/-- A rebuild ends when its cursor has passed every slot and its programs are done: VALID set, REBUILDING cleared, the
failed die leaves (R191). -/
def State.rebuildEnd (s : State) (ds m : Nat) : State :=
  match s.patrol.rebuilds.find? (fun b => b.ds == ds && b.member == m) with
  | some b =>
    if b.phase < 3 || s.progs.list.any (fun p => p.why == .rebuild && psnSet p.psn == ds && p.job == m)
        || s.reads.regs.any (fun r => r.why == .rebuild && psnSet r.psn == ds) then s
    else
      let before := s.freeSlots
      let s := (s.raise (Reg.DIESET_MEMBER.VALID ds m)).setF (Reg.DIESET_MEMBER.REBUILDING ds m) 0
      let s := s.modPatrol (fun p => { p with rebuilds := p.rebuilds.filter (fun c => !(c.ds == ds && c.member == m)) })
      ((s.lossUpdate ds).rebuildPump 32).poolGains before
  | none => s

/-- The rebuild's work on the tile at its cursor (R190, R191): a tile with a program waiting or in flight waits; a dirty tile is left to
its eviction; a mapped or reserve tile is read; a free slot's marking chunk is programmed without a read. -/
def State.rebuildTile (s : State) (b : Rebuild) : State :=
  let psn := b.ds * slotsPerSet + b.slot
  if s.progs.list.any (fun p => p.psn == psn && p.t == b.tile) then s
  else if b.phase = 2 then s.rebuildChunk b.member psn b.tile 0 markFields
  else
    let owner := s.slotOwner psn
    let key : TileRef := match owner with
      | some l => .logical (BitVec.ofNat 37 (l * 4096 + b.tile))
      | none => .physical (BitVec.ofNat 26 psn) (BitVec.ofNat 12 b.tile)
    let dirty := match owner with | some l => (s.tileHeld (l * 4096 + b.tile)).isSome | none => false
    if dirty || (s.regOf key).isSome || s.regsFree = 0 then s
    else s.addReg { mkReg key .rebuild s.ft with psn := psn, t := b.tile, phase := .issue, job := b.member }

/-- A rebuild goes on by one tile, or ends. -/
def State.rebuildStep (s : State) (ds : Nat) : State :=
  let s := s.rebuildPump 32
  match s.patrol.rebuilds.find? (fun b => b.ds == ds && b.active) with
  | none => s
  | some b =>
    if b.phase = 3 then s.rebuildEnd ds b.member
    else
      let s := if s.rebuildTakes ds b.phase b.slot then s
        else s.modRebuild ds b.member (fun b => s.rebuildSeek b b.slot 4)
      match s.patrol.rebuilds.find? (fun c => c.ds == ds && c.member == b.member) with
      | some b => if b.phase = 3 then s.rebuildEnd ds b.member else (s.rebuildTile b).rebuildGo
      | none => s

/-! ### The patrol's walk (R176 to R178, R185) -/

/-- Does the patrol read a slot (R176)? The accelerated pass reads mapped slots (R185). -/
def State.patrolTakes (s : State) (psn : Nat) (accel : Bool) : Bool :=
  !s.map.retired.contains psn && !s.map.copies.any (fun c => c.source == psn || c.target == psn)
    && (!accel || (s.slotOwner psn).isSome)

/-- The first position at or after a position that the patrol reads, within n slots: data slots, and reserve slots that hold the history
archive (R176); none when the set's walk wraps. -/
def State.patrolSeek (s : State) (ds : Nat) (accel : Bool) (pos : Nat) : Nat → Option Nat
  | 0 => none
  | n + 1 =>
    let slot := pos / 4096
    if slotsPerSet ≤ slot then none
    else if (decide (slot < dataSlots) || s.map.archive.contains (ds * slotsPerSet + slot)) && s.patrolTakes (ds * slotsPerSet + slot) accel
      then some pos
    else s.patrolSeek ds accel ((slot + 1) * 4096) n

/-- A cursor has wrapped; the pass ends when every cursor has (R176, R184). -/
def State.patrolWrap (s : State) (ds : Nat) : State :=
  let s := s.modPatrol (fun p => { p with cursor := mset 0 p.cursor ds 0, wrapped := ds :: p.wrapped.filter (· != ds) })
  if (List.range 96).all (fun d => !s.setPresent d || s.patrol.wrapped.contains d) then
    s.modPatrol (fun p => { p with passes := p.passes + 1, wrapped := [], tally := [], freeTally := [] })
  else s

/-- The patrol reads the tile at its cursor: the tile takes a register and the cursor advances (R176, R185). -/
def State.patrolTile (s : State) (ds : Nat) : State :=
  let accel := s.patrol.accelOn
  let pos := mget 0 (if accel then s.patrol.accel else s.patrol.cursor) ds
  match s.patrolSeek ds accel pos (slotsPerSet + 1) with
  | none => if accel then s.modPatrol (fun p => { p with accel := mset 0 p.accel ds (slotsPerSet * 4096) }) else s.patrolWrap ds
  | some p =>
    let psn := ds * slotsPerSet + p / 4096
    let t := p % 4096
    let key : TileRef := match s.slotOwner psn with
      | some l => .logical (BitVec.ofNat 37 (l * 4096 + t))
      | none => .physical (BitVec.ofNat 26 psn) (BitVec.ofNat 12 t)
    if (s.regOf key).isSome || s.regsFree = 0 then s
    else
      let s := s.addReg { mkReg key .patrol s.ft with psn := psn, t := t, phase := .issue }
      let s := if accel then s.modPatrol (fun q => { q with accel := mset 0 q.accel ds (p + 1) })
        else s.modPatrol (fun q => { q with cursor := mset 0 q.cursor ds (p + 1) })
      if !accel && (s.patrolSeek ds accel (p + 1) (slotsPerSet + 1)).isNone then s.patrolWrap ds else s

end Sys2Proof.Machine
end

