-- ==== Sys2Proof/Machine/ReadOps.lean ====
section
/-!
DEFINITION. Tile reads as shared operations (spec/04): the attempt of a tile over its decoded chunks (R40 to R46, R108),
the outcomes of R112 and R137 and what each purpose of a read makes of them (R128, R158, R159, R179 to R184, R190, R215),
the write counter (R129 to R131), pins (R130, R548), and the registers' retirement (R73, R74, R76).
-/

namespace Sys2Proof.Machine

/-! ### The attempt of a tile (R40 to R46, R108) -/

/-- What the chunks of a read make of the tile. -/
inductive Found where
  /-- Verified: plaintext, ciphertext and fields; zeros for a DISCARD tile. -/
  | ok (plain cipher : Tile) (f : FieldBlock)
  | torn
  | fail
deriving DecidableEq, Repr

/-- The majority generation (R46): the later of two that tie one step apart; none where no majority exists. -/
def majority (gs : List Nat) : Option Nat :=
  let c := (List.range 4).map (fun g => (gs.filter (· == g)).length)
  let m := c.foldl max 0
  if m = 0 then none
  else match (List.range 4).filter (fun g => c.getD g 0 == m) with
    | [g] => some g
    | [a, b] => if b = a + 1 then some b else if a = 0 ∧ b = 3 then some 0 else none
    | _ => none

/-- Do the decoded chunks, of which not all carry the majority generation g, leave neither version readable? The new and the old
version are g and its commoner neighbour; every other chunk, those not decoded among them, is unreadable (R46, R136). -/
def tornMix (gs : List Nat) (g : Nat) : Bool :=
  let c := fun h => (gs.filter (· == h % 4)).length
  let (n, o) := if c (g + 1) ≤ c (g + 3) then (c g, c (g + 3)) else (c (g + 1), c g)
  let u := 10 - n - o
  decide (2 < n + u) && decide (2 < o + u)

/-- The tile of a read, its fields accepted under R42, R43 and R202 to R203, or the release marking of a free slot
(R157, R179). What the ACHK of a calibration tile holds is not stated: none is compared (DESIGN CHOICE, log 43). -/
def State.openFound (s : State) (r : Reg) (c : Tile) (f : FieldBlock) : Found :=
  match r.key with
  | .logical l =>
    let ltn := l.toNat
    if f.discard then .ok 0 c f
    else if f.fmt ≠ 1 ∨ f.achk.toNat ≠ ltn % 65536 then .fail
    else
      match pickPair f.keyver.toNat r.keyidx r.keyver r.alt with
      | some (i, v) => match openTile (s.dataKey i v) ltn (ltnSeg ltn) (ltnTile ltn) f c with
        | some p => .ok p c f
        | none => .fail
      | none => .fail
  | .physical p t =>
    let a := p.toNat * 4096 + t.toNat
    if psnSlot p.toNat < dataSlots then
      if f.discard ∧ f.fmt = 1 ∧ f.achk = 0 then .ok 0 c f else .fail
    else if f.discard then .ok 0 c f
    else if f.fmt = 7 then .ok c c f
    else if f.fmt ≠ 2 ∨ f.achk.toNat ≠ a % 65536 then .fail
    else match openTile s.reserveKey a p.toNat t.toNat f c with
      | some x => .ok x c f
      | none => .fail

/-- Counts what an attempt's cipher pass found: a tile decrypted and verified, or a tag failure, of any round (R225). -/
def State.tallyOpen (s : State) (r : Reg) (x : Found × Option FieldBlock) : State :=
  match x with
  | (.ok _ _ _, some f) => if f.discard || f.fmt = 7 then s else s.count 10 1 1
  | (.fail, some f) =>
    let tried := match r.key with
      | .logical l => !f.discard && f.fmt = 1 && f.achk.toNat == l.toNat % 65536
      | .physical p t => decide (dataSlots ≤ psnSlot p.toNat) && !f.discard && f.fmt = 2 && f.achk.toNat == (p.toNat * 4096 + t.toNat) % 65536
    if tried then s.count 10 2 1 else s
  | _ => s

/-- An attempt over chunks given as kept decodes with their generations (R46, R108). `all` says that every reachable
chunk was read. Answers the fields of an accepted outer decode too (R130). -/
def State.attempt (s : State) (r : Reg) (cs : List (Option (BitVec 272 × Nat))) (all : Bool) : Found × Option FieldBlock :=
  let gs := cs.filterMap (fun c => c.map (·.2))
  match majority gs with
  | none => (.fail, none)
  | some g =>
    let off := (gs.filter (· != g)).length
    if off ≠ 0 ∧ !all then (.fail, none)
    else if off ≠ 0 ∧ tornMix gs g then
      let ties := (List.range 4).any (fun h => h != g && (gs.filter (· == h)).length == (gs.filter (· == g)).length)
      (if ties ∧ gs.length < 8 then .fail else .torn, none)
    else
      match rsDecode (cs.map (fun c => match c with
          | some (m, h) => if h = g then some m else none
          | none => none)) with
      | none => (.fail, none)
      | some ms =>
        let (c, f) := tileOfMessages ms
        if f.wcount.toNat % 4 ≠ g then (.fail, none) else (s.openFound r c f, some f)

/-- The kept decodes of a register. -/
def Reg.kept (r : Reg) : List (Option (BitVec 272 × Nat)) := r.chunks.map (fun c => c.dec.map (fun d => (d.1, c.gen)))

/-- Has every reachable chunk been read? -/
def State.allRead (s : State) (r : Reg) : Bool := (s.reachChunks r).all (fun k => (r.chunks.getD k {}).seen)

/-- Are chunk reads of the register outstanding, or still to go out (R178)? -/
def Reg.waiting (r : Reg) : Bool := r.chunks.any (fun c => decide (0 < c.out)) || !r.due.isEmpty

/-- The reads changed. -/
def State.modReads (s : State) (f : Reads → Reads) : State := { s with reads := f s.reads }

/-- The trims after a round-0 read: each decoded chunk's u − w joins its partition's accumulator; at ±32 the trim moves one
step, up to +7 or down to −8, and the accumulator restarts (R106, R117); it restarts also where the trim already stands at its end
(DESIGN CHOICE, log 106). -/
def State.learnTrims (s : State) (r : Reg) : State :=
  if !bitAt r.cfg 3 then s
  else r.chunks.foldl (fun s c =>
    if !c.seen || c.dec.isNone then s
    else
      let k := 16 * c.die + r.t % 16
      let a := mget 0 s.reads.acc k + ((c.u : Int) - c.w)
      let t := mget 0 s.reads.trim k
      if 32 ≤ a then s.modReads (fun x => { x with acc := mset 0 x.acc k 0, trim := mset 0 x.trim k (min 7 (t + 1)) })
      else if a ≤ -32 then s.modReads (fun x => { x with acc := mset 0 x.acc k 0, trim := mset 0 x.trim k (max (-8) (t - 1)) })
      else s.modReads (fun x => { x with acc := mset 0 x.acc k a })) s

/-- Chunks that no read decoded although every other chunk read decoded with at most one corrected bit advance their dies'
failure counts (R186). -/
def State.countBad (s : State) (r : Reg) : State :=
  let seen := r.chunks.filter (·.seen)
  let bad := seen.filter (fun c => c.dec.isNone)
  if seen.all (fun c => match c.dec with | some d => decide (d.2 ≤ 1) | none => true) && decide (bad.length < seen.length) then
    let s := s.modReg r.key (fun q => { q with chunks := q.chunks.map (fun c => if c.seen && c.dec.isNone then { c with counted := true } else c) })
    (bad.filter (fun c => !c.counted)).foldl (fun s c => s.dieCount c.die) s
  else s

/-- The patrol's corrected bits join the dies' totals (R179). -/
def State.addBits (s : State) (r : Reg) : State :=
  r.chunks.foldl (fun s c => match c.dec with
    | some d => if d.2 = 0 then s else s.modPatrol (fun p => { p with bits := mmod 0 p.bits c.die (· + d.2) })
    | none => s) s

/-! ### The write counter (R129 to R131, R213, R214) -/

/-- The early threshold of R214: an event once per segment and version, and an early re-key where enabled. -/
def State.earlyCount (s : State) (p : Prog) (w : Nat) : State :=
  if p.why.reserve? || w < 15099494 then s
  else
    let lsn := ltnSeg p.ltn
    let s := if s.map.told.contains (lsn, p.keyver) then s
      else (s.modMap (fun m => { m with told := (lsn, p.keyver) :: m.told })).event { mkEv .info 10 0 .limit with addr := p.ltn } (s.tileLd p.ltn)
    if s.flag Reg.CIPHER_CONFIG.EARLY_REKEY then s.queueRekey lsn 2 none else s

/-- The way that holds a program's tile as pinned: the one it is in, or a victim's that takes the program's copy (R164). -/
def State.pinInWay (s : State) (p : Prog) (here : Option Nat) (cause : Nat) (dirty : BitVec 4) : Option (Nat × State) :=
  let hold := fun (y : Way) => { y with pin := true, cause := cause, evq := false,
                                        dirty := y.dirty ||| (dirty &&& (p.valid ||| p.poison)) }
  match here with
  | some w => some (w, s.modWay 0xFFF p.ltn w hold)
  | none => (s.takeWay 0xFFF p.ltn p.ld).map (fun (w, s) => (w, s.modWay 0xFFF p.ltn w (fun y =>
      hold { y with valid := p.valid ||| p.poison, poison := p.poison, data := p.data, dirty := 0 })))

/-- The lines of a tile that are dirty in the cache path: in its way, in a staged program, in a mash slot (R112, R128, R137). -/
def State.dirtyLines (s : State) (ltn : Nat) : BitVec 4 :=
  let w := match (s.cset 0xFFF ltn).ways.find? (fun w => w.holds 0xFFF ltn) with
    | some w => w.dirty
    | none => 0
  let p := ((s.tileProgs ltn).filter (fun p => p.why.user? && p.raw.isNone)).foldl (fun a p => a ||| p.dirty) 0
  let m := match s.mashOf ltn with
    | some m => m.valid
    | none => 0
  w ||| p ||| m

/-- A tile that cannot be programmed is pinned with its contents (R130, R131); past the pin limit its dirty lines are lost
and listed (R548). -/
def State.pinProg (s : State) (p : Prog) (cause : Nat) : State :=
  let ltn := p.ltn
  let held := s.dirtyLines ltn
  let s := s.dropProgs (fun q => q.id == p.id)
  let dirty := if p.dirty = 0 then 15 else p.dirty
  let lost := held ||| dirty
  let here := (s.cset 0xFFF ltn).ways.findIdx? (fun w => w.holds 0xFFF ltn)
  let pinnedNow := match here with | some w => (s.way 0xFFF ltn w).pin | none => false
  if !pinnedNow && decide (pinLimit ≤ s.pinned) then
    let s := s.poisonAdd ltn lost
    let s := (s.dropTile ltn).raise Reg.MAP_PINS.WORN_LOSS
    let s := s.tileEvent { (mkEv .critical 8 0 .lost).stat Reg.MAP_PINS.WORN_LOSS with lines := lost.toNat } ltn
    (s.settleWrites ltn).unblock ltn
  else
    match s.pinInWay p here cause dirty with
    | some (w, s) =>
      let s := { s with cache := { s.cache with mash := s.cache.mash.filter (fun m => m.ltn != ltn) } }
      let s := if pinnedNow then s else s.pinEvents ltn cause false
      let s := if s.writeThrough then s.spillPin ltn w 2 else s
      s.unblock ltn
    | none => s.addProg { p with phase := .blocked }

/-- The counter of a tile is unknown (R130): pin and re-key; a reserve tile takes another slot (R213). -/
def State.counterUnknown (s : State) (p : Prog) : State :=
  if p.why.reserve? then
    let (pl, s) := (s.retire p.psn).reservePlace
    let s := s.modProg p.id (fun p => { p with psn := pl.1, t := pl.2, phase := .counter, old := none })
    s.feedProg { p with psn := pl.1, t := pl.2, phase := .counter }
  else
    let s := (s.raise Reg.WP_STATUS.CTR_UNKNOWN).tileEvent ((mkEv .warning 7 0 .fault).stat Reg.WP_STATUS.CTR_UNKNOWN) p.ltn
    (s.queueRekey (ltnSeg p.ltn) 1 none).pinProg p 1

/-- A program's old fields are settled: it takes its WCOUNT and asks for a lane, or its tile is pinned (R129, R131,
R214). -/
def State.progReady (s : State) (p : Prog) : State :=
  let w := p.nextCount
  if !p.why.reserve? && w = 16777216 then
    let s := (s.raise Reg.CIPHER_STATUS.COUNTER_EXH).tileEvent ((mkEv .warning 10 0 .limit).stat Reg.CIPHER_STATUS.COUNTER_EXH) p.ltn
    (s.queueRekey (ltnSeg p.ltn) 1 none).pinProg p 2
  else (s.modProg p.id (fun _ => { p with wcount := w, phase := .ready })).earlyCount p w

/-- A program with known old fields is sent; behind another program of its tile it waits (R126, R129). -/
def State.sendWith (s : State) (why : PgWhy) (cls ltn : Nat) (data : Tile) (poison : BitVec 4) (f : Option FieldBlock) : State :=
  match f with
  | none => s.sendProg why cls ltn (s.tileOwner ltn) data 15 0 poison false 0
  | some f =>
    let e := s.entry (ltnSeg ltn)
    let p : Prog := { id := s.progs.next, why := why, cls := cls, ltn := ltn, psn := e.psn, t := ltnTile ltn, phase := .blocked,
                      data := data, valid := 15, poison := poison, old := some f, keyidx := e.keyidx, keyver := e.keyver,
                      allow := 2, ld := s.tileOwner ltn }
    let free := (s.tileProgs ltn).isEmpty
    let s := (s.doubleLossCopy p).addProg p
    if free then s.progReady p else s

/-! ### What a register hands on (R73 to R76, R112, R128) -/

/-- What a read gives its tile: contents, poison lines, whether a fill marks them dirty, whether it fills at all, the old
fields, and whether the tile was read. -/
structure Got where
  tile : Tile := 0
  poison : BitVec 4 := 0
  mark : Bool := false
  fill : Bool := true
  fields : Option FieldBlock := none
  ok : Bool := true
deriving DecidableEq, Repr

/-- A register retires (R73). -/
def State.dropReg (s : State) (k : TileRef) : State :=
  s.modReads (fun x => { x with regs := ldrop (fun r => r.key == k) x.regs })

/-- The programs that wait for a tile's read. -/
def State.progsFor (s : State) (k : TileRef) : List Prog :=
  s.progs.list.filter (fun p => p.ref == k && (p.phase == .read || p.phase == .counter))

/-- A program that waited for a tile read takes what it lacks, or its old fields (R127 to R129). -/
def State.giveProg (s : State) (p : Prog) (g : Got) : State :=
  if p.phase = .read then
    let miss := ~~~(p.valid ||| p.poison)
    -- a failed read leaves every sector that was not dirty poison (R128)
    let lost : BitVec 4 := if g.ok then 0 else ~~~p.dirty
    let q := { p with data := mergeTile p.data g.tile miss, poison := p.poison ||| (g.poison &&& miss) ||| lost, valid := 15,
                      old := g.fields, spoiled := p.spoiled || !g.ok }
    match g.fields with
    | some _ => s.progReady q
    | none => s.modProg p.id (fun _ => { q with phase := .counter })
  else match g.fields with
    | some f => s.progReady { p with old := some f }
    | none => s

/-- Requests that waited for a register take or join one, in arrival order, tile by tile (R74). -/
def State.missPump (s : State) : Nat → State
  | 0 => s
  | n + 1 =>
    let can := fun (w : MissWait) => match s.regOf (.logical (BitVec.ofNat 37 w.tile)) with
      | some r => r.room
      | none => decide (0 < s.regsFree)
    match s.cache.missWait.find? can with
    | none => s
    | some w =>
      let mine := s.cache.missWait.filter (fun x => x.tile == w.tile)
      let s := { s with cache := { s.cache with missWait := s.cache.missWait.filter (fun x => x.tile != w.tile) } }
      (mine.foldl (fun s x => s.serve x.act none) s).missPump n

/-- What follows a register's retirement: jobs that waited for it, waiting requests and programs, the home (R74, R87,
R91). -/
def State.afterReg (s : State) (ltn : Nat) : State :=
  let s := (s.rangeSeen ltn).waySeen ltn
  let s := s.missPump (s.cache.missWait.length + 1)
  let s := s.fabric.serving.foldl (fun s (_, t, k) =>
    let r : TileRef := .logical (BitVec.ofNat 37 t)
    if k % 4 = 2 || (s.regOf r).isSome || s.regsFree = 0 then s else s.addReg (mkReg r .noFill s.ft)) s
  s.feedProgs.pump

/-- The trace of a sampled request (R496). -/
def Reg.traced (r : Reg) (ft : Nat) (t : Trace) : Trace :=
  { t with tMap := r.tMap, tMedia := ft, sparge := r.sparge, round := r.round, keyidx := r.keyidx, psn := r.psn, busy := r.busy }

/-- A read's tile goes into its way, to its secondaries in arrival order, and to the programs that wait for it (R71, R73,
R76, R165). With no way to fill, the miss waits in its register (R71, R78). -/
def State.deliver (s : State) (r : Reg) (g : Got) : State :=
  match r.key with
  | .physical _ _ =>
    let s := s.dropReg r.key
    let ps := s.progsFor r.key
    (ps.foldl (fun s p => s.giveProg p g) s).feedProgs
  | .logical l =>
    let ltn := l.toNat
    let node := 0xFFF
    let poison := g.poison ||| s.listed ltn ||| s.lostMask ltn
    let here := (s.cset node ltn).ways.findIdx? (fun w => w.holds node ltn)
    let wants := g.fill && (r.why == .demand || r.why == .prefetch)
    let (w, s) : Option Nat × State := match r.way with
      | some w => (some w, s)
      | none => match (if wants || r.why == .rmw || r.why == .counter then here else none) with
        | some w => (some w, s)
        | none => if wants then match s.takeWay node ltn (s.tileOwner ltn) with
            | some (w, s) => (some w, s)
            | none => (none, s)
          else (none, s)
    if wants && w.isNone && r.why == .demand then
      s.modReg r.key (fun r => { r with phase := .way, tile := g.tile, fields := g.fields,
                                        job := g.poison.toNat + 16 * b2n g.mark + 32 * b2n g.ok })
    else
      let s : State := match w with
        | some w =>
          if g.fill then
            let s := s.modWay node ltn w (fun (y : Way) => { y.fill g.tile poison g.mark with ltn := ltn, node := node, pfu := r.why == RdWhy.prefetch && y.valid == 0 })
            if r.why = .demand then s.touch node ltn w else s
          else s.modWay node ltn w (fun (y : Way) => if y.valid = 0 then {} else { y with resv := false })
        | none => s
      let s := s.dropReg r.key
      let s := r.secs.foldl (fun s id =>
        (s.modAct id (fun a => { a with trace := r.traced s.ft a.trace })).serve id (some (g.tile, poison))) s
      let ps := s.progsFor r.key
      let s := ps.foldl (fun s p => s.giveProg p { g with poison := poison }) s
      s.afterReg ltn

/-- Misses that waited for a way are filled where one has become eligible (R71). -/
def State.retryWays (s : State) : State :=
  (s.reads.regs.filter (fun r => r.phase == .way)).foldl (fun (s : State) r =>
    s.deliver r { tile := r.tile, poison := BitVec.ofNat 4 (r.job % 16), mark := decide (16 ≤ r.job % 32), fields := r.fields,
                  ok := decide (32 ≤ r.job) }) s

/-- A tile is filled as dirty, poison or mirror data, for its next program to store (R112, R159). -/
def State.fillDirty (s : State) (ltn : Nat) (t : Tile) (poison : BitVec 4) (cls : Nat) : State :=
  match (s.cset 0xFFF ltn).ways.findIdx? (fun w => w.holds 0xFFF ltn) with
  | some w => s.modWay 0xFFF ltn w (fun y => y.fill t poison true)
  | none => match s.takeWay 0xFFF ltn (s.tileOwner ltn) with
    | some (w, s) => s.modWay 0xFFF ltn w (fun y => { y.fill t poison true with ltn := ltn, node := 0xFFF })
    | none => s.sendProg .poisonFix cls ltn (s.tileOwner ltn) t 15 0 poison false 0

/-! ### Mirror messages of the read path (R110, R300, R301) -/

/-- The mirror is asked for a tile; BOUNDED is trailer bit 5 (R110, R300). The TID is even for a bounded MRD. -/
def State.sendMrd (s : State) (ltn : Nat) (bounded : Bool) : State :=
  let tid := 2 * (s.home.next % 2048) + b2n (!bounded)
  let s := s.mir 0x32 (s.entry (ltnSeg ltn)).mirror tid (4 * ltn) none 0 (32 * b2n bounded)
  let s := { s with home := { s.home with next := s.home.next + 1 } }
  s.modReads (fun x => { x with mrds := x.mrds ++ [(ltn, bounded)] })

/-- The home line of a mirrored tile of this node (R298, R299). -/
def State.mirrorHome (s : State) (ltn : Nat) : Nat :=
  match s.fabric.mirrors.find? (fun (_, m) => m.role == 1 && m.state != 0 && decide (m.mirrorLsn ≤ ltnSeg ltn)
      && decide (ltnSeg ltn < m.mirrorLsn + m.count)) with
  | some (_, m) => 4 * (ltn - m.mirrorLsn * 4096 + m.homeLsn * 4096)
  | none => 4 * ltn

/-- The MRDs of a tile served here that `p` admits are answered: a tile with its poison, or UNRECOVERED (R300). An entry is
(requester, LTN, 4 × TID + kind), kind 0 unbounded, 1 bounded. -/
def State.answerMrds (s : State) (ltn : Nat) (got : Option (Tile × BitVec 4)) (p : Nat → Bool) : State :=
  let mine := s.fabric.serving.filter (fun (_, t, k) => t == ltn && decide (k % 4 < 2) && p (k % 4))
  let s := { s with fabric := { s.fabric with serving := s.fabric.serving.filter (fun x => !mine.contains x) } }
  mine.foldl (fun s (n, _, k) =>
    let now := s.tileNow ltn
    match got.map (fun (t, m) => (mergeTile t now.1 now.2.1, (m &&& ~~~now.2.1) ||| (now.2.2 &&& now.2.1))) with
    | some (t, m) => s.mir 0x33 n (k / 4) (s.mirrorHome ltn) (some t) 0 m.toNat
    | none => s.mir 0x33 n (k / 4) (s.mirrorHome ltn) none 0 32) s

/-- Lines of a tile that are still poison take data a mirror sent, and are dirty (R110 step 6). -/
def State.mirrorFix (s : State) (ltn : Nat) (t : Tile) (poison bad : BitVec 4) : State :=
  let fix := fun (y : Way) (m : BitVec 4) =>
    { y with data := mergeTile y.data t m, valid := y.valid ||| m, poison := y.poison &&& ~~~m, dirty := y.dirty ||| m }
  match (s.cset 0xFFF ltn).ways.findIdx? (fun w => w.holds 0xFFF ltn) with
  | some w => s.modWay 0xFFF ltn w (fun y => fix y ((y.poison ||| (bad &&& ~~~y.valid)) &&& ~~~poison))
  | none =>
    let m := bad &&& ~~~poison
    if m = 0 then s
    else match s.takeWay 0xFFF ltn (s.tileOwner ltn) with
      | some (w, s) => s.modWay 0xFFF ltn w (fun y => { fix y m with ltn := ltn, node := 0xFFF })
      | none => s.sendProg .poisonFix 5 ltn (s.tileOwner ltn) t m m 0 false 0

/-- The mirror's background answer for a tile (R110 step 6): at once where the cache holds the tile, otherwise after a read
of the medium shows which lines are still poison. -/
def State.mirrorBack (s : State) (ltn : Nat) (t : Tile) (poison : BitVec 4) : State :=
  if (s.cset 0xFFF ltn).ways.any (fun w => w.holds 0xFFF ltn) then s.mirrorFix ltn t poison 0
  else
    let s := s.modReads (fun x => { x with fixes := x.fixes ++ [(ltn, t, poison)] })
    let k : TileRef := .logical (BitVec.ofNat 37 ltn)
    if (s.regOf k).isSome || s.regsFree = 0 then s else s.addReg (mkReg k .poisonFix s.ft)

/-- The lines of a tile lost with a stack are programmed as poison under the partial-write rules (R92, R93, R516). -/
def State.lostProgram (s : State) (ltn : Nat) : State :=
  let m := s.lostMask ltn
  if m = 0 then s
  else s.sendProg .poisonFix (if s.inDrydown then 1 else 4) ltn (s.tileOwner ltn) 0 m m m false 0

/-- They are taken from the mirror where the segment is mirrored, or programmed as poison (R92). -/
def State.lostFix (s : State) (ltn : Nat) : State :=
  if s.lostMask ltn = 0 then s
  else if s.mirrored (ltnSeg ltn) && !s.inDrydown then s.sendMrd ltn false else s.lostProgram ltn

/-- Mirror tiles kept for a tile are applied once its read has ended well; a read that failed leaves every line poison. -/
def State.applyFixes (s : State) (ltn : Nat) (bad : BitVec 4) : State :=
  let l := s.reads.fixes.filter (fun f => f.1 == ltn)
  let s := s.modReads (fun x => { x with fixes := x.fixes.filter (fun f => f.1 != ltn) })
  l.foldl (fun s (_, t, p) => s.mirrorFix ltn t p bad) s

/-! ### The outcomes of a read (R112, R137) -/

/-- Chunks of a register that were read, and those read and not decoded, as masks (R112). -/
def Reg.readMask (r : Reg) : Nat := (r.chunks.zipIdx).foldl (fun a (c, k) => if c.seen then a + 2 ^ k else a) 0
/-- Chunks of a register that were read and not decoded, as a mask. -/
def Reg.badMask (r : Reg) : Nat :=
  (r.chunks.zipIdx).foldl (fun a (c, k) => if c.seen && c.dec.isNone then a + 2 ^ k else a) 0

/-- Must the tile of a good read be refreshed (R112, R180)? -/
def State.wantsRefresh (s : State) (r : Reg) (round : Nat) : Bool :=
  decide (2 ≤ round) || (r.why == .patrol && r.chunks.any (fun c => c.seen && (match c.dec with
      | some d => decide (s.refreshBits ≤ d.2) || some c.gen != majority (r.chunks.filterMap (fun x => x.dec.map (fun _ => x.gen)))
      | none => true)))

/-- Records, counters and refresh of a read's outcome (R112, R116, R137, R144). -/
def State.noteEnd (s : State) (r : Reg) (ltn : Nat) (e : ReadEnd) : State :=
  let ev := fun (lv : EvLevel) (k : EvKind) (lines : Nat) =>
    { mkEv lv 6 0 k with psn := r.psn, lines := lines, media := true, detail := [r.round, r.readMask, r.badMask] }
  match e with
  | .good _ c f n =>
    let s := if n = 4 then (s.count 6 5 1).tileEvent (ev .info .changed 0) ltn else s
    match s.slotOwner r.psn with
    | some lsn => if s.wantsRefresh r n && (s.entry lsn).state == stMapped then s.refreshAdd r.psn r.t lsn c f else s
    | none => s
  | .mirror _ _ => (s.count 6 6 1).tileEvent (ev .warning .lost 0) ltn
  | .bad torn _ =>
    let kept : BitVec 4 := match r.key with | .logical _ => s.dirtyLines ltn | .physical _ _ => 0
    let s := s.count 6 7 1
    if torn then
      [0, 1, 2, 3].foldl (fun s l => if kept.getLsbD l then s
        else s.tileEvent ((ev .critical .lost (2 ^ l)).stat Reg.WP_STATUS.TEAR_SEEN) ltn) s
    else s.tileEvent (ev .critical .lost (15 - kept.toNat)) ltn

/-- What a secondary or program of the tile gets from an outcome. -/
def ReadEnd.got : ReadEnd → Got
  | .good p _ f _ => { tile := p, poison := if f.discard then 0 else f.poison, fields := some f }
  | .mirror t m => { tile := t, poison := m, mark := true }
  | .bad _ f => { poison := 15, mark := true, fields := f, ok := false }

/-- A copied tile's outcome (R158, R159, R168). -/
def State.copyRead (s : State) (lsn t : Nat) (e : ReadEnd) : State :=
  match s.map.copies.find? (fun c => c.lsn == lsn) with
  | none => s
  | some c =>
    let ltn := lsn * 4096 + t
    let listed := s.listed ltn
    let pin := if c.prev = stWorn then
        ((s.cset 0xFFF ltn).ways.find? (fun w => w.holds 0xFFF ltn && w.pin)) else none
    match e with
    | .good p cf f _ =>
      let base : Prog := { why := .copy, cls := c.why.cls, ltn := ltn, psn := c.target, t := t, phase := .ready, valid := 15,
                           allow := 2, job := lsn }
      if c.prev = stWorn ∧ (pin.isSome ∨ listed ≠ 0) then
        let ent := s.entry lsn
        let fp := if f.discard then 0 else f.poison
        let (d, po) := match pin with
          | some y => (mergeTile p y.data (y.valid &&& ~~~y.poison), (fp &&& ~~~y.valid) ||| y.poison)
          | none => (p, fp)
        let q := { base with why := .pinned, data := d, poison := po ||| (listed &&& ~~~((pin.map (fun (y : Way) => y.valid)).getD 0)),
                             keyidx := ent.keyidx, keyver := ent.keyver, old := some f }
        s.addProg { q with wcount := q.nextCount }
      else s.addProg { base with data := cf, raw := some f, wcount := f.wcount.toNat }
    | .mirror d m => (s.copyTileDone lsn t).fillDirty ltn d m c.why.cls
    | .bad _ _ => (s.copyTileDone lsn t).fillDirty ltn 0 15 c.why.cls

/-- Lines of a tile that the patrol or Scan Media found to be poison join the device's poison list (R238). -/
def State.noteLines (s : State) (ltn : Nat) (m : BitVec 4) : State :=
  ([0, 1, 2, 3].filter (fun l => m.getLsbD l)).foldl (fun s l => s.notePoison (4 * ltn + l) true) s

/-- The patrol's part (R179, R180, R183, R184). -/
def State.patrolRead (s : State) (r : Reg) (e : ReadEnd) : State :=
  match r.key with
  | .logical l =>
    let ltn := l.toNat
    let s := s.noteLines ltn (match e with | .good _ _ f _ => if f.discard then 0 else f.poison | .mirror _ m => m | .bad _ _ => 15)
    let dirty := ((s.cset 0xFFF ltn).ways.any (fun w => w.holds 0xFFF ltn && w.dirty != 0))
      || s.cache.mash.any (fun m => m.ltn == ltn) || !(s.tileProgs ltn).isEmpty
    match e with
    | .good _ _ _ _ => s
    | .mirror t m => if dirty then s else s.sendProg .patrolFix 5 ltn (s.tileOwner ltn) t 15 0 m false 0
    | .bad torn _ =>
      let s := s.tallyTile (ltnSeg ltn)
      if dirty || torn then (if torn && !dirty then s.fillDirty ltn 0 15 5 else s)
      else s.sendProg .patrolFix 5 ltn (s.tileOwner ltn) 0 15 0 15 false 0
  | .physical p _ =>
    let psn := p.toNat
    if dataSlots ≤ psnSlot psn then s
    else match e with
      | .good _ _ _ n =>
        if s.wantsRefresh r n then
          let k := mget 0 s.patrol.freeTally psn + 1
          let s := s.modPatrol (fun p => { p with freeTally := mset 0 p.freeTally psn k })
          if s.relocTiles ≤ k && s.slotFree psn then s.releaseSlot psn 0 false false false else s
        else s
      | _ => if s.slotFree psn then s.releaseSlot psn 0 false false false else s

/-- A rebuild's tile (R190): its chunk is programmed on the spare, or the tile whole; a program of the tile issued since leaves nothing
to do. The cursor moves on as the program is issued; in a set with two lost members no program of a reserve tile can be, and the cursor
moves on at once (DESIGN CHOICE, log 190). -/
def State.rebuildRead (s : State) (r : Reg) (e : ReadEnd) : State :=
  if r.stale then s
  else match e with
  | .good _ c f _ => (s.rebuildChunk r.job r.psn r.t c f).rebuildGo
  | e =>
    let g := e.got
    match r.key with
    | .logical l => s.sendProg .poisonFix 4 l.toNat (s.tileOwner l.toNat) g.tile 15 0 g.poison false 0
    | .physical p t =>
      let q : Prog := { why := .reserve, cls := 4, ltn := noLtn, psn := p.toNat, t := t.toNat, phase := .counter, valid := 15, poison := 15,
                        id := s.progs.next, allow := 2 }
      let s := (s.addProg q).feedProg q
      if 2 ≤ s.lost (psnSet r.psn) then s.rebuildNext (psnSet r.psn) r.job else s

/-- A re-key's tile (R215, R216, R548): skipped when it is at the new version or discarded and no line of it is in the poison list,
else programmed. -/
def State.rekeyRead (s : State) (lsn t : Nat) (e : ReadEnd) : State :=
  let ltn := lsn * 4096 + t
  let listed := s.listed ltn
  match e with
  | .good p _ f _ =>
    if listed == 0 && (f.discard || f.keyver.toNat == (s.entry lsn).keyver) then
      s.modRun lsn (fun r => { r with out := r.out.erase t })
    else s.sendWith .rekey 6 ltn p ((if f.discard then 0 else f.poison) ||| listed) (some f)
  | e => s.sendWith .rekey 6 ltn e.got.tile (e.got.poison ||| listed) none

/-- A pattern tile read back for MEDIA_PATTERN: one that is not as written is an error of the test, with the CRC-32C of the pattern
and of what was read (R425, R427). -/
def State.patternRead (s : State) (ltn : Nat) (g : Got) : State :=
  let want := Config.patternTile ltn
  let go := fun (t : SelfTest) =>
    if !t.back.contains ltn then t
    else
      let t := { t with back := t.back.erase ltn }
      let n := BitVec.ofNat 37 ltn
      if g.tile == want && g.poison == 0 then t
      else { t with errors := t.errors ++ [{ point := 0, addr := BitVec.ofNat 64 ltn, expected := tileCrc want n, found := tileCrc g.tile n }] }
  { s with maint := { s.maint with tests := s.maint.tests.map go } }

/-- A tile read for Scan Media: its poison lines are recorded (R238). -/
def State.scanRead (s : State) (ltn : Nat) (g : Got) : State :=
  let poison := g.poison ||| s.listed ltn
  let lines := ([0, 1, 2, 3].filter (fun l => poison.getLsbD l)).map (4 * ltn + ·)
  let s := s.noteLines ltn poison
  let ld := s.tileOwner ltn
  { s with host := { s.host with scanRes := mmod [] s.host.scanRes ld (fun x => x ++ lines.filter (fun k => !x.contains k)) } }

/-- A tile read for a resynchronisation goes to the mirror as RSYNC, with what the cache path holds of it (R301). -/
def State.rsyncRead (s : State) (ltn : Nat) (g : Got) : State :=
  let (t, v, p) := s.tileNow ltn
  let poison := g.poison ||| s.listed ltn
  let tile := mergeTile t g.tile (~~~v)
  let po := (p &&& v) ||| (poison &&& ~~~v)
  -- a write admitted, its MWR sent, and not yet placed is part of the copy
  let open_ := s.home.act.filter (fun a => a.wantMirror && !a.answered && a.phase != .placed && keyTile a.req.line == ltn
    && decide (a.req.line < 2 ^ 39))
  let (tile, po) := open_.foldl (fun (x : Tile × BitVec 4) a =>
    let l := a.req.line % 4
    if a.req.poison then (x.1, x.2 ||| lbit l)
    else (putLine x.1 l (mergeLine (x.1.line l) a.req.data a.req.mask),
          if a.req.mask = BitVec.allOnes 64 then x.2 &&& ~~~(lbit l) else x.2)) (tile, po)
  let s := s.mir 0x36 (s.entry (ltnSeg ltn)).mirror (s.home.next % 4096) (4 * ltn) (some tile) 0 po.toNat
  { s with home := { s.home with next := s.home.next + 1 } }

/-- A read ends: its record, what its purpose makes of it, and what its register hands on. -/
def State.readEnd (s : State) (r : Reg) (e : ReadEnd) : State :=
  match r.key with
  | .logical l =>
    let ltn := l.toNat
    let g := e.got
    let bad : Bool := match e with | .bad _ _ => true | _ => false
    if r.why = .prefetch ∧ r.secs.isEmpty ∧ bad then
      let s := match r.way with
        | some w => s.modWay 0xFFF ltn w (fun y => if y.valid = 0 then {} else { y with resv := false })
        | none => s
      ((s.dropReg r.key).count 4 5 1).afterReg ltn
    else
      let s := s.noteEnd r ltn e
      let s := s.answerMrds ltn (some (g.tile, g.poison ||| s.listed ltn)) (fun _ => true)
      let s := match r.why with
        | .copy => s.copyRead r.job (ltnTile ltn) e
        | .rekey => s.rekeyRead r.job (ltnTile ltn) e
        | .rebuild => s.rebuildRead r e
        | .patrol => (s.addBits r).patrolRead r e
        | .scan => s.scanRead ltn g
        | .selfTest => s.patternRead ltn g
        | .resync => s.rsyncRead ltn g
        | .noFill => if bad && r.secs.isEmpty then s.patrolRead r e else s
        | _ => s
      ((s.deliver r g).applyFixes ltn g.poison).retryWays
  | .physical _ _ =>
    let told : Bool := match e with | .bad _ _ => true | .good _ _ _ n => n == 4 | .mirror _ _ => false
    let s := if told && r.why != .counter then s.noteEnd r 0 e else s
    let s := match r.why with
      | .rebuild => s.rebuildRead r e
      | .patrol => (s.addBits r).patrolRead r e
      | _ => s
    s.deliver r e.got

/-- A read that ended well reaches the cache writer, which verifies the tile's CRC before a fill: a mismatch has the tile resent
(R48, R49, R65). -/
def State.fillEnd (s : State) (r : Reg) (e : ReadEnd) : State :=
  match r.key with
  | .physical _ _ => s.readEnd r e
  | .logical l =>
    let t := e.got.tile
    let fills := r.way.isSome || r.why == .demand || r.why == .prefetch
    if fills && e.got.ok && !s.crcGood 3 0 t l.toNat then
      let s := (s.setF Reg.CRC_INJECT.ARM 0).planeMiss.unitMiss
      let s := s.tileEvent { mkEv .warning 4 3 .fault with detail := [3, 0] } l.toNat
      s.modReg r.key (fun q => { q with phase := .resend, end_ := some e })
    else s.readEnd r e

/-- The end of a read with the tile that its source sent again. -/
def ReadEnd.resent (e : ReadEnd) (t : Tile) : ReadEnd :=
  match e with
  | .good _ c f n => .good (if f.discard then 0 else t) c f n
  | .mirror _ m => .mirror t m
  | .bad b f => .bad b f

/-- A discard starts; reads that waited for a way are tried again (R71). -/
def State.discardNow (s : State) (scope : DiscScope) (secure : Bool) (runs : List (Nat × Nat)) (src : Option CmdSrc)
    (fromReg : Bool) (why dpa : Nat) : State := (s.discStart scope secure runs src fromReg why dpa).retryWays

/-- A range job is held, and reads that waited for a way are tried again (R71, R86). -/
def State.rangeNow (s : State) (j : RangeJob) : State := (s.rangeQueue j).retryWays

/-! ### Rounds and deep recovery (R108 to R113) -/

/-- The next row of R108 with reads, after the register's round; none when no enabled row is left. -/
def State.nextRow (s : State) (r : Reg) : Nat → Option Reg
  | 0 => none
  | n + 1 =>
    let q := { r with round := r.round + 1 }
    if 3 < q.round then none
    else if 2 ≤ q.round ∧ (!bitAt r.cfg 0 ∨ (r.why = .prefetch ∧ r.secs.isEmpty)) then none
    else if (s.roundReads q).isEmpty then s.nextRow q n
    else some q

/-- DEEP_MAX in force for a register (R117). -/
def Reg.deepMax (r : Reg) : Nat :=
  let v := bitsOf r.cfg 4 6
  if 1 ≤ v ∧ v ≤ 32 then v else 32

/-- Deep recoveries in progress, those in their mirror fetch included, of the patrol or of all. -/
def State.deepActive (s : State) (patrol : Bool) : Nat :=
  (s.reads.regs.filter (fun r => (r.phase == .deep || (r.phase == .mirror && r.round == 4)) && (!patrol || r.why == .patrol))).length

/-- Must a read wait for a deep recovery: DEEP_MAX are in progress, or for the patrol half of them are its own (R111, R179)? -/
def State.deepFull (s : State) (r : Reg) : Bool :=
  decide (r.deepMax ≤ s.deepActive false) || (r.why == .patrol && decide (r.deepMax / 2 ≤ s.deepActive true))

/-- May the register go into deep recovery (R109, R113, R130, R179)? -/
def State.mayDeep (s : State) (r : Reg) : Bool :=
  bitAt r.cfg 1 && r.why != .counter && !(r.why == .prefetch && r.secs.isEmpty)
    && !(r.why == .patrol && !s.flag Reg.PATROL_CFG.PATROL_DEEP)

/-- The mirror's copy is asked for where there is one: after deep recovery if MIRROR_FETCH allows it, for a torn tile in any case
(R110 step 6, R113, R137). -/
def State.mirrorAsk (s : State) (r : Reg) (torn : Bool) : Option State :=
  match r.key with
  | .logical l =>
    if (bitAt r.cfg 2 || torn) && s.mirrored (ltnSeg l.toNat) then
      some ((s.modReg r.key (fun r => { r with phase := .mirror })).sendMrd l.toNat true)
    else none
  | .physical _ _ => none

/-- The last row has failed: deep recovery, or a wait for a free one; otherwise the failure outcome (R110 to R113), for the patrol with
the mirror's copy where there is one (R183). A bounded MRD served here is answered UNRECOVERED (R300). -/
def State.lastRow (s : State) (r : Reg) (f : Option FieldBlock) : State :=
  let s := match r.key with
    | .logical l => s.answerMrds l.toNat none (· == 1)
    | .physical _ _ => s
  if s.mayDeep r then
    let s := s.modReg r.key (fun r => { r with phase := .deepWait, fields := f })
    if s.deepFull r then s.raise Reg.RP_STATUS.DEEP_OVER else s
  else match (if r.why = .patrol then s.mirrorAsk r false else none) with
    | some s => s
    | none => s.readEnd r (.bad false f)

end Sys2Proof.Machine
end

