-- ==== Sys2Proof/Machine/HeadOps.lean ====
section
/-!
DEFINITION. What the reset of a head, a port or an LD function does, as shared operations (spec/09, R226 to R230, R245, R246;
spec/10, R257, R265): the acts of the head's hosts, its snoops and BI slots, decoders, mailboxes, queues, keys and sessions,
and the assignment of LDs that takes effect at it.
-/

namespace Sys2Proof.Machine

/-- The host state changed. -/
def State.modHost (s : State) (f : HostSt → HostSt) : State := { s with host := f s.host }

/-- A head's own state changed. -/
def State.modHead (s : State) (h : Nat) (f : HeadSt → HeadSt) : State :=
  s.modHost (fun x => { x with heads := mmod {} x.heads h f })

/-- LDs that a head holds (R229). -/
def State.headLds (s : State) (h : Nat) : List Nat := (List.range 64).filter (fun n => (s.ldAsg n).head == h)

/-- The configuration in force of a port (R226, R248): the bits of HP_PORT_CFG, its first-format value at first. -/
def State.portCfg (s : State) (p : Nat) : Nat := mget 0x3A s.host.ports p

/-- Does a head exist: the even head of a port, or the odd one of a split port (R226)? -/
def State.headExists (s : State) (h : Nat) : Bool := h % 2 == 0 || bitAt (s.portCfg (h / 2)) 0

/-- An SPDM session ends: its transport KEK is dropped with it (R205, R241). -/
def State.endSessions (s : State) (p : Session → Bool) : State :=
  { s with keys := { s.keys with sessions := s.keys.sessions.filter (fun x => !p x) } }

/-- An LD function's mailbox, MSI-X and queues reset (R245, R409). -/
def State.fnReset (s : State) (ld : Nat) : State :=
  let s := s.dropQueues (· == ld)
  s.modHost (fun x => { x with
    mbox := x.mbox.filter (fun (p, _) => 128 ≤ p || p % 64 != ld)
    bgs := x.bgs.filter (fun (p, _) => p != ld)
    msgLimit := x.msgLimit.filter (fun (p, _) => 128 ≤ p || p % 64 != ld)
    busMaster := x.busMaster.filter (fun (p, _) => p != ld)
    msixMasked := x.msixMasked.filter (fun (p, _) => p != ld) })

/-- The decoders of an LD reset (R245). -/
def State.dropDecoders (s : State) (ld : Nat) : State :=
  s.modHost (fun x => { x with decoders := x.decoders.filter (fun (k, _) => k / 4 != ld) })

/-- The requests of a head's hosts at its reset: reads in flight are dropped without a response, writes go on without one
(R121, R246). -/
def State.dropHostReqs (s : State) (h : Nat) : State :=
  let mine := fun (r : HReq) => match r.src with | .host x _ _ => x == h | _ => false
  let own := fun (r : HReq) => if mine r then { r with src := .own r.ld, sampled := false } else r
  let keep := fun (l : List HReq) => (l.filter (fun r => !mine r || r.op.write?)).map own
  { s with home := { s.home with
      act := s.home.act.map (fun a => { a with req := own a.req })
      wait := keep s.home.wait
      stall := keep s.home.stall
      conflicts := s.home.conflicts.filter (fun c => (s.ldAsg c.1).head != h) } }

/-- The snoops out to a BI slot are taken as answered BIRspI (R246, R266). -/
def State.snoopsGone (s : State) (i : Nat) : State :=
  let n := ((s.home.act.map (fun a => (a.snoops.filter (fun x => x.dest == .slot i)).length)).sum)
    + ((s.home.owed.map (fun o => (o.snoops.filter (fun x => x.dest == .slot i)).length)).sum)
  (List.range n).foldl (fun s _ => s.snoopAnswered (.slot i) (fun _ => true) false) s

/-- A BI slot enters purging (R257). -/
def State.slotPurge (s : State) (i : Nat) : State :=
  let s := s.snoopsGone i
  (s.raise (Reg.COH_SLOT.PURGING i)).raise Reg.COH_STATUS.PURGING

/-- The BI slots of an LD enter purging; a wait of the LD for a slot ends. -/
def State.ldSlotsPurge (s : State) (ld : Nat) : State :=
  let s := { s with home := { s.home with slotWait := s.home.slotWait.filter (· != ld) } }
  match s.slotOf ld with
  | some i => s.slotPurge i
  | none => s

/-- An HDM-DB LD takes a slot at the reset that makes it so, once no slot of its own is purging (R257). -/
def State.ldSlotTake (s : State) (ld : Nat) : State :=
  if !(s.ldAsg ld).db || (s.slotOf ld).isSome then s
  else if (List.range 32).any (fun i => s.flag (Reg.COH_SLOT.PURGING i) && s.getF (Reg.COH_SLOT.LD i) == ld)
      || (List.range 32).all (fun i => s.flag (Reg.COH_SLOT.VALID i) || s.flag (Reg.COH_SLOT.PURGING i)) then
    { s with home := { s.home with slotWait := s.home.slotWait.filter (· != ld) ++ [ld] } }
  else s.takeSlot ld

/-- A head goes into reset (R245, R246): its link is down, its LD functions and decoders are in their power-on state, IDE
streams and the sessions of its DOE instances have ended, and its LDs leave the directory. -/
def State.headReset (s : State) (h : Nat) : State :=
  let lds := s.headLds h
  let s := s.dropHostReqs h
  let s := lds.foldl (fun s ld => (((s.ldSlotsPurge ld).dropDecoders ld).fnReset ld).endSessions
    (fun x => match x.at_ with | .doe l => l.val == ld | .smbus _ => false)) s
  let s := s.modHead h (fun x => { x with rwdOut := 0, withheld := false, key := none, standby := none })
  let s := s.modHost (fun x => { x with gpf := x.gpf.filter (· != h), mbox := x.mbox.filter (fun (p, _) => p != 128 + h)
                                        bgs := x.bgs.filter (fun (p, _) => p != 64 + h) })
  let s := s.setF (Reg.HP_HEAD_STAT.LINK_UP h) 0
  let s := (s.setF (Reg.HP_HEAD_STAT.WIDTH h) 0).setF (Reg.HP_HEAD_STAT.RATE h) 0
  ((s.setF (Reg.HP_HEAD_STAT.FLIT256 h) 0).setF (Reg.HP_HEAD_STAT.IDE_ACTIVE h) 0).pump

/-- An assignment of LD `n` written to HP_LD_CFG and whose heads have all reset takes effect (R229, R248). -/
def State.ldApply (s : State) (n : Nat) : State :=
  let a : LdAsg := { head := s.getF (Reg.HP_LD_CFG.HEAD n), ldId := s.getF (Reg.HP_LD_CFG.LD_ID n), db := s.flag (Reg.HP_LD_CFG.DB n) }
  let s := if (s.ldAsg n).db && !a.db then s.ldSlotsPurge n else s
  s.modHost (fun x => { x with ld := mset { head := 2 * (n % 4), ldId := n / 4 } x.ld n a })

/-- The reset of a head has ended (R229, R246, R257): assignments that waited for it take effect, its HDM-DB LDs take
their BI slots, and it trains. -/
def State.headResetEnd (s : State) (h : Nat) : State :=
  let s := (List.range 64).foldl (fun s n =>
    let a := s.ldAsg n
    if !a.heads.contains h then s
    else
      let rest := a.heads.erase h
      if rest.isEmpty then s.ldApply n
      else s.modHost (fun x => { x with ld := mset { head := 2 * (n % 4), ldId := n / 4 } x.ld n { a with heads := rest } })) s
  let s := (s.headLds h).foldl (fun s ld => s.ldSlotTake ld) s
  s.setF (Reg.HP_HEAD_STAT.IN_RESET h) 0

/-- A port's configuration takes effect at its fundamental reset (R226, R248). -/
def State.portApply (s : State) (p : Nat) : State :=
  let w := s.word (0xA0000 + 4 * p) % 64
  let rate := bitsOf w 1 3
  let w := if rate ≤ 5 then w else putBits w 1 3 5
  s.modHost (fun x => { x with ports := mset 0x3A x.ports p w })

end Sys2Proof.Machine
end

