-- ==== Sys2Proof/Machine/Heads.lean ====
section
/-!
DEFINITION. Events of the heads, ports and LD functions (spec/09, R226 to R247; spec/10, R266): resets, link training, IDE,
GPF, SPDM, DOE, the fabric manager's allocations, and decoder commits.
-/

namespace Sys2Proof.Machine

/-- BISNP_TIMEOUT (R266): the error is reported, the head's link goes down and the head resets, which takes the snoop as
answered BIRspI. -/
def execBisnpTimeout (h : HeadNo) (biTag : Fin 64) (s : State) : Res :=
  match s.snoopOf h.val biTag.val with
  | none => .next s
  | some _ =>
    let s := (s.raise Reg.COH_STATUS.BI_TIMEOUT).emit (.uncorrectable h.val)
    let s := s.event ({ mkEv .warning 5 h.val .limit with detail := [biTag.val] }.stat Reg.COH_STATUS.BI_TIMEOUT) none
    .next ((s.headReset h.val).headResetEnd h.val)

/-- PERST_N_ASSERT (R245): the heads of the port go into reset. -/
def execPerstNAssert (p : PortNo) (s : State) : Res :=
  if !s.host.perst.getLsbD p.val then .next s
  else
    let s := s.modHost (fun x => { x with perst := x.perst &&& ~~~(1#4 <<< p.val) })
    let down := fun (s : State) (h : Nat) => (s.headReset h).raise (Reg.HP_HEAD_STAT.IN_RESET h)
    .next (down (down s (2 * p.val)) (2 * p.val + 1))

/-- PERST_N_RELEASE (R226, R246, R248): the port's configuration is in force and its heads train. -/
def execPerstNRelease (p : PortNo) (s : State) : Res :=
  if s.host.perst.getLsbD p.val then .next s
  else
    let s := (s.modHost (fun x => { x with perst := x.perst ||| (1#4 <<< p.val) })).portApply p.val
    let s := s.headResetEnd (2 * p.val)
    .next (if s.headExists (2 * p.val + 1) then s.headResetEnd (2 * p.val + 1) else s)

/-- HOT_RESET (R245): a hot reset, link disable or link down resets one head. -/
def execHotReset (h : HeadNo) (s : State) : Res :=
  .next (s.when (s.headExists h.val && !s.flag (Reg.HP_HEAD_STAT.IN_RESET h.val)) (fun s => (s.headReset h.val).headResetEnd h.val))

/-- Configured width of a head: x16, or x8 on a split port (R226). -/
def State.headWidth (s : State) (h : Nat) : Nat := if bitAt (s.portCfg (h / 2)) 0 then 8 else 16

/-- HEAD_LINK_UP (R227, R246, R370, R530): the head's link trains; narrower than configured is a warning. -/
def execHeadLinkUp (h : HeadNo) (width : BitVec 5) (rate : BitVec 3) (flit256 : Bool) (s : State) : Res :=
  let k := h.val
  if !s.headExists k || s.flag (Reg.HP_HEAD_STAT.IN_RESET k) || s.headUp k || !s.host.mailbox || s.host.refAbsent.getLsbD (k / 2) then
    .next s
  else
    let s := (s.raise (Reg.HP_HEAD_STAT.LINK_UP k)).setF (Reg.HP_HEAD_STAT.WIDTH k) width.toNat
    let s := (s.setF (Reg.HP_HEAD_STAT.RATE k) rate.toNat).setFlag (Reg.HP_HEAD_STAT.FLIT256 k) flit256
    .next (if width.toNat < s.headWidth k then s.event { mkEv .warning (k / 2) k .changed with detail := [width.toNat] } none else s)

/-- REFCLK_RETURN (R530): a reference clock is present, and the heads or links it feeds leave electrical idle. -/
def execRefclkReturn (w : RefClk) (s : State) : Res :=
  let i := match w with
    | .port p => p.val
    | .dorosh => 4
  .next (s.modHost (fun x => { x with refAbsent := x.refAbsent &&& ~~~(1#5 <<< i) }))

/-- The runs of segments of an LD's blocks of the kinds given (R231). -/
def State.ldRuns (s : State) (ld : Nat) (p : Block → Bool) : List (Nat × Nat) :=
  (s.host.blocks.filter (fun (_, b) => b.ld == ld && p b)).map (fun (b, _) => (256 * b, 256))

/-- CXL_RESET (R245, R409): the LD's decoders and queues reset; with Memory Clear its segments are discarded (R173). -/
def execCxlReset (ld : LdNo) (memClear : Bool) (s : State) : Res :=
  let s := (s.dropDecoders ld.val).dropQueues (· == ld.val)
  if memClear && s.host.memActive && !s.inDrydown then
    .next (s.discardNow .segments (s.discSecure 0) (s.ldRuns ld.val (fun b => b.kind != 0)) none false 0 0)
  else .next s

/-- FUNCTION_LEVEL_RESET (R245, R409): CXL.io state, mailbox, MSI-X and queues of the LD function reset. -/
def execFunctionLevelReset (ld : LdNo) (s : State) : Res := .next (s.fnReset ld.val)

/-- IDE_INTEGRITY_FAILURE (R242): the head drops flits, reports the error and takes its link down. -/
def execIdeIntegrityFailure (h : HeadNo) (s : State) : Res :=
  if !s.flag (Reg.HP_HEAD_STAT.IDE_ACTIVE h.val) then .next s
  else
    let s := ((s.raise (Reg.HP_HEAD_STAT.IDE_FAULT h.val)).count (h.val / 2) 7 1).emit (.uncorrectable h.val)
    let s := (s.headReset h.val).headResetEnd h.val
    .next (s.modHead h.val (fun x => { x with ideNeeded := true }))

/-- GPF_PHASE2 (R239): writes that hold credit complete, then the request is answered. -/
def execGpfPhase2 (h : HeadNo) (s : State) : Res :=
  .next (s.when (s.headUp h.val) (fun s => (s.modHost (fun x => { x with gpf := x.gpf.filter (· != h.val) ++ [h.val] })).pump))

/-- SPDM_KEY_EXCHANGE (R241): a session opens, or Busy beyond 16 sessions. -/
def execSpdmKeyExchange (at_ : DoeOn) (session : BitVec 32) (withMutual : Bool) (secret : BitVec 256) (s : State) : Res :=
  if 16 ≤ s.keys.sessions.length || s.keys.wiped then .next (s.emit (.spdm session false))
  else
    let x : Session := { id := session, at_ := at_, withMutual := withMutual, secret := secret }
    let s := s.endSessions (fun y => y.id == session)
    .next ({ s with keys := { s.keys with sessions := s.keys.sessions ++ [x] } }.emit (.spdm session true))

/-- SPDM_SESSION_END (R205, R241): the session ends and its transport KEK is dropped. -/
def execSpdmSessionEnd (session : BitVec 32) (s : State) : Res := .next (s.endSessions (fun x => x.id == session))

/-- IDE_KM_KEY_PROG (R242): a key arrives in a secured session: the first for the stream, then for the standby slot. -/
def execIdeKmKeyProg (session : BitVec 32) (h : HeadNo) (key : BitVec 256) (s : State) : Res :=
  if !s.keys.sessions.any (fun x => x.id == session) || s.keys.wiped then .next s
  else if s.flag (Reg.HP_HEAD_STAT.IDE_ACTIVE h.val) then .next (s.modHead h.val (fun x => { x with standby := some key }))
  else
    let s := s.modHead h.val (fun x => { x with key := some key, ideNeeded := false })
    .next (s.raise (Reg.HP_HEAD_STAT.IDE_ACTIVE h.val))

/-- DOE_DISCOVERY (R241): the protocol at an index: vendor, type and next index. -/
def execDoeDiscovery (ld : LdNo) (index : BitVec 8) (s : State) : Res :=
  let (v, t, n) := [(1, 0, 1), (1, 1, 2), (1, 2, 3), (0x1E98, 2, 0)].getD index.toNat (0xFFFF, 0, 0)
  .next (s.emit (.doe ld.val 0 (leBytes v 2 ++ leBytes t 1 ++ leBytes n 1)))

/-- Link rate of a head in MB/s: width times rate, in thousandths of GT/s, over eight (R243). -/
def State.linkRate (s : State) (h : Nat) : Nat :=
  s.getF (Reg.HP_HEAD_STAT.WIDTH h) * [2500, 5000, 8000, 16000, 32000, 64000].getD (s.getF (Reg.HP_HEAD_STAT.RATE h)) 0 / 8

/-- CDAT_READ (R243): one DSMAS range, and the latencies and bandwidths of DSLBIS, in that order. -/
def execCdatRead (ld : LdNo) (s : State) : Res :=
  let r := s.linkRate (s.ldAsg ld.val).head
  let cap := s.staticBlocks ld.val * 2 ^ 28
  .next (s.emit (.doe ld.val 2 (leBytes 0 8 ++ leBytes cap 8 ++ leBytes 380 8 ++ leBytes 120 8 ++ leBytes r 8 ++ leBytes r 8)))

/-! ### The fabric manager's allocations (R231, R232, R235) -/

/-- Device blocks (R231). -/
def State.blockCount (s : State) : Nat := 65536 * s.pkgs

/-- The first `n` free blocks from block `b` upwards, looking at `fuel` blocks. -/
def State.freeBlocksFrom (s : State) (b n : Nat) : Nat → List Nat
  | 0 => []
  | fuel + 1 =>
    if n = 0 then [] else if (s.block b).kind = 0 then b :: s.freeBlocksFrom (b + 1) (n - 1) fuel
    else s.freeBlocksFrom (b + 1) n fuel

/-- Free blocks (R231). -/
def State.freeBlockCount (s : State) : Nat := s.blockCount - s.host.blocks.length

/-- A block is released: its segments are discarded with the variant of SECURE_DEFAULT, then it is free (R232, R236). -/
def State.releaseBlock (s : State) (b : Nat) : State :=
  let s := s.modHost (fun x => { x with blocks := mmod {} x.blocks b (fun y => { y with releasing := true }) })
  s.discardNow .segments (s.discSecure 0) [(256 * b, 256)] none false (2 ^ 21 + b) 0

/-- Has a block a segment with its CASK flag set (R170, R236)? -/
def State.blockCask (s : State) (b : Nat) : Bool := s.map.entries.any (fun (l, e) => l / 256 == b && e.cask)

/-- FM_LD_ALLOCATE (R232): the LD's static capacity grows by free blocks in ascending order, or releases its highest. -/
def execFmLdAllocate (ld : LdNo) (blocks : BitVec 18) (s : State) : Res :=
  let n := blocks.toNat
  let mine := s.host.blocks.filter (fun (_, b) => b.kind == 1 && b.ld == ld.val && !b.releasing)
  let have_ := mine.length
  if s.keys.lifecycle = 3 then .next s
  else if have_ ≤ n then
    if s.freeBlockCount < n - have_ then .next s
    else
      let new := s.freeBlocksFrom 0 (n - have_) s.blockCount
      let put := fun (m : SMap Block) (x : Nat × Nat) => mset {} m x.1 { kind := 1, ld := ld.val, num := have_ + x.2 }
      .next (s.modHost (fun x => { x with blocks := new.zipIdx.foldl put x.blocks }))
  else
    let out := mine.filter (fun (_, b) => decide (n ≤ b.num))
    if !s.host.memActive || s.inDrydown || out.any (fun (b, _) => s.blockCask b) then .next s
    else .next (out.foldl (fun s (b, _) => s.releaseBlock b) s)

/-- The extents of an LD's region: accepted, and offered and not yet answered (R235). -/
def State.regionExtents (s : State) (ld r : Nat) : List DcExtent :=
  (s.host.dcExtents.filter (fun (l, e) => l == ld && e.region.val == r)).map (·.2)
    ++ s.host.dcOffers.flatMap (fun o => if o.ld = ld ∧ o.region = r then o.extents else [])

/-- Do two extents share a block? -/
def extMeets (a b : DcExtent) : Bool :=
  decide (a.first.toNat < b.first.toNat + b.count.toNat) && decide (b.first.toNat < a.first.toNat + a.count.toNat)

/-- The import that reserves an extent's blocks, if one does (R295). -/
def State.importOf (s : State) (ld r : Nat) (e : DcExtent) : Bool :=
  s.fabric.imports.any (fun (_, m) => m.valid && !m.gone && m.ld == ld && m.region == r && decide (m.first ≤ e.first.toNat)
    && decide (e.first.toNat + e.count.toNat ≤ m.first + m.count))

/-- Does an extent meet blocks an import reserves (R295)? -/
def State.importMeets (s : State) (ld r : Nat) (e : DcExtent) : Bool :=
  s.fabric.imports.any (fun (_, m) => m.valid && m.ld == ld && m.region == r && decide (m.first < e.first.toNat + e.count.toNat)
    && decide (e.first.toNat < m.first + m.count))

/-- FM_ADD_DC (R235, R295): the blocks are held for the LD and the DC event record is raised; a refused add changes
nothing. -/
def execFmAddDc (ld : LdNo) (region : Fin 2) (extents : List DcExtent) (s : State) : Res :=
  let n := ld.val
  let r := region.val
  let old := s.regionExtents n r
  let own := extents.filter (fun e => !s.importOf n r e)
  let need := (own.map (fun e => e.count.toNat)).sum
  let clash := extents.zipIdx.any (fun (e, i) => e.count = 0 || e.region != region || decide (dcBlocks < e.first.toNat + e.count.toNat)
    || old.any (fun o => extMeets o e) || (extents.zipIdx.any (fun (o, j) => j < i && extMeets o e))
    || (!s.importOf n r e && s.importMeets n r e)
    || s.host.blocks.any (fun (_, b) => b.kind == r + 2 && b.ld == n && decide (e.first.toNat ≤ b.num) && decide (b.num < e.first.toNat + e.count.toNat)))
  if extents.isEmpty || clash || 256 < old.length + extents.length || s.freeBlockCount < need || s.keys.lifecycle = 3 then .next s
  else
    let bs := s.freeBlocksFrom 0 need s.blockCount
    let nums := own.flatMap (fun e => (List.range e.count.toNat).map (e.first.toNat + ·))
    let put := fun (m : SMap Block) (x : Nat × Nat) => mset {} m x.1 { kind := r + 2, ld := n, num := x.2 }
    let o : DcAdd := { ld := n, region := r, extents := extents, blocks := bs }
    let s := s.modHost (fun x => { x with blocks := (bs.zip nums).foldl put x.blocks, dcOffers := x.dcOffers ++ [o] })
    .next (extents.foldl (fun s e => s.event { mkEv .dynCap (s.ldAsg n).head n .changed with
      detail := [r, e.first.toNat, e.count.toNat] } (some n)) s)

/-! ### Decoders (R233) -/

/-- May decoder `d` of the LD commit with a configuration (R230, R233, R426)? -/
def State.commitOk (s : State) (ld d : Nat) (c : DecoderCfg) : Bool :=
  let free : Decoder := { cfg := ⟨0, 0, 0, 0, 0, 0, false⟩ }
  let dec := fun (i : Nat) => mget free s.host.decoders (4 * ld + i)
  let cap := (s.staticBlocks ld + 2 * dcBlocks) * 2 ^ 28
  let low := (List.range d).all (fun i => (dec i).committed && decide ((dec i).cfg.base.toNat + (dec i).cfg.size.toNat ≤ c.base.toNat))
  let s' := s.modHost (fun x => { x with decoders := mset free x.decoders (4 * ld + d) { committed := true, cfg := c } })
  [1, 2, 3, 4, 6, 8, 12, 16].contains c.ways.toNat && [256, 512, 1024, 2048, 4096, 8192, 16384].contains c.gran.toNat && low
    && decide (c.size.toNat % (c.ways.toNat * 2 ^ 28) = 0) && decide (c.skip.toNat % 2 ^ 28 = 0)
    && decide (s'.decoderBase ld d + c.size.toNat / c.ways.toNat ≤ cap)
    && !(c.bi && (s.ldAsg ld).db && !s.flag (Reg.HP_HEAD_STAT.FLIT256 (s.ldAsg ld).head))
    && !s.maint.tests.any (fun t => t.variant == 7 && t.state == 1 && t.scope == ld)

/-- HDM_DECODER_COMMIT (R233): the decoder is committed, or its Commit Error bit is set. -/
def execHdmDecoderCommit (ld : LdNo) (d : Fin 4) (c : DecoderCfg) (s : State) : Res :=
  let ok := s.commitOk ld.val d.val c
  let free : Decoder := { cfg := ⟨0, 0, 0, 0, 0, 0, false⟩ }
  let d0 : Decoder := { committed := ok, err := !ok, cfg := c }
  let s' := s.modHost (fun x => { x with decoders := mset free x.decoders (4 * ld.val + d.val) d0 })
  .next (s.modHost (fun x => { x with
    decoders := mset free x.decoders (4 * ld.val + d.val) { d0 with dpa := s'.decoderBase ld.val d.val } }))

end Sys2Proof.Machine
end

