-- ==== Sys2Proof/Machine/Map.lean ====
section
/-!
DEFINITION. The events of the segment map (spec/06) and of re-key (spec/08, R215).
-/

namespace Sys2Proof.Machine

/-- The image of the map a checkpoint or delta holds (R152 to R154). -/
def State.mapImage (s : State) (number seq : Nat) (valid : Bool) : MapImage where
  number := number
  seq := seq
  entries := s.map.entries
  pcount := s.map.pcount
  copies := s.map.copies.map (fun c => { lsn := c.lsn, target := c.target, prev := c.prev, why := c.why })
  walked := s.map.walked
  worn := s.map.worn
  retired := s.map.retired
  residue := s.map.residue
  poison := s.map.poison
  rekeyTab := s.map.rekeyTab
  rekeyLd := s.map.rekeyLd
  rekeys := s.map.rekeys
  marks := s.map.marks.map (fun k => { k with waiting := false, started := false, next := 0, out := [] })
  valid := valid

/-- A checkpoint starts: its kind 07h record, then every tile of the map, the counts and the residues, at class 3 (R152). -/
def State.checkpointStart (s : State) : State :=
  let n := (s.map.ckpts.map (·.number)).foldl max 0 + 1
  let seq := s.map.jseq
  let s := s.journal 0 7 n
  let img := s.mapImage n seq false
  let s := (List.range imageTiles).foldl (fun (s : State) k => (s.reserveProg .checkpoint 3 (s.imageTile k) 0).2) s
  s.modMap (fun m => { m with ckpts := m.ckpts ++ [img], ckptBusy := true, ckptDue := false, ckptLast := s.ft / 2 ^ 20 })

/-- CHECKPOINT_DUE (R152): a checkpoint starts once CKPT_PERIOD has passed since the last; one due while another is being written starts
when that one has ended. -/
def execCheckpointDue (s : State) : Res :=
  if s.ft / 2 ^ 20 < s.map.ckptLast + s.ckptPeriod then .next s
  else if s.map.ckptBusy then .next (s.modMap (fun m => { m with ckptDue := true }))
  else .next s.checkpointStart

/-- CHECKPOINT_END (R152): the trailer is on the medium; the two newest checkpoints are kept, and the journal from the
older one's 07h record. -/
def execCheckpointEnd (s : State) : Res :=
  if !s.map.ckptBusy || s.progs.list.any (fun p => p.why == .checkpoint) then .next s
  else
    let done := s.map.ckpts.map (fun c => { c with valid := true })
    let keep := done.drop (done.length - 2)
    let from_ := (keep.map (·.seq)).foldl min s.map.jseq
    let s := s.modMap (fun m =>
      { m with ckpts := keep, ckptBusy := false, jmedia := m.jmedia.filter (fun r => decide (from_ ≤ r.seq)) })
    .next (if s.map.ckptDue then s.checkpointStart else s)

/-- COPY_START (R156, R158): a waiting segment's copy begins; a worn segment without a physical segment is mapped (R168). -/
def execCopyStart (lsn : BitVec 25) (s : State) : Res :=
  let l := lsn.toNat
  match s.map.copyWait.find? (fun w => w.1 == l) with
  | some (_, why) => .next (s.when (s.copyMayStart l why) (fun s => s.copyBegin l why))
  | none => .next s

/-- COPY_PASS_END (R158): a pass over the pending tiles ends. -/
def execCopyPassEnd (lsn : BitVec 25) (s : State) : Res := .next (s.copyPassEnd lsn.toNat)

/-- RELEASE_MARK_START (R101, R157): the wait of R101 is over and the slot's marking, or scrub, starts. -/
def execReleaseMarkStart (psn : BitVec 26) (s : State) : Res :=
  let p := psn.toNat
  match s.map.marks.find? (fun k => k.psn == p) with
  | some k =>
    .next (s.when (s.markMayStart k) (fun s =>
      (s.modMark p (fun k => { k with started := true, waiting := false })).markFeed p))
  | none => .next s

/-- RELEASE_MARK_END (R157): every tile of the slot is marked; it enters the free list or is retired. -/
def execReleaseMarkEnd (psn : BitVec 26) (s : State) : Res :=
  let before := s.freeSlots
  .next ((s.markEnd psn.toNat).discDone.poolEvents before)

/-- ENDURE_REACHED (R163): the segment is relocated at class 5 and its source retired; with no free slot below ENDURE it
becomes worn-read-only. -/
def execEndureReached (lsn : BitVec 25) (s : State) : Res :=
  let l := lsn.toNat
  let e := s.entry l
  if e.state ≠ stMapped ∨ e.psn = noPsn ∨ s.pcount e.psn < endure then .next s
  else match (s.slotForCopy e.psn e.note).1 with
    | some _ => .next (s.queueCopy l .endure)
    | none => .next (s.becomeWorn l)

/-- DISCARD_HOLD_DRAINED (R169): requests admitted before the hold are complete and the segment's discard proceeds. -/
def execDiscardHoldDrained (lsn : BitVec 25) (s : State) : Res := .next (s.discDrained lsn.toNat).retryWays

/-- REKEY_MAX in force (R224). -/
def State.rekeyMax (s : State) : Nat :=
  let v := s.getF Reg.CIPHER_CONFIG.REKEY_MAX
  if 1 ≤ v ∧ v ≤ 32 then v else 8

/-- REKEY_START (R215): the next queued segment of a group starts, if fewer than REKEY_MAX of the group are under way. -/
def execRekeyStart (g : GroupNo) (s : State) : Res :=
  let n := (s.map.rekeyRun.filter (fun r => psnSet (s.entry r.lsn).psn / 32 == g.val)).length
  if s.rekeyMax ≤ n then .next s
  else match s.rekeyNext g.val with
    | some r => .next (s.rekeyBegin r)
    | none => .next s

/-- REKEY_END (R215): every tile of the segment is at the new version. -/
def execRekeyEnd (lsn : BitVec 25) (s : State) : Res := .next (s.rekeyEnd lsn.toNat)

end Sys2Proof.Machine
end

