-- ==== Sys2Proof/Machine/ReadPath.lean ====
section
/-!
DEFINITION. The events of the read path (spec/04): the map entry's return, issue and arrival of chunk reads, tile attempts,
deep recovery, and the counter read of the write path (spec/05, R129, R130).
-/

namespace Sys2Proof.Machine

/-- After a demand read miss the next tiles are prefetched under the conditions of R79; one that fails a condition is
counted. -/
def State.prefetch (s : State) (r : Reg) (ltn : Nat) : State :=
  let ld := s.tileOwner ltn
  -- 11b is taken as 00b (R94)
  let n := if s.getF (Reg.LC_LD_CTRL.PREFETCH ld) = 3 then 0 else s.getF (Reg.LC_LD_CTRL.PREFETCH ld)
  let reads := r.secs.any (fun id => match s.act id with | some a => !a.req.op.write? | none => false)
  if r.why ≠ .demand ∨ !reads then s
  else ((List.range n).map (fun i => ltn + 1 + i)).foldl (fun s t =>
    let key : TileRef := .logical (BitVec.ofNat 37 t)
    let ok := ltnSeg t == ltnSeg ltn && (s.findWay 0xFFF t).isNone && (s.mashOf t).isNone && (s.tileNow t).2.1 == 0
      && (s.regOf key).isNone && decide (1024 ≤ s.regsFree)
      && s.getF Reg.THERM_STAT.CAP == 100 && s.allocates 0xFFF t ld
    let w := if ok then s.takeWay 0xFFF t ld else none
    match w with
    | some (w, s) =>
      let s := s.modWay 0xFFF t w (fun y => { y with resv := true })
      (s.addReg { mkReg key .prefetch s.ft with way := some w }).count 4 4 1
    | none => s.count 4 5 1) s

/-- MAP_ENTRY_RETURN (R96, R209): the segment's entry decides what becomes of the read; prefetches follow a demand
miss (R79). -/
def execMapEntryReturn (ltn : BitVec 37) (s : State) : Res :=
  let n := ltn.toNat
  match s.regOf (.logical ltn) with
  | none => .next s
  | some r =>
    if r.phase ≠ .map then .next s
    else
      let e := s.entryNow (ltnSeg n)
      let s := s.modReg r.key (fun r => { r with psn := e.psn, keyidx := e.keyidx, keyver := e.keyver, tMap := s.ft })
      let r := { r with psn := e.psn, keyidx := e.keyidx, keyver := e.keyver, tMap := s.ft }
      let s := s.prefetch r n
      let listed := s.listed n
      if e.state = stDiscarded then .next (s.deliver r { fill := false })
      else if e.state = stWorn ∧ e.psn = noPsn then .next (s.deliver r { fill := false, poison := listed })
      else if !e.onMedium then
        .next ((s.tileEvent (mkEv .critical 8 0 .lost) n).deliver r { fill := false, poison := 15, ok := false })
      else if s.keyLocked e.keyidx then
        let s := s.keyAbsent e.keyidx
        let ps := s.progsFor r.key
        let s := ps.foldl (fun s p => s.pinProg p 4) s
        .next (s.deliver r { fill := false, poison := 15, ok := false })
      else
        let s := s.derive e.keyidx e.keyver
        .next (s.modReg r.key (fun r => { r with phase := .issue }))

/-- The DPA tile of an LD at which a home tile of one of its blocks lies (R231). -/
def State.tileDpa (s : State) (ld ltn : Nat) : Nat :=
  let b := s.block (ltn / 2 ^ 20)
  (b.num + (if b.kind ≤ 1 then 0 else s.dcBase ld (b.kind - 2))) * 2 ^ 20 + ltn % 2 ^ 20

/-- DPA tiles of an LD from `a` on and before `b` that lie on the medium: is there one (R238)? -/
def State.scanLeft (s : State) (ld a b : Nat) : Bool :=
  s.map.entries.any (fun (l, e) => e.onMedium && s.tileLd (4096 * l) == some ld
    && (let d := s.tileDpa ld (4096 * l); decide (max a d < min b (d + 4096))))

/-- Is a tile the next of a scan: on the medium, in its range, and none before it left (R238)? -/
def State.scanNext (s : State) (ld f n x ltn : Nat) : Bool :=
  let d := s.tileDpa ld ltn
  (s.entry (ltnSeg ltn)).onMedium && s.tileLd ltn == some ld && decide (f + x ≤ d) && decide (d < f + n) && !s.scanLeft ld (f + x) d

/-- The program whose source waits for the copy of its segment (R134). -/
def State.keptFor (s : State) (ltn : Nat) : Option Prog := (s.tileProgs ltn).head?.filter (fun p => p.kept)

/-- Is a tile pinned under R130 or R131? It leaves a copy's pending set (R159). -/
def State.heldPin (s : State) (ltn : Nat) : Bool :=
  (s.cset 0xFFF ltn).ways.any (fun w => w.holds 0xFFF ltn && w.pin && (w.cause == 1 || w.cause == 2))

/-- A pending tile of a copy that is not read: one pinned under R130 or R131 leaves the pending set (R159); one whose source is kept in
staging is programmed into the target from there (R134). -/
def State.copyUnread (s : State) (ltn : Nat) : State :=
  let lsn := ltnSeg ltn
  let t := ltnTile ltn
  match s.map.copies.find? (fun c => c.lsn == lsn && c.pend.getLsbD t && !c.out.contains t) with
  | none => s
  | some c =>
    if c.prev != stWorn && s.heldPin ltn then s.copyTileDone lsn t
    else match s.keptFor ltn with
      | some p =>
        let q : Prog := { p with psn := c.target, cls := c.why.cls, kept := false, phase := .ready,
                                 old := some (progFields p 1 (p.why == .discardTile)) }
        (s.modProg p.id (fun _ => { q with wcount := q.nextCount })).modCopy lsn (fun c => { c with out := c.out ++ [t] })
      | none => s

/-- The register a maintenance read takes when its work is due at the tile: the copy's pending tiles (R158), the re-key's
cursor (R215), a media scan's (R238); a resynchronisation's registers come from its own pace (R301). -/
def State.workReg (s : State) (ltn : Nat) (why : ReadWhy) : Option Reg :=
  let lsn := ltnSeg ltn
  let t := ltnTile ltn
  let key : TileRef := .logical (BitVec.ofNat 37 ltn)
  let base := fun (w : RdWhy) => { mkReg key w s.ft with phase := .issue, psn := (s.entry lsn).psn, job := lsn }
  let idle := !(s.tileProgs ltn).any (·.granted)
  match why with
  | .copy => match s.map.copies.find? (fun c => c.lsn == lsn) with
    | some c => if c.pend.getLsbD t && !c.out.contains t && idle && (s.keptFor ltn).isNone && !(c.prev != stWorn && s.heldPin ltn)
        then some { base .copy with psn := c.source } else none
    | none => none
  | .rekey => match s.map.rekeyRun.find? (fun r => r.lsn == lsn) with
    | some r => if r.next == t && (s.tileHeld ltn).isNone && idle then some (base .rekey) else none
    | none => none
  | .scan => match s.host.scans.find? (fun (ld, f, n, x) => s.scanNext ld f n x ltn) with
    | some (ld, _) => some { base .scan with job := ld }
    | none => none
  | .selfTest => if s.maint.tests.any (fun t => t.state == 1 && t.back.contains ltn) then some (base .selfTest) else none
  | _ => none

/-- The place a MEDIA_SCAN under way has reached in a die set, if it has not ended there: test and place (R425, R427). -/
def State.scanPlace (s : State) (ds : Nat) : Option (Nat × Nat) :=
  (s.maint.tests.find? (fun t => t.variant == 5 && t.state == 1 && !t.aborting && t.scope == ds / 32)).bind (fun t =>
    (s.patrolSeek ds false (mget 0 t.cursor ds) (slotsPerSet + 1)).map (fun p => (t.id, p)))

/-- The register of the next tile a MEDIA_SCAN reads, a patrol read of the die set, and the scan moved past it (R178, R425). -/
def State.scanReg (s : State) (k : TileRef) : Option (Reg × State) :=
  let place : Nat × Nat := match k with
    | .logical l => ((s.entry (ltnSeg l.toNat)).psn, ltnTile l.toNat)
    | .physical p t => (p.toNat, t.toNat)
  let ds := psnSet place.1
  match s.scanPlace ds with
  | some (id, p) =>
    let owned : Bool := match k with | .logical l => s.slotOwner place.1 == some (ltnSeg l.toNat) | .physical _ _ => (s.slotOwner place.1).isNone
    if s.setPresent ds && owned && ds * slotsPerSet + p / 4096 == place.1 && p % 4096 == place.2 then
      let go := fun (t : SelfTest) => if t.id == id then { t with cursor := mset 0 t.cursor ds (p + 1) } else t
      some ({ mkReg k .patrol s.ft with psn := place.1, t := place.2, phase := .issue },
            { s with maint := { s.maint with tests := s.maint.tests.map go } })
    else none
  | none => none

/-- The work's cursor moves past a tile whose read was issued. -/
def State.workTaken (s : State) (r : Reg) : State :=
  match r.key with
  | .physical _ _ => s
  | .logical l =>
    let t := ltnTile l.toNat
    match r.why with
    | .copy => s.modCopy r.job (fun c => { c with out := c.out ++ [t] })
    | .rekey => (s.modRun r.job (fun k => { k with next := k.next + 1, out := k.out ++ [t] })).rekeyFeed r.job 4096
    | .scan =>
      let go := fun (x : Nat × Nat × Nat) => (x.1, x.2.1, s.tileDpa r.job l.toNat + 1 - x.1)
      { s with host := { s.host with scans := mmod (0, 0, 0) s.host.scans r.job go } }
    | _ => s

/-- Does a register's read belong to the account named? -/
def RdWhy.account : RdWhy → ReadWhy
  | .patrol => .patrol
  | .copy => .copy
  | .rekey => .rekey
  | .rebuild => .rebuild
  | .resync => .resync
  | .scan => .scan
  | .selfTest => .selfTest
  | _ => .register

/-- May a tile read be issued: every channel concerned holds fewer than 12 chunk reads (R100)? The patrol's chunk reads go out one by
one (R178). -/
def State.chanRoom (s : State) (r : Reg) (l : List (Nat × Int)) : Bool :=
  r.why == .patrol || l.all (fun (k, _) => decide (s.chanReads (s.chunkDie r k / 32) < 12))

/-- A counter read's chunks: 4 to 7, those that can be read (R129). -/
def State.counterChunks (s : State) (r : Reg) : List (Nat × Int) :=
  (([4, 5, 6, 7] : List Nat).filter (s.reachChunks r).contains).map (fun k => (k, s.roundOff r (s.chunkDie r k)))

/-- A tile with a program in flight is read from the program's staging source (R99). -/
def State.fromSource (s : State) (r : Reg) : Option ReadEnd :=
  match r.key with
  | .physical _ _ => none
  | .logical l =>
    (s.progs.list.find? (fun p => p.ltn == l.toNat && p.granted && (p.why.user? || p.why == .refresh)
      && (s.progHolds p).2.1 == 15)).map (fun p =>
        let (c, f) := s.progSealed p
        .good (s.progHolds p).1 c f 0)

/-- The read of a MEDIA_SCAN's next tile takes a register, if that is what is asked for. -/
def State.scanAdmit (s : State) (k : TileRef) (why : ReadWhy) : Option Reg × State :=
  match (if why != .selfTest || s.regsFree == 0 then none else s.scanReg k) with
  | some (r, s1) => (some r, s1.addReg r)
  | none => (none, s)

/-- TILE_READ_ADMIT (R97, R99, R100, R102, R105, R129, R178): a tile's chunk reads go out when every channel has room. -/
def execTileReadAdmit (k : TileRef) (why : ReadWhy) (s0 : State) : Res :=
  let (r, s) : Option Reg × State := match s0.regOf k with
    | some r => (if r.phase = .issue ∧ r.why.account = why then some r else none, s0)
    | none =>
      match k with
      | .logical l => match (if s0.regsFree = 0 then none else s0.workReg l.toNat why) with
        | some r => (some r, s0.addReg r)
        | none => s0.scanAdmit k why
      | .physical _ _ => s0.scanAdmit k why
  match r with
  | none => .next (match k with
      | .logical l => if why = .copy ∧ (s.regOf k).isNone then s.copyUnread l.toNat else s
      | .physical _ _ => s)
  | some r0 =>
    match s.fromSource r0 with
    | some e => .next ((s.workTaken r0).fillEnd r0 e)
    | none =>
    let s1 := s.latchReg r0
    match s1.regOf k with
    | none => .next s
    | some r =>
      let l := if r.why = .counter ∧ r.job = 0 then s1.counterChunks r else s1.roundReads r
      if !s1.chanRoom r l then .next s
      else
        let sparge := l.any (fun (k, _) => decide (8 ≤ k)) && r.why != .patrol
        let s1 := s1.modReg k (fun r => { r with sparge := sparge })
        let s1 := if sparge then s1.count 6 0 1 else s1
        let s1 := if r.why = .patrol then s1.count 9 0 1 else s1
        .next ((s1.workTaken r).sendReads r l)

/-- A chunk that was read joins what is kept of it (R38, R45, R106, R108): the decode with the fewest corrected bits. -/
def ChunkSt.take (c : ChunkSt) (bits : Chunk) (g : Nat) (deep : Bool) : ChunkSt :=
  let d := bchDecode bits.toNat
  let c := { c with out := c.out - 1, seen := true, raws := if deep then c.raws ++ [bits] else c.raws }
  let n := drefUW bits.toNat g
  let better : Bool := match d with
    | some x => (match c.dec with | some y => Nat.blt x.2 y.2 | none => true)
    | none => false
  if better then { c with dec := d, gen := g, u := n.1, w := n.2 }
  else if c.dec.isNone then { c with gen := g, u := n.1, w := n.2 } else c

/-- A sweep whose last chunk has been read gives up its hold, and paused programs go on (R110 step 1). -/
def State.sweepEnd (s : State) (k : TileRef) : State :=
  match s.regOf k with
  | some r =>
    if r.phase = .deep && r.swept && !r.waiting && s.reads.holds.any (fun h => h.2 == k) then
      (s.modReads (fun x => { x with holds := x.holds.filter (fun h => h.2 != k) })).resumePaused
    else s
  | none => s

/-- CHUNK_READ_DATA (R38, R45, R59, R98): a chunk's 40 bytes arrive; a generation that ties is a free choice (R45). Chunk
programs that waited for the partition go out. -/
def execChunkReadData (ch : ChanNo) (pos : DiePos) (part : Fin 16) (cidx : BitVec 27) (bits : BitVec 320) (s : State) : Res :=
  let die := 32 * ch.val + pos.val
  let here := fun (r : Reg) => r.t % 16 == part.val && chunkIndex (psnSlot r.psn) r.t == cidx.toNat
  match s.reads.regs.find? (fun r => here r && r.chunks.any (fun c => c.die == die && decide (0 < c.out))) with
  | none => .next s
  | some r =>
    let near := drefNearest bits.toNat
    let (x, s) := if near.length = 1 then (0, s) else s.draw
    let g := near.getD (x % max 1 near.length) 0
    let s := s.modReg r.key (fun r => { r with
      chunks := lupd (fun c => c.die == die && decide (0 < c.out)) (fun c => c.take bits g (r.phase == .deep)) r.chunks })
    .next (s.releaseHolds.sweepEnd r.key).patrolMore

/-- TILE_ATTEMPT (R106, R108 to R113, R137): every chunk of the round is decoded; the tile is attempted and the read ends or
moves to its next row. -/
def execTileAttempt (k : TileRef) (s : State) : Res :=
  match s.regOf k with
  | none => .next s
  | some r =>
    if r.phase ≠ .reading ∨ r.waiting ∨ (r.why = .counter ∧ r.job = 0) then .next s
    else
      let s := if r.round = 0 then s.learnTrims r else s
      let s := if r.round ≤ 1 then s.countBad r else s
      let all := s.allRead r
      let (found, fields) := s.attempt r r.kept all
      let s := s.tallyOpen r (found, fields)
      if r.why = .counter then
        match fields with
        | some f => .next (s.deliver r { fill := false, fields := some f, poison := 15, ok := false })
        | none => match s.nextRow r 4 with
          | some q => .next (((s.modReg k (fun _ => q)).count 6 q.round 1).sendReads q (s.roundReads q))
          | none =>
            let ps := s.progsFor k
            let s := ps.foldl (fun s p => s.counterUnknown p) (s.dropReg k)
            let s := r.secs.foldl (fun s id => s.serve id none) s
            .next (match k with | .logical l => s.afterReg l.toNat | .physical _ _ => s.feedProgs)
      else match found with
        | .ok p c f => .next (s.fillEnd r (.good p c f r.round))
        | x =>
          if x = .torn ∧ all then
            if r.why = .prefetch ∧ r.secs.isEmpty then .next (s.readEnd r (.bad true fields))
            else
              let s := (s.count 7 7 1).raise Reg.WP_STATUS.TEAR_SEEN
              match s.mirrorAsk r true with
              | some s => .next s
              | none => .next (s.readEnd r (.bad true fields))
          else match s.nextRow r 4 with
            | some q =>
              let s := (s.modReg k (fun _ => q)).count 6 q.round 1
              .next (s.sendReads q (s.roundReads q))
            | none => .next (s.lastRow r fields)

/-- CRC_RESEND_ARRIVAL (R47, R49, R65): the second copy reaches the cache writer; when it fails too, all four sectors are
filled as poison. -/
def execCrcResendArrival (ltn : BitVec 37) (tile : Tile) (crc : BitVec 32) (s : State) : Res :=
  match s.regOf (.logical ltn) with
  | none => .next s
  | some r =>
    if r.phase ≠ .resend then .next s
    else
      let e := (r.end_.getD (.bad false none)).resent tile
      if crc == tileCrc tile ltn && !s.flag Reg.CRC_INJECT.BOTH then .next (s.readEnd r e)
      else
        let s := s.planeMiss.unitMiss.tileEvent { mkEv .critical 4 3 .lost with detail := [3, 0] } ltn.toNat
        .next (s.deliver r { e.got with poison := 15 })

/-- The offsets of a sweep, in steps of one. READ_CHUNK's argument holds −32 to 31: an offset outside is clamped (DESIGN CHOICE, log
110; R58, R110 step 3). -/
def sweepOffs (o : Int) (span : Nat) : List Int :=
  (List.range (2 * span + 1)).map (fun (i : Nat) => clampInt (o - (span : Int) + (i : Int)) (-32) 31)

/-- The sweeps of deep recoveries whose lane has no wave under way go out (R110 steps 2 and 3): every reachable chunk at
each offset within SPAN of its round-0 offset. -/
def State.sweepGo (s : State) : State :=
  (s.reads.regs.filter (fun r => r.phase == .deep && !r.swept)).foldl (fun s r =>
    let ds := psnSet r.psn
    let lane := r.t % 16
    if s.progs.list.any (fun p => p.phase == .wave && p.cls != 1 && psnSet p.psn == ds && p.t % 16 == lane && p.why != .rebuild) then s
    else
      let sp := gravSpan r.grav
      let s := s.modReg r.key (fun r => { r with swept := true })
      ((s.reachChunks r).foldl (fun s k =>
        let o := s.baseOff r k
        let s := s.modReg r.key (fun r => { r with chunks := lmod r.chunks k (fun c => { c with off := o }) })
        (sweepOffs o sp).foldl (fun s o => s.sendRead r k o) s) s).sweepEnd r.key) s

/-- DEEP_RECOVERY_START (R110 steps 1 and 2, R111): a free recovery takes the read and holds the lane. -/
def execDeepRecoveryStart (k : TileRef) (s : State) : Res :=
  match s.regOf k with
  | none => .next s
  | some r =>
    if r.phase ≠ .deepWait then .next s
    else if s.deepFull r then .next (s.raise Reg.RP_STATUS.DEEP_OVER)
    else
      let h := 16 * psnSet r.psn + r.t % 16
      let s := s.modReg k (fun r => { r with phase := .deep, swept := false, round := 4 })
      let s := s.modReads (fun x => { x with holds := x.holds ++ [(h, k)] })
      .next ((s.count 6 4 1).modInterval (fun i => { i with deep := i.deep + 1 })).sweepGo

/-- LANE_HOLD_EXPIRY (R110 step 1): 20 µs after it was placed the lane's oldest hold ends; paused programs go on. -/
def execLaneHoldExpiry (ds : DieSet) (lane : Fin 16) (s : State) : Res :=
  .next ((s.modReads (fun x => { x with holds := x.holds.eraseP (fun h => h.1 == 16 * ds.val + lane.val) })).resumePaused)

/-- The choices of eight of the decoded chunks, as the chunks left out (R110 step 5). -/
def leftOut (d : List Nat) : List (List Nat) :=
  if d.length ≤ 8 then [[]]
  else if d.length = 9 then d.map (fun i => [i])
  else d.flatMap (fun i => (d.filter (fun j => decide (i < j))).map (fun j => [i, j]))

/-- The eight least reliable bits of a chunk, from its sweep: bits that changed between the reads at its round-0 offset and one step
to either side (R110 step 4); of more than eight the lowest-numbered (DESIGN CHOICE, log 111). -/
def leastReliable (span : Nat) (raws : List Chunk) : List Nat :=
  let c := (raws.getD span 0).toNat
  let x := (c ^^^ (raws.getD (span - 1) 0).toNat) ||| (c ^^^ (raws.getD (span + 1) 0).toNat)
  ((List.range 320).filter (fun i => x.testBit i)).take 8

/-- The patterns of a list of bits: every choice of them flipped. -/
def trialPatterns : List Nat → List Nat
  | [] => [0]
  | b :: l => (trialPatterns l).flatMap (fun p => [p, p ^^^ 2 ^ b])

/-- The trial decoding of a chunk that no read decoded: of up to 256 patterns flipped, the decode with the fewest corrections, 3 at
most (R110 step 4). -/
def trialDecode (span : Nat) (raws : List Chunk) : Option (BitVec 272 × Nat) :=
  let c := (raws.getD span 0).toNat
  ((trialPatterns (leastReliable span raws)).filterMap (fun p => bchDecode (c ^^^ p))).foldl (fun b d => match b with
    | none => some d
    | some (x : BitVec 272 × Nat) => if d.2 < x.2 then some d else some x) none

/-- DEEP_RECOVERY_END (R110 steps 4 to 6, R112): trial decoding, the choices of eight, then the mirror's copy or the failure
outcome. -/
def execDeepRecoveryEnd (k : TileRef) (s : State) : Res :=
  match s.regOf k with
  | none => .next s
  | some r =>
    if r.phase ≠ .deep ∨ !r.swept ∨ r.waiting then .next s
    else
      let s := (s.modReads (fun x => { x with holds := x.holds.filter (fun h => h.2 != k) })).resumePaused
      let cs := r.chunks.map (fun c => if c.dec.isSome || c.raws.isEmpty then c else { c with dec := trialDecode (gravSpan r.grav) c.raws })
      let r := { r with chunks := cs }
      let s := s.modReg k (fun q => { q with chunks := cs })
      let d := (List.range 10).filter (fun i => (cs.getD i {}).dec.isSome)
      let tries := (leftOut d).map (fun out => s.attempt r (r.kept.zipIdx.map (fun (c, i) => if out.contains i then none else c)) true)
      let s := tries.foldl (fun s x => s.tallyOpen r x) s
      match tries.findSome? (fun x => match x.1 with | .ok p c f => some (p, c, f) | _ => none) with
      | some (p, c, f) => .next (s.fillEnd r (.good p c f 4))
      | none => match s.mirrorAsk r false with
        | some s => .next s
        | none => .next (s.readEnd r (.bad false (tries.findSome? (fun x => x.2))))

/-- The field block that chunks 4 to 7 of a counter read hold (R35, R41). -/
def counterFields (cs : List ChunkSt) : FieldBlock :=
  FieldBlock.ofBits (BitVec.ofNat 128
    (cs.zipIdx.foldl (fun a (c, i) => a + (match c.dec with | some d => bitsOf d.1.toNat 256 16 | none => 0) * 2 ^ (64 + 16 * i)) 0))

/-- COUNTER_READ_RETURN (R129, R130): chunks 4 to 7 carry field bits [127:64]; accepted fields settle the write counter,
otherwise the whole tile is read. -/
def execCounterReadReturn (k : TileRef) (s : State) : Res :=
  match s.regOf k with
  | none => .next s
  | some r =>
    if r.why ≠ .counter ∨ r.job ≠ 0 ∨ r.phase ≠ .reading ∨ r.waiting then .next s
    else
      let cs := [4, 5, 6, 7].map (fun i => r.chunks.getD i {})
      let f := counterFields cs
      if cs.all (fun c => c.seen && c.dec.isSome && c.gen == f.wcount.toNat % 4) then
        let ps := s.progsFor k
        let s := s.dropReg k
        let s := (ps.filter (fun p => p.phase == .counter)).foldl (fun s p => s.progReady { p with old := some f }) s
        let s := r.secs.foldl (fun s id => s.serve id none) s
        .next (match k with | .logical l => s.afterReg l.toNat | .physical _ _ => s.feedProgs)
      else
        let s := s.count 7 3 1
        let s := s.latchReg r
        match s.regOf k with
        | some q =>
          let q := { q with job := 1 }
          let l := s.roundReads q
          let sparge := l.any (fun (k, _) => decide (8 ≤ k))
          let q := { q with sparge := sparge }
          let s := s.modReg k (fun _ => q)
          .next ((if sparge then s.count 6 0 1 else s).sendReads q l)
        | none => .next s

end Sys2Proof.Machine
end

