-- ==== Sys2Proof/Machine/ProgOps.lean ====
section
/-!
DEFINITION. Tile programs from grant to completion as shared operations (spec/05): the source taken at the grant (R125,
R126), allowances (R21, R132), the end of a wave (R133, R134), and what a completed program changes (R135, R148, R155).
-/

namespace Sys2Proof.Machine

/-! ### The grant (R21 to R24, R132, R386) -/


/-- Programs of a group that hold lanes at classes 2 to 7 (R386). -/
def State.groupHeld (s : State) (g : Nat) : Nat :=
  (s.progs.list.filter (fun p => p.granted && p.why != .rebuild && decide (2 ≤ p.cls) && psnSet p.psn / 32 == g)).length

/-- Does a program's source take a slot of the maintenance sources (R463)? -/
def PgWhy.maint? : PgWhy → Bool
  | .copy | .pinned | .refresh | .rebuild | .rekey | .mark | .scrubOnes | .scrubMark => true
  | _ => false

/-- Has a program the source slot it needs? Maintenance programs take theirs in order of arrival (R463). -/
def State.hasSource (s : State) (p : Prog) : Bool :=
  !p.why.maint? || p.granted || decide
    (((s.progs.list.takeWhile (fun q => q.id != p.id)).filter (fun q => q.why.maint?)).length < s.areaSlots 632 6)

/-- May a program be granted its lane (R24, R110, R132, R150, R158, R193, R220, R360, R362,
R374, R386, R463)? -/
def State.grantable (s : State) (p : Prog) : Bool :=
  let ds := psnSet p.psn
  let lane := p.t % 16
  p.phase == .ready && (s.host.memActive || s.inDrydown || s.power.formatting) && p.why != .rebuild && decide (s.lost ds < 2) && decide (0 < s.allowances ds)
    && s.hasSource p
    && (p.cls == 1 || (!s.laneHeld ds lane && decide (s.groupHeld (ds / 32) < s.laneCap (ds / 32))))
    && (decide (p.cls < 5) || s.inMaint (ds / 32))
    && (decide (p.cls < 4) || !s.inDrydown) && decide (s.getF Reg.DRY_STAT.PHASE < 3) && !s.keys.wiped
    && !(p.why.user? && (s.copyHolds (ltnSeg p.ltn) p.psn || s.map.jwait.contains (ltnSeg p.ltn)))

/-- A refresh still wanted: its queue entry stands, no sector of the tile is dirty, no program of it is out, and the segment's map entry
is the one it was queued with (R182). -/
def State.refreshWanted (s : State) (p : Prog) : Bool :=
  p.why != .refresh || (s.patrol.queue.any (fun q => q.psn == p.psn && q.t == p.t && q.entry == (s.entry (ltnSeg p.ltn)).fixed)
    && s.dirtyLines p.ltn == 0 && !(s.progs.list.any (fun q => q.granted && q.ltn == p.ltn && q.why.user?)))

/-- The waiting program of a lane that comes first: by class, then in order of arrival (R23). -/
def State.firstFor (s : State) (ds lane : Nat) : Option Prog :=
  let l := s.progs.list.filter (fun p => psnSet p.psn == ds && p.t % 16 == lane && s.grantable p && s.refreshWanted p)
  l.foldl (fun b p => match b with
    | none => some p
    | some (q : Prog) => if p.cls < q.cls then some p else b) none

/-- Refreshes of a lane whose tile changed meanwhile are dropped (R182). -/
def State.dropStale (s : State) (ds lane : Nat) : State :=
  let gone := s.progs.list.filter (fun p => p.why == .refresh && p.phase == .ready && psnSet p.psn == ds && p.t % 16 == lane
    && !s.refreshWanted p)
  let s := s.modPatrol (fun x => { x with queue := x.queue.filter (fun q => !gone.any (fun p => p.psn == q.psn && p.t == q.t)) })
  let s := (s.dropProgs (fun p => gone.any (fun q => q.id == p.id))).count 9 2 gone.length
  gone.foldl (fun (s : State) p => s.unblock p.ltn) s

/-- The source in force at the grant (R85, R125, R126): a tile that stays in its way is taken from there; keys are those of
the map entry, and WCOUNT follows (R129). A cipher unit verifies the tile's CRC before it encrypts it; a DISCARD tile passes none (R44,
R49, R65). Which of the 16 units a tile passes is not stated: a free choice (DESIGN CHOICE, log 65). -/
def State.takeSource (s : State) (p : Prog) : Prog × State :=
  if !p.why.user? || p.raw.isSome then (p, s)
  else
    let e := s.entry (ltnSeg p.ltn)
    let w := (s.cset 0xFFF p.ltn).ways.findIdx? (fun w => w.holds 0xFFF p.ltn && w.evq)
    let m := if p.why = .mash then s.mashOf p.ltn else none
    let (p, s) := match w, m with
      | some w, _ =>
        let y := s.way 0xFFF p.ltn w
        ({ p with data := mergeTile p.data y.data y.valid, dirty := y.dirty ||| p.dirty,
                  poison := (p.poison &&& ~~~y.valid) ||| y.poison },
         s.modWay 0xFFF p.ltn w (fun y => { y with again := 0 }))
      | none, some m => ({ p with data := m.data, poison := m.poison }, s)
      | none, none => (p, s)
    let p := { p with keyidx := e.keyidx, keyver := e.keyver }
    let p := { p with wcount := p.nextCount }
    if p.why = .discardTile then (p, s)
    else
      -- which of the 16 cipher units a tile passes is not stated: a free choice, drawn while an injection is armed
      let (n, s) := if s.flag Reg.CRC_INJECT.ARM then s.draw else (0, s)
      let (bad, s) := s.crcPass 10 2 (n % 16) p.data p.ltn
      (if bad then { p with poison := 15, spoiled := true } else p, s)

/-! ### Completion (R134, R135, R148, R155) -/

/-- The entry of the segment after a host program: LWT, HEAT and NOTE (R135, R148, R149). -/
def State.hostProgram (s : State) (p : Prog) : State :=
  let lsn := ltnSeg p.ltn
  let e := s.entry lsn
  let heat := if (p.t + p.wcount) % 64 = 0 then min 255 (e.heat + 1) else e.heat
  let note := if s.topMin ≤ heat then 2 else e.note
  s.setEntryQuiet lsn { e with lwt := s.ft / 2 ^ 30 % 2 ^ 32, heat := heat, note := note }

/-- The DIRTY bits a program covered are cleared in its way (R85, R135). -/
def State.cleanDone (s : State) (p : Prog) : State :=
  match (s.cset 0xFFF p.ltn).ways.findIdx? (fun w => w.holds 0xFFF p.ltn && w.evq) with
  | some w =>
    let s := s.modWay 0xFFF p.ltn w (fun y =>
      { y with evq := false, again := 0, dirty := y.again, pin := y.pin && y.again != 0, cause := if y.again = 0 then 0 else y.cause })
    if (s.way 0xFFF p.ltn w).dirty != 0 then s.afterPlace p.ltn w false else s
  | none => s

/-- A mash slot is freed when its program stored what it holds; written since, it is sent again (R81). -/
def State.mashDone (s : State) (p : Prog) : State :=
  match s.mashOf p.ltn with
  | some m =>
    if m.data = p.data ∧ m.poison = p.poison then
      (s.modCache (fun c => { c with mash := c.mash.filter (fun x => x.ltn != p.ltn) })).count 4 6 1
    else
      let s := s.modCache (fun c => { c with mash := lupd (fun x => x.ltn == p.ltn) (fun x => { x with prog := true }) c.mash })
      (s.sendProg .mash s.mashClass p.ltn m.ld m.data 15 15 m.poison false 0).count 4 6 1
  | none => s

/-- The pin-spill entry of a tile programmed at its home is removed, unless the tile is pinned again (R166). -/
def State.spillGone (s : State) (ltn : Nat) : State :=
  if (s.cset 0xFFF ltn).ways.any (fun w => w.holds 0xFFF ltn && w.pin) then s else s.spillRemove ltn

/-- A tile's copy has reached its slot of the pin spill: its entry joins the index, journalled, and the index tile is programmed, with
which the copy stands (R166). A copy for which every slot is taken meanwhile stays in the cache alone. -/
def State.spillDone (s : State) (p : Prog) : State :=
  let ltn := p.job
  let old := s.map.spill.find? (fun x => x.ltn == ltn)
  let rest := s.map.spill.filter (fun x => x.ltn != ltn)
  let slot := (old.map (·.slot)).orElse (fun _ => (List.range spillSlots).find? (fun i => !rest.any (fun x => x.slot == i)))
  match (s.cset 0xFFF ltn).ways.find? (fun w => w.holds 0xFFF ltn && w.pin), slot with
  | some y, some k =>
    let x : PinSpill := { ltn := ltn, cause := y.cause, valid := y.valid, dirty := y.dirty, poison := y.poison, data := p.data, slot := k }
    let s := (s.journalSpill ltn true).modMap (fun m => { m with spill := rest ++ [x] })
    (s.reserveProg .pinIndex p.cls (s.indexTile k) ltn).2
  | _, _ => s.settleWrites ltn

/-- A user tile's program has ended well. -/
def State.userDone (s : State) (p : Prog) : State :=
  let ltn := p.ltn
  let lsn := ltnSeg ltn
  let s := if p.poison != 0 && (p.spoiled || p.why == .poisonFix) then s.count 7 6 1 else s
  let s := if p.why = .patrolFix then s.count 9 4 1 else s
  let host := p.why == .evict || p.why == .clean || p.why == .mash || p.why == .through
  let s := if host then s.hostProgram p else s
  let s := (s.cleanDone p).copyRedo lsn (ltnTile ltn) p.psn
  let s := if p.why = .mash then s.mashDone p else s
  let s := ((s.poisonDrop ltn).rewritten ltn).spillGone ltn
  let s := match p.why with
    | .discardTile => s.discTileDone ltn
    | .rekey => (s.count 10 5 1).modRun lsn (fun r => { r with out := r.out.erase (ltnTile ltn) })
    | _ => s
  let s := if s.map.copies.any (fun c => c.lsn == lsn && c.target == p.psn) then s.copyTileDone lsn (ltnTile ltn) else s
  (((s.settleWrites ltn).rangeSeen ltn).waySeen ltn).unblockWith ltn (some p)

/-- A journal tile is on the medium: its records count, and segments that waited for them go on (R150). -/
def State.journalDone (s : State) (p : Prog) : State :=
  match s.map.jfly.find? (fun (i, _) => i == p.id) with
  | some (_, rs) =>
    let s := s.modMap (fun m => { m with jfly := m.jfly.filter (fun (i, _) => i != p.id), jmedia := m.jmedia ++ rs })
    let s := s.modMap (fun m => { m with jwait := rs.foldl (fun l (r : JRec) => l.erase r.lsn) m.jwait })
    s.modMap (fun m => { m with inForce := m.inForce.filter (fun x => m.jwait.contains x.1) })
  | none => s

/-- ROTATE: the old index names its successor, its LDs are bound to it, and its segments are queued for re-key (R217 steps 1
to 3). -/
def State.rotateKey (s : State) (old new : Nat) : State :=
  let s := s.setKey old { s.key old with rotating := true, succ := new }
  let s := { s with keys := { s.keys with table := mmod {} s.keys.table old (fun r => { r with succ := some new }) } }
  let s := ((List.range 64).filter (fun n => s.ldKey n == old)).foldl (fun s n => s.setF (Reg.LD_KEY.KEYIDX n) new) s
  let segs := (s.namesKey old).filter (fun l => !s.map.rekeys.any (fun r => r.lsn == l && decide (r.cls < 3)))
  let s := s.modMap (fun m => { m with rekeys := m.rekeys.filter (fun r => !segs.contains r.lsn) ++ segs.map (fun l => { lsn := l, cls := 3 }) })
  s.rotationRetire

/-- A KEY_LOAD whose key-table record stands in both copies takes effect and completes (R207 to R209, R217). -/
def State.keyTableDone (s : State) (idx : Nat) : State :=
  match s.keys.ops.find? (fun o => !o.retire && o.idx == idx) with
  | some o =>
    if s.progs.list.any (fun q => q.why == .keyTable && q.job == idx) then s
    else
      let old := s.key idx
      let kcv := kcvOf o.root idx
      let persist := if old.locked then old.persist else o.persist
      let s := { s with keys := { s.keys with ops := s.keys.ops.filter (fun x => x != o) } }
      let s := s.setKey idx { old with root := o.root, valid := true, locked := false, persist := persist, kcv := kcv }
      let put := fun (r : KeyRec) => { r with root := if persist then some o.root else none, kcv := kcv, seq := r.seq + 1 }
      let s := { s with keys := { s.keys with table := mmod {} s.keys.table idx put } }
      let s := s.unpin (fun l c => c == 4 && (s.entry l).keyidx == idx)
      let s := match o.from_ with
        | some f => s.rotateKey f idx
        | none => s
      match o.src with
      | some src => s.done src kcv.toNat []
      | none => (s.setF Reg.KEY_CMD.RESULT 0).setF Reg.KEY_CMD.BUSY 0
  | none => s

/-- A copy's program has ended: the tile has reached the target, or the copy is abandoned (R158, R160). A program to a target the segment's
copy no longer has counts for nothing. -/
def State.copyDone (s : State) (p : Prog) : State :=
  let lsn := ltnSeg p.ltn
  if !s.map.copies.any (fun c => c.lsn == lsn && c.target == p.psn) then s
  else if p.failed.isEmpty then s.copyTileDone lsn (ltnTile p.ltn) else s.copyAbandon lsn true

/-- What follows a program: waiting misses and programs, the home. -/
def State.afterProg (s : State) : State := s.retryWays.feedProgs.pump

/-- A calibration tile has been programmed and belongs to its set (R107). -/
def State.calDone (s : State) (p : Prog) : State :=
  s.modReads (fun r => { r with
    cal := lupd (fun c => 4 * c.at_ + c.group == p.job) (fun c => { c with places := c.places ++ [(p.psn, p.t)] }) r.cal })

/-- A pattern tile has been programmed and is to be read back (R425). -/
def State.patternDone (s : State) (p : Prog) : State :=
  let go := fun (t : SelfTest) =>
    if t.progs.contains p.ltn then { t with progs := t.progs.erase p.ltn, back := t.back ++ [p.ltn] } else t
  { s with maint := { s.maint with tests := s.maint.tests.map go } }

/-- The last tile of a checkpoint's image is on the medium: its trailer follows (R152). -/
def State.checkpointDone (s : State) (p : Prog) : State :=
  match s.map.ckpts.getLast? with
  | some c =>
    if p.job = 0 && s.map.ckptBusy && !s.progs.list.any (fun q => q.why == .checkpoint) then
      (s.reserveProg .checkpoint 3 (trailerTile c.number c.seq) 1).2
    else s
  | none => s

/-- Missing chunks of a program at its end: the event, and the copy of the slot's segment that they cause, unless the program is itself
of a copy (R134). -/
def State.chunksMissed (s : State) (p : Prog) (gone : Nat) : State :=
  if p.failed.isEmpty then s
  else
    let s := s.tileEvent { mkEv .warning 7 0 .fault with psn := p.psn, detail := p.failed.map p.member ++ [p.t % 16] } p.ltn
    if p.why = .copy ∨ p.why = .pinned then s
    else match s.slotOwner p.psn with
      | some l => s.queueCopy l (if 2 ≤ gone then .verifyNow else .verify)
      | none => s

/-- What the end of a program does to that for which it ran. -/
def State.progServed (s : State) (p : Prog) : State :=
  match p.why with
  | .copy => s.copyDone p
  | .refresh =>
    let s := s.modPatrol (fun x => { x with queue := x.queue.filter (fun q => !(q.psn == p.psn && q.t == p.t)) })
    (s.count 9 1 1).unblock p.ltn
  | .checkpoint => s.checkpointDone p
  | .mark | .scrubOnes => s.markProgDone p
  | .journal => s.journalDone p
  | .pinSpill => s.spillDone p
  | .pinIndex => s.settleWrites p.job
  | .archive => s.modMap (fun m => { m with archive := if m.archive.contains p.psn then m.archive else m.archive ++ [p.psn] })
  | .calib => s.calDone p
  | .selfTest => s.patternDone p
  | .keyTable => s.keyTableDone p.job
  | .pinned => if p.failed.isEmpty then s.userDone p else s.copyDone p
  | w => if w.user? then s.userDone p else s

/-- A program ends (R134, R135): with two or more chunks missing its tile stays dirty and its segment is relocated at once;
with one, its segment is relocated; otherwise its effects are made. -/
def State.programDone (s : State) (p : Prog) : State :=
  let lsn := ltnSeg p.ltn
  let gone := p.failed.length + s.countLost (psnSet p.psn)
  let s := ((s.chunksMissed p gone).count 7 0 1).countProgram p.psn
  let toCopy := s.map.copies.any (fun c => c.lsn == lsn && c.target == p.psn)
  if p.why.user? && p.why != .pinned && !p.failed.isEmpty && (decide (2 ≤ gone) || toCopy) then
    -- its source is kept for the copy of its segment; one that the copy itself programmed abandons the copy (R134, R160)
    let s := s.modProg p.id (fun p => { p with phase := .blocked, wave := 0, pend := [], again := [], failed := [], kept := true })
    let s := s.copyRedo lsn (ltnTile p.ltn) p.psn
    if toCopy then (s.modProg p.id (fun p => { p with psn := (s.entry lsn).psn })).copyAbandon lsn true else s
  else
    let s := s.dropProgs (fun q => q.id == p.id)
    let s := { s with avail := { s.avail with lostLines := s.avail.lostLines.filter (fun (t, _) => p.why.reserve? || t != p.ltn) } }
    let s := s.modInterval (fun i => { i with programs := i.programs + 1 })
    (s.progServed p).afterProg

/-- A wave has ended: the next one starts, or the program is done (R133). A rebuild's chunk program ends by itself
(R191). -/
def State.waveEnd (s : State) (id : Nat) : State :=
  match s.progs.list.find? (fun p => p.id == id) with
  | none => s
  | some p =>
    if !p.pend.isEmpty || p.phase ≠ .wave then s
    else if p.why = .rebuild then
      let s := (s.dropProgs (fun q => q.id == id)).count 9 6 1
      let s := if p.ltn = noLtn then s else s.unblock p.ltn
      (s.countProgram p.psn).rebuildGo.resumePaused
    else
      let s := match s.waveFrom p (p.wave + 1) with
        | some s => s
        | none => s.programDone p
      s.sweepGo.rebuildGo

/-- Every wave whose chunks have all finished, or whose members were lost, ends (R133, R189). -/
def State.wavesEnd (s : State) : State :=
  (s.progs.list.filter (fun p => p.phase == .wave && p.pend.isEmpty)).foldl (fun (s : State) p => s.waveEnd p.id) s

/-! ### The chunks of a die (R60, R61, R134) -/

/-- The chunk programs out on a die: program, chunk, partition. -/
def State.dieChunks (s : State) (die : Nat) : List (Nat × Nat × Nat) :=
  s.progs.list.flatMap (fun p => if p.phase == .wave then
    (p.pend.filter (fun k => !p.hold.contains k && s.memberDie (psnSet p.psn) (p.member k) == die)).map (fun k => (p.id, k, p.t % 16)) else [])

/-- A chunk that failed verify is programmed once more, or left failed (R134, R144). -/
def State.chunkFailed (s : State) (id k die : Nat) : State :=
  match s.progs.list.find? (fun p => p.id == id) with
  | none => s
  | some p =>
    if s.flag Reg.WP_CONFIG.VERIFY_RETRY && !p.again.contains k then
      ((s.modProg id (fun p => { p with again := k :: p.again })).count 7 4 1).sendChunk id k
    else
      let s := s.modProg id (fun p => { p with pend := p.pend.filter (· != k), failed := p.failed ++ [k] })
      (s.count 7 5 1).dieCount die

/-- What a STATUS answer makes of one chunk program: busy, failed, refused (sent again), or finished. STATUS names no partition for
DCRC_REF (R60): every idle chunk program of the die is sent again, one that had finished among them (DEDUCED, log 60). -/
def State.chunkStatus (s : State) (die : Nat) (bits : Nat) (c : Nat × Nat × Nat) : State :=
  let (id, k, part) := c
  if bitAt bits part then s
  else if bitAt bits (16 + part) then s.chunkFailed id k die
  else if bitAt bits 32 then s.sendChunk id k
  else s.modProg id (fun p => { p with pend := p.pend.filter (· != k) })

/-- A retrain of a channel is asked for where 16 refusals fell on two or more of its dies within the slot, and starts as its lanes allow
(R188). -/
def State.retrainCheck (s : State) (ch : Nat) : State :=
  let l := s.patrol.slotRef.filter (fun (d, _) => d / 32 == ch)
  if decide (16 ≤ (l.map (·.2)).sum) && decide (2 ≤ l.length) && !(s.progs.retrain ++ s.progs.retrainWait).contains ch
      && !s.patrol.chFailed.contains ch then
    let s := { s with progs := { s.progs with retrainWait := s.progs.retrainWait ++ [ch] } }
    ((s.modPatrol (fun p => { p with slotRef := p.slotRef.filter (fun (d, _) => d / 32 != ch) })).count 9 7 1).retrainGo
  else s

/-- DCRC refusals of a die noted: three in a row fail the die (R60, R186, R188). -/
def State.refusals (s : State) (die n : Nat) (refused : Bool) : State :=
  if !refused then s
  else
    let k := mget 0 s.patrol.refused die + max 1 n
    let s := s.modPatrol (fun p => { p with refused := mset 0 p.refused die k, slotRef := mmod 0 p.slotRef die (· + max 1 n) })
    let s := s.retrainCheck (die / 32)
    if 3 ≤ k then s.dieFail die 2 else s

/-- The counts of unanswered commands and of CRC failures are kept apart for each command: 8 × die + opcode (R61, R186). -/
def answerKey (die op : Nat) : Nat := 8 * die + op

/-- A command of a die went unanswered: the third in a row fails it (R61, R186). -/
def State.unansweredBy (s : State) (die op : Nat) : State :=
  let k := answerKey die op
  let n := mget 0 s.patrol.silent k + 1
  let s := s.modPatrol (fun p => { p with silent := mset 0 p.silent k n, crcTries := mset 0 p.crcTries k 0 })
  if 3 ≤ n then s.dieFail die 1 else s

/-- The STATUS of a die went unanswered (R186). -/
def State.unanswered (s : State) (die : Nat) : State := s.unansweredBy die 3

/-- A response failed its CRC-8: its command is sent again, up to three times, and then counts as one command unanswered (R61,
R186; that it counts as one of the three in a row is DEDUCED, log 61). Answers whether the response is good. -/
def State.responseCheck (s : State) (die op : Nat) (ok : Bool) : Bool × State :=
  let k := answerKey die op
  if ok then (true, s.modPatrol (fun p => { p with crcTries := mset 0 p.crcTries k 0, silent := mset 0 p.silent k 0 }))
  else
    let n := mget 0 s.patrol.crcTries k + 1
    if n ≤ 3 then
      (false, (s.modPatrol (fun p => { p with crcTries := mset 0 p.crcTries k n })).sendPacket op die 0 0 0 none)
    else (false, s.unansweredBy die op)

end Sys2Proof.Machine
end

