-- ==== Sys2Proof/Machine/WritePath.lean ====
section
/-!
DEFINITION. The events of the write path on the medium (spec/05 R132 to R135; spec/02 R60, R61; spec/07 R186).
-/

namespace Sys2Proof.Machine

/-- LANE_GRANT (R23, R24, R132, R133, R182): a free lane is granted to the first of its waiting programs and wave 0
starts. -/
def execLaneGrant (ds : DieSet) (lane : Fin 16) (s : State) : Res :=
  let d := ds.val
  let l := lane.val
  if (s.holder d l).isSome then .next s
  else
    let s := s.dropStale d l
    match s.firstFor d l with
    | none => .next s
    | some p =>
      if p.why.user? && p.why != .pinned && (s.entry (ltnSeg p.ltn)).state == stWorn then .next (s.pinProg p 3)
      else
        let (p, s) := s.takeSource p
        let p := { p with allow := s.allowances d, skip := s.skipChunks p, phase := .wave, failed := [], again := [] }
        let s := s.modProg p.id (fun _ => p)
        let s := if p.sealed? then s.count 10 0 1 else s
        let s := if p.why.user? then s.dropRefresh p.ltn else s
        let s := s.rebuildIssued p.psn p.t
        match s.waveFrom p 0 with
        | some s => .next s
        | none => .next (s.programDone p)

/-- STATUS_POLL (R133): a die of a channel with a partition busy is asked for its STATUS. -/
def execStatusPoll (ch : ChanNo) (pkg : Fin 2) (die : Fin 16) (s : State) : Res :=
  let d := 32 * ch.val + 16 * pkg.val + die.val
  let busy := (List.range 32).any (fun k => !(s.dieChunks (32 * ch.val + k)).isEmpty)
  .next (s.when busy (fun s => s.sendPacket 3 d 0 0 0 none))

/-- STATUS_RESPONSE (R60, R61, R133, R134, R186, R188): the response's CRC, then each chunk program of the die, refusals
and an internal fault. -/
def execStatusResponse (ch : ChanNo) (pkg : Fin 2) (die : Fin 16) (bits : BitVec 64) (s : State) : Res :=
  let d := 32 * ch.val + 16 * pkg.val + die.val
  let x := bits.toNat
  let (ok, s) := s.responseCheck d 3 (responseOk x 8)
  if !ok then .next s.wavesEnd
  else
    let chunks := s.dieChunks d
    let refused := bitAt x 32
    let s := if refused || chunks.isEmpty then s else s.modPatrol (fun p => { p with refused := mset 0 p.refused d 0 })
    let s := chunks.foldl (fun s c => s.chunkStatus d x c) s
    let s := s.refusals d (bitsOf x 48 8) refused
    let s := if bitAt x 37 then s.dieFail d 3 else s
    .next s.wavesEnd.retrainGo.patrolMore

/-- PARTITION_BUSY_TIMEOUT (R61, R134): PART_RESET is issued and the chunk counts as failed verify. -/
def execPartitionBusyTimeout (ch : ChanNo) (pos : DiePos) (part : Fin 16) (s : State) : Res :=
  let d := 32 * ch.val + pos.val
  match (s.dieChunks d).find? (fun (_, _, p) => p == part.val) with
  | none => .next s
  | some (id, k, _) =>
    let s := (s.sendPacket 6 d part.val 0 0 none).chunkFailed id k d
    .next s.wavesEnd.retrainGo.patrolMore

end Sys2Proof.Machine
end

