-- ==== Sys2Proof/Machine/Patrol.lean ====
section
/-!
DEFINITION. The events of patrol and sparing (spec/07), of media alerts (spec/02, R62), and the calibration of the gravity
tables (spec/04, R107).
-/

namespace Sys2Proof.Machine

/-- MEDIA_ALERT (R62): ALERT_N of a channel falls and STATUS is read from each of its dies. -/
def execMediaAlert (ch : ChanNo) (s : State) : Res :=
  let s := s.modPatrol (fun p => { p with alerts := ch.val :: p.alerts.filter (· != ch.val) })
  .next ((List.range (16 * s.pkgs)).foldl (fun s d => s.sendPacket 3 (32 * ch.val + d) 0 0 0 none) s)

/-- ALERT_STUCK_TIMEOUT (R187): ALERT_N has stayed low for more than 1 ms; the channel is declared failed. -/
def execAlertStuckTimeout (ch : ChanNo) (s : State) : Res :=
  .next (s.when (s.patrol.alerts.contains ch.val) (fun s =>
    ((s.modPatrol (fun p => { p with alerts := p.alerts.filter (· != ch.val) })).chanFail ch.val).wavesEnd))

/-- MEDIA_NO_ANSWER_TIMEOUT (R186): the third command in a row that a die leaves unanswered declares it failed. -/
def execMediaNoAnswerTimeout (ch : ChanNo) (pos : DiePos) (s : State) : Res := .next (s.unanswered (32 * ch.val + pos.val)).wavesEnd

/-- CHANNEL_RETRAIN_END (R187, R188): the retrain ends; the third failure in a row fails the channel. -/
def execChannelRetrainEnd (ch : ChanNo) (ok : Bool) (s : State) : Res :=
  let c := ch.val
  if !s.progs.retrain.contains c then .next s
  else
    let s := { s with progs := { s.progs with retrain := s.progs.retrain.filter (· != c) } }
    if ok then .next ((s.modPatrol (fun p => { p with retries := mset 0 p.retries c 0 })).releaseHolds.resumePaused.retrainGo.patrolMore)
    else
      let n := mget 0 s.patrol.retries c + 1
      let s := s.modPatrol (fun p => { p with retries := mset 0 p.retries c n })
      if 3 ≤ n then .next ((s.chanFail c).wavesEnd.releaseHolds.resumePaused.retrainGo.patrolMore)
      else .next ({ s with progs := { s.progs with retrain := s.progs.retrain ++ [c] } }.count 9 7 1)

/-- REBUILD_TICK (R190 to R192): the pace allows a set's rebuild its next tile. -/
def execRebuildTick (ds : DieSet) (s : State) : Res := .next (s.rebuildStep ds.val)

/-- PATROL_ADVANCE (R176 to R178, R185): a die set's cursor moves to its next tile, which is read. -/
def execPatrolAdvance (ds : DieSet) (s : State) : Res :=
  .next (s.when (s.map.loaded && s.setPresent ds.val && !s.inDrydown) (fun s => s.patrolTile ds.val))

/-- ACCEL_PASS_END (R185): every mapped data slot has been read; ACCEL is cleared and the ordinary cursors resume. -/
def execAccelPassEnd (s : State) : Res :=
  let done := (List.range 96).all (fun d => !s.setPresent d || (s.patrolSeek d true (mget 0 s.patrol.accel d) (slotsPerSet + 1)).isNone)
  .next (s.when (s.patrol.accelOn && done) (fun s =>
    (s.modPatrol (fun p => { p with accelOn := false, accel := [] })).setF Reg.PATROL_STAT.ACCEL 0))

/-- A gravity entry after a calibration pass (R107): BASE moves one step towards a neighbour whose total is at least a tenth
below; CAL is set. -/
def calEntry (e below base above : Nat) : Nat :=
  let b := toSigned (bitsOf e 0 6) 6
  let lo := decide (below * 10 ≤ base * 9) && decide (below < base)
  let hi := decide (above * 10 ≤ base * 9) && decide (above < base)
  let n := if lo && (!hi || decide (below ≤ above)) then max (-32) (b - 1) else if hi then min 31 (b + 1) else b
  putBits (putBits e 0 6 (ofSigned n 6)) 31 1 1

/-- The temperature bucket of a group in force (R29, R103). -/
def State.tempBucket (s : State) (g : Nat) : Nat :=
  s.getF (if g = 0 then Reg.RP_TEMP.BUCKET_G0 else if g = 1 then Reg.RP_TEMP.BUCKET_G1 else Reg.RP_TEMP.BUCKET_G2)

/-- CALIBRATION_PASS (R107, R117): the sums of one pass change entries of the temperature bucket in force; they take effect at
the next slot boundary. -/
def execCalibrationPass (sums : List CalSum) (s : State) : Res :=
  if !s.flag Reg.RP_CONFIG.AUTO_CAL && s.getF Reg.RP_STATUS.CAL_BUSY = 0 then .next s
  else
    let new := sums.map (fun c =>
      let g := c.group.val
      let b := s.tempBucket g
      (256 * g + 8 * c.age.val + b, calEntry (s.gravEntry g c.age.val b) c.below c.base c.above))
    .next ((s.modReads (fun r => { r with gravNext := r.gravNext ++ new })).setF Reg.RP_STATUS.CAL_BUSY 0)

/-! ### Calibration tile sets and passes (R107) -/

/-- FT in the units of R102, 2^30 ns. -/
def State.ftUnits (s : State) : Nat := s.ft / 2 ^ 30

/-- The calibration sets of a group in an age bucket, oldest first. -/
def State.calSets (s : State) (g age : Nat) : List CalSet :=
  s.reads.cal.filter (fun c => c.group == g && ageBucket s.ft c.at_ == age)

/-- A group's next set of 64 calibration tiles is sent in its maintenance slots once no set of it is in age bucket 0, and of three
sets in one bucket the middle one is dropped, so that intervals double with age. DESIGN CHOICE (log 91): the schedule and the places
within the reserve are not given beyond that. -/
def State.calWrite (s : State) (g : Nat) : State :=
  if !(s.map.loaded && !s.inDrydown && s.inMaint g && s.setPresent (32 * g) && (s.calSets g 0).isEmpty) then s
  else
    let (a, s) := s.draw
    let (b, s) := s.draw
    let ds := 32 * g + (a / reserveSlots) % (16 * s.pkgs)
    let psn := s.reserveSlot ds (a % reserveSlots)
    let at_ := s.ftUnits
    let prog := fun (i : Nat) =>
      let t := 64 * (b % 64) + i
      ({ why := .calib, cls := 7, ltn := noLtn, psn := psn, t := t, phase := .counter, data := Config.patternTile (psn * 4096 + t),
         valid := 15, allow := 2, job := 4 * at_ + g } : Prog)
    let thin := fun (l : List CalSet) (age : Nat) =>
      match l.filter (fun c => c.group == g && ageBucket s.ft c.at_ == age) with
      | _ :: m :: _ :: _ => l.filter (fun c => c != m)
      | _ => l
    let s := s.modReads (fun r => { r with cal := (List.range 32).foldl thin r.cal ++ [{ group := g, at_ := at_ }] })
    s.addProgs ((List.range 64).map prog)

/-- The packets that read one calibration tile at an offset: all its chunks that can be read. -/
def State.calTile (s : State) (place : Nat × Nat) (off : Int) : List Out :=
  let (psn, t) := place
  let ds := psnSet psn
  let ks := (List.range 10).filter (fun k => s.memberGood ds (chunkMember (psnSlot psn) t k))
  ks.map (fun k =>
    let die := s.memberDie ds (chunkMember (psnSlot psn) t k)
    Out.media (die / 32) (die % 32 / 16) (packet 1 (die % 16) (t % 16) (chunkIndex (psnSlot psn) t) (ofSigned (clampInt off (-32) 31) 6)) none)

/-- A calibration pass starts: of every group and age bucket in use up to 64 tiles are read at BASE − 1, BASE and BASE + 1 (R107,
R117 CAL_BUSY). -/
def State.calStart (s : State) : State :=
  let reads := ([0, 1, 2] : List Nat).flatMap (fun g => (List.range 32).flatMap (fun age =>
    let base := toSigned (bitsOf (s.gravEntry g age (s.tempBucket g)) 0 6) 6
    (((s.calSets g age).flatMap (·.places)).take 64).flatMap (fun p =>
      ([-1, 0, 1] : List Int).flatMap (fun o => s.calTile p (base + o)))))
  ({ s with out := s.out ++ reads }).setF Reg.RP_STATUS.CAL_BUSY 1

/-! ### The history archive (R18, R176, R503) -/

/-- The Failure and Fatal records that host software has not cleared, each once. -/
def State.openRecords (s : State) : List EvRec :=
  let all := (s.host.logs.filter (fun (k, _) => k % 5 == 2 || k % 5 == 3)).flatMap (·.2.recs)
  all.foldl (fun l e => if l.any (fun x => x.evseq == e.evseq) then l else l ++ [e]) []

/-- Records not yet archived leave as reserve tiles; the slots of records cleared since hold no archive any more. DESIGN CHOICE
(log 92): one tile for a record, its layout, and the slot boundary as the time. -/
def State.archiveLogs (s : State) (cls : Nat) : State :=
  if !s.map.loaded then s
  else
    let recs := s.openRecords
    let kept := s.host.archived.filter (fun (n, _) => recs.any (fun e => e.evseq == n))
    let gone := (s.host.archived.filter (fun x => !kept.contains x)).map (·.2)
    let s : State := { s with host := { s.host with archived := kept } }
    let s := s.modMap (fun m => { m with archive := m.archive.filter (fun p => !gone.contains p || kept.any (fun x => x.2 == p)) })
    (recs.filter (fun e => !kept.any (fun x => x.1 == e.evseq))).foldl (fun s e =>
      let (id, s) := s.reserveProg .archive cls (tileOfNat (leNat (e.body ++ leBytes e.level.log 1))) 0
      let psn := match s.progs.list.find? (fun p => p.id == id) with | some p => p.psn | none => noPsn
      { s with host := { s.host with archived := s.host.archived ++ [(e.evseq, psn)] } }) s

/-! ### The pattern tiles of MEDIA_PATTERN (R425, R426) -/

/-- Tiles whose pattern programs a test keeps out at a time. DESIGN CHOICE (log 93), within CAP_PCT of the group's cap (R426). -/
def patternOut : Nat := 64

/-- A MEDIA_PATTERN under way sends its next pattern programs at class 7, mapping each segment of the LD's static capacity first. -/
def State.patternFeed (s : State) (id : Nat) : Nat → State
  | 0 => s
  | n + 1 =>
    match s.maint.tests.find? (fun t => t.id == id) with
    | none => s
    | some t =>
      let first := s.map.discards.any (fun d => d.why == 2 ^ 20 + 64 + id)
      if t.variant != 7 || t.state != 1 || t.aborting || t.disc.isSome || first || decide (patternOut ≤ t.progs.length) then s
      else match nextOfRuns t.runs with
        | none => s
        | some (lsn, rest) =>
          let s := if t.next = 0 && (s.entry lsn).state == stDiscarded then s.newMapping lsn t.scope false else s
          let e := s.entry lsn
          let ltn := lsn * 4096 + t.next
          let skip_ := e.psn == noPsn
          let fwd := fun (x : SelfTest) => if x.id != id then x
            else if skip_ then { x with runs := rest, next := 0 }
            else { x with next := (t.next + 1) % 4096, runs := if t.next = 4095 then rest else x.runs, progs := x.progs ++ [ltn] }
          let s : State := { s with maint := { s.maint with tests := s.maint.tests.map fwd } }
          let p : Prog := { why := .selfTest, cls := 7, ltn := ltn, psn := e.psn, t := t.next, phase := .counter,
                            data := Config.patternTile ltn, valid := 15, keyidx := e.keyidx, keyver := e.keyver, allow := 2, ld := t.scope }
          (if skip_ then s else s.addProg p).patternFeed id n

/-- What maintenance starts at a slot boundary: calibration tiles, every 4,096 slots a calibration pass, the archive, and pattern
tiles (R107, R117, R425, R503). -/
def State.maintSlot (s : State) : State :=
  let s := ([0, 1, 2] : List Nat).foldl (fun s g => s.calWrite g) s
  let s := s.when (s.ft / 2 ^ 20 % 4096 == 0 && s.flag Reg.RP_CONFIG.AUTO_CAL && s.map.loaded && !s.inDrydown && !s.reads.cal.isEmpty) State.calStart
  let s := s.when (!s.inDrydown) (fun s => s.archiveLogs 7)
  (s.maint.tests.map (·.id)).foldl (fun (s : State) i => s.patternFeed i patternOut) s.feedProgs

end Sys2Proof.Machine
end

