-- ==== Sys2Proof/Machine/FrameOps.lean ====
section
/-!
DEFINITION. Frames of the Dorosh links as shared operations (spec/11, R282 to R292): what a link receiver accepts, what it
forwards, routes, and the frames this node sends.
-/

namespace Sys2Proof

/-- A field of a frame's header. -/
def Frame.hf (f : Frame) (lsb w : Nat) : Nat := bitsOf f.hdr.toNat lsb w

/-- The source node of a frame. -/
def Frame.src (f : Frame) : Nat := f.hf 12 12

end Sys2Proof

namespace Sys2Proof.Machine

/-! ### Frames received (R283 to R287) -/

/-- Every frame not acknowledged is sent again (R287). -/
def State.replay (s : State) (k : Nat) : State :=
  let again := (s.link k).kept
  let s := again.foldl (fun s x => s.putLink k x) s
  let s := s.modLink k (fun l => { l with replays := min 255 (l.replays + 1) })
  s.count 11 2 again.length

/-- A HELLO leaves on a link: node ID, UID, view, link number, LEAVING, in that order from bit 0 (R284; the manual gives the
contents and no layout). -/
def State.sendHello (s : State) (k : Nat) : State :=
  s.sendLink k 0xFFF 0 4 1 1 (s.nodeId + Config.uid.toNat * 2 ^ 12 + s.getF Reg.DF_VIEW.VIEW * 2 ^ 76 + k * 2 ^ 108
    + b2n s.fabric.leaving * 2 ^ 111)

/-- What a receiver does with the link fields of a frame whose tag and SEQ are good: acknowledged frames leave the replay
buffer, credit returns to its VC, a requested replay is made, and the frame's own buffer is owed back, that of VC0 only
when it is granted (R283, R286, R287). -/
def State.linkFields (s : State) (f : Frame) (len : Nat) : State :=
  let k := f.link.val
  let ack := f.hf 64 16
  let vc := f.hf 28 3
  let s := s.modLink k (fun l => { l with
    rxSeq := (l.rxSeq + 1) % 65536,
    used := vcSet l.used (f.hf 90 3) (vcGet l.used (f.hf 90 3) - f.hf 80 10),
    owe := if vc = 0 then l.owe else vcSet l.owe vc (vcGet l.owe vc + len),
    withheld := if vc = 0 then l.withheld + len else l.withheld,
    kept := l.kept.filter (fun x => decide ((x.seq + 65536 - (ack + 1) % 65536) % 65536 < 32768)) })
  let s := if f.hf 93 1 = 1 then s.replay k else s
  s.releaseHeld

/-- A link receiver takes a frame of a TYPE it may carry in this state: the tag, SEQ, TYPE, VC, reserved fields and HOPS are
checked; a frame for another node is forwarded (R283 to R287). Answers whether this node is to act on it. -/
def State.linkAccept (s : State) (f : Frame) (type : Nat) (vcs : List Nat) (len body : Nat) : Bool × State :=
  let k := f.link.val
  let st := s.getF (Reg.DF_LINK.STATE k)
  if st ≠ 3 ∧ !(st = 2 ∧ (type = 0 ∨ type = 2)) then (false, s)
  else if !f.tagOk then
    (false, (s.count 10 7 1).modLink k (fun l => { l with tagFails := l.tagFails + 1, retry := true }))
  else if f.hf 48 16 ≠ (s.link k).rxSeq then (false, s.modLink k (fun l => { l with retry := true }))
  else
    let s := (s.linkFields f len).count 11 1 (32 + 16 * len)
    if f.hf 24 4 ≠ type ∨ !vcs.contains (f.hf 28 3) ∨ f.hf 42 6 ≠ 0 ∨ f.hf 94 34 ≠ 0 ∨ 16 < f.hf 37 5 then (false, s.count 11 3 1)
    else
      let dst := f.hf 0 12
      if dst = 0xFFF ∨ dst = s.nodeId then (true, s)
      else if 16 ≤ f.hf 37 5 ∨ s.fabric.failed.contains dst then (false, s.count 11 3 1)
      else if s.fabric.isolated then (false, s)
      else (false, s.route { src := f.src, dst := dst, type := type, vc := f.hf 28 3, hops := f.hf 37 5 + 1, len := len, body := body })

end Sys2Proof.Machine
end

