-- ==== Sys2Proof/Machine/TimeOps.lean ====
section
/-!
DEFINITION. Fabric time as shared operations (spec/12, R308 to R327): classes, the grandmaster and the parent, offsets and
corrections, slots passed, maintenance maps, and cask boundaries that a time passed brings (R330, R339).
-/

namespace Sys2Proof.Machine

/-- The fabric time unit changed. -/
def State.modTime (s : State) (f : TimeSt → TimeSt) : State := { s with time := f s.time }

/-- The 16-bit CRC of an FTCODE word over its low 80 bits (R312). -/
def codeCrc (x : Nat) : Nat := crcMsb 0x1021 16 0xFFFF (bytesOf (x % 2 ^ 80) 10)

/-- FT in units of 2^-16 ns. -/
def State.ftFine (s : State) : Int := (s.ft : Int) * 65536 + s.frac

/-- Is the node the grandmaster it follows? -/
def State.isGm (s : State) : Bool := s.flag Reg.TIME_STAT.IS_GM

/-- Does the time unit discipline FT to a source of its own (R311, R315)? -/
def State.ownClass (s : State) : Nat :=
  if s.flag Reg.TIME_CFG.FTSYNC_EN && decide (3 ≤ s.time.good) then 3
  else if s.flag Reg.TIME_CFG.PTM_EN && decide (s.time.ptmAge ≤ 16) then 2
  else if s.time.held then 1 else 0

/-- The grandmaster of the candidates known: highest class, then lowest node ID (R315). -/
def State.chooseGm (s : State) : Option (Nat × Nat) :=
  let mine := if s.flag Reg.TIME_CFG.GM_ELIGIBLE then [(s.nodeId, s.ownClass)] else []
  let heard := s.time.links.filterMap (fun (k, l) => if l.seen && s.linkUp k then some (l.gm, l.gmClass) else none)
  (mine ++ heard).foldl (fun b c => match b with
    | none => some c
    | some (n, cl) => if cl < c.2 ∨ (cl = c.2 ∧ c.1 < n) then some c else b) none

/-- STATE of TIME_STAT: 0 FREE, 1 ACQUIRING, 2 LOCKED, 3 HOLDOVER (R318). -/
def State.timeState (s : State) : Nat := s.getF Reg.TIME_STAT.STATE

/-- Is the node LOCKED (R318)? -/
def State.locked (s : State) : Bool := s.timeState == 2

/-- Grandmaster, parent and state are chosen again (R311, R315, R318, R547). -/
def State.timeChoose (s : State) : State :=
  let cls := s.ownClass
  let s := s.setF Reg.TIME_STAT.CLASS cls
  let s := if 2 ≤ cls then (s.modTime (fun t => { t with held := true })).setF Reg.TIME_STAT.UNTRACEABLE 0 else s
  if s.flag Reg.TIME_STAT.REJECTED then (s.setF Reg.TIME_STAT.STATE 0).modTime (fun t => { t with steady := 0 })
  else match s.chooseGm with
    | none =>
      ((((s.setF Reg.TIME_STAT.IS_GM 0).setF Reg.TIME_STAT.GM_ID 0xFFF).setF Reg.TIME_STAT.STEPS 0).setF Reg.TIME_STAT.STATE 0).modTime
        (fun t => { t with parent := none, steady := 0 })
    | some (gm, gmClass) =>
      if gm = s.nodeId then
        let st := if 2 ≤ cls then (if s.time.behind then 1 else 2) else if cls = 1 then 3 else 0
        ((((s.raise Reg.TIME_STAT.IS_GM).setF Reg.TIME_STAT.GM_ID gm).setF Reg.TIME_STAT.STEPS 0).setF Reg.TIME_STAT.STATE st).modTime
          (fun t => { t with parent := none, steady := 0 })
      else
        let ways := s.time.links.filter (fun (k, l) => l.seen && l.gm == gm && s.linkUp k)
        let best := ways.foldl (fun b (k, l) => match b with
          | none => some (k, l.steps)
          | some (x : Nat × Nat) => if l.steps < x.2 then some (k, l.steps) else b) none
        match best with
        | none => s
        | some (k, n) =>
          let keep := s.time.parent == some k && (s.timeState == 1 || s.timeState == 2)
          let s := ((s.setF Reg.TIME_STAT.IS_GM 0).setF Reg.TIME_STAT.GM_ID gm).setF Reg.TIME_STAT.STEPS (min 31 (n + 1))
          let s := s.modTime (fun t => { t with parent := some k, held := t.held || decide (2 ≤ gmClass) })
          if keep then s else (s.setF Reg.TIME_STAT.STATE 1).modTime (fun t => { t with steady := 0 })

/-- An offset to the source or the parent in units of 2^-16 ns is acted on (R320): slew, step forward, slew back, or
reject. -/
def State.applyOffset (s : State) (theta : Int) : State :=
  let ns := theta / 65536
  if ns.natAbs ≤ 1000 then s.modTime (fun t => { t with slew := theta, step := none, behind := t.behind && decide (25 < ns.natAbs) })
  else if 0 < ns then
    let at_ := (s.ft : Int) + ns
    s.modTime (fun t => { t with step := some ((at_.toNat / 2 ^ 20 + 1) * 2 ^ 20), slew := 0, behind := false })
  else if ns.natAbs ≤ 10000000 then
    let s := s.modTime (fun t => { t with slew := theta, step := none, steady := 0, behind := true })
    if s.locked then s.setF Reg.TIME_STAT.STATE 1 else s
  else
    let s := (s.raise Reg.TIME_STAT.REJECTED).setF Reg.TIME_STAT.STATE 0
    (s.modTime (fun t => { t with slew := 0, step := none, steady := 0 })).event
      ((mkEv .critical 12 0 .refused).stat Reg.TIME_STAT.REJECTED) none

/-- A follower's lock: 16 slots in a row below 10 ns with a parent that is LOCKED or grandmaster; above 25 ns it is lost
(R318). Called once per slot. -/
def State.lockStep (s : State) : State :=
  match s.time.parent with
  | none => s
  | some k =>
    let l := mget {} s.time.links k
    if !l.haveTheta then s
    else if l.theta.natAbs < 10 * 65536 ∧ (l.locked ∨ l.steps = 0) then
      let n := s.time.steady + 1
      let s := s.modTime (fun t => { t with steady := n })
      if 16 ≤ n ∧ s.timeState = 1 then
        let s := s.setF Reg.TIME_STAT.STATE 2
        if 2 ≤ l.gmClass then s.setF Reg.TIME_STAT.UNTRACEABLE 0 else s
      else s
    else
      let s := s.modTime (fun t => { t with steady := 0 })
      if s.locked ∧ 25 * 65536 < l.theta.natAbs then s.setF Reg.TIME_STAT.STATE 1 else s

/-! ### Cask boundaries (R330, R339 to R341) -/

/-- The regular boundaries of a domain at slots after `a` up to `b` (R330), and the extra ones. -/
def CaskDom.boundaries (d : CaskDom) (a b : Nat) : Nat :=
  if d.period = 0 ∨ b < d.start then 0
  else
    let upTo := fun (x : Nat) => if x < d.start then 0 else (x - d.start) / d.period + 1
    let regular := upTo b - upTo a
    let onGrid := fun (x : Nat) => decide (d.start ≤ x) && decide ((x - d.start) % d.period = 0)
    regular + (d.extra.eraseDups.filter (fun x => decide (a < x) && decide (x ≤ b) && decide (d.start < x) && !onGrid x)).length

/-- A domain passes the boundaries of the slots after `a` up to `b`; epoch 0 starts at START_SLOT (R330, R341). -/
def State.domPass (s : State) (i a b : Nat) : State :=
  let d := s.dom i
  let n := d.boundaries a b
  let regular := { d with extra := [] }.boundaries a b
  if d.state = 0 || n = 0 then s
  else
    let took := d.extra.any (fun x => decide (a < x) && decide (x ≤ b))
    let s := s.modDom i (fun d => { d with
      epoch := if d.begun then d.epoch + n else d.epoch + (n - 1), begun := true, since := b * 2 ^ 20,
      state := if d.resting && regular != 0 then 1 else d.state,
      resting := d.resting && regular == 0,
      extra := d.extra.filter (fun x => decide (b < x)),
      early := d.early || (took && d.earlyAt.isSome),
      earlySent := false,
      earlyAt := match d.earlyAt with | some x => if x ≤ b then none else some x | none => none })
    if took && d.earlyAt.isSome then s.count 12 7 1 else s

/-! ### Passing time (R308, R309, R321) -/

/-- FT moved to a later time: the maintenance slot in force, and the cask boundaries passed (R321). -/
def State.passTo (s : State) (ft : Nat) : State :=
  let a := s.ft / 2 ^ 20
  let b := ft / 2 ^ 20
  let s := { s with ft := ft, frac := 0 }
  if a = b then s
  else
    s.cask.doms.foldl (fun s (i, _) => s.domPass i a b) s

/-- The maintenance maps whose frame boundary has come take effect (R324). -/
def State.mapsDue (s : State) : State :=
  let due := s.time.mapNext.filter (fun (_, _, at_) => decide (at_ ≤ s.ft))
  let s := s.modTime (fun t => { t with mapNext := t.mapNext.filter (fun (_, _, at_) => !decide (at_ ≤ s.ft)) })
  due.foldl (fun s (off, w, _) => s.setWord off w) s

/-- Set bits of eight map words. -/
def mapBits (ws : List Nat) : Nat := (ws.map (fun w => ((List.range 32).filter (fun b => bitAt w b)).length)).sum

/-- A new map of a group waits for its frame boundary; one with fewer than 16 slots is refused (R324). -/
def State.newMap (s : State) (g : Nat) (ws : List Nat) (at_ : Nat) : State :=
  let base := 0xD0100 + 32 * g
  s.modTime (fun t => { t with
    mapNext := t.mapNext.filter (fun (o, _, _) => !(decide (base ≤ o) && decide (o < base + 32)))
      ++ (ws.zipIdx.map (fun (w, i) => (base + 4 * i, w, at_))) })

end Sys2Proof.Machine
end

