-- ==== Sys2Proof/Machine/Time.lean ====
section
/-!
DEFINITION. The events of fabric time (spec/12): slot and frame boundaries with the work that falls on them, sources, SYNC
frames and forward steps.
-/

namespace Sys2Proof.Machine

/-! ### SYNC frames (R316, R317) -/

/-- The body of a SYNC frame for link k (R316). -/
def State.syncBody (s : State) (k : Nat) : Nat :=
  let l := mget {} s.time.links k
  1 + s.getF Reg.TIME_STAT.GM_ID * 2 ^ 4
    + (if s.isGm then s.ownClass else (match s.time.parent with | some p => (mget {} s.time.links p).gmClass | none => 0)) * 2 ^ 16
    + s.getF Reg.TIME_STAT.STEPS * 2 ^ 18 + b2n s.locked * 2 ^ 23 + (l.txSeq + 1) % 65536 * 2 ^ 24 + l.peerSeq % 65536 * 2 ^ 40
    + l.txAt % 2 ^ 80 * 2 ^ 56 + l.peerAt % 2 ^ 80 * 2 ^ 136

/-- One SYNC leaves on every link in UP (R316). -/
def State.sendSyncs (s : State) : State :=
  s.upLinks.foldl (fun s k =>
    let b := s.syncBody k
    let now := s.ftFine.toNat
    let s := s.modTime (fun t => { t with links := mmod {} t.links k (fun l =>
      { l with txSeq := (l.txSeq + 1) % 65536, txPrev := l.txAt, txAt := now }) })
    s.sendLink k 0xFFF 5 3 1 2 b) s

/-! ### Slots (R24, R62, R106, R107, R117, R309, R313, R334, R340) -/

/-- Changed gravity entries and resets take effect at a slot boundary (R107, R117). -/
def State.gravDue (s : State) : State :=
  let s := s.reads.gravReset.foldl (fun s g => (List.range 256).foldl (fun s i =>
    s.setWord (0x51000 + 0x400 * g + 4 * i) (resetWord (0x51000 + 0x400 * g + 4 * i))) s) s
  let s := s.reads.gravNext.foldl (fun s (i, w) => s.setWord (0x51000 + 4 * i) w) s
  s.modReads (fun r => { r with gravNext := [], gravReset := [] })

/-- Every die's STATUS and every package's TEMP is asked for (R62). -/
def State.slotPolls (s : State) : State :=
  if !s.patrol.trained then s
  else
    let dies := (List.range 32).flatMap (fun c => (List.range (16 * s.pkgs)).map (32 * c + ·))
    let s := dies.foldl (fun s d => s.sendPacket 3 d 0 0 0 none) s
    (dies.filter (fun d => d % 16 == 0)).foldl (fun s d => s.sendPacket 4 d 0 0 0 none) s

/-- Domains show STALLED while the node is not LOCKED (R340). -/
def State.stalls (s : State) : State :=
  s.cask.doms.foldl (fun s (i, d) =>
    if d.state = 1 ∧ !s.locked then s.modDom i (fun d => { d with state := 6 })
    else if d.state = 6 ∧ s.locked then s.modDom i (fun d => { d with state := 1 }) else s) s

/-- The domain state that changed is written to the reserve, once per slot (R334). -/
def State.caskStore (s : State) : State :=
  if !s.cask.changed then s
  else
    let s := s.cask.doms.foldl (fun s (i, d) => (s.reserveProg .undo 3 (domTile i d) 0).2) s
    { s with cask := { s.cask with changed := false } }

/-! ### Frames (R149, R161, R162, R187, R324) -/

/-- The least and the greatest PCOUNT over the data slots present and not retired (R161). -/
def State.wear (s : State) : Nat × Nat :=
  let used := s.map.pcount.filter (fun (p, _) => decide (psnSlot p < dataSlots) && s.setPresent (psnSet p) && !s.map.retired.contains p)
  let counts := used.map (fun (_, v) => min 0xFFFFFFFE (s.map.formats + v / 4096))
  let sets := ((List.range 96).filter s.setPresent).length
  let total := sets * dataSlots - (s.map.retired.filter (fun p => decide (psnSlot p < dataSlots))).length
  (if counts.length < total then s.map.formats else counts.foldl min 0xFFFFFFFE, counts.foldl max s.map.formats)


/-- MAP_WEAR is computed and racking moves are queued while the spread asks for them (R161, R162). -/
def State.wearCompute (s : State) : State :=
  if !s.map.loaded then s
  else
    let (lo, hi) := s.wear
    let s := (s.setF Reg.MAP_WEAR.WEAR_MIN lo).setF Reg.MAP_WEAR.WEAR_MAX hi
    let lim := s.rackLimit
    let on := s.flag Reg.MAP_CONFIG.RACK_EN && (decide (lim < hi - lo) || (s.map.racking && decide (lim * 7 < (hi - lo) * 8)))
    -- 64 is more than three groups can hold: RACK_MAX is 7 at most
    (s.modMap (fun m => { m with racking := on })).rackFeed 64

/-- The walk that sets NOTE from HEAT and then halves HEAT (R149). -/
def State.heatWalk (s : State) : State :=
  let top := s.topMin
  let base := s.baseMax
  s.map.entries.foldl (fun s (l, e) =>
    s.setEntryQuiet l { e with note := if top ≤ e.heat then 2 else if e.heat ≤ base then 0 else 1, heat := e.heat / 2 })
    (s.modMap (fun m => { m with walked := true }))

/-- FRAME_BOUNDARY (R149, R161, R187, R324, R460, R464): FT reaches a frame boundary: new maps, wear and racking, the heat walk. -/
def execFrameBoundary (s : State) : Res :=
  let here := s.ft % 2 ^ 28 == 0 && s.time.frameDone != s.ft / 2 ^ 28
  let s := if here then s else s.passTo ((s.ft / 2 ^ 28 + 1) * 2 ^ 28)
  let s := s.modTime (fun t => { t with frameDone := s.ft / 2 ^ 28 })
  let s := (s.mapsDue.modPatrol (fun p => { p with frameFails := [] })).wearCompute
  let s := ((List.range 128).filter (fun k => s.getF (Reg.MOVER_STAT.HALTS k) != 0)).foldl (fun s k => s.setF (Reg.MOVER_STAT.HALTS k) 0) s
  let s : State := { s with eng := { s.eng with fixed := [] } }
  .next (if s.ft / 2 ^ 28 % s.heatDecay = 0 then s.heatWalk else s)

/-! ### Sources (R310 to R315, R320) -/

/-- An offset of the node's own source is used by a grandmaster of that class, and reported otherwise (R315, R343). -/
def State.sourceOffset (s : State) (cls : Nat) (ns : Int) : State :=
  let s := (s.modTime (fun t => { t with srcTheta := ns, haveSrc := true })).timeChoose
  if s.isGm && s.ownClass == cls then s.applyOffset (ns * 65536) else s

/-- A 32-bit signed field, saturating (R343). -/
def satOffset (ns : Int) : Nat := ofSigned (clampInt ns (-0x7FFFFFFF) 0x7FFFFFFF) 32

/-- FTSYNC_EDGE (R312): an edge with a valid word gives the offset of class 3; three ignored edges in a row end the class. -/
def execFtsyncEdge (s : State) : Res :=
  match s.time.code with
  | some (next, _, trace) =>
    let s := s.modTime (fun t => { t with code := none, good := min 3 (t.good + 1), ignored := 0 })
    let ns := (next : Int) - s.ft
    let s := s.setF Reg.FTSYNC_OFFSET.OFFSET (satOffset ns)
    let s := if s.flag Reg.TIME_CFG.FTSYNC_EN then s.sourceOffset 3 ns else s
    .next (if trace && s.flag Reg.TIME_CFG.FTSYNC_EN && s.ownClass == 3 then s.setF Reg.TIME_STAT.UNTRACEABLE 0 else s)
  | none =>
    let n := s.time.ignored + 1
    let s := s.modTime (fun t => { t with ignored := n, good := if 3 ≤ n ∨ t.good < 3 then 0 else t.good })
    .next (if n = 3 then s.timeChoose else s)

/-- FTCODE_WORD (R312): a word with good start, stop, zero bits and CRC whose SEQ follows the previous word's names the next
edge. -/
def execFtcodeWord (word : BitVec 98) (s : State) : Res :=
  let w := word.toNat
  let d := bitsOf w 1 96
  let seq := bitsOf d 64 8
  let sound := !bitAt w 0 && bitAt w 97 && bitsOf d 73 7 == 0 && bitsOf d 80 16 == codeCrc d
  let follows := match s.time.lastSeq with | some p => seq == (p + 1) % 256 | none => true
  if !sound then .next (s.modTime (fun t => { t with code := none }))
  else .next (s.modTime (fun t =>
    { t with lastSeq := some seq, code := if follows then some (bitsOf d 0 64, seq, bitAt d 72) else none }))

/-- FTCODE_OUT_SEND (R313): the word that names the next slot boundary leaves on FTCODE_OUT; its SEQ is the slot's. -/
def execFtcodeOutSend (s : State) : Res :=
  if !s.flag Reg.TIME_CFG.SYNC_OUT_EN then .next s
  else
    let n := s.ft / 2 ^ 20 + 1
    let d := n * 2 ^ 20 % 2 ^ 64 + n % 256 * 2 ^ 64 + b2n (!s.flag Reg.TIME_STAT.UNTRACEABLE) * 2 ^ 72
    let d := d + codeCrc d * 2 ^ 80
    .next (s.emit (.ftcode (BitVec.ofNat 98 (2 * d + 2 ^ 97))))

/-- PTM_RESPONSE (R311, R314): a dialogue that succeeded gives the root's time. -/
def execPtmResponse (ok : Bool) (root : BitVec 64) (s : State) : Res :=
  if !s.flag Reg.TIME_CFG.PTM_EN || !ok then .next s
  else .next ((s.modTime (fun t => { t with ptmAge := 0 })).sourceOffset 2 ((root.toNat : Int) - s.ft))

/-- The offset and the delay that a SYNC frame gives with the frame before it, when it answers one of the last two sent (R316). -/
def SyncLink.exchange (l : SyncLink) (b : Nat) : Option (Int × Int) :=
  let r := bitsOf b 40 16
  let a : Int := bitsOf b 56 80
  let d : Int := bitsOf b 136 80
  let c : Option Int := if r = l.txSeq then some l.txAt else if (r + 1) % 65536 = l.txSeq then some l.txPrev else none
  match c with
  | some c =>
    if l.seen && bitsOf b 24 16 == (l.peerSeq + 1) % 65536 then some (((d - c) - ((l.peerAt : Int) - a)) / 2, (((l.peerAt : Int) - a) + (d - c)) / 2)
    else none
  | none => none

/-- What a link knows of its peer after a SYNC frame (R316, R317). -/
def SyncLink.heard (l : SyncLink) (b now : Nat) : SyncLink :=
  let n := { l with peerSeq := bitsOf b 24 16, peerAt := now, seen := true, gm := bitsOf b 4 12, gmClass := bitsOf b 16 2,
                    steps := bitsOf b 18 5, locked := bitAt b 23 }
  match l.exchange b with
  | some (t, e) => { n with theta := t, delay := e, haveTheta := true }
  | none => n

/-- SYNC (R316 to R318, R320): a neighbour's SYNC gives delay and offset, the grandmaster it follows, and the parent. -/
def execSync (f : Frame) (body : BitVec 256) (s : State) : Res :=
  let b := body.toNat
  let (go, s) := s.linkAccept f 5 [3] 2 b
  if !go then .next s
  else if bitsOf b 0 4 ≠ 1 ∨ bitsOf b 216 40 ≠ 0 then .next (s.count 11 3 1)
  else
    let k := f.link.val
    let l := mget {} s.time.links k
    let s := (s.modTime (fun t => { t with links := mset {} t.links k (l.heard b s.ftFine.toNat) })).timeChoose
    if s.time.parent = some k then
      match l.exchange b with
      | some (t, _) => .next ((s.setF Reg.TIME_OFFSET.OFFSET (satOffset (t / 65536))).applyOffset t)
      | none => .next s
    else .next s

/-- FT_STEP_FORWARD (R320, R321): FT steps to the slot boundary of the corrected time; STEPPED is set and the boundaries
passed count. -/
def execFtStepForward (s : State) : Res :=
  match s.time.step with
  | none => .next s
  | some t =>
    if t ≤ s.ft then .next (s.modTime (fun x => { x with step := none }))
    else .next (((s.modTime (fun x => { x with step := none })).passTo t).raise Reg.TIME_STAT.STEPPED |>.count 12 1 1 |>.noteFlag 8)

end Sys2Proof.Machine
end

