-- ==== Sys2Proof/Machine/Cask.lean ====
section
/-!
DEFINITION. Casks (spec/12, R328 to R342): boundaries, the undo log's spill and index walk, the commit agreement, early
boundaries and recovery.
-/

namespace Sys2Proof.Machine

/-- The coordinator of a domain: the lowest node ID of its members (R329). -/
def CaskDom.coord (d : CaskDom) : Nat := d.nodes.foldl min 0xFFF

/-- CFG_HASH: CRC-32C over the common fields (R329). -/
def CaskDom.hash (d : CaskDom) : Nat :=
  let ns := sortBy (fun a b => decide (a ≤ b)) d.nodes
  crc32c (bytesOf d.id 4 ++ bytesOf d.period 2 ++ bytesOf (d.start % 2 ^ 44) 8 ++ [d.nodes.length]
    ++ ns.flatMap (fun n => bytesOf (n % 4096) 2))

/-- The body of a CASK frame (R338). -/
def caskBody (kind : Nat) (d : CaskDom) (epoch slot result released : Nat) : Nat :=
  kind + d.id % 2 ^ 32 * 2 ^ 4 + epoch % 2 ^ 48 * 2 ^ 36 + slot % 2 ^ 44 * 2 ^ 84 + d.hash * 2 ^ 128 + result % 16 * 2 ^ 160
    + released % 2 ^ 48 * 2 ^ 164

/-- A CASK frame leaves for a member, TYPE 6h on VC3 (R338). -/
def State.caskSend (s : State) (dst kind i epoch slot result released : Nat) : State :=
  s.sendFrame dst 6 3 1 2 (caskBody kind (s.dom i) epoch slot result released)

/-- The same frame for every other member. -/
def State.caskSendAll (s : State) (kind i epoch slot : Nat) : State :=
  ((s.dom i).nodes.filter (· != s.nodeId)).foldl (fun s n => s.caskSend n kind i epoch slot 0 0) s

/-- The domain slot of a DOMAIN_ID in use here. -/
def State.domOf (s : State) (id : Nat) : Option Nat :=
  (s.cask.doms.find? (fun (_, d) => d.state != 0 && d.id == id)).map (·.1)

/-- A CASK frame of a kind arrives: the domain it is for, when the frame is accepted and its unused fields are zero; a frame
whose CFG_HASH differs puts the coordinator's domain in MISMATCH (R329, R338). -/
def State.caskTake (s : State) (f : Frame) (body : BitVec 256) (kind : Nat) : Option Nat × State :=
  let b := body.toNat
  let (go, s) := s.linkAccept f 6 [3] 2 b
  if !go then (none, s)
  else
    let slot := bitsOf b 84 44
    let res := bitsOf b 160 4
    let rel := bitsOf b 164 48
    if bitsOf b 0 4 ≠ kind ∨ bitsOf b 212 44 ≠ 0 ∨ (bitsOf b 36 48 ≠ 0 ∧ (kind = 5 ∨ kind = 6 ∨ kind = 7 ∨ kind = 10)) ∨ (slot ≠ 0 ∧ kind ≠ 6) ∨ (res ≠ 0 ∧ kind ≠ 10) ∨ (rel ≠ 0 ∧ kind ≠ 8) then (none, s.count 11 3 1)
    else match s.domOf (bitsOf b 4 32) with
      | none => (none, s)
      | some i =>
        let d := s.dom i
        if !d.nodes.contains f.src then (none, s)
        else if bitsOf b 128 32 ≠ d.hash then
          if d.coord = s.nodeId ∧ d.state ≠ 5 then
            (none, (s.modDom i (fun d => { d with state := 5 })).event { mkEv .critical 12 i .protocol with detail := [d.id] } none)
          else (none, s)
        else (some i, s)

/-- May the domain commit: ACTIVE, or STALLED here (R339, R340)? -/
def CaskDom.live (d : CaskDom) : Bool := d.state == 1 || d.state == 6

/-! ### Commit agreement (R339, R340) -/

/-- Records of a domain are freed, wherever they lie (R337). -/
def State.freeRecords (s : State) (p : UndoRec → Bool) : State :=
  let gone := ((s.cask.log.take s.cask.spilled).filter p).length
  { s with cask := { s.cask with log := s.cask.log.filter (fun r => !p r), spilled := s.cask.spilled - gone } }

/-- RELEASE(E) reaches a member: the records of epochs up to E are freed and writes that waited go on (R337, R341). -/
def State.releaseAt (s : State) (i e : Nat) : State :=
  let s := s.modDom i (fun d => { d with released := e })
  let s := s.freeRecords (fun r => r.dom == i && decide (r.epoch ≤ e))
  let s := if s.cask.log.length < undoCap then s.modDom i (fun d => { d with logFull := false, earlySent := false }) else s
  s.pump

/-- ACK(E) of a member reaches the coordinator; with every ACK the release goes out (R339). -/
def State.ackAt (s : State) (i node e : Nat) : State :=
  if (s.dom i).commitOf ≠ some e then s
  else
    let s := s.modDom i (fun d => { d with acks := node :: d.acks.filter (· != node) })
    let d := s.dom i
    if d.nodes.all d.acks.contains then
      ((s.modDom i (fun d => { d with commitOf := none, acks := [] })).caskSendAll 4 i e 0).releaseAt i e
    else s

/-- COMMIT(E) reaches a member: COMMITTED(E) is recorded and ACK(E) answered (R339). -/
def State.commitAt (s : State) (i e : Nat) : State :=
  let d := s.dom i
  if !d.live || (d.committedAny && decide (e ≤ d.committed)) then s
  else
    let s := (s.modDom i (fun d => { d with committed := e, committedAny := true })).count 12 6 1
    if d.coord = s.nodeId then s.ackAt i s.nodeId e else s.caskSend d.coord 3 i e 0 0 0

/-- The latest epoch that every member is ready for, after the last commit (R339). -/
def CaskDom.readyAll (d : CaskDom) : Option Nat :=
  let es := (d.readys.map (·.2)).filter (fun e => d.nodes.all (fun n => d.readys.contains (n, e))
    && (match d.commitOf with | some c => decide (c < e) | none => !d.committedAny || decide (d.committed < e)))
  es.foldl (fun b e => match b with | none => some e | some x => some (max x e)) none

/-- READY(E) of a member reaches the coordinator; with every member's it records and sends COMMIT(E) (R339). -/
def State.readyAt (s : State) (i node e : Nat) : State :=
  if !(s.dom i).live then s
  else
    let s := s.modDom i (fun d => { d with readys := d.readys.filter (fun r => r != (node, e)) ++ [(node, e)] })
    match (s.dom i).readyAll with
    | none => s
    | some e =>
      let s := s.modDom i (fun d => { d with commitOf := some e, acks := [], readys := d.readys.filter (fun r => decide (e < r.2)) })
      (s.caskSendAll 2 i e 0).commitAt i e

/-- Has every write stamped before the epoch under way completed (R331, R339)? -/
def State.writesDone (s : State) (i : Nat) : Bool :=
  let since := (s.dom i).since
  let mine := fun (r : HReq) => r.op.write? && decide (r.at_ < since) && decide (r.line < 2 ^ 39) && s.tileDomain (keyTile r.line) == some i
  !(s.home.act.any (fun a => mine a.req && !a.answered)) && !(s.home.wait.any mine) && !(s.home.stall.any mine)

/-- CASK_READY_SEND (R339, R340): a LOCKED member whose writes of the ended epoch are complete records READY and sends it. -/
def execCaskReadySend (dom : Fin 16) (s : State) : Res :=
  let i := dom.val
  let d := s.dom i
  if d.state ≠ 1 ∨ !d.begun ∨ d.epoch = 0 ∨ !s.locked ∨ !s.writesDone i ∨ (d.readyAny ∧ d.epoch - 1 ≤ d.ready) then .next s
  else
    let e := d.epoch - 1
    let s := s.modDom i (fun d => { d with ready := e, readyAny := true })
    .next (if d.coord = s.nodeId then s.readyAt i s.nodeId e else s.caskSend d.coord 1 i e 0 0 0)

/-- READY (R329, R339): a member's READY reaches the coordinator. -/
def execReady (f : Frame) (body : BitVec 256) (s : State) : Res :=
  match s.caskTake f body 1 with
  | (some i, s) => .next (s.when ((s.dom i).coord == s.nodeId) (fun s => s.readyAt i f.src (bitsOf body.toNat 36 48)))
  | (none, s) => .next s

/-- COMMIT (R339): the coordinator's COMMIT reaches a member. -/
def execCommit (f : Frame) (body : BitVec 256) (s : State) : Res :=
  match s.caskTake f body 2 with
  | (some i, s) => .next (s.when ((s.dom i).coord == f.src) (fun s => s.commitAt i (bitsOf body.toNat 36 48)))
  | (none, s) => .next s

/-- CASK_ACK (R339): a member's ACK reaches the coordinator. -/
def execCaskAck (f : Frame) (body : BitVec 256) (s : State) : Res :=
  match s.caskTake f body 3 with
  | (some i, s) => .next (s.when ((s.dom i).coord == s.nodeId) (fun s => s.ackAt i f.src (bitsOf body.toNat 36 48)))
  | (none, s) => .next s

/-- RELEASE (R337, R339): the coordinator's RELEASE frees a member's records. -/
def execRelease (f : Frame) (body : BitVec 256) (s : State) : Res :=
  match s.caskTake f body 4 with
  | (some i, s) => .next (s.when ((s.dom i).coord == f.src) (fun s => s.releaseAt i (bitsOf body.toNat 36 48)))
  | (none, s) => .next s

/-! ### Boundaries and the log (R330, R334, R336, R337, R341) -/

/-- The next boundary slot of a domain after a slot (R330). -/
def CaskDom.nextBoundary (d : CaskDom) (n : Nat) : Nat :=
  let r := if n < d.start then d.start else d.start + ((n - d.start) / max 1 d.period + 1) * max 1 d.period
  (d.extra.filter (fun x => decide (n < x))).foldl min r

/-- CASK_BOUNDARY (R330): FT reaches the domain's next boundary; its epoch number advances. -/
def execCaskBoundary (dom : Fin 16) (s : State) : Res :=
  let d := s.dom dom.val
  if d.state = 0 then .next s else .next (s.passTo (d.nextBoundary (s.ft / 2 ^ 20) * 2 ^ 20))

/-- SPILL_PCT and EARLY_PCT in force (R343). -/
def State.spillPct (s : State) : Nat :=
  let v := s.getF Reg.CASK_LOG_CFG.SPILL_PCT
  if 10 ≤ v ∧ v ≤ 95 then v else 75
/-- EARLY_PCT in force (R343). -/
def State.earlyPct (s : State) : Nat :=
  let v := s.getF Reg.CASK_LOG_CFG.EARLY_PCT
  if 50 ≤ v ∧ v ≤ 99 then v else 90

/-- UNDO_SPILL (R337): while the data ring is too full, its 16 oldest records move to the spill area: a tile of descriptors
and their data tiles, at class 3. -/
def execUndoSpill (s : State) : Res :=
  let ring := s.cask.log.length - s.cask.spilled
  if ring * 100 ≤ s.spillPct * ringCap ∨ ring < 16 ∨ undoCap - ringCap < s.cask.spilled + 16 then .next s
  else
    let rs := (s.cask.log.drop s.cask.spilled).take 16
    let (_, s) := s.reserveProg .undo 3 (undoDescs rs) 0
    let s := rs.foldl (fun s r => (s.reserveProg .undo 3 r.data 0).2) s
    -- writes that waited for room in the ring go on
    .next ({ s with cask := { s.cask with spilled := s.cask.spilled + 16 } }.count 12 5 16).pump

/-- UNDO_INDEX_WALK (R336): every index entry that is not of its domain's current epoch is cleared. -/
def execUndoIndexWalk (s : State) : Res :=
  let keep := fun (e : UndoIdx) => e.epoch == (s.dom e.dom).epoch % 65536
  .next { s with cask := { s.cask with
    walks := s.cask.walks + 1,
    idx := (s.cask.idx.map (fun (k, l) => (k, l.filter keep))).filter (fun (_, l) => !l.isEmpty) } }

/-- The slot of an early boundary: the first boundary at least two slots away (R341). -/
def State.earlySlot (s : State) : Nat := (s.ft + 3 * 2 ^ 20 - 1) / 2 ^ 20

/-- The coordinator announces an early boundary unless one is announced and not yet passed (R341). -/
def State.earlyAsk (s : State) (i : Nat) : State :=
  match (s.dom i).earlyAt with
  | some _ => s
  | none =>
    let x := s.earlySlot
    (s.modDom i (fun d => { d with earlyAt := some x, extra := d.extra ++ [x] })).caskSendAll 6 i 0 x

/-- EARLY_THRESHOLD (R341): the records reach EARLY_PCT of all; the member asks its coordinator for an early boundary. -/
def execEarlyThreshold (dom : Fin 16) (s : State) : Res :=
  let i := dom.val
  let d := s.dom i
  if !d.live || d.earlySent || decide (s.cask.log.length * 100 < s.earlyPct * undoCap) then .next s
  else
    let s := s.modDom i (fun d => { d with earlySent := true })
    .next (if d.coord = s.nodeId then s.earlyAsk i else s.caskSend d.coord 5 i 0 0 0 0)

/-- EARLY_REQ (R341): a member's request reaches the coordinator. -/
def execEarlyReq (f : Frame) (body : BitVec 256) (s : State) : Res :=
  match s.caskTake f body 5 with
  | (some i, s) => .next (s.when ((s.dom i).coord == s.nodeId && (s.dom i).live) (fun s => s.earlyAsk i))
  | (none, s) => .next s

/-- EARLY (R341): the coordinator's extra boundary reaches a member. -/
def execEarly (f : Frame) (body : BitVec 256) (s : State) : Res :=
  match s.caskTake f body 6 with
  | (some i, s) =>
    let x := bitsOf body.toNat 84 44
    .next (s.when ((s.dom i).coord == f.src) (fun s => s.modDom i (fun d => { d with earlyAt := some x, extra := d.extra ++ [x] })))
  | (none, s) => .next s

/-! ### Recovery (R342) -/

/-- A recovery of a domain changed. -/
def State.modRecov (s : State) (i : Nat) (f : CaskRecov → CaskRecov) : State :=
  s.modDom i (fun d => { d with recov := d.recov.map f })

/-- All ones: the latest image (R338). -/
def caskLatest : Nat := 2 ^ 48 - 1

/-- A CASK_RECOVER ends when every member has answered, or with PARTIAL (R342); this node's own write-back still goes on. -/
def State.recovEnd (s : State) (i : Nat) (partially : Bool) : State :=
  match (s.dom i).recov with
  | some r =>
    let t := r.target.getD caskLatest
    let s := s.modDom i (fun d => { d with recov := if d.state = 3 ∧ !d.resting then some { r with src := none } else none })
    s.respondTo r.src kOk (t + b2n partially * 2 ^ 48) []
  | none => s

/-- RECOVER_DONE of a member is gathered. -/
def State.recovDoneAt (s : State) (i node result : Nat) : State :=
  match (s.dom i).recov with
  | some r =>
    if r.src.isNone && r.askedBy.isSome then s
    else
      let done := r.done.filter (fun x => x.1 != node) ++ [(node, result)]
      let s := s.modRecov i (fun r => { r with done := done })
      if (s.dom i).nodes.all (fun n => done.any (fun x => x.1 == n)) then s.recovEnd i false else s
  | none => s

/-- RECOVER(T) reaches a member: its records of epochs after T wait to be written back (R342). -/
def State.recoverAt (s : State) (i t : Nat) (askedBy : Option Nat) : State :=
  let s := s.modDom i (fun d =>
    { d with state := 3, storedTarget := some t,
             recov := some (match d.recov with
               | some r => { r with target := some t }
               | none => { target := some t, askedBy := askedBy }) })
  s

/-- The last committed image: the highest COMMITTED reported, never below any member's RELEASED (R342). -/
def recoverTo (st : List (Nat × Nat × Nat)) : Nat := (st.map (fun x => max x.2.1 x.2.2)).foldl max 0

/-- STATE of a member is gathered; with every member's the target is chosen and RECOVER goes out (R342). -/
def State.stateAt (s : State) (i node committed released : Nat) : State :=
  match (s.dom i).recov with
  | some r =>
    if r.target.isSome then s
    else
      let st := r.states.filter (fun x => x.1 != node) ++ [(node, committed, released)]
      let s := s.modRecov i (fun r => { r with states := st })
      if (s.dom i).nodes.all (fun n => st.any (fun x => x.1 == n)) then
        let t := if r.latest then caskLatest else recoverTo st
        (s.caskSendAll 9 i t 0).recoverAt i t none
      else s
  | none => s

/-- A recovery starts on this node: QUERY to every member (R342). -/
def State.recoverStart (s : State) (i : Nat) (latest : Bool) (src : Option CmdSrc) : State :=
  let s := s.modDom i (fun d => { d with recov := some { src := src, latest := latest } })
  let d := s.dom i
  (s.caskSendAll 7 i 0 0).stateAt i s.nodeId d.committed d.released

/-- A whole tile is written as a host write would be, saving nothing (R333, R342). -/
def State.writeTile (s : State) (ltn : Nat) (t : Tile) (poison : BitVec 4) : State :=
  let s := { s with cache := { s.cache with mash := s.cache.mash.filter (fun m => m.ltn != ltn) } }
  let put := fun (y : Way) => { y with valid := 15, dirty := 15, poison := poison, data := t,
                                       again := if y.evq then 15 else y.again }
  match (s.cset 0xFFF ltn).ways.findIdx? (fun w => w.holds 0xFFF ltn) with
  | some w => s.modWay 0xFFF ltn w put
  | none => match s.takeWay 0xFFF ltn (s.tileOwner ltn) with
    | some (w, s) => s.modWay 0xFFF ltn w put
    | none => s.sendProg .through 2 ltn (s.tileOwner ltn) t 15 15 poison true 0

/-- QUERY (R342): a member answers STATE. -/
def execQuery (f : Frame) (body : BitVec 256) (s : State) : Res :=
  match s.caskTake f body 7 with
  | (some i, s) => .next (s.caskSend f.src 8 i (s.dom i).committed 0 0 (s.dom i).released)
  | (none, s) => .next s

/-- STATE (R342): a member's STATE reaches the node that serves the recovery. -/
def execState (f : Frame) (body : BitVec 256) (s : State) : Res :=
  match s.caskTake f body 8 with
  | (some i, s) => .next (s.stateAt i f.src (bitsOf body.toNat 36 48) (bitsOf body.toNat 164 48))
  | (none, s) => .next s

/-- RECOVER (R342): a member is told the target. -/
def execRecover (f : Frame) (body : BitVec 256) (s : State) : Res :=
  match s.caskTake f body 9 with
  | (some i, s) => .next (s.recoverAt i (bitsOf body.toNat 36 48) (some f.src))
  | (none, s) => .next s

/-- CASK_WRITEBACK_END (R342): the records after the target are written back, newest first; every record is freed and
RECOVER_DONE answered; the domain's held writes go on. A promoted range answers RESULT 1. -/
def execCaskWritebackEnd (dom : Fin 16) (s : State) : Res :=
  let i := dom.val
  match (s.dom i).recov with
  | some r =>
    match r.target with
    | none => .next s
    | some t =>
      if (s.dom i).state ≠ 3 ∨ (s.dom i).resting then .next s
      else
        let back := (s.cask.log.filter (fun x => x.dom == i && decide (t < x.epoch))).reverse
        let s := back.foldl (fun s x => s.writeTile x.ltn x.data x.poison) s
        let s := s.freeRecords (fun x => x.dom == i)
        let result := b2n (s.fabric.mirrors.any (fun (_, m) => m.state == 4))
        let s := s.modDom i (fun d => { d with resting := true, storedTarget := none, logFull := false })
        let s := match r.askedBy with
          | some n => (s.modDom i (fun d => { d with recov := none })).caskSend n 10 i 0 0 result 0
          | none => if r.src.isNone then s.modDom i (fun d => { d with recov := none }) else s.recovDoneAt i s.nodeId result
        .next s.pump
  | none => .next s

/-- RECOVER_DONE (R342): a member's answer reaches the node that serves the recovery. -/
def execRecoverDone (f : Frame) (body : BitVec 256) (s : State) : Res :=
  match s.caskTake f body 10 with
  | (some i, s) => .next (s.recovDoneAt i f.src (bitsOf body.toNat 160 4))
  | (none, s) => .next s

/-- CASK_RECOVER_TIMEOUT (R342, R421): a member has not answered within 10 s; the command completes with PARTIAL. -/
def execCaskRecoverTimeout (dom : Fin 16) (s : State) : Res :=
  let i := dom.val
  match (s.dom i).recov with
  | some r =>
    if r.askedBy.isSome then .next s
    else match r.target with
      | some _ => .next (s.recovEnd i true)
      | none =>
        -- members that reported decide the target
        let t := if r.latest then caskLatest else recoverTo r.states
        let s := (s.caskSendAll 9 i t 0).recoverAt i t none
        .next (s.recovEnd i true)
  | none => .next s

end Sys2Proof.Machine
end

