-- ==== Sys2Proof/Machine/Peer.lean ====
section
/-!
DEFINITION. The coherence messages between controllers (spec/10, R267 to R276; spec/11, R285, R293 to R295): requests of
proxies at the home, snoops and forwards of a home at a proxy or owner, and the answers.
-/

namespace Sys2Proof

/-- A field of a coherence message's header (R270). -/
def CohMsg.f (m : CohMsg) (lsb w : Nat) : Nat := bitsOf m.hdr.toNat lsb w
/-- SRC. -/
def CohMsg.src (m : CohMsg) : Nat := m.f 6 12
/-- AUX. -/
def CohMsg.aux (m : CohMsg) : Nat := m.f 30 12
/-- TID. -/
def CohMsg.tid (m : CohMsg) : Nat := m.f 42 12
/-- LINE. -/
def CohMsg.line (m : CohMsg) : Nat := m.f 54 39
/-- GRANT. -/
def CohMsg.grant (m : CohMsg) : Nat := m.f 93 2
/-- The 64 bytes that follow, if DATA is set. -/
def CohMsg.body (m : CohMsg) : Option Line := if m.f 98 1 = 1 then some m.data else none
/-- POISON bit 0 of the trailer (R285). -/
def CohMsg.poison (m : CohMsg) : Bool := m.trailer.getLsbD 0
/-- DENIED of the trailer (R285). -/
def CohMsg.denied (m : CohMsg) : Bool := m.trailer.getLsbD 4

end Sys2Proof

namespace Sys2Proof.Machine

/-- A COH frame with an OPC arrives: the frame is accepted for this node, and the message's reserved fields are zero; a
message that fails is dropped and logged (R271, R284). An isolated node takes none (R289). -/
def State.cohTake (s : State) (f : Frame) (m : CohMsg) (opc : Nat) : Bool × State :=
  let (len, body) := msgBody 3 m.hdr (m.body.map (fun d => d.setWidth 2048)) m.mask m.trailer.toNat
  let (go, s) := s.linkAccept f 3 [msgVc 3 opc] len body
  if !go || s.fabric.isolated then (false, s)
  else if m.f 0 6 ≠ opc ∨ m.f 99 29 ≠ 0 ∨ m.trailer.toNat / 32 ≠ 0 then
    (false, (s.count 11 3 1).event { mkEv .warning 5 f.link.val .protocol with detail := [m.f 0 6, m.src] } none)
  else (true, s)

/-- Is a request of a node to a line within an export (R294)? -/
def State.exported (s : State) (node line : Nat) (write : Bool) : Bool :=
  let b := line / 2 ^ 22
  s.fabric.exports.any (fun (_, e) => e.valid && decide (e.first ≤ b) && decide (b < e.first + e.count)
    && (e.node == node || e.node == 0xFFF) && (!write || e.write))

/-- A request outside the exports is answered DENIED, without a place in a line queue; the first in a slot writes an event
(R250, R294). -/
def State.deny (s : State) (node tid line : Nat) (read : Bool) : State :=
  let s := s.count 11 6 1
  let s := if s.host.denyTold then s
    else ({ s with host := { s.host with denyTold := true } }).event
      { mkEv .warning 11 node .refused with addr := line * 64, detail := [node] } none
  if read then s.coh 0x20 node 0 tid line 0 true false false none 0 16
  else s.coh 0x21 node 0 tid line 0 false false false none 0 16

/-- Is a request the peer's own of that TID and line? -/
def HReq.isPeer (r : HReq) (node tid line : Nat) : Bool :=
  match r.src with
  | .peer _ n t => n == node && t == tid && r.line == line
  | _ => false

/-- A duplicate of a request that is here already: the last message of its transaction is sent again (R293). -/
def State.peerDup (s : State) (node tid line : Nat) : Option State :=
  if s.home.wait.any (·.isPeer node tid line) || s.home.stall.any (·.isPeer node tid line) then some s
  else if s.home.act.any (fun a => a.req.isPeer node tid line) then
    let mine := s.fabric.sent.filter (fun x => x.type == 3 && bitsOf x.hdr.toNat 42 12 == tid && bitsOf x.hdr.toNat 54 39 == line
      && ((x.dst == node && (x.hdr.toNat % 64 == 0x20 || x.hdr.toNat % 64 == 0x21))
        || ((x.hdr.toNat % 64 == 0x12 || x.hdr.toNat % 64 == 0x13) && bitsOf x.hdr.toNat 30 12 == node)))
    some (match mine.getLast? with
      | some x => s.resendMsg x
      | none => s)
  else none

/-- A proxy's request reaches the home (R250, R272, R294): duplicate, denied, or placed in its line's order. A request to a
range whose home has moved is re-issued by its proxy under the redirect (R302, R304). -/
def State.peerRequest (s : State) (f : Frame) (m : CohMsg) (opc : Nat) (op : ReqOp) (kind : Nat) : State :=
  match s.cohTake f m opc with
  | (false, s) => s
  | (true, s) =>
    let node := m.src
    match s.peerDup node m.tid m.line with
    | some s => s
    | none =>
      if s.rehome 0xFFF m.line ≠ m.line then s
      else if !s.exported node m.line op.write? then s.deny node m.tid m.line (!op.write? && opc != 4)
      else
        let (smp, s) := (s.count 11 5 1).sampleDraw 64
        let keep := opc == 5 && m.grant == 2
        let r : HReq := { src := .peer f.link.val node m.tid, op := op, line := m.line, data := m.data, mask := m.mask,
                          poison := m.poison, kind := kind, at_ := s.ft, keepE := keep, sampled := smp }
        (s.submit r).pump

/-- RD_S: as MemRd with MetaValue S (R272). -/
def execRdS (f : Frame) (m : CohMsg) (s : State) : Res := .next (s.peerRequest f m 1 .rdS 6)
/-- RD_E: as MemRd with MetaValue A (R272). -/
def execRdE (f : Frame) (m : CohMsg) (s : State) : Res := .next (s.peerRequest f m 2 .rdA 6)
/-- RD_NC: as MemRd with MetaValue I (R272). -/
def execRdNc (f : Frame) (m : CohMsg) (s : State) : Res := .next (s.peerRequest f m 3 .rdI 6)
/-- UPG: as MemInv A (R272). -/
def execUpg (f : Frame) (m : CohMsg) (s : State) : Res := .next (s.peerRequest f m 4 .invA 8)
/-- WR: as MemWr with the GRANT taken as MetaValue (R269, R272). -/
def execWr (f : Frame) (m : CohMsg) (s : State) : Res :=
  .next (s.peerRequest f m 5 (if m.grant = 1 then .wrS else .wrI) 7)

/-! ### Snoops and forwards at a proxy (R273, R275, R276) -/

/-- A kept answer to a home's snoop or forward of that TID and line, and an owner's DATA beside it (R293). -/
def State.keptAnswer (s : State) (home tid line opc : Nat) : List SentMsg :=
  s.fabric.sent.filter (fun x => x.answer && x.type == 3 && bitsOf x.hdr.toNat 42 12 == tid && bitsOf x.hdr.toNat 54 39 == line
    && ((x.dst == home && x.hdr.toNat % 64 == (if opc < 0x12 then 0x22 else 0x23))
      || (0x12 ≤ opc && x.hdr.toNat % 64 == 0x20 && bitsOf x.hdr.toNat 30 12 == home)))

/-- A home's snoop or forward reaches this node: its local holders are snooped ahead of the local queue, and the answer
follows theirs (R273, R276). -/
def State.peerSnoop (s : State) (f : Frame) (m : CohMsg) (opc : Nat) : State :=
  match s.cohTake f m opc with
  | (false, s) => s
  | (true, s) =>
    let home := m.src
    let k := lineKey home m.line
    let kept := s.keptAnswer home m.tid m.line opc
    if !kept.isEmpty then kept.foldl (fun s x => s.resendMsg x) s
    else if s.home.owed.any (fun o => o.key == k && o.opc == opc && o.tid == m.tid) then s
    else
      let e := s.dirGet k
      let inv := opc == 0x10 || opc == 0x13
      let dest := if inv || e.state == 3 then slotsOf e.sharers else []
      let (l, s) := dest.foldl (fun (x : List Snoop × State) i =>
        let (n, s) := x.2.sendSnoop k { dest := .slot i, inv := inv }
        (x.1 ++ [n], s)) (([] : List Snoop), s)
      let o : Owed := { key := k, opc := opc, tid := m.tid, aux := m.aux, snoops := l }
      let s := { s with home := { s.home with owed := s.home.owed ++ [o] } }
      (if l.isEmpty then s.finishOwed o else s).pump

/-- INV: go to I; local holders are invalidated and SNP_RSP answers (R271, R276). -/
def execInv (f : Frame) (m : CohMsg) (s : State) : Res := .next (s.peerSnoop f m 0x10)
/-- SNP_S: go to S, with data if a local host held the line modified (R271, R276). -/
def execSnpS (f : Frame) (m : CohMsg) (s : State) : Res := .next (s.peerSnoop f m 0x11)
/-- FWD_S: data to the requester in S, FWD_ACK to the home (R273, R275). -/
def execFwdS (f : Frame) (m : CohMsg) (s : State) : Res := .next (s.peerSnoop f m 0x12)
/-- FWD_E: data to the requester in E, FWD_ACK to the home, this node goes to I (R273, R275). -/
def execFwdE (f : Frame) (m : CohMsg) (s : State) : Res := .next (s.peerSnoop f m 0x13)

/-! ### Answers at the requester (R268, R269, R274, R295) -/

/-- An entry of a visitor line stored, in a free way where it has none; answers whether it stands. -/
def State.dirMake (s : State) (k : Nat) (e : DirEntry) : Bool × State :=
  match s.dirWay k with
  | some w => (true, s.setDir k w e)
  | none => match (s.dirEntries k).findIdx? (fun x => x.state == 0 || decide (4 ≤ x.state)) with
    | some w => (true, s.setDir k w e)
    | none => (false, s)

/-- A visitor line's entry that nothing stands behind is freed. -/
def State.dirForget (s : State) (k : Nat) : State :=
  if s.visitorHeld k || (s.dirGet k).sharers != 0 then s
  else match s.dirWay k with
    | some w => s.setDir k w {}
    | none => s

/-- A request answered DENIED: a read returns poison, a write completes unstored, and it counts as unmapped (R295). -/
def State.proxyDenied (s : State) (a : Act) : State :=
  let k := a.req.line
  let s := match a.req.src with
    | .host h l _ => s.unmapped h l (keyL k * 64)
    | _ => s
  let s := if a.req.op.write? then (s.dropVisitor k).answerCmp a 0 else s.answerRead a 0 true 0
  (s.tryClose a.id).dirForget k

/-- A write to a visitor line is completed; GRANT is the proxy's state from then on (R269). -/
def State.proxyWritten (s : State) (a : Act) (g : Nat) : State :=
  let k := a.req.line
  let e := s.dirGet k
  let s := match s.dirWay k with
    | none => s
    | some w =>
      if g = 0 then (s.setDir k w {}).dropVisitor k
      else s.setDir k w { e with state := if g = 2 ∧ e.state = 3 then 3 else g }
  (s.answerCmp a 0).tryClose a.id

/-- A read's data have come: cached here under the grant where the home allows it, and given to the host (R268). -/
def State.proxyRead (s : State) (a : Act) (d : Line) (poison nc : Bool) (g : Nat) : State :=
  let k := a.req.line
  let old := s.dirGet k
  let (ok, s) := if nc || g = 0 then (false, s)
    else s.dirMake k { (if old.state = 0 then newEntry k else old) with state := if g = 2 ∧ old.state = 3 then 3 else g }
  if ok then
    let s := (s.fillVisitor k d poison).proxyGrant a.req
    (s.answerRead a d poison (min g a.req.op.grant)).tryClose a.id
  else ((s.answerRead a d poison 0).tryClose a.id).dirForget k

/-- An upgrade is granted: E is held, and the host is served (R261, R268). -/
def State.proxyUpgraded (s : State) (a : Act) : State :=
  let k := a.req.line
  let e := s.dirGet k
  let s := match s.dirWay k with
    | some w => s.setDir k w { e with state := 2 }
    | none => s
  if a.req.op = .invA ∧ s.shown a.req then (((s.proxyGrant a.req).answerCmp a 2)).tryClose a.id
  else if s.visitorHeld k || a.fwdData.isSome then (s.proxyGrant a.req).serve a.id none
  else s.askHome a 2 0

/-- A transaction towards a home is complete: ACK is sent, and the local request ends (R274). -/
def State.proxyFinish (s : State) (p : ProxyTxn) : State :=
  let s := { s with home := { s.home with proxy := s.home.proxy.filter (fun q => q != p) } }
  let s := s.unsend (fun x => !x.answer && x.type == 3 && x.dst == p.home && bitsOf x.hdr.toNat 42 12 == p.tid
    && bitsOf x.hdr.toNat 54 39 == keyL p.line && x.hdr.toNat % 64 == p.opc)
  let s := s.modFabric (fun x => { x with sent := x.sent.filter (fun y => !(y.answer && y.type == 3 && y.dst == p.home
    && (y.hdr.toNat % 64 == 0x22 || y.hdr.toNat % 64 == 0x23) && bitsOf y.hdr.toNat 54 39 == keyL p.line)) })
  let s := match s.act p.act with
    | none => s
    | some a =>
      if p.denied then s.proxyDenied a
      else if p.opc = 5 then s.proxyWritten a p.grant
      else match p.gotData with
        | some d => s.proxyRead a d p.poison p.nc p.grant
        | none => if p.opc = 4 then s.proxyUpgraded a else s.proxyRead a 0 true true 0
  (s.coh 0x24 p.home 0 p.tid (keyL p.line) 0 false false false none 0 0).pump

/-- The transaction a DATA or CMP belongs to: by TID and line, from its home or from an owner that names the home. -/
def State.proxyOf (s : State) (m : CohMsg) : Option ProxyTxn :=
  s.home.proxy.find? (fun p => p.tid == m.tid && keyL p.line == m.line && (p.home == m.src || (m.f 0 6 == 0x20 && p.home == m.aux)))

/-- A message of a transaction already complete here: its ACK is sent again (R293). -/
def State.ackAgain (s : State) (m : CohMsg) : State :=
  match s.fabric.sent.find? (fun x => x.answer && x.type == 3 && x.hdr.toNat % 64 == 0x24 && bitsOf x.hdr.toNat 42 12 == m.tid
      && bitsOf x.hdr.toNat 54 39 == m.line && (x.dst == m.src || x.dst == m.aux)) with
  | some x => s.resendMsg x
  | none => s

/-- DATA: the line and the grant reach the requester; with DIRTY set it waits for CMP (R274). -/
def execData (f : Frame) (m : CohMsg) (s : State) : Res :=
  match s.cohTake f m 0x20 with
  | (false, s) => .next s
  | (true, s) =>
    match s.proxyOf m with
    | none => .next (s.ackAgain m)
    | some p =>
      let dirty := m.f 96 1 == 1
      let q := { p with gotData := some m.data, poison := m.poison, denied := m.denied, grant := m.grant, nc := m.f 95 1 == 1 }
      let s := { s with home := { s.home with proxy := lupd (fun x => x == p) (fun _ => q) s.home.proxy } }
      .next (if dirty && !q.gotCmp then s else s.proxyFinish q)

/-- CMP: completes a WR, an UPG, or DATA with DIRTY set (R269, R271, R274). An UPG whose S is gone waits for its DATA. -/
def execCmp (f : Frame) (m : CohMsg) (s : State) : Res :=
  match s.cohTake f m 0x21 with
  | (false, s) => .next s
  | (true, s) =>
    match s.proxyOf m with
    | none => .next (s.ackAgain m)
    | some p =>
      let alone := p.opc == 5 || (p.opc == 4 && (s.dirGet p.line).state != 0) || m.denied
      let q := if p.gotData.isSome then { p with gotCmp := true }
        else { p with gotCmp := true, denied := m.denied, grant := m.grant }
      let s := { s with home := { s.home with proxy := lupd (fun x => x == p) (fun _ => q) s.home.proxy } }
      .next (if p.gotData.isSome || alone then s.proxyFinish q else s)

/-! ### Answers at the home (R272 to R275) -/

/-- Data a peer's hosts wrote back are placed as a write of the part itself; `id` is the transaction they came for, whose
read is answered with them (R118, R123, R272, R273). -/
def State.placeWriteback (s : State) (id line : Nat) (d : Line) (poison : Bool) : State :=
  let r : HReq := { src := .own 0, op := .wrI, line := line, data := d, mask := BitVec.allOnes 64, poison := poison, at_ := s.ft,
                    keepE := true }
  let (w, s) := s.newAct r true
  let s := match s.act w with | some a => s.sendMwr a | none => s
  let s := s.serve w none
  if poison then s else s.modAct id (fun a => if a.req.op.write? || a.req.line != line then a else { a with fwdData := some d })

/-- SNP_RSP: a peer's answer to INV or SNP_S, with data if written back (R271, R272). -/
def execSnpRsp (f : Frame) (m : CohMsg) (s : State) : Res :=
  match s.cohTake f m 0x22 with
  | (false, s) => .next s
  | (true, s) =>
    let dest := SnoopTo.peer m.src
    match s.home.act.find? (fun a => a.snoopKey == m.line && a.snoops.any (fun n => n.dest == dest)) with
    | none => .next s
    | some a =>
      let s := s.unsend (fun x => x.type == 3 && x.dst == m.src && bitsOf x.hdr.toNat 54 39 == m.line
        && (x.hdr.toNat % 64 == 0x10 || x.hdr.toNat % 64 == 0x11))
      let inv := a.snoops.any (fun n => n.dest == dest && n.inv)
      let gotS := decide (1 ≤ m.grant) && !inv
      let e := s.dirGet m.line
      let s := s.dirPut m.line (if gotS then e.share dest else e.drop dest)
      let s := if gotS then s else s.count 5 2 1
      let s := match m.body with
        | some d => s.placeWriteback a.id m.line d m.poison
        | none => s
      let s := s.modAct a.id (fun a => { a with snoops := ldrop (fun n => n.dest == dest) a.snoops })
      .next (s.snoopsDone a.id).pump

/-- FWD_ACK: the owner's answer; the home places data, updates the entry and owes CMP for a dirty forward; with STALE it
sends its own copy (R273, R275). -/
def execFwdAck (f : Frame) (m : CohMsg) (s : State) : Res :=
  match s.cohTake f m 0x23 with
  | (false, s) => .next s
  | (true, s) =>
    match s.home.act.find? (fun a => a.phase == .fwd && a.req.line == m.line) with
    | none => .next s
    | some a =>
      let s := s.unsend (fun x => x.type == 3 && x.dst == m.src && bitsOf x.hdr.toNat 54 39 == m.line
        && (x.hdr.toNat % 64 == 0x12 || x.hdr.toNat % 64 == 0x13))
      if m.f 97 1 = 1 then
        let s := s.count 5 6 1
        let s := s.dirPut m.line ((s.dirGet m.line).drop (.peer m.src))
        .next ((s.modAct a.id (fun a => { a with phase := .snoop })).grantStage a.id).pump
      else
        let e := s.dirGet m.line
        let excl := a.req.op == .rdA || a.req.op == .invA
        let s := s.recordPeer m.aux
        let s := s.dirPut m.line (if excl then { e with state := 3, sharers := 0, ext := m.aux }
          else { e with state := 1, ext := (2 ^ (m.src % 4)) ||| (2 ^ (m.aux % 4)) })
        let s := s.modAct a.id (fun a => { a with phase := .placed, answered := true, oweCmp := m.body.isSome })
        let s := s.finishTally a false
        let s := match m.body with
          | some d => s.placeWriteback a.id m.line d m.poison
          | none => s
        .next (s.tryClose a.id).pump

/-- ACK: the requester has completed; the transaction closes (R274). -/
def execAck (f : Frame) (m : CohMsg) (s : State) : Res :=
  match s.cohTake f m 0x24 with
  | (false, s) => .next s
  | (true, s) =>
    let s := s.modFabric (fun x => { x with sent := x.sent.filter (fun y => !(y.type == 3 && y.dst == m.src
      && (y.hdr.toNat % 64 == 0x20 || y.hdr.toNat % 64 == 0x21) && bitsOf y.hdr.toNat 42 12 == m.tid && bitsOf y.hdr.toNat 54 39 == m.line)) })
    match s.home.act.find? (fun a => a.req.isPeer m.src m.tid m.line) with
    | none => .next s
    | some a => .next ((s.modAct a.id (fun a => { a with wantAck := false })).tryClose a.id).pump

end Sys2Proof.Machine
end

