-- ==== Sys2Proof/Machine/Mirror.lean ====
section
/-!
DEFINITION. The mirror messages between controllers and the pace of resynchronisation (spec/11, R298 to R301; spec/05,
R123; spec/04, R110).
-/

namespace Sys2Proof

/-- A field of a mirror message's header (R270, R298). -/
def MirMsg.f (m : MirMsg) (lsb w : Nat) : Nat := bitsOf m.hdr.toNat lsb w
/-- SRC. -/
def MirMsg.src (m : MirMsg) : Nat := m.f 6 12
/-- TID. -/
def MirMsg.tid (m : MirMsg) : Nat := m.f 42 12
/-- LINE: the line at the home. -/
def MirMsg.line (m : MirMsg) : Nat := m.f 54 39
/-- POISON of the trailer (R285). -/
def MirMsg.poison (m : MirMsg) : BitVec 4 := m.trailer.setWidth 4

end Sys2Proof

namespace Sys2Proof.Machine

/-- A MIRROR frame with an OPC arrives and is accepted for this node (R271, R284, R298). -/
def State.mirTake (s : State) (f : Frame) (m : MirMsg) (opc : Nat) : Bool × State :=
  let (len, body) := msgBody 4 m.hdr (if m.f 98 1 = 1 then some m.data else none) m.mask m.trailer.toNat
  let (go, s) := s.linkAccept f 4 [msgVc 4 opc] len body
  if !go || s.fabric.isolated then (false, s)
  else if m.f 0 6 ≠ opc ∨ m.f 99 29 ≠ 0 ∨ m.trailer.toNat / 64 ≠ 0 then
    (false, (s.count 11 3 1).event { mkEv .warning 11 f.link.val .protocol with detail := [m.f 0 6, m.src] } none)
  else (true, s)

/-- The active mirror entry here that holds the copy of a home's segment, with its number (R299). -/
def State.copyEntry (s : State) (home lsn : Nat) : Option (Nat × MirrorEnt) :=
  s.fabric.mirrors.find? (fun (_, e) => e.role == 1 && (e.state == 1 || e.state == 2 || e.state == 3) && e.partner == home
    && decide (e.homeLsn ≤ lsn) && decide (lsn < e.homeLsn + e.count))

/-- A mirror entry changed. -/
def State.modMirror (s : State) (k : Nat) (f : MirrorEnt → MirrorEnt) : State :=
  s.modFabric (fun x => { x with mirrors := mmod {} x.mirrors k f })

/-- A duplicate of a message this node answered is answered again (R293). -/
def State.mirKept (s : State) (m : MirMsg) (opc : Nat) : Option SentMsg :=
  s.fabric.sent.find? (fun x => x.answer && x.type == 4 && x.dst == m.src && x.hdr.toNat % 64 == opc
    && bitsOf x.hdr.toNat 42 12 == m.tid && bitsOf x.hdr.toNat 54 39 == m.line)

/-- Is a message being worked on here already? -/
def State.mirOpen (s : State) (src : ReqSrc) : Bool :=
  s.home.act.any (fun a => a.req.src == src) || s.home.wait.any (fun q => q.src == src) || s.home.stall.any (fun q => q.src == src)

/-- A request kept for resending is answered (R293). -/
def State.mirAnswered (s : State) (m : MirMsg) (opc : Nat) : State :=
  s.unsend (fun x => !x.answer && x.type == 4 && x.dst == m.src && x.hdr.toNat % 64 == opc
    && bitsOf x.hdr.toNat 42 12 == m.tid && bitsOf x.hdr.toNat 54 39 == m.line)

/-- MWR: the copy of a write is placed as a host write and then confirmed (R123, R300). -/
def execMwr (f : Frame) (m : MirMsg) (s : State) : Res :=
  match s.mirTake f m 0x30 with
  | (false, s) => .next s
  | (true, s) =>
    match s.mirKept m 0x31, s.copyEntry m.src (m.line / 16384) with
    | some x, _ => .next (s.resendMsg x)
    | none, none => .next s
    | none, some (_, e) =>
      let src := ReqSrc.mirror m.src m.tid m.line
      if s.mirOpen src then .next s
      else
        let r : HReq := { src := src, op := .wrI, line := m.line - e.homeLsn * 16384 + e.mirrorLsn * 16384, data := m.data.line 0,
                          mask := m.mask, poison := m.poison.getLsbD 0, at_ := s.ft }
        .next (s.submit r).pump

/-- MCMP: the copy is in the mirror's domain; the held write completes (R123). -/
def execMcmp (f : Frame) (m : MirMsg) (s : State) : Res :=
  match s.mirTake f m 0x31 with
  | (false, s) => .next s
  | (true, s) =>
    let s := s.mirAnswered m 0x30
    match s.home.act.find? (fun a => a.wantMirror && a.req.line == m.line && a.id % 4096 == m.tid) with
    | none => .next s
    | some a =>
      let s := (s.modAct a.id (fun a => { a with wantMirror := false })).count 11 7 1
      .next (if a.phase == .placed then s.writeDone a.id (s.writeGrant a.req) else s).pump

/-- Is the copy of a home segment synchronised: the entry is past RESYNC, or the copy has passed the segment (R301)? -/
def MirrorEnt.synced (e : MirrorEnt) (lsn : Nat) : Bool := e.state != 1 || decide ((lsn - e.homeLsn + 1) * 4096 ≤ e.next)

/-- MRD: the tile is read here and answered with MDATA; an unsynchronised copy is answered DENIED, a bounded MRD whose tile
is already in deep recovery UNRECOVERED (R300, R301). -/
def execMrd (f : Frame) (m : MirMsg) (s : State) : Res :=
  match s.mirTake f m 0x32 with
  | (false, s) => .next s
  | (true, s) =>
    let lsn := m.line / 16384
    let bounded := m.trailer.getLsbD 5
    match s.mirKept m 0x33, s.copyEntry m.src lsn with
    | some x, _ => .next (s.resendMsg x)
    | none, none => .next (s.mir 0x33 m.src m.tid m.line none 0 16)
    | none, some (_, e) =>
      if !e.synced lsn then .next (s.mir 0x33 m.src m.tid m.line none 0 16)
      else
        let ltn := m.line / 4 - e.homeLsn * 4096 + e.mirrorLsn * 4096
        let job := (m.src, ltn, 4 * m.tid + b2n bounded)
        if s.fabric.serving.contains job then .next s
        else
          let s := s.modFabric (fun x => { x with serving := x.serving ++ [job] })
          let (_, v, _) := s.tileNow ltn
          let key : TileRef := .logical (BitVec.ofNat 37 ltn)
          let deep := match s.regOf key with
            | some r => r.phase == .deepWait || r.phase == .deep || r.phase == .mirror
            | none => false
          if v = 15 ∨ (s.entry (ltnSeg ltn)).state = stDiscarded then .next (s.answerMrds ltn (some (0, 0)) (fun _ => true))
          else if deep && bounded then .next (s.answerMrds ltn none (· == 1))
          else if (s.regOf key).isSome || s.regsFree = 0 then .next s
          else .next (s.addReg (mkReg key .noFill s.ft))

/-- MDATA: the mirror's tile reaches the deep recovery that asked for it, or the lines still poison in the background;
with UNRECOVERED or DENIED a deep recovery ends in the failure outcome, UNRECOVERED with an MRD without BOUNDED sent
after it (R110 step 6, R300). -/
def execMdata (f : Frame) (m : MirMsg) (s : State) : Res :=
  match s.mirTake f m 0x33 with
  | (false, s) => .next s
  | (true, s) =>
    let ltn := m.line / 4
    let bounded := m.tid % 2 == 0
    let s := s.mirAnswered m 0x32
    if !s.reads.mrds.contains (ltn, bounded) then .next s
    else
      let s := s.modReads (fun x => { x with mrds := x.mrds.erase (ltn, bounded) })
      let denied := m.trailer.getLsbD 4
      let lost := m.trailer.getLsbD 5
      if !bounded then .next (if denied || lost then s.lostProgram ltn else (s.mirrorBack ltn m.data m.poison).pump)
      else match s.regOf (.logical (BitVec.ofNat 37 ltn)) with
        | some r =>
          if r.phase != .mirror then .next s
          else if denied || lost then
            let s := s.readEnd r (.bad false r.fields)
            .next (if lost then s.sendMrd ltn false else s)
          else .next (s.fillEnd r (.mirror m.data m.poison))
        | none => .next s

/-- MDISC: the copy of the segment is discarded under R169 and answered with MDACK (R300). -/
def execMdisc (f : Frame) (m : MirMsg) (s : State) : Res :=
  match s.mirTake f m 0x34 with
  | (false, s) => .next s
  | (true, s) =>
    let lsn := m.line % 2 ^ 25
    match s.mirKept m 0x35, s.copyEntry m.src lsn with
    | some x, _ => .next (s.resendMsg x)
    | none, none => .next (s.mir 0x35 m.src m.tid m.line none 0 0)
    | none, some (_, e) =>
      let own := lsn - e.homeLsn + e.mirrorLsn
      let job := (m.src, own, 4 * m.tid + 2)
      if s.fabric.serving.contains job then .next s
      else
        let s := s.modFabric (fun x => { x with serving := x.serving ++ [job] })
        .next (s.discardNow .segments false [(own, 1)] none false (2 ^ 22 + own) 0)

/-- MDACK: the mirror's copy is discarded; the discards that waited complete (R170). -/
def execMdack (f : Frame) (m : MirMsg) (s : State) : Res :=
  match s.mirTake f m 0x35 with
  | (false, s) => .next s
  | (true, s) =>
    let lsn := m.line % 2 ^ 25
    let s := s.mirAnswered m 0x34
    let s := s.modFabric (fun x => { x with mdiscs := x.mdiscs.filter (fun d => d != (m.src, lsn)) })
    let s := s.modMap (fun x => { x with discards := x.discards.map (fun d => { d with mirror := d.mirror.filter (· != lsn) }) })
    .next (s.discDone.pump)

/-- RSYNC: a tile of the home is placed as four lines of this node's copy; the last tile of the range ends the entry's
resynchronisation here (R301). -/
def execRsync (f : Frame) (m : MirMsg) (s : State) : Res :=
  match s.mirTake f m 0x36 with
  | (false, s) => .next s
  | (true, s) =>
    match s.mirKept m 0x37, s.copyEntry m.src (m.line / 16384) with
    | some x, _ => .next (s.resendMsg x)
    | none, none => .next s
    | none, some (k, e) =>
      let src := ReqSrc.resync m.src m.tid m.line
      if s.mirOpen src then .next s
      else
        let idx := m.line / 4 - e.homeLsn * 4096
        let base := (e.mirrorLsn * 4096 + idx) * 4
        let s := s.modMirror k (fun e => { e with next := max e.next (idx + 1),
                                                  state := if idx + 1 = e.count * 4096 then 2 else e.state })
        .next (([0, 1, 2, 3] : List Nat).foldl (fun s l => s.submit
          { src := src, op := .wrI, line := base + l, data := m.data.line l, mask := BitVec.allOnes 64,
            poison := m.poison.getLsbD l, at_ := s.ft }) s).pump

/-- RSACK: a tile copy is placed at the mirror; the last one makes the entry MIRRORED (R301). -/
def execRsack (f : Frame) (m : MirMsg) (s : State) : Res :=
  match s.mirTake f m 0x37 with
  | (false, s) => .next s
  | (true, s) =>
    let s := s.mirAnswered m 0x36
    match s.fabric.mirrors.find? (fun (_, e) => e.role == 0 && e.state == 1 && e.partner == m.src && e.out.contains (m.line / 4)) with
    | none => .next s
    | some (k, _) =>
      .next (s.modMirror k (fun e =>
        let e := { e with out := e.out.filter (· != m.line / 4) }
        if e.out.isEmpty ∧ e.count * 4096 ≤ e.next then { e with state := 2, next := 0 } else e))

/-- The next tile of an entry to copy: the first of a segment with data at or after its cursor, or the last tile of the
range, which is copied in any case so that the mirror sees the end (R301). -/
def State.resyncNext (s : State) (e : MirrorEnt) : Option Nat :=
  let n := e.count * 4096
  if n ≤ e.next then none
  else
    let seg := e.homeLsn + e.next / 4096
    let mapped := s.map.entries.filter (fun (l, x) => decide (seg ≤ l) && decide (l < e.homeLsn + e.count) && x.state != stDiscarded)
    match (mapped.map (·.1)).foldl (fun (a : Option Nat) l => match a with | some b => some (min b l) | none => some l) none with
    | some l => some (if l = seg then e.next else (l - e.homeLsn) * 4096)
    | none => some (n - 1)

/-- RESYNC_TICK: the pace allows the entry's next tile copy: the tile is read as an internal request, or its zeros are
sent where the segment has no data (R301). A tile being read or programmed is taken at a later tick. -/
def execResyncTick (entry : Fin 256) (s : State) : Res :=
  let e : MirrorEnt := mget {} s.fabric.mirrors entry.val
  if e.role ≠ 0 ∨ e.state ≠ 1 then .next s
  else match s.resyncNext e with
    | none => .next s
    | some i =>
      let ltn := e.homeLsn * 4096 + i
      let key : TileRef := .logical (BitVec.ofNat 37 ltn)
      let take := fun (s : State) => s.modMirror entry.val (fun e => { e with next := i + 1, out := e.out ++ [ltn] })
      if (s.entry (ltnSeg ltn)).state = stDiscarded then .next ((take s).rsyncRead ltn {})
      else if (s.regOf key).isSome || s.regsFree = 0 || (s.tileProgs ltn).any (·.granted) then .next s
      else .next ((take s).addReg { mkReg key .resync s.ft with phase := .issue, psn := (s.entry (ltnSeg ltn)).psn, job := entry.val })

end Sys2Proof.Machine
end

