-- ==== Sys2Proof/Machine/Fabric.lean ====
section
/-!
DEFINITION. The fabric of links and nodes (spec/11, R282 to R293, R302 to R305; spec/08, R221 and R222): link states and
handshakes, link-state advertisements, views, node IDs and routes, and the failure of a node (spec/10, R277).
-/

namespace Sys2Proof

/-- What of an advertisement counts as a change of the database: all but SEQ and the view number, which every refresh and
every settled view change (R289). -/
def LsaBody.same (a b : LsaBody) : Bool := { a with seq := 0, view := 0 } == { b with seq := 0, view := 0 }

/-- Bytes of an advertisement as frames carry it: its fields in the order of R288, from bit 0 (the manual gives no layout). -/
def LsaBody.bits (b : LsaBody) : Nat :=
  let head := b.uid.toNat + b.storedId.toNat * 2 ^ 64 + b.seq.toNat * 2 ^ 76 + b.view.toNat * 2 ^ 108 + b2n b.leaving * 2 ^ 140
    + b2n b.fabric * 2 ^ 141 + b.links.length * 2 ^ 142 + b.promos.length * 2 ^ 146
  let tail := b.links.foldr (fun (u, i, j) a => u.toNat + i.val * 2 ^ 64 + j.val * 2 ^ 67 + a * 2 ^ 70) 0
  let ps := b.promos.foldr (fun p a => p.failed.toNat + p.homeLsn.toNat * 2 ^ 12 + p.count.toNat * 2 ^ 37 + p.copyLsn.toNat * 2 ^ 62 + a * 2 ^ 87) 0
  head + tail * 2 ^ 160 + ps * 2 ^ (160 + 70 * b.links.length)

/-- LEN16 of an advertisement. -/
def LsaBody.len (b : LsaBody) : Nat := (160 + 70 * b.links.length + 87 * b.promos.length + 127) / 128

/-- The bytes of an OFFER body (R222), big-endian. -/
def OfferBody.bytes (o : OfferBody) : List Byte :=
  let be := fun (v n : Nat) => (List.range n).map (fun i => BitVec.ofNat 8 (v >>> (8 * (n - 1 - i))))
  [1#8, o.version, 0#8, 0#8] ++ be o.uid.toNat 8 ++ be o.random.toNat 32 ++ be o.point.toNat 97 ++ [0#8, 0#8, 0#8]

end Sys2Proof

namespace Sys2Proof.Machine

/-! ### Link-state database and graph (R288 to R290) -/

/-- Is a node holding fabric state: an export, an import or a mirror entry (R289)? -/
def State.fabricState (s : State) : Bool :=
  s.fabric.exports.any (fun (_, e) => e.valid) || s.fabric.imports.any (fun (_, e) => e.valid)
    || s.fabric.mirrors.any (fun (_, e) => e.state != 0)

/-- This node's advertisement as it would be sent now (R288). -/
def State.ownLsa (s : State) : LsaBody where
  uid := Config.uid
  storedId := BitVec.ofNat 12 s.fabric.storedId
  seq := BitVec.ofNat 32 s.fabric.lsaSeq
  view := BitVec.ofNat 32 (s.getF Reg.DF_VIEW.VIEW)
  leaving := s.fabric.leaving
  fabric := s.fabricState
  links := s.upLinks.map (fun k => (BitVec.ofNat 64 (s.link k).neighUid, Fin.ofNat 8 k, Fin.ofNat 8 (s.getF (Reg.DF_LINK.NEIGH_LINK k))))
  promos := s.fabric.promos

/-- An advertisement enters the database; a change there restarts the settling of the view (R289). -/
def State.storeLsa (s : State) (b : LsaBody) : State :=
  let old := s.fabric.lsdb.find? (fun a => a.uid == b.uid)
  let changed := match old with | some a => !a.same b | none => true
  let l := (s.fabric.lsdb.filter (fun a => a.uid != b.uid)) ++ [b]
  s.modFabric (fun x => { x with lsdb := l, quiet := if changed then 0 else x.quiet, settled := x.settled && !changed })

/-- An advertisement leaves on every UP link but one (R288). -/
def State.sendLsa (s : State) (b : LsaBody) (except : Option Nat) : State :=
  (s.upLinks.filter (fun k => some k != except)).foldl (fun s k => s.sendLink k 0xFFF 1 4 1 b.len b.bits) s

/-- This node floods its advertisement with the next SEQ (R288). -/
def State.floodLsa (s : State) : State :=
  let s := s.modFabric (fun x => { x with lsaSeq := (x.lsaSeq + 1) % 2 ^ 32, lsaSlots := 0 })
  let b := s.ownLsa
  (s.storeLsa b).sendLsa b none

/-- Neighbours of a UID in the database: links that both ends advertise. -/
def State.adjacent (s : State) (u : Nat) : List Nat :=
  match s.fabric.lsdb.find? (fun a => a.uid.toNat == u) with
  | none => []
  | some a => (a.links.map (fun l => l.1.toNat)).filter (fun v => s.fabric.lsdb.any (fun b => b.uid.toNat == v && b.links.any (fun l => l.1.toNat == u)))

/-- Distances from a set of UIDs, by layers. -/
def State.layers (s : State) (bar : Nat → Bool) : Nat → Nat → List (Nat × Nat) → List Nat → List (Nat × Nat)
  | 0, _, seen, _ => seen
  | n + 1, d, seen, front =>
    let next := ((front.flatMap s.adjacent).filter (fun v => !bar v && !seen.any (fun x => x.1 == v))).eraseDups
    if next.isEmpty then seen else s.layers bar n (d + 1) (seen ++ next.map (fun v => (v, d + 1))) next

/-- UIDs of the connected graph of this node, in rising order (R289). -/
def State.graph (s : State) : List Nat :=
  let me := Config.uid.toNat
  sortBy (fun a b => decide (a ≤ b)) ((s.layers (fun _ => false) 4096 0 [(me, 0)] [me]).map (·.1))

/-- Absent nodes of the view are counted from the moment the graph no longer holds them; others are not counted (R302). -/
def State.graphCheck (s : State) : State :=
  let g := s.graph
  s.fabric.view.foldl (fun s (n, u) =>
    if g.contains u.toNat then s.modFabric (fun x => { x with absent := mset 0 x.absent n 0 })
    else if mget 0 s.fabric.absent n = 0 then s.modFabric (fun x => { x with absent := mset 0 x.absent n 1 })
    else s) s

/-- The node ID in the view of a UID. -/
def State.uidNode (s : State) (u : Nat) : Option Nat := (s.fabric.view.find? (fun (_, v) => v.toNat == u)).map (·.1)

/-- The route entry towards a node (R290, R292): links by hops and number; the alternates are at most two hops longer. -/
def State.routeOf (s : State) (u : Nat) (old : Route) : Route :=
  let me := Config.uid.toNat
  let ways := s.upLinks.filterMap (fun k =>
    let v := (s.link k).neighUid
    if v = me then none
    else ((s.layers (· == me) 16 1 [(v, 1)] [v]).find? (fun x => x.1 == u)).bind (fun x => if x.2 ≤ 16 then some (x.2, k) else none))
  let ways := sortBy (fun a b => decide (a.1 < b.1) || (a.1 == b.1 && decide (a.2 ≤ b.2))) ways
  let keep := fun (r : Route) => if old.pinned then { r with primary := old.primary, pinned := true, valid := true } else r
  match ways with
  | [] => if old.pinned then { old with valid := true, alt1 := old.primary, alt2 := old.primary, hops := 0 } else {}
  | (h, k) :: rest =>
    let alts := (rest.filter (fun x => decide (x.1 ≤ h + 2))).map (·.2)
    keep { primary := k, alt1 := alts.getD 0 k, alt2 := alts.getD 1 (alts.getD 0 k), hops := h, valid := true }

/-- Every route is computed, and frames that waited are tried again (R290, R291). -/
def State.computeRoutes (s : State) : State :=
  let new := s.fabric.view.foldl (fun m (n, u) =>
    if n = s.nodeId then m else mset {} m n (s.routeOf u.toNat (mget {} s.fabric.routes n)))
    (s.fabric.routes.filterMap (fun (n, r) =>
      if r.pinned then some (n, { primary := r.primary, alt1 := r.primary, alt2 := r.primary, pinned := true }) else none))
  (s.modFabric (fun x => { x with routes := new })).releaseHeld

/-! ### Links (R221, R222, R282) -/

/-- A link goes DOWN: its state is lost, its time dialogue and keys with it; frames it had not delivered take another way
(R282, R287). -/
def State.linkDown (s : State) (k : Nat) : State :=
  let was := s.linkUp k
  let kept := (s.link k).kept.filter (fun f => f.dst != 0xFFF && (f.type == 3 || f.type == 4 || f.type == 6 || f.type == 7))
  let s := (s.setF (Reg.DF_LINK.STATE k) 0).modLink k (fun _ => {})
  let s := s.modTime (fun t => { t with links := mset {} t.links k {}, parent := if t.parent = some k then none else t.parent })
  let s := s.modFabric (fun x => { x with held := x.held.filter (fun h => h.link != some k) })
  if was then
    let s := s.floodLsa.graphCheck.computeRoutes
    kept.foldl (fun s f => s.route f) s
  else s

/-- A HANDSHAKE frame leaves on a link, TYPE 2h on VC4 (R222, R284). -/
def State.sendHs (s : State) (k : Nat) (bytes : List Byte) : State :=
  s.sendLink k 0xFFF 2 4 1 ((bytes.length + 15) / 16) (leNat bytes)

/-- A handshake of a link changed. -/
def State.modHs (s : State) (k : Nat) (f : Handshake → Handshake) : State := s.modLink k (fun l => { l with hs := l.hs.map f })

/-- A handshake starts: OFFER leaves with a fresh random and ephemeral key (R221, R222). -/
def State.startHs (s : State) (k : Nat) (renewal : Bool) : State :=
  let n := s.free
  let o : OfferBody := { version := 1, uid := Config.uid, random := (Config.freeTile n).setWidth 256, point := Config.ownPoint n }
  let s := { s with free := n + 1 }
  let s := s.modLink k (fun l => { l with hs := some { renewal := renewal, own := some o } })
  s.sendHs k o.bytes

/-- ABORT leaves with a reason, and the link goes DOWN (R222). -/
def State.abortHs (s : State) (k reason : Nat) : State :=
  (s.sendHs k ([4#8, BitVec.ofNat 8 reason] ++ List.replicate 14 0#8)).linkDown k

/-- The transcript hash: SHA-384 over the OFFER of the lower UID and then the other's (R222). -/
def Handshake.transcript (h : Handshake) : Option (BitVec 384) :=
  match h.own, h.peer with
  | some a, some b => some (sha384 (if a.uid.toNat < b.uid.toNat then a.bytes ++ b.bytes else b.bytes ++ a.bytes))
  | _, _ => none

/-- PROOF leaves in fragments of at most 272 bytes (R222). -/
def State.sendProof (s : State) (k : Nat) (t : BitVec 384) : State :=
  let d := Config.ownProof t
  let n := (d.length + 271) / 272
  (List.range n).foldl (fun s i =>
    let p := (d.drop (272 * i)).take 272
    s.sendHs k ([2#8, BitVec.ofNat 8 i, BitVec.ofNat 8 n, BitVec.ofNat 8 (p.length / 256), BitVec.ofNat 8 p.length]
      ++ List.replicate 11 0#8 ++ p)) s

/-- A HANDSHAKE frame reaches this node: before the first keys it is taken in clear, its tag unchecked; later under the keys
in force (R222, R283). -/
def State.hsTake (s : State) (f : Frame) (len : Nat) (bytes : List Byte) : Bool × State :=
  let k := f.link.val
  if s.getF (Reg.DF_LINK.STATE k) = 2 ∧ !(s.link k).keyed then
    if f.hf 24 4 ≠ 2 ∨ f.hf 28 3 ≠ 4 then (false, s.count 11 3 1) else (true, s.count 11 1 (32 + 16 * len))
  else s.linkAccept f 2 [4] len (leNat bytes)

/-- OFFER (R222): the peer's random and key; this node offers in turn, and PROOF follows both offers. -/
def execOffer (f : Frame) (b : OfferBody) (s : State) : Res :=
  let k := f.link.val
  match s.hsTake f 9 b.bytes with
  | (false, s) => .next s
  | (true, s) =>
    if b.version ≠ 1 then .next (s.abortHs k 3)
    else
      let s := if (s.link k).hs.isSome then s else s.startHs k ((s.link k).keyed)
      let s := s.modHs k (fun h => { h with peer := some b })
      match (s.link k).hs.bind Handshake.transcript with
      | some t => .next (s.sendProof k t)
      | none => .next s

/-- PROOF (R222): fragments are gathered; the whole is verified and answered with CONFIRM, frame 0 under the new keys. -/
def execProof (f : Frame) (b : ProofBody) (s : State) : Res :=
  let k := f.link.val
  let head : List Byte := [2#8, b.frag, b.count, BitVec.ofNat 8 (b.part.length / 256), BitVec.ofNat 8 b.part.length]
  match s.hsTake f (1 + (b.part.length + 15) / 16) (head ++ List.replicate 11 0#8 ++ b.part) with
  | (false, s) => .next s
  | (true, s) =>
    match (s.link k).hs with
    | none => .next s
    | some h =>
      let n := b.count.toNat
      if n = 0 ∨ 32 < n ∨ n ≤ b.frag.toNat ∨ 272 < b.part.length ∨ h.confirmed then .next s
      else
        let fr := (h.frags.filter (fun x => x.1 != b.frag.toNat)) ++ [(b.frag.toNat, b.part)]
        let s := s.modHs k (fun h => { h with frags := fr })
        if fr.length < n then .next s
        else match h.transcript with
          | none => .next s
          | some t =>
            let d := (List.range n).flatMap (fun i => ((fr.find? (fun x => x.1 == i)).map (·.2)).getD [])
            match Config.proofCheck d t with
            | 0 =>
              let s := s.modHs k (fun h => { h with confirmed := true })
              let s := s.modLink k (fun l => { l with txSeq := 0, frames := 0 })
              let s := s.sendHs k (3#8 :: List.replicate 15 0#8)
              -- the peer's CONFIRM may have come first
              if h.gotConfirm then
                let s := s.modLink k (fun l => { l with keyed := true, hs := none, keySlots := 0 })
                .next (if h.renewal then s else s.sendHello k)
              else .next s
            | 1 => .next (s.abortHs k 1)
            | _ => .next (s.abortHs k 2)

/-- CONFIRM (R222): the peer's direction changes keys, its frame numbers restart; with both directions confirmed the keys
are in force. -/
def execConfirm (f : Frame) (s : State) : Res :=
  let k := f.link.val
  match (s.link k).hs with
  | none => .next s
  | some h =>
    if h.peer.isNone ∨ f.hf 24 4 ≠ 2 ∨ f.hf 28 3 ≠ 4 ∨ f.hf 48 16 ≠ 0 then .next s
    else if !f.tagOk then .next ((s.count 10 7 1).modLink k (fun l => { l with tagFails := l.tagFails + 1, retry := true }))
    else
      let s := (s.modLink k (fun l => { l with rxSeq := 1 })).count 11 1 48
      if h.confirmed then
        let s := s.modLink k (fun l => { l with keyed := true, hs := none, keySlots := 0 })
        .next (if h.renewal then s else s.sendHello k)
      else .next (s.modHs k (fun h => { h with gotConfirm := true }))

/-- ABORT (R222): the link goes DOWN. -/
def execAbort (f : Frame) (reason : BitVec 8) (s : State) : Res :=
  match s.hsTake f 1 [4#8, reason] with
  | (false, s) => .next s
  | (true, s) => .next (s.linkDown f.link.val)

/-- HANDSHAKE_TIMEOUT (R222): a step unanswered for 2 ms ends the handshake with ABORT, reason 4. -/
def execHandshakeTimeout (k : LinkNo) (s : State) : Res :=
  .next (s.when (s.link k.val).hs.isSome (fun s => s.abortHs k.val 4))

/-- KEY_RENEWAL_DUE (R221): after 2^32 frames or 2^26 slots a fresh handshake runs under the old keys. -/
def execKeyRenewalDue (k : LinkNo) (s : State) : Res :=
  let l := s.link k.val
  .next (s.when (s.linkUp k.val && l.hs.isNone && (decide (2 ^ 32 ≤ l.frames) || decide (2 ^ 26 ≤ l.keySlots)))
    (fun s => s.startHs k.val true))

/-- LINK_TAG_FAILURE_LIMIT (R221): sixteen failures within one slot take the link down for a fresh handshake. -/
def execLinkTagFailureLimit (k : LinkNo) (s : State) : Res :=
  .next (s.when (decide (16 ≤ (s.link k.val).tagFails)) (fun s => s.linkDown k.val))

/-- DOROSH_SIGNAL_SEEN (R282): an enabled link that is DOWN begins training. -/
def execDoroshSignalSeen (k : LinkNo) (s : State) : Res :=
  .next (s.when (s.getF (Reg.DF_LINK.STATE k.val) == 0 && bitAt (s.getF Reg.DF_CONFIG.LINK_EN) k.val && s.host.mailbox
      && !s.host.refAbsent.getLsbD 4 && !s.keys.wiped)
    (fun s => s.setF (Reg.DF_LINK.STATE k.val) 1))

/-- LINK_TRAINED (R282): training done, the link is SECURE and the handshake runs; a failure puts it DOWN. -/
def execLinkTrained (k : LinkNo) (ok : Bool) (s : State) : Res :=
  .next (s.when (s.getF (Reg.DF_LINK.STATE k.val) == 1) (fun s =>
    if ok then ((s.setF (Reg.DF_LINK.STATE k.val) 2).modLink k.val (fun _ => {})).startHs k.val false
    else s.linkDown k.val))

/-- HELLO_LOSS (R282): three slots without HELLO put a link DOWN. -/
def execHelloLoss (k : LinkNo) (s : State) : Res :=
  .next (s.when (s.linkUp k.val) (fun s => s.linkDown k.val))

/-- LINK_REPLAY_TIMEOUT (R287): no progress of ACK for 2 µs; everything after the last ACK is sent again. -/
def execLinkReplayTimeout (k : LinkNo) (s : State) : Res :=
  .next (s.when (s.linkUp k.val && !(s.link k.val).kept.isEmpty) (fun s => s.replay k.val))

/-- HELLO (R282, R284): the neighbour's identity; the first one under confirmed keys brings the link UP. -/
def execHello (f : Frame) (b : HelloBody) (s : State) : Res :=
  let k := f.link.val
  let body := b.node.toNat + b.uid.toNat * 2 ^ 12 + b.view.toNat * 2 ^ 76 + b.ownLink.val * 2 ^ 108 + b2n b.leaving * 2 ^ 111
  match s.linkAccept f 0 [4] 1 body with
  | (false, s) => .next s
  | (true, s) =>
    let st := s.getF (Reg.DF_LINK.STATE k)
    if st = 2 ∧ !(s.link k).keyed then .next s
    else
      let s := ((s.setF (Reg.DF_LINK.NEIGHBOUR k) b.node.toNat).setF (Reg.DF_LINK.NEIGH_LINK k) b.ownLink.val).modLink k
        (fun l => { l with neighUid := b.uid.toNat })
      -- a link of the node to itself is for test and carries no traffic (R282)
      if b.uid = Config.uid then .next s
      else if st = 2 then
        let s := (s.setF (Reg.DF_LINK.STATE k) 3).floodLsa
        let s := s.fabric.lsdb.foldl (fun s a => if a.uid = Config.uid then s else s.sendLink k 0xFFF 1 4 1 a.len a.bits) s
        .next (s.graphCheck.computeRoutes)
      else .next s

/-- LSA_REFRESH_DUE (R288): 64 slots have passed since the last flood. -/
def execLsaRefreshDue (s : State) : Res :=
  .next (s.when (decide (64 ≤ s.fabric.lsaSlots)) State.floodLsa)

/-- NULL (R284): link fields alone. -/
def execNull (f : Frame) (s : State) : Res := .next (s.linkAccept f 8 [0, 1, 2, 3, 4] 0 0).2

/-! ### Views (R289, R302 to R304, R547) -/

/-- Node IDs of a graph (R289 assign): (UID, ID), 0xFFF for an isolated node. -/
def State.assignIds (s : State) : List (Nat × Nat) :=
  let nodes := s.graph.map (fun u => (u, (s.fabric.lsdb.find? (fun a => a.uid.toNat == u))))
  let stored : Nat × Option LsaBody → Nat := fun x => match x.2 with | some a => a.storedId.toNat | none => 0xFFF
  let first := nodes.map (fun x =>
    let id : Nat := stored x
    if id ≠ 0xFFF ∧ !nodes.any (fun y => decide (y.1 < x.1) && stored y == id) then (x, some id) else (x, none))
  let taken := first.filterMap (·.2)
  (first.foldl (fun (acc : List (Nat × Nat) × List Nat) (x, id) =>
    match id with
    | some i => (acc.1 ++ [(x.1, i)], acc.2)
    | none =>
      if stored x != 0xFFF && (match x.2 with | some a => a.fabric | none => false) then (acc.1 ++ [(x.1, 0xFFF)], acc.2)
      else
        let i := ((List.range 4095).find? (fun i => !acc.2.contains i)).getD 0xFFF
        (acc.1 ++ [(x.1, i)], acc.2 ++ [i])) ([], taken)).1

/-- Is the side of a settled view primary: more than half the nodes of the last primary view, or exactly half with the lowest
ID among them; every side without QUORUM_EN (R302). -/
def State.isPrimary (s : State) (ids : List Nat) : Bool :=
  let l := s.fabric.lastPrimary
  let n := (l.filter ids.contains).length
  !s.flag Reg.DF_CONFIG.QUORUM_EN || l.isEmpty || decide (l.length < 2 * n)
    || (decide (l.length = 2 * n) && ids.contains (l.foldl min 0xFFF))

/-- Messages to a node removed from the view, or through it, are sent again if unanswered (R293): requests and snoops, and a
home's DATA or CMP whose ACK is awaited. -/
def State.resendAll (s : State) : State :=
  (s.fabric.sent.filter (fun x => !x.answer || (x.type == 3 && (x.hdr.toNat % 64 == 0x20 || x.hdr.toNat % 64 == 0x21)
      && s.home.act.any (fun a => a.wantAck && a.req.isPeer x.dst (bitsOf x.hdr.toNat 42 12) (bitsOf x.hdr.toNat 54 39))))).foldl
    (fun s x => s.resendMsg x) s

/-- Requests outstanding to a failed home are re-issued under a redirect; where there is none a read returns poison, a write
completes unstored with an event, and the imported blocks become unmapped (R302). -/
def State.reissue (s : State) (n : Nat) (final : Bool) : State :=
  let mine := s.home.proxy.filter (fun p => p.home == n)
  let s := mine.foldl (fun s p =>
    let k := s.rehome n (keyL p.line)
    if k ≠ p.line then
      let s := { s with home := { s.home with proxy := s.home.proxy.filter (fun q => q != p) } }
      let s := s.modAct p.act (fun a => { a with req := { a.req with line := k }, phase := .snoop })
      s.dirStage p.act
    else if final then
      let s := { s with home := { s.home with proxy := s.home.proxy.filter (fun q => q != p) } }
      match s.act p.act with
      | some a =>
        let s := if a.req.op.write? then s.event { mkEv .warning 11 n .lost with addr := keyL p.line * 64, detail := [n] } none else s
        let s := if a.req.op.write? then s.answerCmp a 0 else s.answerRead a 0 true 0
        s.tryClose a.id
      | none => s
    else s) s
  if final then
    s.modFabric (fun x => { x with imports := x.imports.map (fun (i, m) =>
      (i, if m.valid && m.pool / 2 ^ 45 == n && keyNode (s.rehome n (m.pool % 2 ^ 45 / 64)) == n then { m with gone := true } else m)) })
  else s

/-- A failed node is in the view again (R304): its promoted ranges stay here, and with AUTO_RESYNC it becomes their mirror;
on the returned node the entry turns round under the promotion record it finds, and its stale copy is discarded. -/
def State.nodeBack (s : State) (n : Nat) : State :=
  let s := s.modFabric (fun x =>
    let imports := x.imports.map (fun (i, m) => (i, if m.pool / 2 ^ 45 == n then { m with gone := false } else m))
    { x with failed := x.failed.filter (· != n), absent := mset 0 x.absent n 0, imports := imports })
  if !s.flag Reg.DF_CONFIG.AUTO_RESYNC then s
  else s.fabric.mirrors.foldl (fun s (k, e) =>
    if e.state = 4 ∧ e.partner = n then
      let s := s.setMirror e.mirrorLsn e.count n
      s.modMirror k (fun e => { e with role := 0, state := 1, homeLsn := e.mirrorLsn, mirrorLsn := e.homeLsn, next := 0, out := [] })
    else s) s

/-- The ranges another node has promoted while this one was away (R304): this node is their mirror if AUTO_RESYNC, without a
home role in any case. -/
def State.promotedAway (s : State) : State :=
  let me := s.nodeId
  s.fabric.lsdb.foldl (fun s a => a.promos.foldl (fun s p =>
    if p.failed.toNat ≠ me ∨ a.uid = Config.uid then s
    else s.fabric.mirrors.foldl (fun s (k, e) =>
      if e.role = 0 ∧ e.homeLsn = p.homeLsn.toNat ∧ e.count = p.count.toNat ∧ (e.state = 1 ∨ e.state = 2 ∨ e.state = 3) then
        let s := s.setMirror e.homeLsn e.count 0xFFF
        let auto := s.flag Reg.DF_CONFIG.AUTO_RESYNC
        let s := s.modMirror k (fun e => { e with role := 1, state := if auto then 1 else 3, mirrorLsn := p.homeLsn.toNat,
                                                  homeLsn := p.copyLsn.toNat, next := 0, out := [] })
        if auto then s.discardNow .segments false [(p.homeLsn.toNat, p.count.toNat)] none false 0 0 else s
      else s) s) s) s

/-- VIEW_SETTLE (R289, R290, R302, R303, R547): no LSA has changed for two slot boundaries; the view advances, node IDs are
assigned, the side is judged, routes are computed, and unanswered messages are sent again where a node left. -/
def execViewSettle (s : State) : Res :=
  if s.fabric.settled || decide (s.fabric.quiet < 2) then .next s
  else
    let s := s.storeLsa s.ownLsa
    let ids := s.assignIds
    let view := (ids.filter (fun x => x.2 != 0xFFF)).map (fun x => (x.2, BitVec.ofNat 64 x.1))
    let me := ((ids.find? (fun x => x.1 == Config.uid.toNat)).map (·.2)).getD 0xFFF
    let old := s.fabric.view
    let gone := (old.filter (fun x => !view.contains x)).map (·.1)
    let isolated := me == 0xFFF
    let prim := s.isPrimary (view.map (·.1))
    let wasPrim := s.flag Reg.DF_NODE.PRIMARY
    let s := s.setF Reg.DF_VIEW.VIEW ((s.getF Reg.DF_VIEW.VIEW + 1) % 2 ^ 32)
    let s := (s.setF Reg.DF_NODE.NODE_ID (if isolated then s.fabric.storedId else me)).setFlag Reg.DF_NODE.ID_VALID (!isolated)
    let s := (s.setF Reg.DF_NODE.NODES view.length).setFlag Reg.DF_NODE.PRIMARY prim
    let s := s.modFabric (fun x =>
      let absent := gone.foldl (fun m n => if mget 0 m n = 0 then mset 0 m n 1 else m) x.absent
      let sid := if x.storedId = 0xFFF ∧ !isolated then me else x.storedId
      let last := if prim then view.map (·.1) else x.lastPrimary
      { x with view := view, settled := true, isolated := isolated, storedId := sid, lastPrimary := last, absent := absent })
    let s := if isolated then (s.raise Reg.DF_NODE.ID_CONFLICT).event ((mkEv .critical 11 0 .fault).stat Reg.DF_NODE.ID_CONFLICT) none else s
    let s := if wasPrim && !prim then s.event (mkEv .critical 11 0 .changed) none else s
    let s := (s.fabric.failed.filter (fun n => view.any (fun x => x.1 == n))).foldl (fun s n => s.nodeBack n) s
    let s := s.promotedAway.computeRoutes
    let s := if gone.isEmpty then s else s.resendAll
    let s := s.fabric.failed.foldl (fun s n => s.reissue n true) s
    let s := if !old.any (fun x => x.1 == me) && !isolated then s.floodLsa.modFabric (fun x => { x with settled := true }) else s
    .next s.pump

/-! ### The failure of a node (R277, R302) -/

/-- What every home does for a failed node (R277). -/
def State.homeFail (s : State) (n : Nat) : State :=
  -- snoops to the node, and forwards it owned, are answered with GRANT I and no data
  let s := s.home.act.foldl (fun s a =>
    if a.snoops.any (fun x => x.dest == .peer n) then
      let k := a.snoopKey
      let s := s.dirPut k ((s.dirGet k).drop (.peer n))
      let s := s.modAct a.id (fun a => { a with snoops := a.snoops.filter (fun x => x.dest != .peer n) })
      s.snoopsDone a.id
    else if a.phase == .fwd && (s.dirGet a.req.line).state == 3 && (s.dirGet a.req.line).ext == n then
      let s := s.dirPut a.req.line ((s.dirGet a.req.line).drop (.peer n))
      (s.modAct a.id (fun a => { a with phase := .snoop })).grantStage a.id
    else s) s
  -- PX entries that name the node are freed
  let free : DirEntry := {}
  let clean := s.home.dir.map (fun (i, l) => (i, l.map (fun (e : DirEntry) => if !e.proxy && e.state == 3 && e.ext == n then free else e)))
  let s := { s with home := { s.home with dir := clean.filter (fun (_, l) => l != List.replicate 8 free) } }
  -- its waiting requests are dropped, and transactions that await its ACK close
  let isIt := fun (r : HReq) => match r.src with | .peer _ x _ => x == n | .mirror x _ _ => x == n | .resync x _ _ => x == n | _ => false
  let s := { s with home := { s.home with wait := s.home.wait.filter (fun r => !isIt r), stall := s.home.stall.filter (fun r => !isIt r) } }
  let s := s.home.act.foldl (fun s a =>
    if isIt a.req then
      (s.modAct a.id (fun a => { a with wantAck := false, oweCmp := false, req := { a.req with src := .own 0 } })).tryClose a.id
    else s) s
  let s := match s.peerSlot n with
    | some j => s.setF (Reg.COH_PEER.VALID j) 0
    | none => s
  { s with home := { s.home with owed := s.home.owed.filter (fun o => keyNode o.key != n) } }

/-- Visitor lines are dropped; their local holders are invalidated (R277, R295). -/
def State.dropLines (s : State) (p : Nat → Bool) : State :=
  let s := s.proxyEntries.foldl (fun s (k, e) =>
    if !p k then s
    else if (slotsOf e.sharers).isEmpty then (s.dirPut k { e with state := 0 }).dropVisitor k
    else
      let (l, s) := (slotsOf e.sharers).foldl (fun (x : List Snoop × State) i =>
        let (m, s) := x.2.sendSnoop k { dest := .slot i, inv := true }
        (x.1 ++ [m], s)) (([] : List Snoop), s)
      let s := s.dropVisitor k
      { s with home := { s.home with owed := s.home.owed ++ [{ key := k, opc := 0xFD, snoops := l }] } }) s
  let gone := fun (y : Way) => y.valid != 0 && p (lineKey y.node (4 * y.ltn))
  s.modCache (fun c => { c with vsets := (c.vsets.map (fun (i, x) =>
    (i, { x with ways := x.ways.map (fun (y : Way) => if gone y then {} else y) }))).filter (fun (_, x) => x.ways.any (fun y => y != {}) || x.tree != 0) })

/-- The lines of a failed home are dropped (R277). -/
def State.dropHome (s : State) (n : Nat) : State := s.dropLines (fun k => keyNode k == n)

/-- Segments are no longer mirrored on a node: writes held for the copy complete, discards no longer wait for it, deep recoveries
end without it (R124, R302, R423). -/
def State.mirrorless (s : State) (n : Nat) : State :=
  let held := s.home.act.filter (fun a => a.wantMirror && !s.mirrored (ltnSeg (keyTile a.req.line)))
  let s := held.foldl (fun s a => s.modAct a.id (fun a => { a with wantMirror := false })) s
  let s := held.foldl (fun s a => if a.phase == .placed then s.writeDone a.id (s.writeGrant a.req) else s) s
  let s := s.modFabric (fun x => { x with
    sent := x.sent.filter (fun y => !(y.dst == n && y.type == 4 && !y.answer && y.hdr.toNat % 64 != 0x34 && !s.mirrored (bitsOf y.hdr.toNat 54 39 / 16384))),
    mdiscs := x.mdiscs.filter (fun d => !(d.1 == n && !s.mirrored d.2)) })
  let s := s.modMap (fun x => { x with discards := x.discards.map (fun d => { d with mirror := d.mirror.filter (fun l => s.fabric.mdiscs.any (fun y => y.2 == l)) }) })
  let s := s.discDone
  let lost := s.reads.mrds.filter (fun (t, _) => !s.mirrored (ltnSeg t))
  let s := s.modReads (fun x => { x with mrds := x.mrds.filter (fun y => !lost.contains y) })
  lost.foldl (fun s (t, b) =>
    if !b then s.lostProgram t
    else match s.regOf (.logical (BitVec.ofNat 37 t)) with
      | some r => if r.phase == .mirror then s.readEnd r (.bad false r.fields) else s
      | none => s) s

/-- What was asked of a partner ends with a status: the command is answered, or REFUSED of DF_MIRROR set (R306, R423). -/
def State.mirrorEnd (s : State) (k st : Nat) : State :=
  let e : MirrorEnt := mget {} s.fabric.mirrors k
  let s := s.modMirror k (fun e => { e with op := 0, src := none })
  match e.src with
  | some src => s.respond src st 0 e.state []
  | none => if st = kOk then s else s.raise Reg.DF_MIRROR.REFUSED

/-- The mirror roles toward a failed node (R124, R302): a home's held writes complete and its entry is BROKEN; a mirror whose
copy is synchronised is promoted. -/
def State.mirrorFail (s : State) (n : Nat) : State :=
  let s := s.fabric.mirrors.foldl (fun s (k, e) =>
    if e.partner ≠ n then s
    else if e.role = 0 ∧ (e.state = 1 ∨ e.state = 2) then
      let s := s.setMirror e.homeLsn e.count 0xFFF
      s.modMirror k (fun e => { e with state := 3, out := [], swap := false })
    else if e.role = 1 ∧ e.state = 2 then
      let p : Promotion := { failed := BitVec.ofNat 12 n, homeLsn := BitVec.ofNat 25 e.homeLsn, count := BitVec.ofNat 25 e.count,
                             copyLsn := BitVec.ofNat 25 e.mirrorLsn }
      (s.modMirror k (fun e => { e with state := 4 })).modFabric (fun x => { x with promos := x.promos ++ [p] })
    else s) s
  let s := (s.fabric.mirrors.filter (fun (_, e) => e.partner == n && e.op != 0)).foldl (fun s (k, _) =>
    ((s.modMirror k (fun e => { e with swap := false })).mirrorEnd k kBusy)) s
  let s := s.modFabric (fun x =>
    let held := x.held.filter (fun h => h.link.isSome || h.frame.dst != n)
    { x with sent := x.sent.filter (fun y => y.dst != n), mdiscs := x.mdiscs.filter (fun d => d.1 != n),
             serving := x.serving.filter (fun y => y.1 != n), held := held })
  s.mirrorless n

/-- NODE_FAIL_DECLARE (R277, R302, R340): on the primary side a node absent for NODE_FAIL_SLOTS boundaries, or one that
floods LEAVING, is declared failed; every role toward it ends as R302 lists. -/
def execNodeFailDeclare (node : BitVec 12) (s : State) : Res :=
  let n := node.toNat
  let lim := s.getF Reg.DF_CONFIG.NODE_FAIL_SLOTS
  let lim := if lim = 0 ∨ 16 < lim then 16 else lim
  let leaving := s.fabric.lsdb.any (fun a => a.leaving && s.uidNode a.uid.toNat == some n)
  if s.fabric.failed.contains n || n = s.nodeId || !s.flag Reg.DF_NODE.PRIMARY || !(decide (lim + 1 ≤ mget 0 s.fabric.absent n) || leaving)
  then .next s
  else
    let s := s.modFabric (fun x => { x with failed := x.failed ++ [n], quiet := 0, settled := false })
    let dropped := (s.fabric.held.filter (fun h => h.link.isNone && h.frame.dst == n)).length
    let s := s.count 11 3 dropped
    let s := (s.homeFail n).dropHome n
    let had := s.fabric.promos.length
    let s := s.mirrorFail n
    let s := if had < s.fabric.promos.length then s.floodLsa else s
    let s := s.reissue n false
    let s := s.cask.doms.foldl (fun s (i, d) =>
      if d.state ≠ 0 ∧ d.nodes.contains n then s.modDom i (fun d => { d with state := 4, commitOf := none }) else s) s
    .next s.pump

end Sys2Proof.Machine
end

