-- ==== Sys2Proof/Machine/RegEffects.lean ====
section
/-!
DEFINITION. What a register's new value does when it comes into force (spec/18, R449 to R451, and the rules of the
register's own chapter): direct writes, UPDATE, the end of a persistent store, and the values a command sets (R11, R416).
-/

namespace Sys2Proof.Machine

/-- The words of MAINT_MAP (R343). -/
def isMap (off : Nat) : Bool := decide (0xD0100 ≤ off) && decide (off < 0xD0160)

/-- The words that a store gives, as (offset, mask, value): its own, the high word of a 64-bit register, and those of its
command that need no store. -/
def storeWords (x : RwpStore) : List (Nat × Nat × Nat) :=
  (x.off, x.mask % 2 ^ 32, x.val % 2 ^ 32)
    :: ((if x.mask < 2 ^ 32 then [] else [(x.off + 4, x.mask / 2 ^ 32, x.val / 2 ^ 32)]) ++ x.more)

/-- A word as it will stand once the stores under way have completed (R451). -/
def State.storedWord (s : State) (off : Nat) : Nat :=
  ((s.regs.stores.flatMap storeWords).filter (fun x => x.1 == off)).foldl (fun w x => setMask w x.2.1 x.2.2) (s.word off)

/-- The links that LINK_EN no longer enables go DOWN (R282, R306). -/
def State.linkEnable (s : State) (old new : Nat) : State :=
  ((List.range 8).filter (fun k => bitAt old (22 + k) && !bitAt new (22 + k))).foldl (fun s k => s.linkDown k) s

/-- WT_FORCE in force: entering write-through starts a clean of every dirty tile at class 2 (R139, R140); leaving it lets the
writes go on. -/
def State.forceThrough (s : State) (old new : Nat) : State :=
  if bitAt new 0 && !bitAt old 0 then s.throughStart.pump else s.pump

/-- ALLOC_EN of an LD comes into force: 1 enables a disabled LD, or is refused while INV_DONE is 0 though it was 1 when the store
began; 0 starts the disable sequence of an enabled one (R88 to R90, R95). -/
def State.allocForce (s : State) (ld old new : Nat) : State :=
  if bitAt new 0 && !bitAt old 0 then
    if s.flag (Reg.LC_LD_CTRL.INV_DONE ld) then (s.enableLd ld).pump
    else (s.setF (Reg.LC_LD_CTRL.ALLOC_EN ld) 0).raise (Reg.LC_LD_CTRL.REFUSED ld)
  else if bitAt old 0 && !bitAt new 0 then s.disableStart ld none
  else s

/-- An assignment of LD `n` comes into the stored state: it takes effect once its old and its new head have reset (R229). -/
def State.ldForce (s : State) (n new : Nat) : State :=
  let a := s.ldAsg n
  let same := a.head == bitsOf new 0 3 && a.ldId == bitsOf new 3 4 && a.db == bitAt new 7
  let heads := if same then [] else [a.head, bitsOf new 0 3].eraseDups
  s.modHost (fun x => { x with ld := mset { head := 2 * (n % 4), ldId := n / 4 } x.ld n { a with heads := heads } })

/-- What the new value of a word does as it comes into force. -/
def State.regEffect (s : State) (off old : Nat) : State :=
  let new := s.word off
  if off = 0x40000 then (if bitAt old 11 && !bitAt new 11 then s.visitorOut none else s)
  else if off = 0x40004 then s.wayWant
  else if off = 0x40010 then s.pump
  else if 0x40100 ≤ off ∧ off < 0x40200 then s.allocForce ((off - 0x40100) / 4) old new
  else if off = 0x60000 then s.forceThrough old new
  else if off = 0x80010 then s.rebuildPump 96
  else if 0xA0100 ≤ off ∧ off < 0xA0200 then s.ldForce ((off - 0xA0100) / 4) new
  else if off = 0xC0000 then
    let s := if bitAt new 4 then s else s.raise Reg.DF_NODE.PRIMARY
    s.linkEnable old new
  else if off = 0xD0010 then s.timeChoose
  else s

/-- A word's live value replaced under a mask, with its effect. -/
def State.wordForce (s : State) (off mask val : Nat) : State :=
  let old := s.word off
  (s.setWord off (setMask old mask val)).regEffect off old

/-! ### Persistent stores (R451) -/

/-- A stored value comes into force: a PWR_RAIL word at the next power-up (R367), a MAINT_MAP word at its frame boundary (R324). -/
def State.storeForce (s : State) (x : RwpStore) : State :=
  if isRail x.off then
    let ch := (x.off - 0xE0100) / 4
    s.modRegs (fun r => { r with rails := mset none r.rails ch (some (setMask ((mget none r.rails ch).getD (s.word x.off)) x.mask x.val)) })
  else if isMap x.off then s
  else (storeWords x).foldl (fun (s : State) (off, mask, val) => s.wordForce off mask val) s

/-- A store has completed: its value comes into force. Those of one command come into force together, with its last store, and
the command is answered then (R12, R416). -/
def State.storeDone (s : State) (x : RwpStore) : State :=
  let s := (((s.modRegs (fun r => { r with stores := ldrop (fun y => y == x) r.stores })).count 16 0 1).count 16 1 1).ringPut x
  match x.src with
  | none => s.storeForce x
  | some c =>
    let mine := s.regs.stores.filter (fun y => y.src == some c)
    if mine.any (fun y => !y.ready) then s.modRegs (fun r => { r with stores := r.stores ++ [{ x with ready := true }] })
    else
      let s := s.modRegs (fun r => { r with stores := r.stores.filter (fun y => y.src != some c) })
      ((mine ++ [x]).foldl (fun (s : State) y => s.storeForce y) s).done c x.res []

/-! ### The board area (R476, R477, R486) -/

/-- Bytes of a board write that its page takes (R476). -/
def boardBytes (off : Nat) (l : List Byte) : List Byte := l.take (64 - off % 64)

/-- A board write has ended: its bytes are in the page, the write is counted, and register or command answered (R476, R486). -/
def State.boardDone (s : State) (x : Nat × List Byte × Option CmdSrc) : State :=
  let (off, l, src) := x
  let b := boardBytes off l
  let w := s.weali
  let s : State := { s with weali := { w with boardOps := ldrop (fun y => y == x) w.boardOps, board := memWrite w.board off b,
                                              writes := mmod 0 w.writes (256 + off / 64) (· + 1) } }
  let s := (s.count 16 0 1).count 16 6 (l.length - b.length)
  match src with
  | some c => s.done c b.length []
  | none => (s.setF Reg.WEALI_BOARD_CMD.ACCEPTED b.length).setFlag Reg.WEALI_BOARD_CMD.BUSY (s.weali.boardOps.any (fun y => y.2.2.isNone))

/-- Every store and board write under way completes (R451, R485: before quiesce). -/
def State.storesEnd (s : State) : State :=
  let s := (s.regs.stores.filter (fun x => !x.ready)).foldl (fun s x => s.storeDone x) s
  s.weali.boardOps.foldl (fun s x => s.boardDone x) s

/-! ### Maintenance maps (R324) -/

/-- The word of a maintenance map that waits for its frame boundary, or the one in force. -/
def State.mapWord (s : State) (off : Nat) : Nat :=
  match s.time.mapNext.find? (fun x => x.1 == off) with
  | some (_, w, _) => w
  | none => s.word off

/-- The words of one group's map as a change gives them: the words not named keep their values. -/
def State.mapWords (s : State) (g : Nat) (ws : List (Nat × Nat)) : List Nat :=
  (List.range 8).map (fun i =>
    let off := 0xD0100 + 32 * g + 4 * i
    match ws.find? (fun x => x.1 == off) with
    | some x => x.2
    | none => s.mapWord off)

/-- The first frame boundary at or after now (R324). -/
def State.nextFrame (s : State) : Nat := (s.ft + (2 ^ 28 - 1)) / 2 ^ 28 * 2 ^ 28

/-- The staged words of group `g` are applied: a map of fewer than 16 slots is refused and the previous one stays (R324). A
frozen word ignores its write (R451). -/
def State.mapForce (s : State) (ws : List (Nat × Nat)) (g : Nat) : State :=
  let named := ws.filter (fun x => decide (0xD0100 + 32 * g ≤ x.1) && decide (x.1 < 0xD0120 + 32 * g))
  let mine := named.filter (fun x => !s.frozen x.1)
  let s := if mine.length < named.length then s.raise Reg.REG_STATUS.FROZEN_WR else s
  if mine.isEmpty then s
  else
    let m := s.mapWords g mine
    if mapBits m < 16 then s.raise Reg.TIME_STAT.MAP_REFUSED
    else
      let s := mine.foldl (fun s (off, v) => s.rwpWrite off 0xFFFFFFFF v none) s
      (s.newMap g m s.nextFrame).mapsDue

/-! ### UPDATE (R449, R450) -/

/-- The values of buffered words take effect together; a timed application takes effect in that cycle for persistent words as
well (R326, R450, R451). -/
def State.applyStaged (s : State) (ws : List (Nat × Nat)) (timed : Bool) : State :=
  let s := [0, 1, 2].foldl (fun s g => s.mapForce ws g) s
  let rest := ws.filter (fun x => !isMap x.1)
  let olds := rest.map (fun (off, v) => (off, s.word off, v))
  let s := olds.foldl (fun s (off, old, v) =>
    let rw := accMask off (· == .rw)
    let rwp := accMask off (· == .rwp)
    let hit := timed && !s.frozen off
    let s := if rwp = 0 then s else s.rwpWrite off rwp v none
    let s := s.setWord off (setMask old rw v)
    if hit then s.setWord off (setMask (s.word off) rwp v) else s) s
  olds.foldl (fun s (off, old, _) => if s.word off = old then s else s.regEffect off old) s

/-! ### The values a command sets (R11, R416) -/

/-- Field values gathered by word, as (offset, mask, value). -/
def gatherWords (l : List (Field × Nat)) : List (Nat × Nat × Nat) :=
  l.foldl (fun acc (f, v) =>
    let off := f.off + 4 * (f.lsb / 32)
    let m := (2 ^ f.width - 1) * 2 ^ (f.lsb % 32)
    let x := v % 2 ^ f.width * 2 ^ (f.lsb % 32)
    if acc.any (fun a => a.1 == off) then acc.map (fun a => if a.1 = off then (off, a.2.1 ||| m, setMask a.2.2 m x) else a)
    else acc ++ [(off, m, x)]) []

/-- The part of gathered words that a kind of access takes, as (offset, mask, value). -/
def wordsOf (ws : List (Nat × Nat × Nat)) (a : Access) : List (Nat × Nat × Nat) :=
  (ws.map (fun (off, m, v) => (off, accMask off (· == a) &&& m, v))).filter (fun x => x.2.1 != 0)

/-- The persistent words as one entry per register: the two words of a 64-bit register are one store (R451). -/
def storesOf (ws : List (Nat × Nat × Nat)) : List (Nat × Nat × Nat) :=
  ws.foldl (fun acc (off, m, v) =>
    let k := 2 ^ (8 * (off - rwpReg off))
    if acc.any (fun a => a.1 == rwpReg off) then acc.map (fun a => if a.1 = rwpReg off then (a.1, a.2.1 + k * m, a.2.2 + k * (v &&& m)) else a)
    else acc ++ [(rwpReg off, k * m, k * (v &&& m))]) []

/-- A command's values are applied together, one store and one write counted per persistent register, and it completes when
they are in force: at once where nothing is stored, else with its last store (R12, R416, R451). -/
def State.cmdSet (s : State) (l : List (Field × Nat)) (src : CmdSrc) (res : Nat := 0) : State :=
  let ws := gatherWords l
  let rw := wordsOf ws .rw
  match storesOf (wordsOf ws .rwp) with
  | [] => (rw.foldl (fun (s : State) (off, m, v) => s.wordForce off m v) s).done src res []
  | (off, m, v) :: rest =>
    rest.foldl (fun (s : State) (off, m, v) => s.rwpWrite off m v (some src) res) (s.rwpWrite off m v (some src) res rw)

/-- Is one of the values a command would set in a frozen register (R451: it completes with LOCK)? -/
def State.anyFrozen (s : State) (l : List (Field × Nat)) : Bool :=
  (gatherWords l).any (fun (off, m, _) => (accMask off (· == .rwp) &&& m) != 0 && s.frozen off)

end Sys2Proof.Machine
end

