-- ==== Sys2Proof/Machine/Tally.lean ====
section
/-!
DEFINITION. The tally unit at its window and interval ends, clears, the sample reader and the sillage log (spec/21, R490 to
R502, R505), and the counter checkpoint of the Weali store (spec/20, R483).
-/

namespace Sys2Proof.Machine

/-! ### Capture and clear (R490 to R492) -/

/-- Pair k of a block is captured: the increase since the last capture goes to the lifetime totals; of a chained pair it is
the increase of the 96-bit value, for its even counter (R492, R493). -/
def State.capturePair (s : State) (b k : Nat) : State :=
  let i := 8 * b + 2 * k
  let lo := s.counter b (2 * k)
  let hi := s.counter b (2 * k + 1)
  let lo0 := mget 0 s.tally.cap i
  let hi0 := mget 0 s.tally.cap (i + 1)
  let life : Nat → Nat → SMap Nat → SMap Nat := fun j n m => if b < 15 then mmod 0 m j (fun x => (x + n) % 2 ^ 64) else m
  let l := s.tally.life
  let l := if s.chained b k then life i ((lo + hi * 2 ^ 48 + 2 ^ 96 - (lo0 + hi0 * 2 ^ 48)) % 2 ^ 96) l
    else life (i + 1) ((hi + 2 ^ 48 - hi0) % 2 ^ 48) (life i ((lo + 2 ^ 48 - lo0) % 2 ^ 48) l)
  s.modTally (fun t => { t with life := l, cap := mset 0 (mset 0 t.cap i lo) (i + 1) hi })

/-- A counter is set to 0 and its captured value with it. -/
def State.zeroCounter (s : State) (b c : Nat) : State :=
  (s.setCounter b c 0).modTally (fun t => { t with cap := mset 0 t.cap (8 * b + c) 0 })

/-- CLEAR of a counter: its increase goes to the lifetime total first; either counter of a chained pair clears both
(R491). -/
def State.clearCounter (s : State) (b c : Nat) : State :=
  let k := c / 2
  let s := s.capturePair b k
  if s.chained b k then (s.zeroCounter b (2 * k)).zeroCounter b (2 * k + 1) else s.zeroCounter b c

/-- CHAIN of pair k of a block set to a value: a change clears counter 2k + 1 (R490). -/
def State.setChain (s : State) (b k : Nat) (v : Bool) : State :=
  if s.chained b k = v then s
  else
    let s := s.capturePair b k
    let s := s.setF (Reg.CNT_CTRL.CHAIN b) (putBits (s.getF (Reg.CNT_CTRL.CHAIN b)) k 1 (b2n v))
    s.zeroCounter b (2 * k + 1)

/-! ### The window (R492, R505) -/

/-- WINDOW_MS asked for (R507). -/
def State.windowAsked (s : State) : Nat :=
  let v := s.getF Reg.TALLY_CFG.WINDOW_MS
  if 1 ≤ v ∧ v ≤ 10000 then v else 1000

/-- The next multiple of a period at or after now; after now when `past` (R492, R499). -/
def nextMultiple (ft period : Nat) (past : Bool) : Nat :=
  if ft % period = 0 && !past then ft else (ft / period + 1) * period

/-- The page of an LD after a window (R505). -/
def pageOf (old : LdPage) (c : LdCounts) (ms : Nat) : LdPage where
  counts := c
  rdMbps := (c.rdBytes - old.counts.rdBytes) / ms / 1000
  wrMbps := (c.wrBytes - old.counts.wrBytes) / ms / 1000

/-- Everything a window end does (R492): capture, totals, bandwidths, counter pages. `ms` is the length in force. -/
def State.windowEnd (s : State) (ms : Nat) : State :=
  let s := (List.range 18).foldl (fun s b => (List.range 4).foldl (fun s k => s.capturePair b k) s) s
  let byte := fun (m : SMap Nat) (n d : Nat) => mget 0 m (4 * n + d) + mget 0 m (4 * n + 2 + d)
  let s := (List.range 4).foldl (fun s n =>
    let rate := fun d => (byte s.tally.head n d - byte s.tally.headCap n d) / ms / 1000
    let s := (s.setF (Reg.TALLY_BW.RD_MBPS n) (rate 0)).setF (Reg.TALLY_BW.WR_MBPS n) (rate 1)
    s.modInterval (fun i => { i with peak := mmod 0 i.peak n (max (rate 0)) })) s
  let page := s.tally.ld.foldl (fun m (l, c) => mset {} m l (pageOf (mget {} m l) c ms)) s.tally.page
  let s := s.modTally (fun t => { t with
    page := page, headCap := t.head, winEnd := s.ft,
    ld := t.ld.map (fun (l, c) => (l, { c with rdMax := 0, wrMax := 0 })) })
  (s.setF Reg.TALLY_STAT.WINDOWS ((s.getF Reg.TALLY_STAT.WINDOWS + 1) % 2 ^ 32)).count 17 0 1

/-- A 4-byte word of the BAR4 counter page of LD `n` as the function of LD `fn` reads it (R436, R505). -/
def State.counterPage (s : State) (fn n off : Nat) : Nat :=
  if fn ≠ n ∨ !bitAt (s.getF Reg.TALLY_USER.USER_READ) n then 0
  else
    let p : LdPage := mget {} s.tally.page n
    let c := p.counts
    let l := [n + 256, s.tally.winEnd, s.getF Reg.TALLY_STAT.WINDOWS, c.rdReq, c.wrReq, c.rdBytes, c.wrBytes, c.poison, c.unmapped,
      p.rdMbps % 2 ^ 32 + p.wrMbps * 2 ^ 32, c.rdMax % 2 ^ 32 + c.wrMax * 2 ^ 32]
    bitsOf (l.getD (off / 8) 0) (8 * (off % 8)) 32

/-- TALLY_WINDOW_END (R492): FT reaches the end of the window in force or the first end of a window of the new length. -/
def execTallyWindowEnd (s : State) : Res :=
  let past := s.tally.winEnd == s.ft
  let old := nextMultiple s.ft (s.tally.window * 1000000) past
  let new := nextMultiple s.ft (s.windowAsked * 1000000) past
  let at_ := min old new
  let s := if at_ = s.ft then s else s.passTo at_
  let s := s.windowEnd s.tally.window
  .next (if at_ = new then s.modTally (fun t => { t with window := s.windowAsked }) else s)

/-! ### The sillage log (R480, R499 to R502) -/

/-- The bins of a histogram. -/
def State.histBins (s : State) (h : Nat) : List Nat := (List.range 32).map (fun b => mget 0 s.tally.hist (32 * h + b))

/-- The first bin at which the running sum reaches `num` parts of `den` of the total. -/
def binAt (bins : List Nat) (num den : Nat) : Nat :=
  let total := bins.sum
  (List.range 32).find? (fun b => decide (num * total ≤ den * (bins.take (b + 1)).sum)) |>.getD 31

/-- DIGEST of a histogram (R499). -/
def digest (bins : List Nat) : Nat :=
  if bins.sum = 0 then 2 ^ 15
  else
    let top := ((List.range 32).filter (fun b => decide (0 < bins.getD b 0))).foldl max 0
    binAt bins 1 2 + binAt bins 99 100 * 32 + top * 1024

/-- A temperature in quarter degrees as whole degrees of eight bits, saturating at 127. -/
def degrees (q : Int) : Nat := ofSigned (max (-128) (min 127 (q / 4))) 8

/-- A number, or a free value where the spec states none. -/
def State.orFree (s : State) (o : Option Nat) : Nat × State :=
  match o with
  | some v => (v, s)
  | none => s.draw

/-- SAMPLE intervals in force, in seconds (R507). -/
def State.intervalS (s : State) : Nat := max 60 (min 86400 (s.getF Reg.SILL_CFG.INTERVAL_S))

/-- The record of the interval under way, with SEQ and CRC zero (R499). -/
def State.sillRecord (s : State) (cut : Bool) : Nat × State :=
  let i := s.tally.interval
  let sat := fun (x w : Nat) => min x (2 ^ w - 1)
  let flags := i.flags ||| b2n (cut || i.cut) ||| (if i.deep = 0 then 0 else 32) ||| (if s.writeThrough then 8 else 0)
    ||| (if s.patrol.rebuilds.any (·.active) then 16 else 0) ||| (if i.capMin < 100 then 4 else 0)
  let (tjMax, s) := s.orFree (i.tjMax.map degrees)
  let (tjMin, s) := s.orFree (i.tjMin.map degrees)
  let (meds, s) := [0, 1, 2].foldl (fun (acc : List Nat × State) g =>
    let (v, s) := acc.2.orFree ((i.medMax.find? (fun x => x.1 == g)).map (fun x => degrees x.2))
    (acc.1 ++ [v % 256], s)) (([] : List Nat), s)
  let (vb, s) := s.orFree (i.vbankMin.map (fun v => v / 10000))
  let pool := min s.freeSlots (i.poolMin.getD s.freeSlots)
  let at_ := fun (f v w : Nat) => v % 2 ^ w * 2 ^ f
  let digests := ((List.range 64).map (fun h => at_ (192 + 16 * h) (digest (s.histBins h)) 16)).sum
  let ports := ((List.range 4).map (fun n =>
    at_ (1408 + 64 * n) (sat (mget 0 i.rdBytes n / 2 ^ 20) 32) 32 + at_ (1440 + 64 * n) (sat (mget 0 i.wrBytes n / 2 ^ 20) 32) 32
      + at_ (1664 + 16 * n) (sat (mget 0 i.peak n / 10) 16) 16)).sum
  let events := ((List.range 4).map (fun k => at_ (1824 + 16 * k) (sat (mget 0 i.events k) 16) 16)).sum
  let rec_ := at_ 0 i.start 64 + at_ 96 flags 16 + at_ 128 s.intervalS 32 + digests
    + at_ 1216 tjMax 8 + at_ 1224 tjMin 8 + at_ 1232 (meds.getD 0 0) 8 + at_ 1240 (meds.getD 1 0) 8 + at_ 1248 (meds.getD 2 0) 8
    + at_ 1256 i.capMin 8 + at_ 1264 (sat vb 16) 16 + at_ 1280 (s.getF Reg.HU_CAP.CAP_MF) 32 + at_ 1312 (max i.chargeMax s.charge) 32
    + at_ 1344 (sat i.rdLat 32) 32 + at_ 1376 (sat i.wrLat 32) 32 + ports + at_ 1728 (sat i.deep 32) 32
    + at_ 1760 (sat i.poison 32) 32 + at_ 1792 (sat (i.programs / 4096) 32) 32 + events + at_ 1888 (sat pool 32) 32
    + at_ 1920 (s.getF Reg.MAP_WEAR.WEAR_MAX) 32 + at_ 1952 (sat i.drydowns 8) 8 + at_ 1960 (sat i.lost 32) 32
  (rec_, s)

/-- A record without START_FT, SEQ and CRC (R500). -/
def sillBody (r : Nat) : Nat := putBits (putBits (putBits r 0 64 0) 64 32 0) 160 32 0

/-- A record with its SEQ and CRC (R499). -/
def sillSeal (r seq : Nat) : Nat :=
  let r := putBits r 64 32 seq
  let bytes := (bytesOf r 256).take 20 ++ (bytesOf r 256).drop 24
  putBits r 160 32 (crc32c bytes)

/-- The sillage log changed between two advances of GEN (R502). -/
def State.modSill (s : State) (f : Sillage → Sillage) : State :=
  s.modTally (fun t => { t with sill := { f t.sill with gen := (t.sill.gen + 2) % 2 ^ 32 } })

/-- A new record enters the log (R480, R500, R501). -/
def State.sillAppend (s : State) (r : Nat) : State :=
  let l := s.tally.sill
  if 16384 ≤ l.recs.length then
    let s := (s.modTally (fun t => { t with sill := { l with dropped := (l.dropped + 1) % 2 ^ 32, full := true } })).count 17 7 1
    if l.full then s else s.event ((mkEv .critical 17 0 .limit).stat Reg.SILL_STAT.FULL) none
  else
    let n := l.writes + 1
    let s := s.modSill (fun l => { l with recs := l.recs ++ [(l.next % 2 ^ 32, sillSeal r l.next)], next := (l.next + 1) % 2 ^ 32,
                                          repeats := 0, writes := n, stopped := decide (100000 * 16384 ≤ n) })
    let s := ((s.count 17 5 1).pageWrites 5).modTally (fun t => { t with life := mmod 0 t.life 127 (· + 1) })
    let s := if l.recs.length + 1 = 14746 then s.event (mkEv .warning 17 0 .limit) none else s
    if n = 90000 * 16384 then s.event (mkEv .warning 16 0 .limit) none
    else if n = 100000 * 16384 then s.event ((mkEv .critical 16 0 .limit).stat Reg.SILL_STAT.STOPPED) none else s

/-- The interval under way ends with its record or a repeat; histograms are cleared and the next interval begins (R495, R499,
R500). -/
def State.intervalEnd (s : State) (cut : Bool) : State :=
  let (r, s) := s.sillRecord cut
  let l := s.tally.sill
  let s : State :=
    if l.stopped then s
    else match l.recs.getLast? with
      | some (_, old) =>
        if sillBody old = sillBody r then
          ((s.modSill (fun l => { l with repeats := min (l.repeats + 1) (2 ^ 32 - 1) })).count 17 6 1).pageWrites 1
            |>.modTally (fun t => { t with life := mmod 0 t.life 127 (· + 1) })
        else s.sillAppend r
      | none => s.sillAppend r
  let now := (if s.writeThrough then 8 else 0) ||| (if s.patrol.rebuilds.any (·.active) then 16 else 0) ||| (if s.flag Reg.THERM_STAT.THROTTLING then 4 else 0)
  s.modTally (fun t => { t with hist := [], interval := { start := s.ft, cut := cut, vbankMin := none, flags := now } })

/-- SUMMARY_INTERVAL_END (R499, R500): FT reaches a multiple of INTERVAL_S. -/
def execSummaryIntervalEnd (s : State) : Res :=
  let at_ := nextMultiple s.ft (s.intervalS * 1000000000) (s.tally.interval.start == s.ft)
  let s := if at_ = s.ft then s else s.passTo at_
  .next (s.intervalEnd false)

/-- A clear of the sillage log up to SEQ `q`; none when the log does not hold it (R501). -/
def State.sillClear (s : State) (q : Nat) : Option State :=
  let l := s.tally.sill
  match l.recs.findIdx? (fun x => x.1 == q) with
  | none => none
  | some i =>
    let rest := l.recs.drop (i + 1)
    some ((s.modSill (fun l => { l with recs := rest, full := false, repeats := if rest.isEmpty then 0 else l.repeats })).pageWrites 1)

/-! ### The sample reader (R497, R498) -/

/-- The reader moves to the next record; the last of a bank releases it. -/
def Sampling.skip (b : Sampling) : Sampling :=
  match b.ready with
  | [] => b
  | [] :: rest => { b with ready := rest, word := 0 }
  | (_ :: more) :: rest => { b with ready := if more.isEmpty then rest else more :: rest, word := 0 }

/-- The record at the reader's position. -/
def Sampling.current (b : Sampling) : Option Nat :=
  match b.ready with
  | (r :: _) :: _ => some r
  | _ => none

/-- The next word of the current record; past the last record the last value again, with UNDERRUN. -/
def State.sampleWord (s : State) : Nat × State :=
  let b := s.tally.sample
  match b.current with
  | none => (b.last, (s.raise Reg.SAMPLE_STAT.UNDERRUN).count 17 3 1)
  | some r =>
    let v := bitsOf r (32 * b.word) 32
    let b := { b with last := v }
    let b := if b.word = 15 then b.skip else { b with word := b.word + 1 }
    (v, s.modTally (fun t => { t with sample := b }))

/-- DROP_REST: the reader moves to the next record at once. -/
def State.sampleDrop (s : State) : State :=
  if s.tally.sample.current.isNone then s
  else (s.modTally (fun t => { t with sample := t.sample.skip })).count 17 4 1

/-- A partly filled bank becomes readable (R497). -/
def State.sampleShut (s : State) : State :=
  let b := s.tally.sample
  if b.filling.isEmpty then s
  else s.modTally (fun t => { t with sample := { b with filling := [], ready := b.ready ++ [b.filling] } })

/-- SAMPLE_CTRL ENABLE changes: from 0 it clears LOST and both banks, to 0 it closes the bank (R497). -/
def State.sampleEnable (s : State) (old new : Bool) : State :=
  if new && !old then
    s.modTally (fun t => { t with sample := { t.sample with lost := 0, filling := [], ready := [], word := 0 } })
  else if old && !new then s.sampleShut else s

/-- Whole records copied from the reader's position, at most `n` (R498). -/
def State.sampleCopy (s : State) : Nat → List Nat × State
  | 0 => ([], s)
  | n + 1 =>
    match s.tally.sample.current with
    | none => ([], s)
    | some r =>
      let (l, s) := (s.modTally (fun t => { t with sample := t.sample.skip })).sampleCopy n
      (r :: l, s)

/-! ### The counter checkpoint (R107, R483) -/

/-- FT, hours, lifetime totals and patrol cursors are written to the counter checkpoint (R483). -/
def State.counterCheckpoint (s : State) : State :=
  let s := (List.range 15).foldl (fun s b => (List.range 4).foldl (fun s k => s.capturePair b k) s) s
  let s := s.modTime (fun t => { t with storedCkpt := s.ft })
  let s := s.modPatrol (fun p => { p with stored := p.cursor, storedWrap := p.wrapped })
  ({ s with weali := { s.weali with life := s.tally.life } }.count 16 2 1).pageWrites 23

/-- The gravity tables are written to the Weali store, each word stored plus 1 (R107, R479). -/
def State.gravCheckpoint (s : State) : State :=
  let m := (List.range 768).map (fun i => (i, s.word (0x51000 + 4 * i) + 1))
  (s.modReads (fun r => { r with gravStored := m })).pageWrites 48

/-- HOURLY_CHECKPOINT (R107, R310, R483): the hour's power-on time is added, and counters, FT, cursors and gravity tables are
stored. -/
def execHourlyCheckpoint (s : State) : Res :=
  let s := { s with weali := { s.weali with hours := (s.weali.hours + 1) % 2 ^ 32 } }
  .next s.counterCheckpoint.gravCheckpoint

end Sys2Proof.Machine
end

