-- ==== Sys2Proof/Machine/PowerOps.lean ====
section
/-!
DEFINITION. Power as shared operations (spec/13, spec/14): rails and steps, reset outputs, the SEQ bus, the budget, the
capacitance test, and what a stop of the sequenced rails loses and keeps (R369, R375).
-/

namespace Sys2Proof.Machine

/-- The supervisor's power side changed. -/
def State.modPower (s : State) (f : PowerSt → PowerSt) : State := { s with power := f s.power }

/-- The drydown under way changed. -/
def State.modDry (s : State) (f : Dry → Dry) : State := s.modPower (fun p => { p with dry := p.dry.map f })

/-- Lost units changed. -/
def State.modAvail (s : State) (f : AvailSt → AvailSt) : State := { s with avail := f s.avail }

/-! ### Steps and rails (R345, R347) -/

/-- STEP of a channel in force: 17 to 31 are taken as 0 (R367). -/
def State.railStep (s : State) (ch : Nat) : Nat :=
  let v := s.getF (Reg.PWR_RAIL.STEP ch)
  if v ≤ 16 then v else 0

/-- The channels of a step. -/
def State.stepRails (s : State) (k : Nat) : List Nat := (List.range 24).filter (fun c => s.railStep c == k)

/-- The first step after `k` that a channel names. -/
def State.nextStep (s : State) (k : Nat) : Option Nat := (List.range 17).find? (fun j => decide (k < j) && !(s.stepRails j).isEmpty)

/-- Channels raised. -/
def State.raised (s : State) : List Nat := (List.range 24).filter (fun c => s.flag (Reg.PWR_RAIL.EN c))

/-- A channel lowered. -/
def State.lowerRail (s : State) (c : Nat) : State := (s.setF (Reg.PWR_RAIL.EN c) 0).setF (Reg.PWR_RAIL.PG c) 0

/-- The highest step with a raised channel. -/
def State.topStep (s : State) : Nat := (s.raised.map s.railStep).foldl max 0

/-- The raised channels of the highest step are lowered. -/
def State.lowerTop (s : State) : State :=
  let k := s.topStep
  (s.raised.filter (fun c => s.railStep c == k)).foldl (fun s c => s.lowerRail c) s

/-- A reset output driven low or released (R366). -/
def State.resetOut (s : State) (k : Nat) (low : Bool) : State := s.setFlag (Reg.RST_CFG.LOW k) low

/-- Every reset output driven low; BRD_RST_N as `brd` says. -/
def State.resetsLow (s : State) (brd : Bool) : State :=
  let s := ((List.range 4).foldl (fun s k => s.resetOut k true) s).modPower (fun p => { p with stretch := [] })
  if brd then s.resetOut 4 true else s

/-- STRETCH of an output in ms (R367). -/
def State.stretchMs (s : State) (k : Nat) : Nat :=
  let v := s.getF (Reg.RST_CFG.STRETCH_MS k)
  if 1 ≤ v ∧ v ≤ 200 then v else 10

/-- PWR_RAIL values stored come into force at a power-up (R367). -/
def State.railsInForce (s : State) : State :=
  let s := s.regs.rails.foldl (fun s (ch, v) => match v with
    | some w => s.setWord (0xE0100 + 4 * ch) (setMask (s.word (0xE0100 + 4 * ch)) 0x7F w)
    | none => s) s
  s.modRegs (fun r => { r with rails := [] })

/-- RETRIES in force (R367). -/
def State.retries (s : State) : Nat := if s.getF Reg.PWR_CFG.RETRIES = 0 then 3 else s.getF Reg.PWR_CFG.RETRIES

/-! ### The SEQ bus (R351 to R353) -/

/-- SEQ_ROLE in force: 0 standalone, 1 master, 2 slave. -/
def State.seqRole (s : State) : Nat := s.getF Reg.SEQ_STAT.ROLE

/-- A SEQ frame: ADDR, CMD, ARG, CRC (R352). -/
def seqFrame (addr cmd arg : Nat) : BitVec 40 :=
  let b := [addr % 64, cmd, arg / 256 % 256, arg % 256]
  BitVec.ofNat 40 (addr % 64 * 2 ^ 32 + cmd % 256 * 2 ^ 24 + arg % 65536 * 2 ^ 8 + crc8 b)

/-- The CRC of a frame is good. -/
def seqCrcOk (w : Nat) : Bool := crc8 [bitsOf w 32 8, bitsOf w 24 8, bitsOf w 16 8, bitsOf w 8 8] == bitsOf w 0 8

/-- A frame taken: its CRC is good, it is addressed here, and it carries this CMD; a bad CRC is counted in CRC_ERR. -/
def State.seqTake (s : State) (w cmd : Nat) : Bool × State :=
  if !seqCrcOk w then (false, s.raise Reg.SEQ_STAT.CRC_ERR)
  else
    let a := bitsOf w 32 8
    ((a == 63 || a == s.getF Reg.SEQ_STAT.SLOT) && bitsOf w 24 8 == cmd, s)

/-- The master sends a frame to every controller; others send nothing. -/
def State.seqAll (s : State) (cmd arg : Nat) : State :=
  if s.seqRole = 1 then s.emit (.seq (seqFrame 63 cmd arg)) else s

/-- The master polls every other address, or one. -/
def State.seqPoll (s : State) (l : List Nat) : State :=
  if s.seqRole = 1 then s.emits ((l.filter (fun a => a != s.getF Reg.SEQ_STAT.SLOT)).map (fun a => Out.seq (seqFrame a 2 0))) else s

/-- Slaves that have answered. -/
def State.seqSlaves (s : State) : List Nat := s.power.slaves.map (·.1)

/-- Does every slave that has answered report step `k` complete (R353)? -/
def State.slavesDone (s : State) (k : Nat) : Bool :=
  s.power.slaves.all (fun (_, v) => match v with | some (st, b) => decide (k ≤ st) && bitAt b 0 | none => true)

/-- Does every slave that has answered report its rails off (R353)? -/
def State.slavesOff (s : State) : Bool :=
  s.power.slaves.all (fun (_, v) => match v with | some (_, b) => bitAt b 3 | none => true)

/-- The status byte of a POLL reply (R352). -/
def State.seqStatus (s : State) : Nat :=
  b2n (s.power.seq == .settled || s.power.seq == .on) + 2 * b2n s.power.stepFailed + 4 * b2n s.inDrydown + 8 * b2n s.raised.isEmpty

/-! ### What a stop of the core's rails keeps (R369, R375) -/

/-- The bits of a word that stay when the sequenced rails are off: the always-on blocks 14 and 15, what the Weali store holds,
and persistent fields (R369, R437, R451, R479). -/
def keptBits (off : Nat) : Nat :=
  let all := 0xFFFFFFFF
  if 0xE0000 ≤ off ∧ off < 0x100000 then all
  else if 0x100 ≤ off ∧ off < 0x200 then all
  -- a member is present and trained only once its channel has trained again (R64)
  else if 0x30100 ≤ off ∧ off < 0x31900 then all - 2 ^ 10
  else if 0x80400 ≤ off ∧ off < 0x82000 then all
  else if 0x14400 ≤ off ∧ off < 0x14E10 then all
  else if 0x90100 ≤ off ∧ off < 0x90200 then 0x3FFFF
  else if off = 0xD0014 then 2 ^ 24
  else accMask off (· == .rwp)

/-- The words after the loss of the core's rails; maps that wait for a frame are stored already (R324, R451). -/
def keptWords (m : SMap Nat) : SMap Nat :=
  m.filterMap (fun (off, v) =>
    let w := setMask (resetWord off) (keptBits off) v
    if w = resetWord off then none else some (off, w))

/-- A rebuild resumes from its stored cursor: every 4,096 slots, or where a drydown checkpoint left it (R190). -/
def Rebuild.resumed (b : Rebuild) (exact : Bool) : Rebuild :=
  { b with active := false, out := [], slot := if exact then b.slot else b.slot / 4096 * 4096, tile := if exact then b.tile else 0 }

/-- A domain at a start (R334, R342). -/
def CaskDom.resumed (d : CaskDom) (holds : Bool) : CaskDom :=
  { d with recov := none, resting := false, readys := [], commitOf := none, acks := [], earlyAt := none, earlySent := false,
           state := if d.state = 0 then 0 else if holds then 2 else if d.state = 3 ∨ d.state = 2 ∨ d.state = 6 then 1 else d.state }

/-- The core's rails are off: volatile state is gone; what the always-on domain, the Weali store and the medium hold stays
(R369, R375, R479). `flushed` says that a drydown checkpoint wrote the undo log and the tables first (R360). -/
def State.coreLost (s : State) (flushed : Bool) : State :=
  let pendMaps := s.time.mapNext
  let log := if flushed then s.cask.log else s.cask.log.take s.cask.spilled
  let asg := (List.range 64).foldl (fun (m : SMap LdAsg) n =>
    mset { head := 2 * (n % 4), ldId := n / 4 } m n { head := s.getF (Reg.HP_LD_CFG.HEAD n), ldId := s.getF (Reg.HP_LD_CFG.LD_ID n), db := s.flag (Reg.HP_LD_CFG.DB n) }) []
  let ports := (List.range 4).foldl (fun (m : SMap Nat) p =>
    let w := s.word (0xA0000 + 4 * p) % 64
    mset 0x3A m p (if bitsOf w 1 3 ≤ 5 then w else putBits w 1 3 5)) []
  let off := (List.range 64).filter (fun n => !s.flag (Reg.LC_LD_CTRL.ALLOC_EN n))
  let host : HostSt := {
    ld := asg, blocks := s.host.blocks, dcExtents := s.host.dcExtents, poisonList := s.host.poisonList,
    poisonOver := s.host.poisonOver, poisonOverAt := s.host.poisonOverAt, perst := s.host.perst, refAbsent := s.host.refAbsent,
    logs := s.host.logs.filter (fun (k, _) => k % 5 == 2 || k % 5 == 3), evHandle := s.host.evHandle,
    archived := s.host.archived, lsa := s.host.lsa, shutdown := s.host.shutdown, ports := ports }
  let map : MapSt := { jmedia := s.map.jmedia, ckpts := s.map.ckpts.filter (·.valid), delta := s.map.delta, spill := s.map.spill,
                       archive := s.map.archive, afresh := s.map.afresh, ckptLast := s.map.ckptLast, lossTold := s.map.lossTold, formats := s.map.formats, jseq := s.map.jseq, lastSet := s.map.lastSet }
  let patrol : Patrol := { cursor := s.patrol.stored, stored := s.patrol.stored, wrapped := s.patrol.storedWrap,
                           storedWrap := s.patrol.storedWrap, pop := s.patrol.pop, failed := s.patrol.failed,
                           rebuilds := s.patrol.rebuilds.map (fun b => b.resumed flushed), lost := s.patrol.lost,
                           noSpare := s.patrol.noSpare, chFailed := s.patrol.chFailed }
  let keys : Keys := { table := s.keys.table, dgen := s.keys.dgen, rgen := s.keys.rgen, lifecycle := s.keys.lifecycle, fuse := s.keys.fuse,
                       resv := s.keys.resv }
  let fabric : FabricSt := { storedId := s.fabric.storedId, mirrors := s.fabric.mirrors, exports := s.fabric.exports,
                             imports := s.fabric.imports, promos := s.fabric.promos }
  let doms := s.cask.doms.map (fun (i, d) => (i, d.resumed (log.any (fun r => r.dom == i))))
  let idx := log.foldl (fun (m : SMap (List UndoIdx)) r => mmod [] m (undoSet r.ltn) (fun l => l ++ [{ ltn := r.ltn, dom := r.dom, epoch := r.epoch % 65536 }])) []
  let cask : CaskSt := { doms := doms, log := log, spilled := min s.cask.spilled log.length, idx := idx }
  let time : TimeSt := { actions := s.time.actions, storedCkpt := s.time.storedCkpt, storedDry := s.time.storedDry,
                         slotDone := s.time.slotDone, frameDone := s.time.frameDone }
  let tally : TallySt := { life := s.weali.life, sill := s.tally.sill, sample := { lfsr := s.tally.sample.lfsr },
                           interval := { start := s.ft, cut := true } }
  let s := { s with words := keptWords s.words, host := host, home := {}, cache := { lookupOff := off },
                    reads := { gravStored := s.reads.gravStored, cal := s.reads.cal }, progs := { next := s.progs.next }, map := map, patrol := patrol,
                    keys := keys, fabric := fabric, cask := cask, time := time, tally := tally, kelric := {},
                    regs := { writes := s.regs.writes, rails := s.regs.rails, stores := s.regs.stores },
                    avail := { oscDown := s.avail.oscDown },
                    eng := { failed := s.eng.failed },
                    maint := { active := s.maint.active, staged := s.maint.staged, svnMin := s.maint.svnMin, nextTest := s.maint.nextTest },
                    weali := { s.weali with boardOps := [] } }
  let s := pendMaps.foldl (fun s (o, w, _) => s.setWord o w) s
  let s := s.reads.gravStored.foldl (fun s (i, w) => s.setWord (0x51000 + 4 * i) (w - 1)) s
  (s.setF Reg.DF_NODE.NODE_ID s.fabric.storedId).setF Reg.CIPHER_STATUS.LIFECYCLE s.keys.lifecycle
    |>.modTally (fun t => { t with window := s.windowAsked })

/-! ### The budget (R354, R357, R358) -/

/-- EFF in force, per cent (R367). -/
def State.huEff (s : State) : Nat :=
  let v := s.getF Reg.HU_CFG0.EFF
  if 50 ≤ v ∧ v ≤ 100 then v else 90
/-- PDRY in force, watts. -/
def State.huPdry (s : State) : Nat :=
  let v := s.getF Reg.HU_CFG0.PDRY
  if 50 ≤ v ∧ v ≤ 1000 then v else 250
/-- MARGIN in force, per cent. -/
def State.huMargin (s : State) : Nat :=
  let v := s.getF Reg.HU_CFG1.MARGIN
  if 10 ≤ v ∧ v ≤ 100 then v else 25
/-- DIV in force. -/
def State.huDiv (s : State) : Nat := if s.getF Reg.HU_CFG1.DIV = 0 then 16 else s.getF Reg.HU_CFG1.DIV
/-- ITEST in force, units of 10 mA. -/
def State.huItest (s : State) : Nat := if s.getF Reg.HU_CFG1.ITEST = 0 then 200 else s.getF Reg.HU_CFG1.ITEST
/-- DROP in force, per cent. -/
def State.huDrop (s : State) : Nat :=
  let v := s.getF Reg.HU_CFG1.DROP
  if 2 ≤ v ∧ v ≤ 20 then v else 10
/-- CUT in force, microseconds. -/
def State.cutUs (s : State) : Nat := min 2000 (s.getF Reg.DRY_CFG.CUT_US)

/-- The C the budget rests on: the stored one, or the one before it while a test's bank recharges (R26, R355). -/
def State.huCap (s : State) : Nat := s.power.test.capWas.getD (s.getF Reg.HU_CAP.CAP_MF)

/-- The numerator of R357: eff × C × (v² − vmin²) with v in microvolts and C in mF; 0 when v ≤ vmin. -/
def State.huNum (s : State) (v : Nat) : Nat :=
  let m := s.getF Reg.HU_CFG0.VMIN * 10000
  s.huEff * s.huCap * (v * v - m * m)

/-- The bytes of R357 as (numerator, denominator, what is taken off): 40 GB/s for the time the energy lasts, less cut, quiesce,
rails-off and 3,071 MiB. -/
def State.huParts (s : State) (v : Nat) : Nat × Nat × Nat :=
  (s.huNum v, 50000 * (100 + s.huMargin) * s.huPdry, 40000 * (s.cutUs + 7000) + 3071 * 2 ^ 20)

/-- The budget of R357 in tiles, and whether its bytes are 0 or less (R358). -/
def State.huBudget (s : State) (v : Nat) : Nat × Bool :=
  let (n, d, c) := s.huParts v
  (min (2 ^ 26) ((n / d - c) / 256), decide (n ≤ d * c))

/-- The voltage the budget is computed from: the lowest sample of the last 16 ms, or the one a test lowered it to (R355,
R357). -/
def State.huVolt (s : State) : Nat :=
  let low := s.power.samples.foldl (fun (a : Option Nat) v => some (match a with | none => v | some x => min x v)) none
  match s.power.test.lowered, low with
  | some l, some v => min l v
  | some l, none => l
  | none, some v => v
  | none, none => 0

/-- The budget comes into force: entering write-through cleans the charge at class 2, leaving it lets the writes go on (R83,
R139, R358). -/
def State.budgetNow (s : State) : State :=
  let v := s.huVolt
  let (tiles, wt) := s.huBudget v
  let was := s.flag Reg.HU_STAT.WT
  let j := s.huNum v / (2 * 10 ^ 17)
  let s := (s.modPower (fun p => { p with budget := tiles })).setF Reg.HU_CAP.E_USE (min 4095 j)
  let s := (s.setFlag Reg.HU_STAT.WT wt).setFlag Reg.WP_STATUS.WT_HOLDUP wt
  if wt && !was then s.throughStart.pump else s.pump

/-- CHG_EN as it stands: high while VIN is good, outside a discharge test and a drydown (R354). -/
def State.chargeNow (s : State) : State :=
  s.setFlag Reg.HU_STAT.CHG (s.power.vin == 2 && !s.inDrydown && !s.power.capTestPin)

/-! ### The capacitance test (R355, R356) -/

/-- A test starts: it waits for a settled bank. -/
def State.testStart (s : State) (src : Option CmdSrc) : State :=
  let s := (s.setF Reg.HU_TEST.BUSY 1).modPower (fun p => { p with test := { p.test with phase := 1, src := src } })
  s

/-- A test ends with a RESULT: FAST, SLOW and NOT_CHARGED set TEST_FAIL with a warning (R356); HOLDUP_TEST completes with RESULT
and C. -/
def State.testEnd (s : State) (result : Nat) (keep : Bool) : State :=
  let src := s.power.test.src
  let bad := result == 1 || result == 2 || result == 4
  let s := s.modPower (fun p =>
    let low := if keep then p.test.lowered else none
    -- FAST and NOT_CHARGED break a row of SLOW results as a pass does; an aborted test says nothing (R356)
    let slow := if result = 2 then p.test.slow + 1 else if result = 3 then p.test.slow else 0
    let was := if keep then p.test.capWas else none
    { p with capTestPin := false,
             test := { phase := 0, src := none, lastAt := s.ft, lowered := low, slow := slow, v0 := p.test.v0, capWas := was } })
  let s := (((s.setF Reg.HU_TEST.BUSY 0).raise Reg.HU_TEST.DONE).setF Reg.HU_TEST.RESULT result).chargeNow
  let s := s.count 13 3 1
  let s := if bad then ((s.raise Reg.HU_STAT.TEST_FAIL).count 13 4 1).event ((mkEv .warning 13 0 .fault).stat Reg.HU_STAT.TEST_FAIL) none else s
  (s.respondTo src kOk (result + s.getF Reg.HU_CAP.CAP_MF * 8) []).budgetNow

/-- C is stored (R355, R365). -/
def State.storeCap (s : State) (mf : Nat) : State := (s.setF Reg.HU_CAP.CAP_MF (min mf (2 ^ 20 - 1))).pageWrites 1

/-! ### The Dirty Shutdown Count and the drydown record (R365) -/

/-- The count advances, once in one stop. -/
def State.dirtyShutdown (s : State) : State :=
  if s.power.dscDone then s
  else
    let s := (s.modPower (fun p => { p with dscDone := true })).setF Reg.DSC.COUNT (min (s.getF Reg.DSC.COUNT + 1) (2 ^ 32 - 1))
    (s.noteFlag 7).pageWrites 1

/-- The drydown record written; DRY_STAT shows its cause and outcome. -/
def State.dryRecord (s : State) (r : DryRec) : State :=
  let s := (s.modPower (fun p => { p with record := r })).pageWrites 1
  (s.setF Reg.DRY_STAT.CAUSE r.cause).setF Reg.DRY_STAT.OUTCOME r.outcome

/-! ### Lowering (R348, R360, R379, R380) -/

/-- What follows once every rail is low. -/
def State.lowered (s : State) : State :=
  let s := s.coreLost false
  match s.power.after with
  | .retry => s.modPower (fun p => { p with seq := .backoff })
  | .hold =>
    let ch := s.getF Reg.PWR_STAT.FAIL_CH
    let s := (s.modPower (fun p => { p with seq := .held, fell := false, failRec := some (p.step, ch) })).pageWrites 1
    let s := (s.raise Reg.PWR_STAT.FAILED).setF Reg.START_STAT.STAGE 8
    s.event ({ mkEv .fatal 13 ch .fault with detail := [s.power.step, ch] }.stat Reg.PWR_STAT.FAILED) none
  | .idle => (s.modPower (fun p => { p with seq := .off })).setF Reg.START_STAT.STAGE 1
  | .railsOff => s

/-- A macro wakes from retention (R469). -/
def State.macroWake (s : State) (m : Nat) : State :=
  if s.flag (Reg.MEM_MACRO.RETAINED m) then (s.setF (Reg.MEM_MACRO.RETAINED m) 0).count 14 7 1 else s

/-- One supervisor engine outside the always-on domain and an always-on engine exchange their roles (R454). -/
def State.aonSwap (s : State) (e h : Nat) : State :=
  let put := fun (s : State) (x role duty st : Nat) =>
    ((s.setF (Reg.ENG_STAT.ROLE x) role).setF (Reg.ENG_STAT.DUTY x) duty).setF (Reg.ENG_STAT.STATE x) st
  let role := s.getF (Reg.ENG_STAT.ROLE h)
  let duty := s.getF (Reg.ENG_STAT.DUTY h)
  let st := s.getF (Reg.ENG_STAT.STATE h)
  let s := put s h 4 (s.getF (Reg.ENG_STAT.DUTY e)) 0
  let s := put s e role duty st
  [384 + 2 * h, 385 + 2 * h].foldl (fun s m => s.macroWake m) s

/-- The supervisor role goes back to two working always-on engines: at every quiesce and before any rails-off (R454). -/
def State.aonPair (s : State) : State :=
  let away := (List.range 60).filter (fun e => s.getF (Reg.ENG_STAT.ROLE e) == 4 && s.getF (Reg.ENG_STAT.STATE e) != 3)
  let free := ([60, 61, 62, 63] : List Nat).filter (fun e => s.getF (Reg.ENG_STAT.ROLE e) != 4 && s.getF (Reg.ENG_STAT.STATE e) != 3
    && !s.eng.moves.any (fun m => m.1 == e))
  (away.zip free).foldl (fun s x => s.aonSwap x.1 x.2) s

/-- Lowering begins: the supervisor role is with the always-on engines, the wipe's detectors are disarmed, resets are held, and the
highest step is lowered (R220, R348, R454). -/
def State.lowerStart (s : State) (after : AfterLower) (brd : Bool) : State :=
  let s := s.aonPair
  let s := (s.modPower (fun p => { p with seq := .lowering, after := after, armed := false, stepFailed := false })).resetsLow brd
  if s.raised.isEmpty && after != .railsOff then s.lowered else s.lowerTop

/-! ### The drydown's start (R359, R360) -/

/-- Waiting programs of user tiles become class 1 (R23, R360). -/
def State.flushClass (s : State) : State :=
  s.mapProgs (fun p => if p.why.user? && !p.granted && p.why != .pinned then { p with cls := 1 } else p)

/-- Self-tests are aborted, an activation stops, and a staging is dropped (R427, R431). -/
def State.abortMaint (s : State) : State :=
  let m := s.maint
  let tests := m.tests.map (fun t => if t.state = 1 then { t with state := 4 } else t)
  { s with maint := { m with tests := tests, activating := none, back := false, moved := m.moved } }

/-- A drydown starts, or the reset flush of R379 and R510 (R359, R360, R379). -/
def State.startDry (s : State) (cause : Nat) (reset below : Bool) : State :=
  let s := s.modPower (fun p => { p with dry := some { cause := cause, reset := reset, below := below } })
  let s := s.setF Reg.DRY_STAT.PHASE 1
  let s := if reset then s.setF Reg.START_STAT.STAGE 10
    else (((s.raise Reg.HU_STAT.HOLD).modPower (fun p => { p with pfwLow := true })).setF Reg.DRY_STAT.CAUSE cause).count 13 5 1
  let s := if reset then s else s.modInterval (fun i => { i with drydowns := i.drydowns + 1, flags := i.flags ||| 2 })
  let s := s.chargeNow
  let s := if s.power.test.phase = 0 then s else s.testEnd 3 true
  let s := s.abortMaint
  let s := (s.modFabric (fun f => { f with leaving := true })).floodLsa
  (s.flushClass.cleanWalk).pump

/-- The drydown's delta: every map, count and residue tile that has changed since the newest checkpoint, then its own trailer, at class 1
(R153). -/
def State.deltaTiles (s : State) : State :=
  let base := (s.map.ckpts.filter (·.valid)).foldl (fun (a : MapImage) c => if a.number < c.number then c else a) {}
  let s := (s.changedTiles base).foldl (fun (s : State) k => (s.reserveProg .delta 1 (s.imageTile k) base.number).2) s
  (s.reserveProg .delta 1 (trailerTile base.number base.seq) base.number).2

/-- The undo log and the cask domain state go to the reserve at class 1: the records not yet in the spill area, and the state of every
domain (R334, R360). -/
def State.undoFlush (s : State) : State :=
  let rs := s.cask.log.drop s.cask.spilled
  let s := (List.range ((rs.length + 15) / 16)).foldl (fun (s : State) i =>
    let l := (rs.drop (16 * i)).take 16
    l.foldl (fun (s : State) r => (s.reserveProg .undo 1 r.data 0).2) (s.reserveProg .undo 1 (undoDescs l) 0).2) s
  s.cask.doms.foldl (fun (s : State) x => (s.reserveProg .undo 1 (domTile x.1 x.2) 0).2) s

/-- The cut: the flush begins; mash buffer, pins, journal staging and domain state are sent at class 1 (R122, R360). -/
def State.dryCut (s : State) : State :=
  let s := (s.setF Reg.DRY_STAT.PHASE 2).modDry (fun d => { d with cutAt := s.ft })
  let s := s.cache.mash.foldl (fun s m => if m.prog then s else (s.spillMash m).getD s) s
  let s := s.cleanWalk
  let pins := s.hostWays.filter (fun (_, _, y) => y.pin && !y.spilled && y.dirty != 0)
  let s := pins.foldl (fun s (t, w, _) => s.spillPin t w 1) s
  let s := s.journalFlush
  let s := (s.archiveLogs 1).deltaTiles.undoFlush
  s.pump

/-- A rail was lost in a drydown: what must be cut with it is cut, and the flush goes on as R364 says. -/
def State.railLost (s : State) (ch : Nat) : State :=
  let s := s.modDry (fun d => { d with noWarm := true })
  let s := s.lowerRail ch
  let cut := fun (s : State) (l : List Nat) => (l.filter (fun c => s.flag (Reg.PWR_RAIL.EN c))).foldl (fun s c => s.lowerRail c) s
  let dead := fun (s : State) (gs : List Nat) =>
    let s := gs.foldl (fun s g => s.resetOut g true) s
    let s := s.modDry (fun d => { d with deadGroups := (d.deadGroups ++ gs).eraseDups })
    -- reserve tiles not yet granted go to slots of the groups that remain
    let mine := s.progs.list.filter (fun p => p.why.reserve? && !p.granted && s.lost (psnSet p.psn) != 0)
    mine.foldl (fun s p =>
      let (pl, s) := s.reservePlace
      s.modProg p.id (fun p => { p with psn := pl.1, t := pl.2 })) s
  if ch = 0 ∨ ch = 1 ∨ ch = 7 ∨ ch = 8 ∨ ch = 9 then
    (cut s (List.range 24)).modDry (fun d => { d with incomplete := true, deadGroups := [0, 1, 2, 3] })
  else if ch = 3 ∨ ch = 5 then
    (dead (cut s ((List.range 8).map (10 + ·))) [0, 1, 2, 3]).modDry (fun d => { d with incomplete := true })
  else if 10 ≤ ch ∧ ch < 18 then
    let g := (ch - 10) % 4
    dead (cut s [10 + g, 14 + g]) [g]
  else s

end Sys2Proof.Machine
end

