-- ==== Sys2Proof/Machine/Power.lean ====
section
/-!
DEFINITION. The events of the supervisor (spec/13, spec/14): power-up steps, the SEQ bus, reset outputs, rail faults, the budget
and the capacitance test, and a drydown from its cause to rails-off or the warm resume.
-/

namespace Sys2Proof.Machine

/-! ### Power-up (R347 to R349, R353) -/

/-- A step is begun: its channels are raised together; the master tells the slaves and polls them. BRD_RST_N is low from the
first channel raised (R347, R353, R366). -/
def State.beginStep (s : State) (k : Nat) : State :=
  let s := (s.stepRails k).foldl (fun s c => s.raise (Reg.PWR_RAIL.EN c)) s
  let s := (s.modPower (fun p => { p with seq := .raising, step := k, stepFailed := false })).resetOut 4 true
  (s.seqAll 1 k).seqPoll (List.range 63)

/-- The sequence is complete: PWR_RAIL is locked, the wipe's detectors are armed, the fill starts and the resets' STRETCH runs
(R220, R347, R366, R367, R370). -/
def State.seqComplete (s : State) : State :=
  let s := s.modPower (fun p => { p with seq := .on, armed := true, stretch := [0, 1, 2, 3, 4] })
  let s := ((s.raise Reg.REG_LOCK.PWR_LOCK).setF Reg.START_STAT.STAGE 2).setF Reg.PWR_STAT.FAILED 0
  s.seqAll 5 0

/-- The step under way is complete on the whole board: the next one begins, or the sequence is complete. A slave waits for
the master (R347, R353). -/
def State.stepOn (s : State) : State :=
  if s.seqRole = 2 then s
  else if s.seqRole = 1 && !s.slavesDone s.power.step then s
  else match s.nextStep s.power.step with
    | some k => s.beginStep k
    | none => s.seqComplete

/-- A power-up's first attempt is set up (R347, R369, R370, R383): the locks open, PWR_RAIL values stored come into force. -/
def State.powerInit (s : State) : State :=
  let why := s.power.why
  let s := (s.railsInForce.modPower (fun p => { p with vin := 2, refAt := s.ft - 50000000, resuming := false, formatting := false })).chargeNow
  let s := ((s.setF Reg.REG_LOCK.PWR_LOCK 0).setF Reg.REG_LOCK.KEY_LOCK 0).setF Reg.PWR_STAT.FAILED 0
  let s := ((s.setF Reg.START_STAT.STAGE 1).setF Reg.START_STAT.CAUSE why).setF Reg.START_STAT.POP_REFUSED 0
  ((s.setF Reg.PWR_STAT.STEP 0).setF Reg.PWR_STAT.ATTEMPT 1).count 13 0 1

/-- The first attempt begins; with fewer than two always-on engines it fails at step 1, and the hold of R349 follows (R347, R454). -/
def State.powerUp (s : State) : State :=
  let s := s.powerInit
  if 3 ≤ (s.eng.failed.filter (fun e => decide (60 ≤ e.1))).length then
    (s.modPower (fun p => { p with step := 1, seq := .raising })).lowerStart .hold true
  else match s.nextStep 0 with
    | some k => s.beginStep k
    | none => s.seqComplete

/-- May a power-up begin: rails low, or the hold of R349 or R510 with the input away and back; COLD_RST_N high; no wipe since;
cooled after a THERMAL drydown (R349, R379, R390)? -/
def State.mayPowerUp (s : State) : Bool :=
  (s.power.seq == .off || (s.power.seq == .held && s.power.fell)) && !s.power.coldLow && !s.inDrydown && !s.keys.wiped
    && (!s.power.hot || ([0, 1, 2, 3].filter (fun i => !s.therm.excluded.contains i)).all (fun i => decide ((s.therm.last.getD i 0) < 340)))

/-- POWER_UP_START (R347, R369, R370, R390): VIN_SENSE has stood at VIN_GOOD for 50 ms; a slave waits for its master. -/
def execPowerUpStart (s : State) : Res :=
  if !s.mayPowerUp then .next (s.modPower (fun p => { p with vin := 2 })).chargeNow
  else if s.seqRole = 2 then
    .next ((s.modPower (fun p => { p with vin := 2, seq := .off, awaitStep1 := true, refAt := s.ft - 50000000 })).chargeNow)
  else .next s.powerUp

/-- STEP_COMPLETE (R347, R353): every PG and sense of the step is good. -/
def execStepComplete (s : State) : Res :=
  if s.power.seq != .raising || s.power.stepFailed then .next s
  else
    let k := s.power.step
    let s := (s.stepRails k).foldl (fun s c => if s.flag (Reg.PWR_RAIL.EN c) then s.raise (Reg.PWR_RAIL.PG c) else s) s
    .next ((s.setF Reg.PWR_STAT.STEP k).modPower (fun p => { p with seq := .settled })).stepOn

/-- An attempt has failed: the rails are lowered, and a retry or the hold follows; the master aborts every controller's
attempt (R348, R349, R353). -/
def State.attemptFailed (s : State) : State :=
  let k := s.getF Reg.PWR_STAT.ATTEMPT
  if k ≤ s.retries then (s.seqAll 3 (100 * 2 ^ (k - 1))).lowerStart .retry true
  else (s.seqAll 3 0).lowerStart .hold true

/-- STEP_TIMEOUT (R348, R353): the step under way is not complete within PG_TIMEOUT. -/
def execStepTimeout (ch : RailNo) (s : State) : Res :=
  if s.power.seq != .raising || s.power.stepFailed || s.railStep ch.val != s.power.step then .next s
  else
    let s := (s.count 13 1 1).setF Reg.PWR_STAT.FAIL_CH ch.val
    .next (if s.seqRole = 2 then s.modPower (fun p => { p with stepFailed := true }) else s.attemptFailed)

/-- RETRY_BACKOFF_EXPIRY (R348): the sequence runs again from step 1; a slave's starts with the master's STEP 1. -/
def execRetryBackoffExpiry (s : State) : Res :=
  if s.power.seq != .backoff || s.seqRole = 2 || s.power.coldLow then .next s
  else
    let s := ((s.setF Reg.PWR_STAT.ATTEMPT (s.getF Reg.PWR_STAT.ATTEMPT + 1)).setF Reg.PWR_STAT.STEP 0).count 13 0 1
    .next (match s.nextStep 0 with
      | some k => s.beginStep k
      | none => s.seqComplete)

/-- RESET_STRETCH_EXPIRY (R366): the output's STRETCH has passed and it is released. -/
def execResetStretchExpiry (k : Fin 5) (s : State) : Res :=
  if !s.power.stretch.contains k.val then .next s
  else .next ((s.modPower (fun p => { p with stretch := p.stretch.filter (· != k.val) })).resetOut k.val false)

/-- RAILS_OFF_STEP (R348, R360): the next lower step is lowered; below the last, what the lowering was for follows. -/
def execRailsOffStep (s : State) : Res :=
  if s.power.seq != .lowering then .next s
  else
    let s := s.lowerTop
    .next (if s.raised.isEmpty && s.power.after != .railsOff then s.lowered else s)

/-! ### The SEQ bus (R351 to R353) -/

/-- STEP (R353): a slave raises the step; STEP 1 begins a sequence. A step that no channel names is complete at once
(R347). -/
def execStep (w : BitVec 40) (s : State) : Res :=
  let (go, s) := s.seqTake w.toNat 1
  let k := bitsOf w.toNat 8 16
  if !go || s.seqRole != 2 then .next s
  else if k = 1 then
    if s.power.coldLow || s.inDrydown || s.keys.wiped || s.power.seq == .raising || s.power.seq == .settled || s.power.seq == .on
        || s.power.seq == .lowering then .next s
    else
      let n := if s.power.seq == .backoff then s.getF Reg.PWR_STAT.ATTEMPT + 1 else 1
      let s := if s.power.seq == .backoff then s.count 13 0 1 else s.powerInit
      let s := (s.setF Reg.PWR_STAT.ATTEMPT n).modPower (fun p => { p with awaitStep1 := false })
      let s := s.beginStep 1
      .next (if (s.stepRails 1).isEmpty then (s.setF Reg.PWR_STAT.STEP 1).modPower (fun p => { p with seq := .settled }) else s)
  else if s.power.seq != .settled || k ≤ s.power.step then .next s
  else
    let s := s.beginStep k
    .next (if (s.stepRails k).isEmpty then (s.setF Reg.PWR_STAT.STEP k).modPower (fun p => { p with seq := .settled }) else s)

/-- POLL (R352): the slave answers with the step reached and its status. -/
def execPoll (w : BitVec 40) (s : State) : Res :=
  let (go, s) := s.seqTake w.toNat 2
  if !go || s.seqRole != 2 then .next s
  else
    let a := s.getF Reg.PWR_STAT.STEP
    let b := s.seqStatus
    .next (s.emit (.seqReply (BitVec.ofNat 24 (a * 2 ^ 16 + b * 2 ^ 8 + crc8 [a, b]))))

/-- SEQ_ABORT (R353): the slave lowers its channels and waits, under the master's attempt count, for STEP 1. -/
def execSeqAbort (w : BitVec 40) (s : State) : Res :=
  let (go, s) := s.seqTake w.toNat 3
  if !go || s.seqRole != 2 || !(s.power.seq == .raising || s.power.seq == .settled) then .next s
  else .next (s.lowerStart .retry true)

/-- OFF (R353): the board's rails are off; the slave holds BRD_RST_N low and waits for STEP 1. -/
def execOff (w : BitVec 40) (s : State) : Res :=
  let (go, s) := s.seqTake w.toNat 4
  if !go || s.seqRole != 2 || !s.raised.isEmpty then .next s
  else .next ((s.resetOut 4 true).modPower (fun p => { p with awaitStep1 := true }))

/-- SEQ_RELEASE (R353, R366): the sequence is complete on the board; the slave's resets are released after STRETCH. -/
def execSeqRelease (w : BitVec 40) (s : State) : Res :=
  let (go, s) := s.seqTake w.toNat 5
  if !go || s.seqRole != 2 || s.power.seq != .settled then .next s else .next s.seqComplete

/-- Does a drydown's cause start one now: the sequence complete, Memory_Active or a warm resume under way (R359, R377)? -/
def State.mayDry (s : State) : Bool := s.power.seq == .on && !s.inDrydown && (s.host.memActive || s.power.resuming)

/-- Power fails: a drydown of the cause, or before Memory_Active the rails go off without a flush (R359, R380). -/
def State.powerFail (s : State) (cause : Nat) : State :=
  if s.mayDry then s.startDry cause false false
  else if !s.inDrydown && (s.power.seq == .on || s.power.seq == .raising || s.power.seq == .settled) then
    (s.modPower (fun p => { p with why := 1 })).lowerStart .idle true
  else s

/-- PFW (R352, R359): a PFW frame reaches a controller, which dries down. -/
def execPfw (w : BitVec 40) (s : State) : Res :=
  let (go, s) := s.seqTake w.toNat 6
  .next (if go then s.powerFail 2 else s)

/-- SEQ_TIMEOUT (R353): no frame for 100 ms: in a power-up the slave lowers its channels and waits for STEP 1; in operation an
event only. -/
def execSeqTimeout (s : State) : Res :=
  if s.seqRole != 2 then .next s
  else if s.power.seq == .raising || s.power.seq == .settled then
    let s := (s.raise Reg.SEQ_STAT.SEQ_LOST).modPower (fun p => { p with awaitStep1 := true })
    .next (s.lowerStart .idle true)
  else if s.power.seq == .on then .next (s.event (mkEv .warning 13 0 .protocol) none)
  else .next s

/-- The master has sent OFF: BRD_RST_N goes low (R353). -/
def State.sendOff (s : State) : State :=
  (((s.seqAll 4 0).modPower (fun p => { p with offWait := false })).resetOut 4 true)

/-- SEQ_POLL_REPLY (R352, R353): a slave's reply: a failed step aborts the board, a complete one lets the master go on, and rails
off let it send OFF; otherwise it is polled again. -/
def execSeqPollReply (slave : BitVec 6) (reply : BitVec 24) (s : State) : Res :=
  let r := reply.toNat
  let a := slave.toNat
  if s.seqRole != 1 then .next s
  else if crc8 [bitsOf r 16 8, bitsOf r 8 8] != bitsOf r 0 8 then .next ((s.raise Reg.SEQ_STAT.CRC_ERR).seqPoll [a])
  else
    let st := bitsOf r 16 8
    let b := bitsOf r 8 8
    let s := s.modPower (fun p => { p with slaves := mset none p.slaves a (some (st, b)) })
    let s := s.setF Reg.SEQ_STAT.SLAVES s.power.slaves.length
    let up := s.power.seq == .raising || s.power.seq == .settled
    if up && bitAt b 1 then .next ((s.count 13 1 1).attemptFailed)
    else if up then
      if s.power.step ≤ st ∧ bitAt b 0 then .next (if s.power.seq == .settled then s.stepOn else s)
      else .next (s.seqPoll [a])
    else if s.power.offWait then .next (if s.slavesOff then s.sendOff else if bitAt b 3 then s else s.seqPoll [a])
    else .next s

/-- SEQ_OFF_DEADLINE (R353): 500 ms after its own rails-off the master sends OFF without waiting longer. -/
def execSeqOffDeadline (s : State) : Res := .next (if s.power.offWait then s.sendOff else s)

/-! ### Rails in operation (R350, R364) -/

/-- RAIL_FAULT (R350, R364): a raised rail is lost: a drydown of cause RAIL, or one more rail lost in a drydown. -/
def execRailFault (ch : RailNo) (s : State) : Res :=
  let c := ch.val
  if s.power.seq != .on || !s.flag (Reg.PWR_RAIL.EN c) then .next s
  else
    let s := ((s.raise (Reg.PWR_RAIL.FAULT c)).setF (Reg.PWR_RAIL.PG c) 0).count 13 2 1
    let s := s.event ({ mkEv .critical 13 c .fault with detail := [c] }.stat (Reg.PWR_RAIL.FAULT c)) none
    if s.mayDry then .next (((s.startDry 3 false false).railLost c).pump)
    else if s.inDrydown then
      -- a reset flush goes on as a drydown would
      .next ((s.railLost c).pump)
    else .next (s.powerFail 3)

/-- RAIL_WARNING (R350): a sense outside ±5 % raises a warning event only. -/
def execRailWarning (sense : Fin 16) (s : State) : Res :=
  .next (if s.power.seq == .on then s.event { mkEv .warning 13 sense.val .limit with detail := [sense.val] } none else s)

/-! ### The hold-up bank (R354 to R358) -/

/-- BUDGET_COMPUTE (R354, R357): a sample of the bank, at the pin in microvolts, and the budget from the lowest of the last
sixteen. -/
def execBudgetCompute (capUv : BitVec 21) (s : State) : Res :=
  let v := s.huDiv * capUv.toNat
  let s := s.modPower (fun p => { p with samples := (v :: p.samples).take 16 })
  let s := s.setF Reg.HU_STAT.VBANK (min 2047 (v / 10000))
  let s := s.modInterval (fun i => { i with vbankMin := some (match i.vbankMin with | none => v | some x => min x v) })
  .next s.budgetNow

/-- CAP_TEST_START (R355, R358): PERIOD_H has passed, or no C is stored; the test waits for a settled bank. -/
def execCapTestStart (s : State) : Res :=
  .next (if s.power.test.phase = 0 && !s.inDrydown then s.testStart none else s)

/-- CAP_TEST_SETTLED (R26, R355): the bank voltage is V0; the budget is lowered and the discharge starts. -/
def execCapTestSettled (s : State) : Res :=
  if s.power.test.phase ≠ 1 then .next s
  else
    let v0 := s.power.samples.headD 0
    let low := v0 * (100 - s.huDrop) / 100
    let s := s.modPower (fun p => { p with capTestPin := true, test := { p.test with phase := 2, v0 := v0, lowered := some low } })
    .next s.chargeNow.budgetNow

/-- CAP_TEST_NOT_CHARGED (R355): V0 was not reached within ten minutes. -/
def execCapTestNotCharged (s : State) : Res := .next (if s.power.test.phase = 1 then s.testEnd 4 true else s)

/-- C in mF from the discharge time in microseconds: ITEST × Δt ÷ (DROP × V0) (R355). -/
def State.capOf (s : State) (dtUs : Nat) : Nat := 1000 * s.huItest * dtUs / (s.huDrop * s.power.test.v0)

/-- CAP_TEST_DISCHARGE_END (R355, R356): below 10 ms FAST, above 60 s SLOW, otherwise C is computed and stored and the bank
recharges. -/
def execCapTestDischargeEnd (dtUs : BitVec 32) (s : State) : Res :=
  if s.power.test.phase ≠ 2 then .next s
  else if dtUs.toNat < 10000 then .next ((s.storeCap 0).testEnd 1 false)
  else if 60000000 < dtUs.toNat then
    if 2 ≤ s.power.test.slow then .next ((s.storeCap 0).testEnd 2 false) else .next (s.testEnd 2 true)
  else
    let was := s.getF Reg.HU_CAP.CAP_MF
    let s := s.storeCap (s.capOf dtUs.toNat)
    let s := s.modPower (fun p => { p with capTestPin := false, test := { p.test with phase := 3, capWas := some was } })
    .next s.chargeNow

/-- CAP_TEST_RETRY (R356): one hour after a SLOW result the test repeats. -/
def execCapTestRetry (s : State) : Res :=
  .next (if s.power.test.phase = 0 && decide (0 < s.power.test.slow) && !s.inDrydown then s.testStart none else s)

/-- CAP_RECHARGED (R26, R355): the bank is within 1 % of V0 again and its budget is applied. -/
def execCapRecharged (s : State) : Res := .next (if s.power.test.phase = 3 then s.testEnd 0 false else s)

/-! ### Drydown (R359 to R365) -/

/-- Rails-off begins: the key store is zeroed, BRD_RST_N goes low unless R510 or a master's OFF says otherwise, and the highest
step is lowered (R353, R360, R510). -/
def State.railsOff (s : State) : State :=
  let below := match s.power.dry with | some d => d.below | none => false
  let wait := s.seqRole == 1 && !s.power.slaves.isEmpty
  let s := { s with keys := { s.keys with ctx := [], derived := [], sessions := [], staged := 0 } }
  (s.setF Reg.DRY_STAT.PHASE 5).lowerStart .railsOff (!below && !wait)

/-- VIN_WARNING (R349, R359, R363, R380): VIN_SENSE is below VIN_WARN. -/
def execVinWarning (s : State) : Res :=
  let s := (s.modPower (fun p => { p with vin := 0, fell := p.fell || p.seq == .held })).chargeNow
  match s.power.dry with
  | some d =>
    if s.getF Reg.DRY_STAT.PHASE = 4 then .next s.railsOff
    else if d.reset then
      let s := s.modDry (fun d => { d with cause := 1, reset := false, noWarm := true })
      let s := ((s.raise Reg.HU_STAT.HOLD).setF Reg.DRY_STAT.CAUSE 1).modPower (fun p => { p with pfwLow := true })
      let s := (s.count 13 5 1).modInterval (fun i => { i with drydowns := i.drydowns + 1, flags := i.flags ||| 2 })
      .next s
    else .next s
  | none =>
    if s.power.seq == .backoff then .next ((s.modPower (fun p => { p with why := 1 })).lowerStart .idle true)
    else .next (s.powerFail 1)

/-- PFW_N_ASSERT (R359): another controller holds PFW_N low. -/
def execPfwNAssert (s : State) : Res := .next (s.powerFail 2)

/-- DRYDOWN_CUT (R122, R360): CUT has passed and the flush begins. -/
def execDrydownCut (s : State) : Res := .next (if s.getF Reg.DRY_STAT.PHASE = 1 then s.dryCut else s)

/-- Programs of the flush that have still to end: every user tile's, and the reserve's (R360). -/
def State.flushLeft (s : State) : List Prog :=
  s.progs.list.filter (fun p => p.cls == 1 || (p.why.reserve? && p.why != .calib) || p.granted)

/-- Writes admitted and not yet placed: each is placed and completes before the flush ends (R122). -/
def State.unplaced (s : State) : Bool :=
  s.home.act.any (fun a => a.req.op.write? && !a.wb && a.phase != .placed && a.phase != .ack && a.phase != .held && a.phase != .remote)
    || s.home.wait.any (fun r => r.op.write?)

/-- Can a program of the flush not be granted any more: its set has two lost members (R364)? -/
def State.flushStuck (s : State) (p : Prog) : Bool := !p.granted && decide (2 ≤ s.lost (psnSet p.psn))

/-- Tiles whose dirty data no program has taken: ways, mash buffer, staged programs that are stuck, and tiles of a failed stack
whose entries are not restored (R364, R516). -/
def State.unflushed (s : State) : Nat :=
  (s.hostWays.filter (fun (_, _, y) => y.dirty != 0 && !(y.pin && y.spilled))).length + s.cache.mash.length
    + (s.progs.list.filter (fun p => !p.why.reserve? && p.cls == 1)).length
    + (if s.avail.shareOut then (s.avail.lostLines.filter (fun (t, _) => s.avail.stackDown.getLsbD (ltnSeg t % 2))).length else 0)

/-- Quiesce begins: no more waves are issued (R360, R362). -/
def State.quiesce (s : State) : State :=
  let n := s.unflushed
  (s.setF Reg.DRY_STAT.PHASE 3).modDry (fun d =>
    { d with flushNs := s.ft - d.cutAt, lostTiles := n, incomplete := d.incomplete || decide (0 < n) })

/-- FLUSH_END (R360, R364, R510): the last program that can end has ended; the drydown delta names the newest checkpoint
(R153). -/
def execFlushEnd (s : State) : Res :=
  if s.getF Reg.DRY_STAT.PHASE ≠ 2 then .next s
  else if s.power.dry.any (fun d => d.deadGroups.length == 4) || s.keys.wiped then .next s.quiesce
  else if s.flushLeft.any (fun p => !s.flushStuck p) || (s.unplaced && s.power.dry.all (fun d => d.deadGroups.isEmpty)) then .next s
  else
    let num := (s.map.ckpts.filter (·.valid)).foldl (fun a c => max a c.number) 0
    let s := s.modMap (fun m => { m with delta := if s.host.memActive || s.power.dry.any (·.below) then some (s.mapImage num m.jseq true) else m.delta })
    .next ((s.quiesce).modDry (fun d => { d with flushed := true }))

/-- BANK_LOW_IN_FLUSH (R362): the bank is at VMIN × 1.05; no further wave is issued and the drydown is incomplete, cause
BANK. -/
def execBankLowInFlush (s : State) : Res :=
  let p := s.getF Reg.DRY_STAT.PHASE
  if p ≠ 1 ∧ p ≠ 2 then .next s
  else .next ((s.modDry (fun d => { d with cause := 5, incomplete := true, noWarm := true })).setF Reg.DRY_STAT.CAUSE 5).quiesce

/-- What quiesce leaves of the fabric: links down, tables kept (R360, R375). -/
def State.fabricQuiet (s : State) : State :=
  let s := (List.range 8).foldl (fun s k => if s.getF (Reg.DF_LINK.STATE k) = 0 then s else s.linkDown k) s
  s.modFabric (fun f => { f with sent := [], held := [], mdiscs := [], serving := [], mgmtIn := [] })

/-- Heads and links are quiet, nothing of a request is left, and the queues are deleted (R246, R360, R375, R409). -/
def State.hostQuiet (s : State) : State :=
  let s := (List.range 8).foldl (fun s h => (s.headReset h).raise (Reg.HP_HEAD_STAT.IN_RESET h)) s
  let s := s.dropQueues (fun _ => true)
  let s := s.modHost (fun x => { x with memActive := false, gpf := [] })
  let slots := (List.range 32).foldl (fun s i => s.setWord (0xB0100 + 4 * i) 0) s
  let s := { slots with home := { next := s.home.next } }
  let s := s.modReads (fun r => { r with regs := [], holds := [], mrds := [], fixes := [] })
  s.modCache (fun c => { c with vsets := [], missWait := [], tagReads := [], trackers := [] })

/-- The interval's flag of an incomplete drydown is noted before its record is made (R499). -/
def State.noteDry (s : State) : State :=
  match s.power.dry with
  | some d => if d.incomplete && !s.power.dscDone then s.noteFlag 7 else s
  | none => s

/-- What the quiesce leaves once Weali has stored what it was storing: staged words dropped, heads and links quiet, resets low, the
counter checkpoint, FT and the drydown record (R362 to R365). -/
def State.quiesced (s : State) (d : Dry) : State :=
  let s := s.dropStaged 0xFFFF
  let s := (s.hostQuiet.fabricQuiet).resetsLow false
  let s := s.modTally (fun t => { t with sample := { t.sample with filling := [], ready := [], word := 0 } })
  let s := s.noteDry.intervalEnd true
  let s := s.counterCheckpoint
  let s := s.modTime (fun t => { t with storedDry := s.ft })
  let s := s.dryRecord { cause := d.cause, outcome := if d.incomplete then 1 else 0, ft := s.ft, flushNs := d.flushNs }
  let s := if d.incomplete then (s.dirtyShutdown.count 13 6 1).setF Reg.DRY_LOST.TILES (min d.lostTiles (2 ^ 27 - 1)) else s
  s.modDry (fun d => { d with checkpoint := true })

/-- QUIESCE_END (R360, R363, R365, R379, R499, R510): all partitions are idle: resets low, the Weali checkpoint with the drydown
record is written, and rails-off or the wait of R363 follows. -/
def execQuiesceEnd (s : State) : Res :=
  match s.power.dry with
  | none => .next s
  | some d =>
    if s.getF Reg.DRY_STAT.PHASE ≠ 3 ∨ d.checkpoint ∨ s.progs.list.any (fun p => p.phase == .wave && !p.pend.isEmpty && d.deadGroups.length != 4) then .next s
    else
      let s := (s.storesEnd.quiesced d).aonPair
      if (d.cause = 1 ∨ d.cause = 2) ∧ !d.noWarm ∧ s.power.vin = 2 ∧ !s.keys.wiped then .next (s.setF Reg.DRY_STAT.PHASE 4)
      else .next s.railsOff

/-- RAILS_OFF_END (R353, R360, R379, R390, R510): every sequenced rail is low and HOLD_EN goes low; the state of the core is
gone. -/
def execRailsOffEnd (s : State) : Res :=
  match s.power.dry with
  | none => .next s
  | some d =>
    if s.power.seq != .lowering || s.power.after != .railsOff || !s.raised.isEmpty then .next s
    else
      let wait := s.seqRole == 1 && !s.power.slaves.isEmpty
      let s := s.coreLost d.flushed
      let s := ((s.setF Reg.HU_STAT.HOLD 0).setF Reg.DRY_STAT.PHASE 0).setF Reg.START_STAT.STAGE 1
      let why := if d.cause = 0 then 2 else 1
      let s := s.modPower (fun p => { p with dry := none, pfwLow := false, seq := .off, why := why, hot := p.hot || d.cause == 4,
                                             restart := false, dscDone := false, offWait := wait })
      let s := s.chargeNow
      let s := if wait then s.seqPoll s.seqSlaves else s.seqAll 4 0
      if d.below then
        let s := (s.modPower (fun p => { p with seq := .held, fell := false })).raise Reg.AVAIL_STAT.BELOW_MIN
        .next (s.event ((mkEv .fatal 13 0 .limit).stat Reg.AVAIL_STAT.BELOW_MIN) none)
      else .next s

/-- VIN_GOOD_RETURN (R363): VIN_SENSE is at VIN_GOOD again; the 50 ms hold starts where one is due. -/
def execVinGoodReturn (s : State) : Res := .next (s.modPower (fun p => { p with vin := 2 })).chargeNow

/-- VIN_GOOD_LOSS (R363): VIN_SENSE is below VIN_GOOD and not below VIN_WARN; the hold waits in PHASE 4. -/
def execVinGoodLoss (s : State) : Res := .next (s.modPower (fun p => { p with vin := 1 })).chargeNow

/-- RESUME_HOLD_EXPIRY (R363, R365, R375, R377): rails-off is skipped and a warm resume runs. -/
def execResumeHoldExpiry (s : State) : Res :=
  if s.getF Reg.DRY_STAT.PHASE ≠ 4 ∨ s.power.vin ≠ 2 then .next s
  else
    let r := s.power.record
    let s := (s.dryRecord { r with outcome := 3 }).count 13 7 1
    let s := s.modPower (fun p => { p with dry := none, pfwLow := false, resuming := true, refAt := r.ft, dscDone := false,
                                           stretch := (List.range 4).filter (fun k => decide (50 < s.stretchMs k)) })
    let s := ((s.setF Reg.HU_STAT.HOLD 0).setF Reg.DRY_STAT.PHASE 0).chargeNow
    let s := ((List.range 4).filter (fun k => decide (s.stretchMs k ≤ 50))).foldl (fun s k => s.resetOut k false) s
    let s := (s.setF Reg.START_STAT.STAGE 4).setF Reg.START_STAT.CAUSE 3
    let s := s.modFabric (fun f => { f with leaving := false })
    let s := s.modPatrol (fun p => { p with ident := [], trained := false })
    let s := (List.range 8).foldl (fun s h =>
      if s.headExists h && s.host.perst.getLsbD (h / 2) then s.headResetEnd h else s) s
    let pk := (List.range 32).flatMap (fun c => [32 * c, 32 * c + 16])
    .next (pk.foldl (fun s d => s.sendPacket 5 d 0 0 0 none) s)

/-! ### COLD_RST_N (R379, R380) -/

/-- COLD_RESET (R379): COLD_RST_N has been low for 10 µs. -/
def execColdReset (s : State) : Res :=
  let s := s.modPower (fun p => { p with coldLow := true })
  if s.inDrydown then .next s
  else
    let s := s.resetOut 4 true
    if s.power.seq == .on && s.host.memActive && !s.keys.wiped then
      let s := s.startDry 0 true false
      .next s.dryCut
    else
      let s := (s.modPower (fun p => { p with why := 2, dscDone := false })).setF Reg.PWR_STAT.FAILED 0
      let s := { s with keys := { s.keys with wiped := false, wipeFilled := false, wiping := false } }
      if s.power.seq == .off || s.power.seq == .held then
        .next ((s.modPower (fun p => { p with seq := .off })).resetsLow true |>.setF Reg.START_STAT.STAGE 1)
      else .next (s.lowerStart .idle true)

/-- COLD_RESET_RELEASE (R379): COLD_RST_N is high; the cold start follows once VIN has stood at VIN_GOOD for 50 ms. -/
def execColdResetRelease (s : State) : Res := .next (s.modPower (fun p => { p with coldLow := false, why := if p.seq == .off then 2 else p.why }))

end Sys2Proof.Machine
end

