-- ==== Sys2Proof/Machine/Thermal.lean ====
section
/-!
DEFINITION. Temperatures and throttling (spec/15), the emergency wipe they and the other detectors trigger (spec/08, R220),
and the TEMP and IDENT responses of the packages (spec/02, R61, R62).
-/

namespace Sys2Proof.Machine

/-! ### The emergency wipe (R220) -/

/-- WIPE_CAUSE of a trigger (R224). -/
def wipeCode : WipeCause → Nat
  | .tamper => 1 | .voltage => 2 | .clock => 3 | .temperature => 4

/-- The wipe's first microsecond: keys and sessions are zero, with TAMPER_ERASE the generations advance and the key table goes;
the links are down, and requests that wait for the medium are answered as reads that are not in the cache (R220). -/
def State.wipeNow (s : State) (cause : Nat) : State :=
  let s := (s.raise Reg.CIPHER_STATUS.WIPED).setF Reg.CIPHER_STATUS.WIPE_CAUSE cause
  let ops := s.keys.ops
  let k := s.keys
  let k := { k with ctx := [], derived := [], sessions := [], staged := 0, ops := [], wiped := true, wiping := true }
  let k := if s.flag Reg.CIPHER_CONFIG.TAMPER_ERASE then { k with dgen := k.dgen + 1, rgen := k.rgen + 1, table := [] } else k
  let s := { s with keys := k }
  let s := ops.foldl (fun s o => s.respondTo o.src kAborted 0 []) s
  let s := (List.range 8).foldl (fun s h =>
    (s.modHead h (fun x => { x with key := none, standby := none })).setF (Reg.HP_HEAD_STAT.IDE_ACTIVE h) 0) s
  let s := (List.range 8).foldl (fun s l => if s.getF (Reg.DF_LINK.STATE l) = 0 then s else s.linkDown l) s
  let regs := s.reads.regs
  let s := s.modReads (fun r => { r with regs := [], holds := [] })
  let s := regs.foldl (fun s g => match g.key, g.way with
    | .logical l, some w => s.modWay 0xFFF l.toNat w (fun y => { y with resv := false })
    | _, _ => s) s
  let s := s.modCache (fun c => { c with missWait := [] })
  let waits := s.home.act.filter (fun a => a.phase == .reg || a.phase == .missWait || a.phase == .tag)
  let s := waits.foldl (fun s a => s.serve a.id (some (0, 0xF))) s
  s.pump

/-- A trigger takes effect where it is armed and no wipe has occurred: TAMPER_N always, the others from the end of a power-up to
the lowering of the rails (R220). -/
def State.wipe (s : State) (c : WipeCause) : State :=
  if s.keys.wiped || (c != .tamper && !s.power.armed) then s else s.wipeNow (wipeCode c)

/-- EMERGENCY_WIPE_TRIGGER (R220): a trigger's detector fires. -/
def execEmergencyWipeTrigger (cause : WipeCause) (s : State) : Res := .next (s.wipe cause)

/-- A request that a wipe overtook is answered: a read with poison, a write as complete without being stored. -/
def wipeAnswer (r : HReq) : List Out :=
  match r.src with
  | .host h ld tag => [.s2m h ld tag .cmp none (!r.op.write?)]
  | _ => []

/-- What an emergency wipe's fill leaves: the HBM and the staging are empty; the medium and the Weali store stay (R220). -/
def State.wipeFill (s : State) : State :=
  let owed := s.home.act.filter (fun a => !a.answered && !a.wb)
  let outs := (owed.map (fun a => wipeAnswer a.req) ++ s.home.wait.map wipeAnswer ++ s.home.stall.map wipeAnswer).flatten
  let log := s.cask.log.take s.cask.spilled
  let s := s.emits outs
  let s := { s with
    home := { next := s.home.next, purging := s.home.purging }
    cache := { lookupOff := s.cache.lookupOff }
    reads := { gravStored := s.reads.gravStored, cal := s.reads.cal }
    progs := { next := s.progs.next }
    map := { jmedia := s.map.jmedia, ckpts := s.map.ckpts.filter (·.valid), delta := s.map.delta, spill := s.map.spill,
             archive := s.map.archive, afresh := s.map.afresh, ckptLast := s.map.ckptLast, lossTold := s.map.lossTold, formats := s.map.formats, jseq := s.map.jseq, lastSet := s.map.lastSet }
    cask := { doms := s.cask.doms, log := log, spilled := log.length }
    host := { s.host with memActive := false, mediaError := true, resetNeeded := true }
    keys := { s.keys with wiping := false, wipeFilled := true } }
  s.setF Reg.START_STAT.STAGE 9

/-- WIPE_FILL_END (R220, R247): the hardware fill of HBM and staging is done: Memory_Active is cleared, cause and lost charge are
recorded, and the heads grant credit again. -/
def execWipeFillEnd (s : State) : Res :=
  if !s.keys.wiping then .next s
  else
    let lost := s.charge
    let s := s.wipeFill
    let s := ({ s with weali := { s.weali with wipe := some (s.getF Reg.CIPHER_STATUS.WIPE_CAUSE, lost) } }).pageWrites 1
    let s := if lost = 0 then s else s.dirtyShutdown
    .next (s.event ({ mkEv .fatal 10 0 .lost with detail := [s.getF Reg.CIPHER_STATUS.WIPE_CAUSE, lost] }.stat Reg.CIPHER_STATUS.WIPED) none)

/-! ### Settings and caps (R28, R386, R392) -/

/-- A setting within its range, or the value other values are taken as. -/
def rangeOr (v lo hi d : Nat) : Nat := if lo ≤ v ∧ v ≤ hi then v else d

/-- The cap for a reading in quarter degrees above a start temperature (R28, R386). -/
def throttleCap (q : Int) (start slope : Nat) : Nat :=
  if q ≤ 4 * (start : Int) then 100
  else
    let fall := (slope : Int) * (q - 4 * (start : Int))
    (max 20 ((400 - fall) / 4)).toNat

/-- T_START and SLOPE, MED_START and MED_SLOPE, as taken (R392). -/
def State.tStart (s : State) : Nat := rangeOr (s.getF Reg.THERM_CFG.T_START) 70 105 95
def State.tSlope (s : State) : Nat := rangeOr (s.getF Reg.THERM_CFG.SLOPE) 1 20 8
def State.medStart (s : State) : Nat := rangeOr (s.getF Reg.THERM_CFG.MED_START) 40 85 75
def State.medSlope (s : State) : Nat := rangeOr (s.getF Reg.THERM_CFG.MED_SLOPE) 1 20 8

/-- The thermal state changed. -/
def State.modTherm (s : State) (f : ThermSt → ThermSt) : State := { s with therm := f s.therm }

/-- THROTTLING is set while a cap is below 100 % (R392). -/
def State.throttling (s : State) : State :=
  let low := s.getF Reg.THERM_STAT.CAP != 100 || (List.range 3).any (fun g => s.getF (Reg.MED_TEMP.PROG_CAP g) != 100)
  let s := s.setFlag Reg.THERM_STAT.THROTTLING low
  if low then s.noteFlag 2 else s

/-- A limit of R388 is reached: a THERMAL drydown, or a drydown under way that never resumes warm (R388, R389). -/
def State.thermalLimit (s : State) : State :=
  if s.inDrydown then s.modDry (fun d => { d with noWarm := true })
  else if s.mayDry then
    ((s.powerFail 4).count 15 6 1).modTherm (fun t => { t with lastDry := s.ft })
  else s.powerFail 4

/-! ### On-die sensors (R384 to R386, R388) -/

/-- The valid sensors (R385). -/
def State.validSensors (s : State) : List Nat := (List.range 32).filter (fun i => !s.therm.excluded.contains i)

/-- A sensor is excluded until the next cold start (R385, R391). -/
def State.excludeSensor (s : State) (i : Nat) : State :=
  if s.therm.excluded.contains i then s
  else
    let s := s.modTherm (fun t => { t with excluded := t.excluded ++ [i], off := t.off.filter (fun (j, _) => j != i) })
    let s := ((s.raise Reg.THERM_STAT.SENSOR_FAULT).setF Reg.THERM_STAT.VALID (s.validSensors.length)).count 15 5 1
    let s := s.event ({ mkEv .warning 15 i .fault with detail := [i] }.stat Reg.THERM_STAT.SENSOR_FAULT) none
    let s := if s.validSensors.length = 23 then s.event { mkEv .critical 15 0 .limit with detail := [23] } none else s
    if i < 4 ∧ [0, 1, 2, 3].all (fun j => s.therm.excluded.contains j) then s.event { mkEv .critical 15 1 .fault with detail := [i] } none else s

/-- One reading put in its place in a rising list. -/
def insertRise (a : Int) (l : List Int) : List Int := l.takeWhile (fun b => decide (b < a)) ++ a :: l.dropWhile (fun b => decide (b < a))

/-- Readings in rising order. -/
def sortRise (l : List Int) : List Int := l.foldr insertRise []

/-- Twice the median of some readings. -/
def median2 (l : List Int) : Int :=
  let r := sortRise l
  let n := r.length
  r.getD ((n - 1) / 2) 0 + r.getD (n / 2) 0

/-- Sensors more than 20 °C off the median of the valid ones: noted, and excluded after 10 ms (R385). -/
def State.deviations (s : State) : State :=
  let v := s.validSensors
  let m := median2 (v.map (fun i => s.therm.last.getD i 0))
  let bad := v.filter (fun i => decide (160 < (2 * s.therm.last.getD i 0 - m).natAbs))
  let s := s.modTherm (fun t => { t with off := bad.map (fun i => (i, ((t.off.find? (fun (j, _) => j == i)).map (·.2)).getD s.ft)) })
  (s.therm.off.filter (fun (_, t) => decide (t + 10000000 ≤ s.ft))).foldl (fun s (i, _) => s.excludeSensor i) s

/-- The hottest of some readings. -/
def hottest : List Int → Option Int
  | [] => none
  | a :: r => some (r.foldl max a)

/-- The junction temperature of a sample, the cap it sets, and what the tally keeps of it (R384, R386, R393, R499). -/
def State.junction (s : State) : State :=
  let v := s.validSensors
  match hottest (v.map (fun i => s.therm.last.getD i 0)) with
  | none => ((s.setF Reg.THERM_STAT.CAP 20).throttling.count 15 0 1).count 15 2 1
  | some t =>
    let l := (t :: s.therm.tj).take 10
    let s := s.modTherm (fun x => { x with tj := l })
    let n : Int := l.length
    let sum := l.foldl (· + ·) 0
    -- the mean in quarter degrees, as a fraction sum / n
    let fall := (s.tSlope : Int) * (sum - 4 * (s.tStart : Int) * n)
    let cap := if v.length < 24 then 20 else if fall ≤ 0 then 100 else (max 20 ((400 * n - fall) / (4 * n))).toNat
    let deg := sum / (4 * n)
    let s := (s.setF Reg.THERM_STAT.TJ (ofSigned (clampInt deg (-256) 255) 9)).setF Reg.THERM_STAT.CAP cap
    let s := s.modInterval (fun i => { i with
      tjMax := some (match i.tjMax with | some x => max x t | none => t)
      tjMin := some (match i.tjMin with | some x => min x t | none => t)
      capMin := min i.capMin cap })
    let s := if cap < 100 then s.count 15 0 1 else s
    (if cap = 20 then s.count 15 2 1 else s).throttling

/-- ON_DIE_SENSOR_SAMPLE (R220, R384 to R386, R388): the 32 sensors, in quarter degrees: exclusions, the wipe's threshold, Tj and
its cap, and the critical limit. With the core's rails off only the always-on sensors read. -/
def execOnDieSensorSample (t : List (BitVec 12)) (s : State) : Res :=
  let read := (List.range 32).map (fun i => match t[i]? with | some x => x.toInt | none => s.therm.last.getD i 0)
  let s := s.modTherm (fun x => { x with last := read })
  if s.power.seq != .on then .next s
  else
    let s := s.deviations
    let v := s.validSensors.map (fun i => read.getD i 0)
    let s := if v.any (fun x => decide (x < -180) || decide (500 < x)) then s.wipe .temperature else s
    let s := s.junction
    let hot := v.any (fun x => decide (440 ≤ x))
    let s := s.modTherm (fun x => { x with crit := if hot then x.crit + 1 else 0 })
    .next (if 3 ≤ s.therm.crit then s.thermalLimit.pump else s.pump)

/-- SENSOR_SELF_CHECK (R385): the once-a-second self-check; a sensor that fails it is excluded. -/
def execSensorSelfCheck (failing : BitVec 32) (s : State) : Res :=
  .next ((s.validSensors.filter (fun i => failing.getLsbD i)).foldl (fun s i => s.excludeSensor i) s)

/-! ### Remote sensors (R384, R388, R392) -/

/-- CRIT of an input as taken: it must exceed WARN, or 120 is taken (R392). -/
def State.remoteCrit (s : State) (n : Nat) : Nat :=
  let w := s.getF (Reg.TSNS_CFG.WARN n)
  let c := s.getF (Reg.TSNS_CFG.CRIT n)
  if w < c then c else 120

/-- REMOTE_SENSOR_SAMPLE (R384, R388): a remote input's reading against WARN and CRIT. -/
def execRemoteSensorSample (n : Fin 16) (t : BitVec 12) (open_ : Bool) (s : State) : Res :=
  let k := n.val
  let mode := s.getF (Reg.TSNS_CFG.MODE k)
  if mode = 0 ∨ mode = 3 then .next s
  else if open_ then
    let s := ((s.raise (Reg.TSNS_VAL.OPEN k)).setF (Reg.TSNS_VAL.AT_WARN k) 0).setF (Reg.TSNS_VAL.AT_CRIT k) 0
    .next (s.modTherm (fun x => { x with remote := mset 0 x.remote k 0 }))
  else
    let warn := decide (4 * (s.getF (Reg.TSNS_CFG.WARN k) : Int) ≤ t.toInt)
    let crit := decide (4 * (s.remoteCrit k : Int) ≤ t.toInt)
    let s := ((s.setF (Reg.TSNS_VAL.TEMP k) t.toNat).setF (Reg.TSNS_VAL.OPEN k) 0).setFlag (Reg.TSNS_VAL.AT_WARN k) warn
    let s := s.setFlag (Reg.TSNS_VAL.AT_CRIT k) crit
    let s := if warn && !s.therm.warnTold.contains k then
        let s := (s.modTherm (fun x => { x with warnTold := k :: x.warnTold })).count 15 3 1
        s.event ({ mkEv .warning 15 (32 + k) .limit with detail := [t.toNat] }.stat (Reg.TSNS_VAL.AT_WARN k)) none
      else s
    let s := if crit then s.count 15 4 1 else s
    let s := s.modTherm (fun x => { x with remote := mset 0 x.remote k (if crit then mget 0 x.remote k + 1 else 0) })
    let n := mget 0 s.therm.remote k
    if n < 3 then .next s
    else if s.flag Reg.THERM_CFG.REMOTE_CRIT_EN then .next s.thermalLimit.pump
    else if n = 3 then
      let s := s.raise Reg.THERM_STAT.REMOTE_ALERT
      .next (s.event ({ mkEv .critical 15 (32 + k) .limit with detail := [t.toNat] }.stat Reg.THERM_STAT.REMOTE_ALERT) none)
    else .next (s.raise Reg.THERM_STAT.REMOTE_ALERT)

/-! ### Compensation (R391) -/

/-- TIMEBASE_COMPENSATE (R391): the correction follows sensor 0, or the lowest-numbered valid always-on sensor; with none it
stops. -/
def execTimebaseCompensate (s : State) : Res :=
  .next (s.modTherm (fun x => { x with timebase := [0, 1, 2, 3].find? (fun i => !x.excluded.contains i) }))

/-- BANDGAP_RETRIM (R391, R393): the references are retrimmed from the nearest valid sensor; which of the valid ones is nearest
is not stated. -/
def execBandgapRetrim (s : State) : Res :=
  let v := s.validSensors
  if v.isEmpty then .next (s.modTherm (fun x => { x with bandgap := none }))
  else
    let (n, s) := s.draw
    .next ((s.modTherm (fun x => { x with bandgap := v[n % v.length]? })).count 15 7 1)

/-! ### Package readings (R61, R62, R103, R386 to R388) -/

/-- A package's reading is kept as quarter degrees plus 2^16, so that 0 says none. -/
def State.pkgTemp (s : State) (p : Nat) : Option Int :=
  let v := mget 0 s.patrol.temps p
  if v = 0 then none else some ((v : Int) - 65536)

/-- The packages of a group: those of its ten channels, and those of MC30 and MC31 that hold a member of one of its die sets
(R62). Packages are numbered 2 × channel + package. -/
def State.groupPkgs (s : State) (g : Nat) : List Nat :=
  let own := (List.range 10).flatMap (fun c => (List.range s.pkgs).map (2 * (10 * g + c) + ·))
  let members := (List.range 32).flatMap (fun d => (List.range 10).map (fun m => s.memberDie (32 * g + d) m))
  own ++ ([60, 61, 62, 63].filter (fun p => members.any (fun d => d / 16 == p)))

/-- The group's reading (R62). -/
def State.groupTemp (s : State) (g : Nat) : Option Int := hottest ((s.groupPkgs g).filterMap s.pkgTemp)

/-- The bucket of a reading (R103). -/
def rawBucket (q : Int) : Nat := if q < 100 then 0 else min 7 (1 + ((q - 100) / 40).toNat)

/-- The bucket in force after a reading: down only 1 °C below its lower edge (R103). -/
def bucketOf (b : Nat) (q : Int) : Nat :=
  let raw := rawBucket q
  if b ≤ raw then raw
  else if q ≤ 4 * (25 + 10 * ((b : Int) - 1) - 1) then raw else b

/-- What a group's reading sets: MED_TEMP, its program cap, its bucket, and the hottest of the interval (R103, R386, R499). -/
def State.groupReading (s : State) (g : Nat) : State :=
  match s.groupTemp g with
  | none => s
  | some q =>
    let f := if g = 0 then Reg.RP_TEMP.BUCKET_G0 else if g = 1 then Reg.RP_TEMP.BUCKET_G1 else Reg.RP_TEMP.BUCKET_G2
    let s := s.setF (Reg.MED_TEMP.HOTTEST g) (ofSigned (clampInt (q / 4) (-128) 127) 8)
    let s := (s.setF (Reg.MED_TEMP.PROG_CAP g) (throttleCap q s.medStart s.medSlope)).setF f (bucketOf (s.getF f) q)
    let keep := fun (m : SMap Int) => if m.any (fun (k, _) => k == g) then mset (-100000) m g (max q (mget (-100000) m g)) else mset (-100000) m g q
    s.modInterval (fun i => { i with medMax := keep i.medMax })

/-- Is a group's reading 95 °C or above (R388)? -/
def State.medHot (s : State) : Bool := (List.range 3).any (fun g => match s.groupTemp g with | some q => decide (380 ≤ q) | none => false)

/-- TEMP_RESPONSE (R61, R62, R386, R388): the package's reading is the higher of the two; 95 °C in two slots in a row is a
limit. -/
def execTempResponse (ch : ChanNo) (pkg : Fin 2) (bits : BitVec 64) (s : State) : Res :=
  let d := 32 * ch.val + 16 * pkg.val
  let x := bits.toNat
  let (ok, s) := s.responseCheck d 4 (responseOk x 8)
  if !ok then .next s.wavesEnd
  else
    let q : Int := max (BitVec.ofNat 16 (bitsOf x 0 16)).toInt (BitVec.ofNat 16 (bitsOf x 16 16)).toInt
    let s := s.modPatrol (fun p => { p with temps := mset 0 p.temps (2 * ch.val + pkg.val) (q + 65536).toNat })
    let s := ((List.range 3).foldl (fun s g => s.groupReading g) s).throttling
    if s.medHot && !s.therm.medNow then
      let s := s.modTherm (fun t => { t with medNow := true, medCrit := t.medCrit + 1 })
      .next (if 2 ≤ s.therm.medCrit then s.thermalLimit.pump else s)
    else .next s

/-- The thermal work of a slot boundary: readings that stay in force count for the slot that ended, one WARN event per input and
slot, and slots with a group cap below 100 % (R387, R388, R393). -/
def State.thermalSlot (s : State) : State :=
  let s := if (List.range 3).any (fun g => s.getF (Reg.MED_TEMP.PROG_CAP g) != 100) then s.count 15 1 1 else s
  let t := s.therm
  let n := if t.medNow then t.medCrit else if s.medHot then t.medCrit + 1 else 0
  let s := s.modTherm (fun t => { t with medCrit := n, medNow := false, warnTold := [] })
  if !t.medNow && decide (2 ≤ n) then s.thermalLimit else s

/-! ### Units below their minimum (R508, R510) -/

/-- A unit has fallen below its minimum: Memory_Active is cleared, and the reset flush is made with what remains; the record is
INCOMPLETE and the hold follows (R510). -/
def State.belowMin (s : State) : State :=
  let s := (s.modAvail (fun a => { a with below := true })).modHost (fun h =>
    { h with memActive := false, mediaError := true, resetNeeded := true })
  if s.inDrydown then s.modDry (fun d => { d with below := true, incomplete := true, noWarm := true })
  else if s.power.seq == .on then (s.startDry 0 true true).dryCut.modDry (fun d => { d with incomplete := true })
  else s

/-- With both planes of the tile switch retired the part is below its minimum (R508, R513). -/
def State.planesGone (s : State) : State := if s.avail.planeDown = 3 ∧ !s.avail.below then s.belowMin else s

/-- A slot has ended: its CRC mismatches and lost sectors no longer count (R513, R514); mismatches may have retired both planes. -/
def State.missesEnd (s : State) : State := (s.modAvail (fun a => { a with misses := [] })).planesGone

/-- The IDENT values of the PGM-1T (R61). -/
def identGood (x : Nat) : Bool :=
  bitsOf x 0 16 == 0x3A71 && bitsOf x 24 8 == 16 && bitsOf x 32 8 == 16 && bitsOf x 40 8 == 40 && bitsOf x 48 16 == 512
    && bitsOf x 112 8 == 1

/-- Have all the packages of the population answered IDENT; before first format, one on every channel (R55, R370)? -/
def State.identDone (s : State) : Bool :=
  (List.range 32).all (fun c => (List.range (max 1 s.patrol.pop)).all (fun p => mget false s.patrol.ident (2 * c + p)))

/-- IDENT_RESPONSE (R55, R61, R370): a package that gives other values than the PGM-1T's counts as absent. -/
def execIdentResponse (ch : ChanNo) (pkg : Fin 2) (bits : BitVec 128) (s : State) : Res :=
  let d := 32 * ch.val + 16 * pkg.val
  let x := bits.toNat
  let (ok, s) := s.responseCheck d 5 (responseOk x 16)
  if !ok then .next s.wavesEnd
  else
    let s := s.modPatrol (fun p => { p with ident := mset false p.ident (2 * ch.val + pkg.val) (identGood x) })
    .next (if s.getF Reg.START_STAT.STAGE = 3 && s.identDone then s.setF Reg.START_STAT.STAGE 4 else s)

end Sys2Proof.Machine
end

