-- ==== Sys2Proof/Machine/Avail.lean ====
section
/-!
DEFINITION. Units the part loses (spec/22): what falls below its minimum, PLLs, oscillators, planes and HBM stacks.
-/

namespace Sys2Proof.Machine


/-- OSCILLATOR_COMPARE (R508, R512): an oscillator off both the other one and the core reference is dropped; with both off none
is left. A cold start that finds both good clears OSC_SINGLE. -/
def execOscillatorCompare (off0 : Bool) (off1 : Bool) (s : State) : Res :=
  let starting := s.power.seq == .on && !s.host.memActive && !s.inDrydown && !s.power.resuming
  if !off0 && !off1 then
    .next (if starting then (s.modAvail (fun a => { a with oscDown := 0 })).setF Reg.AVAIL_STAT.OSC_SINGLE 0 else s)
  else
    let now := BitVec.ofNat 2 (b2n off0 + 2 * b2n off1)
    let new := now &&& ~~~s.avail.oscDown
    if new = 0 then .next s
    else
      let s := (s.modAvail (fun a => { a with oscDown := a.oscDown ||| now })).raise Reg.AVAIL_STAT.OSC_SINGLE
      let s := s.event ({ mkEv .warning 12 (b2n off1) .fault with detail := [now.toNat] }.stat Reg.AVAIL_STAT.OSC_SINGLE) none
      .next (if s.avail.oscDown = 3 then s.belowMin else s)

/-- PLL_LOCK_LOSS (R511): the active PLL's clock moves to the standby, with a warning; the last one lost is R510. -/
def execPllLockLoss (pll : Fin 2) (s : State) : Res :=
  if s.avail.pllDown.getLsbD pll.val then .next s
  else
    let move := s.avail.pll == pll.val
    let s := (s.modAvail (fun a => { a with pllDown := a.pllDown ||| (1#2 <<< pll.val),
                                            pll := if move then 1 - a.pll else a.pll })).raise Reg.AVAIL_STAT.PLL_SINGLE
    let s := if move then s.event ({ mkEv .warning 13 pll.val .fault with detail := [pll.val] }.stat Reg.AVAIL_STAT.PLL_SINGLE) none else s
    .next (if s.avail.pllDown = 3 then s.belowMin else s)

/-- PLL_RELOCK_STABLE (R511): the failed PLL has stayed locked for 16 slots and is the standby. -/
def execPllRelockStable (s : State) : Res :=
  .next (if s.avail.pllDown = 0 ∨ s.avail.pllDown = 3 then s
    else (s.modAvail (fun a => { a with pllDown := 0 })).setF Reg.AVAIL_STAT.PLL_SINGLE 0)

/-- PLANE_SELF_CHECK_FAIL (R513): the plane is retired until a cold start, and all traffic takes the other. -/
def execPlaneSelfCheckFail (plane : Fin 2) (s : State) : Res :=
  .next (if s.avail.planeDown.getLsbD plane.val then s else (s.planeOut plane.val).planesGone)

/-! ### The loss of an HBM stack (R93, R514 to R516) -/

/-- What a failed stack held of the cache: dirty sectors are lost lines, every way of its sets is gone, registers that had
reserved one fill none (R93, R514 step 4). -/
def State.stackWays (s : State) (k : Nat) : State :=
  let here := fun (c : Nat) => c % 2 == k
  let lost := (s.cache.sets.filter (fun (c, _) => here c)).flatMap (fun (_, c) =>
    (c.ways.filter (fun y => y.valid != 0 && y.dirty != 0)).map (fun y => (y.ltn, y.dirty)))
  let drop := fun (m : SMap CacheSet) => m.filter (fun (c, _) => !here c)
  let s := s.modCache (fun c => { c with sets := drop c.sets, vsets := drop c.vsets, tags := c.tags.filter (fun t => !here (t / 2)) })
  let s := s.modReads (fun r => { r with regs := r.regs.map (fun g => match g.key with
    | .logical l => if s.noWays 0xFFF l.toNat then { g with way := none } else g
    | .physical _ _ => g) })
  let waits := s.home.act.filter (fun a => a.phase == .tag && s.noWays (keyNode a.req.line) (keyTile a.req.line))
  let s := s.modCache (fun c => { c with tagReads := c.tagReads.filter (fun t => !here (t / 2)) })
  let s := s.modAvail (fun a => { a with lostLines := a.lostLines ++ lost })
  let s := lost.foldl (fun (s : State) x => s.tileEvent { mkEv .critical 4 k .lost with lines := x.2.toNat } x.1) s
  waits.foldl (fun s a => s.serve a.id none) s

/-- Ways 12 to 15 of the surviving stack leave the host partition (R514 step 1). -/
def State.stackShare (s : State) : State :=
  if s.allocWays ≤ 12 then s
  else
    let src := s.cache.waySrc
    let s := s.modCache (fun c => { c with wayTarget := none, waySrc := none, waking := false })
    s.wayStart 1 src

/-- A stack fails (R93, R514, R516). -/
def State.stackFail (s : State) (k : Nat) : State :=
  let s := s.modAvail (fun a => { a with stackDown := a.stackDown ||| (1#2 <<< k), shareOut := true })
  let s := ((s.raise Reg.AVAIL_STAT.STACK_SINGLE).setF Reg.AVAIL_STAT.STACK_FAILED k).raise Reg.AVAIL_STAT.DIR_UNKNOWN
  let s := s.event ({ mkEv .critical 4 k .fault with detail := [k] }.stat Reg.AVAIL_STAT.STACK_SINGLE) none
  if s.avail.stackDown = 3 then s.belowMin
  else
    let s := (s.stackWays k).stackShare
    let s := { s with home := { s.home with unknown := true, dir := s.home.dir.filter (fun (c, _) => c % 2 != k),
                                            dirCache := s.home.dirCache.filter (fun c => c % 2 != k) } }
    -- undo records of the failed stack are gone and their domains broken
    let gone := fun (ltn : Nat) => undoSet ltn % 2 == k
    let hit := ((s.cask.log.filter (fun r => gone r.ltn)).map (·.dom)).eraseDups
    let s := hit.foldl (fun s i => s.modDom i (fun d => { d with state := if d.state = 0 then 0 else 4 })) s
    let kept := s.cask.log.filter (fun r => !gone r.ltn)
    let spilled := ((s.cask.log.take s.cask.spilled).filter (fun r => !gone r.ltn)).length
    let s := { s with cask := { s.cask with log := kept, spilled := spilled, idx := s.cask.idx.filter (fun (c, _) => c % 2 != k), changed := true } }
    let s := (s.map.copies.filter (fun c => c.lsn % 2 == k)).foldl (fun s c => s.copyAbandon c.lsn false) s
    -- lines whose entries the other stack holds are dealt with at once
    ((s.avail.lostLines.filter (fun (t, _) => ltnSeg t % 2 != k)).foldl (fun s (t, _) => s.lostFix t) s).pump

/-- HBM_STACK_FAIL (R93, R514): a stack fails; the other's loss before, or both, is R510. -/
def execHbmStackFail (stack : Fin 2) (s : State) : Res :=
  .next (if s.avail.stackDown.getLsbD stack.val then s else s.stackFail stack.val)

/-- HBM_SHARE_REBUILT (R514): the share of the map is restored; what waited for it goes on, and the lost lines it held up are
programmed. -/
def execHbmShareRebuilt (s : State) : Res :=
  if !s.avail.shareOut then .next s
  else
    let s := s.modAvail (fun a => { a with shareOut := false })
    let late := s.avail.lostLines.filter (fun (t, _) => s.avail.stackDown.getLsbD (ltnSeg t % 2))
    .next (late.foldl (fun s (t, _) => s.lostFix t) s).pump

end Sys2Proof.Machine
end

