-- ==== Sys2Proof/Machine/Cache.lean ====
section
/-!
DEFINITION. The events of the line cache (spec/03).
-/

namespace Sys2Proof.Machine

/-- TAG_CACHE_MISS_RETURN (R72): the record enters the tag cache and the requests that waited for it go on. Which record leaves a full
tag cache is not stated: `tagEnter` drops the least recently used (DESIGN CHOICE, log 19). -/
def execTagCacheMissReturn (set : BitVec 24) (visitor : Bool) (s : State) : Res :=
  let k := 2 * set.toNat + b2n visitor
  if !s.cache.tagReads.contains k then .next s
  else
    let s := (s.modCache (fun c => { c with tagReads := c.tagReads.filter (· != k) })).tagEnter k
    let ws := s.home.act.filter (fun a => a.phase == .tag && tagKey (keyNode a.req.line) (keyTile a.req.line) == k)
    .next ((ws.foldl (fun s a => s.serve a.id none) s).pump)

/-- MASH_IDLE_TIMEOUT (R82): an incomplete slot without a write for 10 µs is spilled. -/
def execMashIdleTimeout (ltn : BitVec 37) (s : State) : Res :=
  match s.mashOf ltn.toNat with
  | some m => .next (if m.valid = 15 then s else ((s.spillMash m).getD s).pump)
  | none => .next s

/-- STREAM_TRACKER_TIMEOUT (R80): a tracker without a matching write for 10 µs is released. -/
def execStreamTrackerTimeout (i : Fin 64) (s : State) : Res :=
  .next (s.modCache (fun c => { c with trackers := c.trackers.filter (fun t => t.id != i.val) }))

/-- CLEANER_START (R85): the charge has reached CLEAN_HI per cent of the budget. -/
def execCleanerStart (s : State) : Res :=
  .next (s.when (decide (s.budget * s.cleanHi ≤ s.charge * 100)) (fun s => (s.modCache (fun c => { c with cleaning := true })).cleanWalk))

/-- CLEANER_STOP (R85): the charge has fallen to CLEAN_LO per cent of the budget. -/
def execCleanerStop (s : State) : Res :=
  .next (s.when (decide (s.charge * 100 ≤ s.budget * s.cleanLo)) (fun s => s.modCache (fun c => { c with cleaning := false })))

/-- DISABLE_CLEAN_DONE (R89): a cleaning step of an LD's disable sequence has ended. -/
def execDisableCleanDone (ld : LdNo) (s : State) : Res := .next (s.disableStep ld.val).retryWays

/-- WAY_CHANGE_END (R91): no departing way holds a valid entry; they are powered down and WAYS_NOW changes. -/
def execWayChangeEnd (s : State) : Res :=
  if s.cache.wayTarget.isNone ∨ s.cache.waking then .next s
  else
    let s := s.wayWalk
    .next (if s.departing.isEmpty then s.wayFinish else s).retryWays

/-- HBM_WAY_WAKE_END (R91): the regions of an increase are awake and the ways are admitted empty. -/
def execHbmWayWakeEnd (s : State) : Res := .next (s.when s.cache.waking (fun s => s.wayFinish.retryWays))

/-- RANGE_JOB_END (R86, R87, R90): the job at work has seen every tile of its scope. -/
def execRangeJobEnd (s : State) : Res := .next s.rangeEnd.retryWays

end Sys2Proof.Machine
end

