-- ==== Sys2Proof/Machine/EngOps.lean ====
section
/-!
DEFINITION. Engines, movers, on-die memories and patch activation as shared operations (spec/19; spec/17, R428 to R431).
-/

namespace Sys2Proof.Machine

/-! ### Roles (R453 to R455) -/

/-- The engine state changed. -/
def State.modEng (s : State) (f : EngSt → EngSt) : State := { s with eng := f s.eng }

/-- CAUSE of an engine failure (R473). -/
def engCode : EngCause → Nat
  | .fetchTrap => 1 | .rom => 2 | .dataTrap => 3 | .heartbeat => 4 | .lockstep => 5 | .remapFull => 6 | .hostRequest => 7

/-- The place of a role in the order of R455, highest first; spares and engines without a role come last. -/
def roleRank (role duty : Nat) : Nat :=
  match role, duty with
  | 4, _ => 0
  | 2, 0 => 1
  | 0, _ => 2
  | 3, 0 => 3
  | 2, _ => 4
  | 3, _ => 5
  | 1, _ => 6
  | _, _ => 7

/-- ROLE, DUTY and STATE of an engine. -/
def State.engRole (s : State) (e : Nat) : Nat := s.getF (Reg.ENG_STAT.ROLE e)
def State.engDuty (s : State) (e : Nat) : Nat := s.getF (Reg.ENG_STAT.DUTY e)
def State.engState (s : State) (e : Nat) : Nat := s.getF (Reg.ENG_STAT.STATE e)

/-- An engine is given a role, a duty and a state. -/
def State.setEng (s : State) (e role duty st : Nat) : State :=
  ((s.setF (Reg.ENG_STAT.ROLE e) role).setF (Reg.ENG_STAT.DUTY e) duty).setF (Reg.ENG_STAT.STATE e) st

/-- The spares that may take a role (R453, R457). -/
def State.spares (s : State) : List Nat :=
  (List.range 64).filter (fun e => s.engRole e == 5 && s.engState e != 3 && !s.eng.moves.any (fun m => m.1 == e))

/-- Working always-on engines (R454). -/
def State.aonOk (s : State) : Nat := ((List.range 4).filter (fun i => s.engState (60 + i) != 3)).length

/-- ENG_SUMMARY follows ENG_STAT (R473). -/
def State.engSummary (s : State) : State :=
  let sp := ((List.range 64).filter (fun e => s.engRole e == 5 && s.engState e != 3)).length
  let fl := ((List.range 64).filter (fun e => s.engState e == 3)).length
  ((s.setF Reg.ENG_SUMMARY.SPARES (min 7 sp)).setF Reg.ENG_SUMMARY.FAILED fl).setF Reg.ENG_SUMMARY.AON_OK (s.aonOk - 2)

/-- The engine that takes a role over: a spare, for the supervisor an always-on one if there is one (R454), else the one that holds the
lowest role below it (R455). -/
def State.heir (s : State) (role duty : Nat) : Option Nat :=
  match (if role = 4 then s.spares.filter (fun e => decide (60 ≤ e)) else []) ++ s.spares with
  | e :: _ => some e
  | [] =>
    let low := (List.range 64).filter (fun e => s.engState e == 0 && decide (roleRank role duty < roleRank (s.engRole e) (s.engDuty e))
      && decide (roleRank (s.engRole e) (s.engDuty e) < 7) && !s.eng.moves.any (fun m => m.1 == e))
    low.foldl (fun b e => match b with
      | none => some e
      | some x => if roleRank (s.engRole x) (s.engDuty x) ≤ roleRank (s.engRole e) (s.engDuty e) then some e else some x) none

/-- Is a role without an engine below the minimum service set (R455, R508)? -/
def State.roleNeeded (s : State) (role duty : Nat) : Bool :=
  role == 4 || (role == 0 && !s.patrol.chFailed.contains duty)
    || (role == 2 && !(List.range 64).any (fun e => s.engRole e == 2 && s.engState e == 0) && !s.eng.moves.any (fun m => m.2.1 == 2))

/-! ### The ledger (R458)

Each command and each operation of State carries its own step marks and results, written in the step that has the effect; the ledger is
the view of them by role. -/

/-- A ledger entry: where the work came from (a queue pair and CID, a mailbox path, or the operation's own number), its opcode or kind,
and the step reached. -/
structure LedgerEntry where
  source : Nat := 0
  cid : Option Nat := none
  opc : Nat := 0
  step : Nat := 0
deriving DecidableEq, Repr

/-- Entries of commands: those fetched from queue pairs that await their completion, mailbox commands, background operations and timed
actions. -/
def State.commandLedger (s : State) : List LedgerEntry :=
  let queues := s.kelric.queues.flatMap (fun (q, k) =>
    (k.flights.filter (fun f => !f.done)).map (fun f =>
      ({ source := q, cid := some f.cid, opc := f.opc, step := if f.ran then 1 else 0 } : LedgerEntry)))
  let box := (s.host.mbox.filter (fun x => x.2.busy)).map (fun (p, b) => ({ source := p, opc := b.opc, step := if b.run then 1 else 0 } : LedgerEntry))
  let bgs := (s.host.bgs.filter (fun x => x.2.opc != 0)).map (fun (p, b) =>
    ({ source := p, opc := b.opc, step := if b.res.isSome then 1 else 0 } : LedgerEntry))
  let acts := s.time.actions.map (fun a => ({ opc := match a.what with | .update _ => 0 | .command o _ => o } : LedgerEntry))
  queues ++ box ++ bgs ++ acts

/-- Entries of maintenance: copies, re-keys, marks, discards, rebuilds, deep recoveries and self-tests. -/
def State.maintLedger (s : State) : List LedgerEntry :=
  let copies := s.map.copies.map (fun c => ({ source := c.lsn, opc := 1, step := c.pass } : LedgerEntry))
  let rekeys := s.map.rekeyRun.map (fun r => ({ source := r.lsn, opc := 2, step := r.next } : LedgerEntry))
  let marks := (s.map.marks.filter (·.started)).map (fun m => ({ source := m.psn, opc := 3, step := m.next } : LedgerEntry))
  let discs := s.map.discards.map (fun d => ({ source := d.id, opc := 4, step := d.done } : LedgerEntry))
  let builds := (s.patrol.rebuilds.filter (·.active)).map (fun r => ({ source := r.ds, opc := 5, step := r.slot } : LedgerEntry))
  let deeps := (s.reads.regs.filter (fun r => r.phase == .deep)).map (fun r =>
    ({ source := r.psn, opc := 6, step := if r.swept then 1 else 0 } : LedgerEntry))
  let tests := (s.maint.tests.filter (fun t => t.state == 1)).map (fun t => ({ source := t.id, opc := 7 } : LedgerEntry))
  copies ++ rekeys ++ marks ++ discs ++ builds ++ deeps ++ tests

/-- Entries of the mirror entries with work under way and of cask recoveries. -/
def State.fabricLedger (s : State) : List LedgerEntry :=
  let mir := (s.fabric.mirrors.filter (fun x => x.2.op != 0 || !x.2.out.isEmpty)).map (fun (i, m) =>
    ({ source := i, opc := 8, step := m.next } : LedgerEntry))
  let back := (s.cask.doms.filter (fun x => x.2.recov.isSome)).map (fun (i, d) => ({ source := i, opc := 9, step := d.state } : LedgerEntry))
  mir ++ back

/-- The ledger entries of the engine with a role and duty. DESIGN CHOICE (log 90): which engine of a role holds which entry is
not stated; the entry's source modulo the number of engines of the role. -/
def State.ledger (s : State) (role duty : Nat) : List LedgerEntry :=
  let pick := fun (n : Nat) (l : List LedgerEntry) => l.filter (fun x => x.source % n == duty)
  match role with
  | 0 => pick 32 ((s.reads.regs.filter (fun r => r.why == .patrol)).map (fun r => { source := psnSet r.psn, opc := 10, step := r.round }))
  | 1 => pick 12 s.maintLedger
  | 2 => pick 8 s.commandLedger
  | 3 => pick 6 s.fabricLedger
  | 4 => if s.power.test.phase = 0 then [] else [{ opc := 11, step := s.power.test.phase }]
  | _ => []

/-- A role looks for an engine: `now` takes it at once, at a start; otherwise a handover begins (R455, R457). -/
def State.roleMoves (s : State) (role duty : Nat) (now : Bool) : State :=
  match s.heir role duty with
  | some h =>
    if now then s.setEng h role duty 0
    else (s.modEng (fun x => { x with moves := x.moves ++ [(h, role, duty)] })).setF (Reg.ENG_STAT.STATE h) 1
  | none =>
    if role = 1 ∧ (List.range 64).any (fun e => s.engRole e == 1 && s.engState e == 0) then s
    else
      let s := s.raise Reg.ENG_SUMMARY.ROLE_UNHELD
      let s := s.event ({ mkEv .critical 14 duty .lost with detail := [role, duty] }.stat Reg.ENG_SUMMARY.ROLE_UNHELD) none
      if s.roleNeeded role duty then s.belowMin else s

/-- One engine is declared failed and fenced; its role, or the one it was to take, moves (R456, R457, R459). -/
def State.engOut (s : State) (e cause : Nat) : State :=
  if s.engState e = 3 then s
  else
    let (role, duty) := match s.eng.moves.find? (fun m => m.1 == e) with
      | some (_, r, d) => (r, d)
      | none => (s.engRole e, s.engDuty e)
    let s := s.modEng (fun x => { x with moves := x.moves.filter (fun m => m.1 != e), failed := mset 0 x.failed e cause,
                                         missed := x.missed.filter (· != e) })
    let s := ((s.setEng e 6 (s.engDuty e) 3).setF (Reg.ENG_STAT.CAUSE e) cause).setF (Reg.ENG_STAT.STAGED e) 0
    let s := (s.pageWrites 1).event { mkEv .warning 14 e .fault with detail := [e, cause, role] } none
    let s := if 5 ≤ role then s else (s.count 14 0 1).roleMoves role duty false
    let s := if 60 ≤ e ∧ s.aonOk < 2 then (s.event { mkEv .critical 14 e .limit with detail := [s.aonOk] } none).belowMin else s
    s.engSummary

/-- An engine fails: an ENGINE test under way ends as failed, an activation left with fewer than two spares goes back (R431,
R457, R459). A mismatch takes both supervisor engines, which are then tested. -/
def State.engFails (s : State) (e : Nat) (cause : Nat) : State :=
  let pair := if cause = 5 && s.engRole e == 4 then (List.range 64).filter (fun i => s.engRole i == 4 && s.engState i != 3) else [e]
  let s := pair.foldl (fun s i => s.engOut i cause) s
  let go := fun (t : SelfTest) => if t.variant == 6 && t.state == 1 && !s.eng.testing.contains t.scope then { t with state := 3, ft := s.ft } else t
  let s : State := { s with maint := { s.maint with tests := s.maint.tests.map go } }
  let s : State := if cause = 5 then
      pair.foldl (fun s i =>
        let t : SelfTest := { id := s.maint.nextTest, variant := 6, scope := i, state := 1, ft := s.ft }
        let s : State := { s with maint := { s.maint with tests := s.maint.tests ++ [t], nextTest := s.maint.nextTest % 255 + 1 } }
        s.modEng (fun x => { x with testing := x.testing ++ [i] })) s
    else s
  if s.maint.activating.isSome && decide (s.spares.length < 2) then { s with maint := { s.maint with back := true } } else s

/-- A former supervisor engine has passed its test and becomes a spare (R459). -/
def State.engBack (s : State) (e : Nat) : State :=
  let s := s.modEng (fun x => { x with testing := x.testing.filter (· != e), failed := mset 0 x.failed e 0 })
  (((s.setEng e 5 (s.engDuty e) 2).setF (Reg.ENG_STAT.CAUSE e) 0).pageWrites 1).engSummary

/-- The engines at the end of the fill: the recorded ones that pass their test serve again, roles are as at a cold start, and
those of retired engines go to spares (R453, R455, R459). -/
def State.engStart (s : State) (ok : BitVec 64) : State :=
  let good := s.eng.failed.filter (fun (e, _) => ok.getLsbD e)
  let s := s.modEng (fun x => { x with failed := x.failed.filter (fun (e, _) => !ok.getLsbD e), moves := [], missed := [] })
  let s := if good.isEmpty then s else s.pageWrites good.length
  let s := (List.range 64).foldl (fun s e => s.setWord (0x14000 + 4 * e) (resetWord (0x14000 + 4 * e))) s
  let s := s.setF Reg.ENG_SUMMARY.ROLE_UNHELD 0
  let s := ((List.range 64).filter (fun e => s.engRole e == 5)).foldl (fun s e => s.setF (Reg.ENG_STAT.STATE e) 2) s
  let out := s.eng.failed.map (fun (e, c) => (e, c, s.engRole e, s.engDuty e))
  let s := out.foldl (fun s (e, c, _, d) => (s.setEng e 6 d 3).setF (Reg.ENG_STAT.CAUSE e) c) s
  let s := (out.filter (fun (_, _, r, _) => decide (r < 5))).foldl (fun s (_, _, r, d) => s.roleMoves r d true) s
  s.engSummary

/-! ### Patch activation (R430, R431) -/

/-- The maintenance state changed. -/
def State.modMaint (s : State) (f : MaintSt → MaintSt) : State := { s with maint := f s.maint }

/-- The spares run the image that roles move to: STAGED, or ACTIVE on the way back. -/
def State.sparesLoad (s : State) : State :=
  s.spares.foldl (fun s e => s.setFlag (Reg.ENG_STAT.STAGED e) (!s.maint.back)) s

/-- Serving engines that still run the other image, the supervisor pair last. -/
def State.toMove (s : State) : List Nat :=
  let l := (List.range 64).filter (fun e => s.engState e == 0 && decide (s.engRole e < 5) && s.flag (Reg.ENG_STAT.STAGED e) == s.maint.back)
  l.filter (fun e => s.engRole e != 4) ++ l.filter (fun e => s.engRole e == 4)

/-- One role moves to a spare, and the engine it leaves becomes a spare (R430). -/
def State.roundMove (s : State) (e h : Nat) : State :=
  let s := s.setEng h (s.engRole e) (s.engDuty e) 0
  let s := s.setEng e 5 (s.engDuty e) 2
  s.modMaint (fun m => { m with moved := if m.back then m.moved.erase e else m.moved ++ [h] })

/-- A round: as many roles as there are spares; the supervisor pair moves in one round (R430). -/
def State.patchRound (s : State) : State :=
  let sp := s.spares
  let l := s.toMove
  let ord := l.filter (fun e => s.engRole e != 4)
  let sup := l.filter (fun e => s.engRole e == 4)
  let first := ord.take sp.length
  let now := if ord.length ≤ sp.length ∧ sup.length ≤ sp.length - first.length then first ++ sup else first
  ((now.zip sp).foldl (fun s (e, h) => s.roundMove e h) s).sparesLoad

/-- The activation ends: the slots are exchanged, or after the way back nothing is changed and the answer is BUSY (R430,
R431). -/
def State.patchEnd (s : State) (commit : Bool) : State :=
  let src := s.maint.actSrc
  let s := (List.range 64).foldl (fun s e => s.setF (Reg.ENG_STAT.STAGED e) 0) s
  if s.maint.back then
    (s.modMaint (fun m => { m with activating := none, back := false, moved := [], actSrc := none })).respondTo src kBusy 0 []
  else
    let s := s.modMaint (fun m => { m with
      activating := none, moved := [], actSrc := none, active := m.staged, staged := m.active,
      svnMin := if commit then max m.svnMin m.staged.svn else m.svnMin })
    (s.pageWrites 1).respondTo src kOk 0 []

/-! ### On-die macros (R462, R465 to R467, R469, R470) -/

/-- A remap entry is used, counted and stored (R466). -/
def State.remapUsed (s : State) (m : Nat) : State :=
  ((s.setF (Reg.MEM_MACRO.REMAP_USED m) (s.getF (Reg.MEM_MACRO.REMAP_USED m) + 1)).count 14 5 1).pageWrites 1

/-- A failing word of a macro: remapped, or as the ninth it takes the macro out with the outcome of its memory (R462, R466).
In the key store the index of the word is marked faulty: 2,048 contexts of eight words a macro. -/
def State.macroWord (s : State) (m w : Nat) : State :=
  if s.getF (Reg.MEM_MACRO.REMAP_USED m) < 8 then s.remapUsed m
  else if m < 128 then
    let idx := if w < 8 ∧ m = 64 then 0 else 2048 * m + w / 8
    let s := s.raise (Reg.MEM_MACRO.OUT m)
    if idx = 0 then
      -- index 0 has a second copy; with both gone the key store is below its minimum (R462, R508)
      if s.flag (Reg.MEM_MACRO.OUT 0) && s.flag (Reg.MEM_MACRO.OUT 64) then s.belowMin else s
    else
      let s := s.modEng (fun x => { x with faulty := if x.faulty.contains idx then x.faulty else x.faulty ++ [idx] })
      s.event { mkEv .critical 10 0 .fault with detail := [idx, m] } none
  else
    let s := s.raise (Reg.MEM_MACRO.OUT m)
    let s := s.event { mkEv .warning 14 0 .fault with detail := [m, w] } none
    if m < 320 then s.tagMacroOut m
    else if m < 384 then { s with home := { s.home with dirCache := s.home.dirCache.filter (fun c => c % 64 != m - 320) } }
    else if m < 512 then s.engFails ((m - 384) / 2) 6 else s

/-- A row of an HBM stack is remapped; with no entry free a warning tells it (R467). -/
def State.hbmRow (s : State) (k : Nat) : State :=
  let u := s.getF (Reg.HBM_REMAP.USED k)
  if 64 ≤ u then s.event ({ mkEv .warning 14 k .limit with detail := [k] }.stat (Reg.HBM_REMAP.EXHAUSTED k)) none
  else
    let s := ((s.setF (Reg.HBM_REMAP.USED k) (u + 1)).count 14 5 1).pageWrites 1
    if u + 1 = 64 then s.raise (Reg.HBM_REMAP.EXHAUSTED k) else s

/-- The check bits of an on-die word at an address: the columns of its set bits summed (R464). -/
def eccOf (d : BitVec 64) (addr : Nat) : BitVec 8 :=
  let x := (List.range 64).foldl (fun a i => if d.getLsbD i then a ^^^ Config.eccColumn i else a) 0
  (List.range 14).foldl (fun a i => if addr.testBit i then a ^^^ Config.eccColumn (64 + i) else a) x

/-- What the decoder makes of a stored word (R464). -/
inductive EccResult where
  | good
  | fixed (d : BitVec 64)
  | bad
deriving DecidableEq, Repr

/-- The decoder of R464: syndrome 0, the column of one data bit, one check bit, or uncorrectable. -/
def eccRead (d : BitVec 64) (c : BitVec 8) (addr : Nat) : BitVec 8 × EccResult :=
  let syn := c ^^^ eccOf d addr
  if syn = 0 then (syn, .good)
  else match (List.range 64).find? (fun i => Config.eccColumn i == syn) with
    | some i => (syn, .fixed (d ^^^ (1#64 <<< i)))
    | none => if (List.range 8).any (fun i => syn == 1#8 <<< i) then (syn, .fixed d) else (syn, .bad)

/-- A row of an HBM stack reads uncorrectable: it is remapped; more than 64 within one slot fail the stack (R467, R514). -/
def State.sectorLost (s : State) (k : Nat) : State :=
  let s := (s.hbmRow k).missOf (18 + k)
  if mget 0 s.avail.misses (18 + k) = 65 ∧ !s.avail.stackDown.getLsbD k then s.stackFail k else s

/-- A line of a staged program is lost: it is programmed as poison, and the mirror's copy follows where there is one (R92, R465). -/
def State.progLost (s : State) (p : Prog) (l : Nat) : State :=
  let s := s.modProg p.id (fun p => { p with poison := p.poison ||| lbit l, data := putLine p.data l 0, spoiled := true })
  if s.mirrored (ltnSeg p.ltn) then s.sendMrd p.ltn false else s

/-- A line of a mash slot is lost: the slot, with the line as poison, goes into a way, for the mirror's copy or to be programmed (R92,
R465). -/
def State.mashLost (s : State) (m : Mash) (l : Nat) : State :=
  let m := { m with poison := m.poison ||| lbit l, data := putLine m.data l 0 }
  let s : State := { s with cache := { s.cache with mash := s.cache.mash.map (fun x => if x.ltn = m.ltn then m else x) } }
  let s := (s.spillMash m).getD s
  if s.mirrored (ltnSeg m.ltn) then s.sendMrd m.ltn false else s.cleanTile m.ltn

/-- A context of the key store reads uncorrectable: index 0 and a persistent root are loaded again from their other copy, a volatile
root becomes LOCKED; an event tells it (R465). -/
def State.contextLost (s : State) (idx : Nat) : State :=
  let k := s.key idx
  let s := if idx = 0 || k.persist || !k.valid then s else s.setKey idx { k with valid := false, locked := true, root := 0 }
  s.event { mkEv .warning 10 0 .fault with detail := [idx] } none

/-- The record of the tag or directory cache, or the staging slot, that a word belongs to: 16, 8 and 32 words each. Which record of a macro
stands in which of its places is not stated: the order of the model's list (DESIGN CHOICE, log 90). -/
def State.wordOwner (s : State) (m w : Nat) : Option Nat :=
  if m < 320 then (s.cache.tags.filter (fun k => k % 192 == m - 128))[w / 16]?
  else (s.home.dirCache.filter (fun c => c % 64 == m - 320))[w / 8]?

/-- The outcome of an uncorrectable word of a macro (R465): a record of the tag or directory cache is dropped and read again from HBM, a
scratchpad traps its engine, a dirty line of the mash buffer or of eviction staging is lost; miss data are read again and the ledger has its
second copy, with no effect on what the model holds. -/
def State.wordLost (s : State) (m w : Nat) : State :=
  let l := w % 32 / 8
  if m < 128 then s.contextLost (if w < 8 ∧ m = 64 then 0 else 2048 * m + w / 8)
  else if m < 384 then
    match s.wordOwner m w with
    | none => s
    | some k =>
      if m < 320 then
        ({ s with cache := { s.cache with tags := s.cache.tags.erase k } } : State).modTagSet k (fun c => { c with tree := 0 })
      else { s with home := { s.home with dirCache := s.home.dirCache.erase k } }
  else if m < 512 then s.engFails ((m - 384) / 2) 3
  else if m < 576 then
    match s.cache.mash[(m - 512) * 512 + w / 32]? with
    | some x => if (x.valid &&& lbit l) = 0 then s else (s.tileEvent { mkEv .critical 4 0 .fault with detail := [l] } x.ltn).mashLost x l
    | none => s
  else if m < 616 then
    match (s.progs.list.filter (fun p => p.why.user?))[(m - 576) * 512 + w / 32]? with
    | some p => if (p.dirty &&& lbit l) = 0 then s else (s.tileEvent { mkEv .critical 4 0 .fault with detail := [l] } p.ltn).progLost p l
    | none => s
  else s

/-- An ordinary read of a word written raw: corrected and written back, remapped when it needs that twice within a frame or is
uncorrectable, with the outcome of its memory (R464 to R466). -/
def State.wordRead (s : State) (m w : Nat) : State :=
  let k := 16384 * m + w
  match mget none s.eng.words k with
  | none => s
  | some (d, c) =>
    match (eccRead d c w).2 with
    | .good => s
    | .fixed d' =>
      let again := s.eng.fixed.contains k
      let s := s.modEng (fun x => { x with words := mset none x.words k (some (d', eccOf d' w)),
                                           fixed := if again then x.fixed.filter (· != k) else x.fixed ++ [k] })
      let s := (s.count 14 3 1).setF (Reg.MEM_MACRO.CORRECTED m) (min 511 (s.getF (Reg.MEM_MACRO.CORRECTED m) + 1))
      if again then s.macroWord m w else s
    | .bad =>
      let s := (s.modEng (fun x => { x with words := mset none x.words k none })).count 14 4 1
      (s.macroWord m w).wordLost m w

/-- Tile slots in use in a staging area (R463): mash, evictions, miss data, maintenance sources. -/
def State.stagingUsed (s : State) (m : Nat) : Nat :=
  if m < 576 then s.cache.mash.length
  else if m < 616 then (s.progs.list.filter (fun p => p.why.user?)).length
  else if m < 632 then s.reads.regs.length
  else if m < 638 then (s.progs.list.filter (fun p => !p.why.user?)).length
  else s.inflight

/-- The area of a staging macro, as its macros (R463). -/
def stagingArea (m : Nat) : List Nat :=
  if m < 576 then (List.range 64).map (512 + ·)
  else if m < 616 then (List.range 40).map (576 + ·)
  else if m < 632 then (List.range 16).map (616 + ·)
  else if m < 638 then (List.range 6).map (632 + ·)
  else [638, 639]

/-- May a macro be held in retention (R462, R469)? Slots in use lie in the awake macros of their area. -/
def State.mayRetain (s : State) (m : Nat) : Bool :=
  if m < 128 then !s.keys.ctx.any (fun (i, k) => (k.valid || k.locked) && (i / 2048 == m || (i == 0 && m == 64)))
  else if m < 384 then false
  else if m < 512 then s.engRole ((m - 384) / 2) == 5
  else if 638 ≤ m then s.inflight == 0
  else
    let area := (stagingArea m).filter (fun k => !s.flag (Reg.MEM_MACRO.OUT k))
    let awake := (area.filter (fun k => k != m && !s.flag (Reg.MEM_MACRO.RETAINED k))).length
    let used := s.stagingUsed m
    -- a quarter of the free slots stay in awake macros (R469)
    decide (used ≤ 512 * awake ∧ 512 * area.length - used ≤ 4 * (512 * awake - used))


/-! ### Movers (R460) -/

/-- A line of a tile in HBM or staging reads uncorrectable: dropped when clean; a dirty one comes from the mirror or is programmed
as poison; an event names the tile either way (R92, R465, R467). -/
def State.lineUncorrectable (s : State) (ltn l : Nat) : State :=
  let s := s.tileEvent { mkEv .critical 4 0 .fault with detail := [l] } ltn
  match (s.cset 0xFFF ltn).ways.findIdx? (fun w => w.holds 0xFFF ltn) with
  | some w =>
    let s := s.sectorLost (setOf 0xFFF ltn % 2)
    let y := s.way 0xFFF ltn w
    if (y.valid &&& lbit l) = 0 then s
    else if (y.dirty &&& lbit l) = 0 then
      s.modWay 0xFFF ltn w (fun y => if y.valid &&& ~~~(lbit l) = 0 then {} else { y with valid := y.valid &&& ~~~(lbit l), poison := y.poison &&& ~~~(lbit l) })
    else
      let s := s.modWay 0xFFF ltn w (fun y => { y with poison := y.poison ||| lbit l, data := putLine y.data l 0 })
      if s.mirrored (ltnSeg ltn) then s.sendMrd ltn false
      -- a program of the tile is out already: the poison takes one of its own
      else if y.evq then s.sendProg .poisonFix (if s.inDrydown then 1 else 4) ltn y.ld 0 (lbit l) (lbit l) (lbit l) false 0
      else s.cleanTile ltn
  | none =>
    match (s.mashOf ltn).filter (fun m => (m.valid &&& lbit l) != 0),
      s.progs.list.reverse.find? (fun p => p.ltn == ltn && p.why.user? && p.raw.isNone && ((p.valid ||| p.poison) &&& lbit l) != 0) with
    | some m, _ =>
      let (n, s) := (s.count 14 4 1).draw
      (s.remapUsed (512 + n % 64)).mashLost m l
    | none, some p =>
      let (n, s) := (s.count 14 4 1).draw
      (s.remapUsed (576 + n % 40)).progLost p l
    | none, none =>
      -- a sector of the visitor partition is clean: it is dropped (R92, R267)
      let drop := fun (y : Way) => if y.ltn = ltn && (y.valid &&& lbit l) != 0 then
          (if y.valid &&& ~~~(lbit l) = 0 then {} else { y with valid := y.valid &&& ~~~(lbit l), poison := y.poison &&& ~~~(lbit l) })
        else y
      let hit := s.cache.vsets.filter (fun (_, c) => c.ways.any (fun y => y.ltn == ltn && (y.valid &&& lbit l) != 0))
      let s := hit.foldl (fun (s : State) (x : Nat × CacheSet) => s.sectorLost (x.1 % 2)) s
      s.modCache (fun c => { c with vsets := (c.vsets.map (fun (k, v) => (k, { v with ways := v.ways.map drop }))).filter (fun (_, v) => v != CacheSet.empty) })

/-- The oldest queue command with data under way ends with DATA_ERROR (R411, R460). -/
def State.moverFails (s : State) : State :=
  let l := s.kelric.queues.flatMap (fun (q, k) => (k.flights.filter (fun f => !f.done && f.dlen != 0)).map (fun f => (q, f.cid)))
  match l with
  | (q, cid) :: _ => if h : q < 256 then s.fail (.queue ⟨q, h⟩ (BitVec.ofNat 16 cid)) kData else s
  | [] => s

end Sys2Proof.Machine
end

