-- ==== Sys2Proof/Machine/Engines.lean ====
section
/-!
DEFINITION. The events of engines, movers, on-die memories and patch activation (spec/19; spec/17, R430).
-/

namespace Sys2Proof.Machine

/-- HEARTBEAT_CHECK (R456): an engine silent at two checks has failed; a miss of the supervisor pair counts as a mismatch. -/
def execHeartbeatCheck (beat : BitVec 64) (s : State) : Res :=
  let quiet := (List.range 64).filter (fun e => s.engState e == 0 && decide (s.engRole e < 5) && !beat.getLsbD e)
  let pair := quiet.filter (fun e => s.engRole e == 4)
  let dead := quiet.filter (fun e => s.engRole e != 4 && s.eng.missed.contains e)
  let s := s.modEng (fun x => { x with missed := quiet.filter (fun e => s.engRole e != 4) })
  let s := dead.foldl (fun s e => s.engFails e 4) s
  .next ((pair.take 1).foldl (fun s e => s.engFails e 5) s)

/-- ENGINE_FAIL (R456, R457, R459): an engine is declared failed and fenced, and a spare leaves retention. -/
def execEngineFail (e : EngineNo) (cause : EngCause) (s : State) : Res := .next (s.engFails e.val (engCode cause))

/-- FAILOVER_TAKEOVER (R14, R457, R458): the spare takes the role and replays the entries of its ledger: each goes on at the first step
without a mark, which is where State holds it. -/
def execFailoverTakeover (e : EngineNo) (s : State) : Res :=
  match s.eng.moves.find? (fun m => m.1 == e.val) with
  | none => .next s
  | some (h, role, duty) =>
    let s := (s.modEng (fun x => { x with moves := x.moves.filter (fun m => m.1 != h) })).setEng h role duty 0
    let s := [384 + 2 * h, 385 + 2 * h].foldl (fun s m => s.macroWake m) s
    .next (s.count 14 1 (s.ledger role duty).length).engSummary

/-- MOVER_DESCRIPTOR_END (R460): a channel's descriptor has ended; one that met an uncorrectable word halts it, and the owner
deals with the source, clears HALT and reissues the rest. -/
def execMoverDescriptorEnd (k : Fin 128) (bad : Option MoverSource) (s : State) : Res :=
  let c := k.val
  let s := s.setF (Reg.MOVER_STAT.BUSY c) 0
  if s.flag (Reg.MOVER_STAT.RETIRED c) then .next s
  else match bad with
  | none => .next s
  | some src =>
    let n := s.getF (Reg.MOVER_STAT.HALTS c) + 1
    let s := (s.setF (Reg.MOVER_STAT.HALTS c) n).count 14 2 1
    let s := match src with
      | .tile ltn l => s.lineUncorrectable ltn.toNat l.val
      | .hostMemory => s.moverFails
      | .scratchpad =>
        let m := 384 + 2 * s.getF (Reg.MOVER_STAT.OWNER c)
        ((s.count 14 4 1).macroWord m 0).moverFails
    let s := s.setF (Reg.MOVER_STAT.HALT c) 0
    if 3 ≤ n then
      let s := s.raise (Reg.MOVER_STAT.RETIRED c)
      let left := ((List.range 128).filter (fun i => !s.flag (Reg.MOVER_STAT.RETIRED i))).length
      .next (if left < 32 then s.event { mkEv .warning 14 0 .limit with detail := [left] } none else s)
    else .next s

/-- The next macro and region of the background test, past the macros taken out; a pass ends after the last (R470). -/
def State.bgtStep (s : State) (m r : Nat) : State :=
  if r < 127 then s.setF Reg.BGT_STAT.REGION (r + 1)
  else
    let s := s.setF Reg.BGT_STAT.REGION 0
    match ((List.range 640).drop (m + 1)).find? (fun i => !s.flag (Reg.MEM_MACRO.OUT i)) with
    | some i => s.setF Reg.BGT_STAT.MACRO i
    | none => (s.setF Reg.BGT_STAT.MACRO (((List.range 640).find? (fun i => !s.flag (Reg.MEM_MACRO.OUT i))).getD 0)).setF
        Reg.BGT_STAT.PASSES (s.getF Reg.BGT_STAT.PASSES + 1)

/-- BGT_REGION_TEST (R464 to R466, R470): the region under the walk is saved, tested and restored; words that fail are
remapped. -/
def execBgtRegionTest (bad : List (BitVec 14)) (s : State) : Res :=
  if !s.flag Reg.BGT_CFG.BGT_EN then .next s
  else
    let m := s.getF Reg.BGT_STAT.MACRO
    let r := s.getF Reg.BGT_STAT.REGION
    let raw := s.eng.words.filter (fun (k, _) => k / 128 == 128 * m + r)
    let s := raw.foldl (fun s (k, _) => s.wordRead m (k % 16384)) s
    let s := (bad.filter (fun w => w.toNat / 128 == r)).foldl (fun s w => s.macroWord m w.toNat) s
    -- a retained macro is woken for its test and goes back into retention
    .next (((s.count 14 6 1).count 14 7 (s.getF (Reg.MEM_MACRO.RETAINED m))).bgtStep m r)

/-- RETENTION_IDLE_EXPIRY (R462, R469): an eligible idle macro goes into retention. -/
def execRetentionIdleExpiry (m : Fin 640) (s : State) : Res :=
  .next (s.when (s.flag Reg.RET_CFG.RET_EN && !s.flag (Reg.MEM_MACRO.OUT m.val) && s.mayRetain m.val)
    (fun s => s.raise (Reg.MEM_MACRO.RETAINED m.val)))

/-- MACRO_WAKE_END (R469): the macro is awake again. -/
def execMacroWakeEnd (m : Fin 640) (s : State) : Res := .next (s.macroWake m.val)

/-- PATCH_ROUND_END (R430, R431): a round of handovers has ended and the engines released are loaded; after the last the slots
are exchanged and the command completes. -/
def execPatchRoundEnd (s : State) : Res :=
  match s.maint.activating with
  | none => .next s
  | some commit =>
    let s := if s.toMove.isEmpty then s else s.sparesLoad.patchRound
    .next (if s.toMove.isEmpty then s.patchEnd commit else s)

end Sys2Proof.Machine
end

