-- ==== Sys2Proof/Machine/Weali.lean ====
section
/-!
DEFINITION. The events of the Weali store (spec/20).
-/

namespace Sys2Proof.Machine

/-- A page is retired and its contents go to a spare page; at 1,024 pages REMAP_FULL is set, and a further one is rewritten in
place (R477, R484). -/
def State.pageRetire (s : State) (page : Nat) : State :=
  let n := s.getF Reg.WEALI_STAT.RETIRED
  if 1024 ≤ n then (s.pageWrites 1).count 16 3 1
  else
    let s := { s with weali := { s.weali with retired := s.weali.retired ++ [page], differ := s.weali.differ.filter (· != page) } }
    let s := ((s.setF Reg.WEALI_STAT.RETIRED (n + 1)).count 16 4 1).pageWrites 2
    if n + 1 = 1024 then
      (s.raise Reg.WEALI_STAT.REMAP_FULL).event ({ mkEv .critical 16 0 .limit with detail := [page] }.stat Reg.WEALI_STAT.REMAP_FULL) none
    else s

/-- The board operation whose page has been written ends (R479, R480). -/
def State.pageStored (s : State) (p : Nat) : State :=
  match s.weali.boardOps.find? (fun x => 256 + x.1 / 64 == p) with
  | some x => s.boardDone x
  | none => s

/-- WEALI_PAGE_WRITE_END (R477, R486): the page was read back: `bad1` has it written once more, `bad2` has it retired and its
data written to the replacement. A board write that waited for it is in force. -/
def execWealiPageWriteEnd (page : BitVec 17) (bad1 : Bool) (bad2 : Bool) (s : State) : Res :=
  let p := page.toNat
  let s := s.pageStored p
  let s : State := if bad1 then
      let s := s.pageWrites 1
      { s with weali := { s.weali with writes := if 256 ≤ p ∧ p < 512 then mmod 0 s.weali.writes p (· + 1) else s.weali.writes } }
    else s
  .next (if bad1 && bad2 then (s.pageRetire p).raise Reg.WEALI_STAT.WRITE_ERR else s)

/-- RWP_STORE_END (R451): the record of a persistent register is stored and its value takes effect. -/
def execRwpStoreEnd (off : BitVec 20) (s : State) : Res :=
  .next (match s.regs.stores.find? (fun x => x.off == off.toNat && !x.ready) with
    | some x => s.storeDone x
    | none => s)

/-- The records that a page of the persistent-register rings holds: four of 16 bytes in each of the pages 4,096 to 8,191 (R479, R481). -/
def pageRecords (p : Nat) : List Nat := if 4096 ≤ p ∧ p < 8192 then (List.range 4).map (fun i => 4 * (p - 4096) + i) else []

/-- WEALI_SWEEP_TICK (R482, R484): the sweep has read a page at both references: a page that differs is rewritten, one that differs again
at its next sweep or reads uncorrectable is retired; the rings of an uncorrectable page fall back on their previous records. -/
def execWealiSweepTick (page : BitVec 17) (margin : Bool) (uncorr : Bool) (s : State) : Res :=
  let p := page.toNat
  let s := { s with weali := { s.weali with swept := p + 1 } }
  let s := s.setF Reg.WEALI_STAT.SWEEP_PCT (100 * (p + 1) / 131072)
  if uncorr then .next (((s.count 16 7 1).pageRetire p).ringLost (pageRecords p))
  else if margin then
    if s.weali.differ.contains p then .next (s.pageRetire p)
    else
      let s := { s with weali := { s.weali with differ := s.weali.differ ++ [p],
                                                writes := if 256 ≤ p ∧ p < 512 then mmod 0 s.weali.writes p (· + 1) else s.weali.writes } }
      .next ((s.pageWrites 1).count 16 3 1)
  else .next { s with weali := { s.weali with differ := s.weali.differ.filter (· != p) } }

/-! ### The board area through the registers (R476, R486) -/

/-- Bytes of WEALI_BOARD_DATA, byte 4i in bits [7:0] of word i. -/
def State.boardData (s : State) (n : Nat) : List Byte :=
  ((List.range 16).flatMap (fun i => leBytes (s.getF (Reg.WEALI_BOARD_DATA.BYTES i)) 4)).take n

/-- LEN as taken: 0 and values above 64 are taken as 64. -/
def State.boardLen (s : State) : Nat :=
  let n := s.getF Reg.WEALI_BOARD_CMD.LEN
  if n = 0 ∨ 64 < n then 64 else n

/-- GO with OP: a write is under way until its page is written; a page that has taken 100,000 writes refuses it; a read fills the
data words (R476, R486). -/
def State.boardGo (s : State) (op : Nat) : State :=
  let off := s.getF Reg.WEALI_BOARD_ADDR.OFFSET
  if s.flag Reg.WEALI_BOARD_CMD.BUSY then s
  else if op = 1 then
    if 100000 ≤ mget 0 s.weali.writes (256 + off / 64) then s.raise Reg.WEALI_BOARD_CMD.REFUSED
    else
      let x : Nat × List Byte × Option CmdSrc := (off, s.boardData s.boardLen, none)
      ({ s with weali := { s.weali with boardOps := s.weali.boardOps ++ [x] } }).raise Reg.WEALI_BOARD_CMD.BUSY
  else if op = 2 then
    let l := memRead s.weali.board off (min s.boardLen (16384 - off))
    (List.range 16).foldl (fun s i => if 4 * i < s.boardLen then s.setF (Reg.WEALI_BOARD_DATA.BYTES i) (leAt l (4 * i) 4) else s) s
  else s

end Sys2Proof.Machine
end

