-- ==== Sys2Proof/Machine/Queues.lean ====
section
/-!
DEFINITION. Queue pairs: creation and deletion, doorbells, fetching, completion and signalling (spec/16, R398 to R405, R409,
R413; spec/18, R436).
-/

namespace Sys2Proof.Machine

/-- May queue `q` be created (R398, R399, R413): sizes, vector, and a key index that is VALID and bound to its LD, or 0? -/
def State.queueOk (s : State) (q : Nat) : Bool :=
  let sq := s.getF (Reg.KQ_CTRL.SQ_LOG q)
  let cq := s.getF (Reg.KQ_CTRL.CQ_LOG q)
  let k := s.getF (Reg.KQ_KEY.KEYIDX q)
  decide (4 ≤ sq) && decide (sq ≤ 12) && decide (4 ≤ cq) && decide (cq ≤ 12) && decide (2 ≤ s.getF (Reg.KQ_CTRL.VECTOR q))
    && (k == 0 || ((mget {} s.keys.ctx k).valid && s.getF (Reg.LD_KEY.KEYIDX (s.queueLd q)) == k))

/-- ENABLE becomes 1 (R413): the queue is created, PAUSED while its function's Bus Master Enable is clear (R409), or stays
deleted with ERR_CAUSE 4. -/
def State.queueCreate (s : State) (q : Nat) : State :=
  if (s.queue q).state ≠ 0 then s
  else if s.queueOk q then
    let st := if mget false s.host.busMaster (s.queueLd q) then 1 else 2
    (s.modQueue q (fun _ => { state := st })).setF (Reg.KQ_CTRL.ENABLE q) 1
  else (s.modQueue q (fun _ => { err := 4 })).setF (Reg.KQ_CTRL.ENABLE q) 0

/-- ENABLE becomes 0 (R413, R409): with FORCE the queue goes at once and its commands post nothing; without, it waits for the
commands in flight. -/
def State.queueDelete (s : State) (q : Nat) (force : Bool) : State :=
  let s := s.setF (Reg.KQ_CTRL.ENABLE q) 0
  if (s.queue q).state = 0 then s
  else if force || (s.queue q).flights.isEmpty then s.modQueue q (fun _ => {})
  else s.modQueue q (fun k => { k with deleting := true })

/-- Does a doorbell page answer a function (R436)? -/
def State.doorbellOf (s : State) (ld q : Nat) : Bool := (s.queue q).state != 0 && s.queueLd q == ld

/-- A word of a doorbell page as a function reads it: the last SQ_TAIL and CQ_HEAD written (R400, R436). -/
def State.doorbellWord (s : State) (ld q off : Nat) : Nat :=
  if !s.doorbellOf ld q then 0 else if off = 0 then (s.queue q).tail else if off = 4 then (s.queue q).cqHead else 0

/-- Entries between the SQ's head and an index (R401). -/
def State.sqAhead (s : State) (q i : Nat) : Nat := (i + s.sqSize q - (s.queue q).head) % s.sqSize q

/-- SQ_TAIL (R400, R401, R436): new entries are available; an index outside the queue, or past the head, puts the queue into
ERROR. -/
def execSqTail (ld : LdNo) (q : QNo) (val : BitVec 32) (s : State) : Res :=
  let i := val.toNat
  let n := q.val
  if !s.doorbellOf ld.val n || (s.queue n).state == 3 then .next s
  else if 4096 ≤ i then .fault .rsvBitsChanged
  else if s.sqSize n ≤ i ∨ s.sqAhead n i < s.sqAhead n (s.queue n).tail then .next (s.queueError n 1)
  else .next (s.modQueue n (fun k => { k with tail := i }))

/-- CQ_HEAD (R400, R401, R405, R436): slots are freed and held completions posted. -/
def execCqHead (ld : LdNo) (q : QNo) (val : BitVec 32) (s : State) : Res :=
  let i := val.toNat
  let n := q.val
  if !s.doorbellOf ld.val n || (s.queue n).state == 3 then .next s
  else if 4096 ≤ i then .fault .rsvBitsChanged
  else if s.cqSize n ≤ i then .next (s.queueError n 1)
  else
    let s := s.modQueue n (fun k => { k with cqHead := i })
    .next (s.postHeld n (s.queue n).flights.length)

/-- May a queue be fetched from (R405, R409, R413): active, with entries, none of its completions held? -/
def State.fetchable (s : State) (q : Nat) : Bool :=
  let k := s.queue q
  k.state == 1 && !k.deleting && k.tail != k.head && !k.flights.any (·.held)

/-- The queue whose turn it is under weighted round robin, and the entries left in its turn (R405). -/
def State.fetchTurn (s : State) : Option (Nat × Nat) :=
  if 0 < s.kelric.left ∧ s.fetchable s.kelric.turn then some (s.kelric.turn, s.kelric.left)
  else
    ((List.range 256).map (fun i => (s.kelric.turn + 1 + i) % 256)).find? (fun q => s.fetchable q) |>.map
      (fun q => (q, max 1 (s.getF (Reg.KQ_CTRL.WEIGHT q))))

/-- The opcodes that are Kelric commands (R406, R418). -/
def kOpcodes : List Nat :=
  [0xC000, 0xC010, 0xC011, 0xC012, 0xC013, 0xC020, 0xC021, 0xC030, 0xC031, 0xC032, 0xC033, 0xC040, 0xC041, 0xC042, 0xC050,
   0xC051, 0xC052, 0xC060, 0xC061, 0xC062, 0xC070, 0xC071]
  ++ [0xC080, 0xC081, 0xC082, 0xC090, 0xC091, 0xC0A0, 0xC0A1, 0xC0B0, 0xC0B1, 0xC0C0, 0xC0C1, 0xC0C2, 0xC0D0, 0xC0E0, 0xC0E1,
   0xC0F0, 0xC0F1, 0xC0F2]

/-- The status that a submission entry ends with before its command is looked at: CID_IN_USE, a reserved field set or a
buffer out of bounds, or an opcode that is no Kelric command (R402, R405, R406). -/
def entryStatus (k : KQueue) (e : Nat) : Nat :=
  let dptr := bitsOf e 128 64
  let dlen := bitsOf e 192 32
  if k.flights.any (fun f => f.cid == bitsOf e 16 16) then kCidInUse
  else if bitsOf e 34 30 ≠ 0 ∨ bitsOf e 224 32 ≠ 0 ∨ 2 ^ 24 < dlen ∨ dptr % 4 ≠ 0 ∨ (dlen = 0 ∧ dptr ≠ 0) then kField
  else if !kOpcodes.contains (bitsOf e 0 16) then kOpcode
  else kOk

/-- QUEUE_ENTRY_FETCH (R402, R405, R409): the entry at the head joins the queue's flight; an entry that fails at once is
finished without running. A fetch that ends in an error or poison puts the queue into ERROR. While a lifecycle
transition waits nothing is fetched (R434). -/
def execQueueEntryFetch (q : QNo) (entry : Option (BitVec 512)) (s : State) : Res :=
  let n := q.val
  if 1024 ≤ s.inflight || s.keys.lcWait.isSome then .next s
  else match s.fetchTurn with
    | none => .next s
    | some (t, left) =>
      if t ≠ n then .next s
      else
        let s : State := { s with kelric := { s.kelric with turn := n, left := left - 1 } }
        match entry with
        | none => .next (s.queueError n 2)
        | some e =>
          let e := e.toNat
          let st := entryStatus (s.queue n) e
          let f : Flight := { opc := bitsOf e 0 16, cid := bitsOf e 16 16, ops := BitVec.ofNat 256 (e / 2 ^ 256),
                              dptr := bitsOf e 128 64, dlen := bitsOf e 192 32,
                              timed := if bitsOf e 32 1 = 1 then some (bitsOf e 64 64) else none,
                              fence := bitsOf e 33 1 == 1, ran := st != kOk, done := st != kOk, status := st }
          .next (s.modQueue n (fun k => { k with head := (k.head + 1) % s.sqSize n, flights := k.flights ++ [f] }))

/-- A finished command leaves a queue in ERROR unposted; a deletion that waited for the last is carried out (R409, R413). -/
def State.unposted (s : State) (q : Nat) (f : Flight) : State :=
  let s := s.modQueue q (fun k => { k with flights := ldrop (fun g => g == f) k.flights })
  if (s.queue q).deleting && (s.queue q).flights.isEmpty then s.modQueue q (fun _ => {}) else s

/-- While a transition waits and no queue command is in flight, writes are held and the cache is cleaned (R219, R434). -/
def State.lcAdvance (s : State) : State :=
  if s.keys.lcWait.isSome && s.inflight == 0 && !s.keys.holdWrites then
    let s : State := { s with keys := { s.keys with holdWrites := true } }
    (s.heldTiles.foldl (fun s t => s.cleanTile t) s).pump
  else s

/-- KELRIC_COMMAND_COMPLETE (R404, R405, R409): a finished command's data and entry are written and its vector signalled; it
is held while the CQ has no free slot or the queue is PAUSED. A CQ write that fails puts the queue into ERROR. A lifecycle
transition that waits for the last command goes on (R434). -/
def execKelricCommandComplete (q : QNo) (cid : BitVec 16) (writeOk : Bool) (s : State) : Res :=
  let n := q.val
  match (s.queue n).flights.find? (fun f => f.done && !f.held && f.cid == cid.toNat) with
  | none => .next s
  | some f =>
    if (s.queue n).state = 3 then .next (s.unposted n f).lcAdvance
    else if (s.queue n).state = 2 || !s.cqRoom n then
      .next (s.modQueue n (fun k => { k with flights := lupd (fun g => g == f) (fun g => { g with held := true }) k.flights }))
    else if writeOk then .next (s.post n f).lcAdvance
    else .next ((s.queueError n 3).unposted n f).lcAdvance

/-- VECTOR_SIGNAL_HOLDOFF_END (R404): a deferred signal is sent, with a hold-off of its own. -/
def execVectorSignalHoldoffEnd (ld : LdNo) (vec : Fin 64) (s : State) : Res :=
  let k := 64 * ld.val + vec.val
  let put := fun (s : State) (x : Bool × Bool) => { s with kelric := { s.kelric with vecs := mset (false, false) s.kelric.vecs k x } }
  match mget (false, false) s.kelric.vecs k with
  | (true, true) =>
    let s := put s (true, false)
    .next (if mget false s.host.msixMasked ld.val then s else s.emit (.msix ld.val vec.val))
  | _ => .next (put s (false, false))

/-- The queues of an LD function. -/
def State.queuesOf (s : State) (ld : Nat) : List Nat :=
  (s.kelric.queues.map (·.1)).filter (fun q => s.queueLd q == ld)

/-- BUS_MASTER_DISABLE (R409): the function's active queues are PAUSED. -/
def execBusMasterDisable (ld : LdNo) (s : State) : Res :=
  let s := s.modHost (fun x => { x with busMaster := mset false x.busMaster ld.val false })
  .next ((s.queuesOf ld.val).foldl (fun s q => s.modQueue q (fun k => { k with state := if k.state = 1 then 2 else k.state })) s)

/-- BUS_MASTER_ENABLE (R409): the function's PAUSED queues resume and held completions are posted as room allows. -/
def execBusMasterEnable (ld : LdNo) (s : State) : Res :=
  let s := s.modHost (fun x => { x with busMaster := mset false x.busMaster ld.val true })
  .next ((s.queuesOf ld.val).foldl (fun s q =>
    let s := s.modQueue q (fun k => { k with state := if k.state = 2 then 1 else k.state })
    s.postHeld q (s.queue q).flights.length) s)

end Sys2Proof.Machine
end

