-- ==== Sys2Proof/Machine/RegView.lean ====
section
/-!
DEFINITION. What a read of BAR2's control window returns: the word held, with the fields that count or describe what other
units hold computed at the read (the register tables of spec/02 to spec/22).
-/

namespace Sys2Proof.Machine

/-- Every committed block of an LD that is its static capacity, and the LDs of a head, as numbers. -/
def State.ldsOf (s : State) (h : Nat) : Nat := (s.headLds h).length

/-- PASS_PCT of the patrol pass under way (R197): tiles passed over the tiles of the sets present; a wrapped set counts
whole. -/
def State.passPct (s : State) : Nat :=
  let sets := (List.range 96).filter (fun d => s.setPresent d)
  let full := dataSlots * 4096
  let at_ := fun d =>
    if s.patrol.accelOn then min full (mget 0 s.patrol.accel d)
    else if s.patrol.wrapped.contains d then full else min full (mget 0 s.patrol.cursor d)
  100 * (sets.map at_).sum / (full * sets.length)

/-- Spare dies free (R197). -/
def State.sparesFree (s : State) : Nat := ((List.range 64).filter (fun i => s.spareFree (960 + i))).length

/-- Registers frozen, and registers close to it (R451, R452). -/
def State.rwpCounts (s : State) : Nat × Nat :=
  let w := s.regs.writes.map (·.2)
  ((w.filter (fun n => decide (6000000 ≤ n))).length, (w.filter (fun n => decide (5400000 ≤ n) && decide (n < 6000000))).length)

/-- The record of the sillage log with a SEQ, 0 when it is not held (R507). -/
def State.sillAt (s : State) (seq : Nat) : Nat := ((s.tally.sill.recs.find? (fun r => r.1 == seq)).map (·.2)).getD 0

/-- A signed trim as the four bits of TRIM; 0 while TRIM_EN is 0 (R117). -/
def State.trimBits (s : State) (die part : Nat) : Nat :=
  if s.flag Reg.RP_CONFIG.TRIM_EN then ofSigned (mget 0 s.reads.trim (16 * die + part)) 4 else 0

/-- The computed fields of the word at an offset: (lowest bit, width, value). -/
def State.viewFields (s : State) (off : Nat) : List (Nat × Nat × Nat) :=
  if off < 0x10000 then
    let sill := s.tally.sill
    let smp := s.tally.sample
    if off = 0x4 then [(4, 1, b2n (!s.regs.armed.isEmpty)), (5, 1, b2n (decide (16 ≤ s.regs.unlockBad)))]
    else if off = 0x24 then [(0, 16, s.stagedBlocks)]
    else if off = 0x30 then [(0, 12, s.rwpCounts.1), (12, 12, s.rwpCounts.2)]
    else if off = 0x44 then
      let o := s.word 0x40 / 4 * 4
      if isRwp o then [(0, 23, min 6000000 (s.rwpCount o)), (23, 1, b2n (s.frozen o)), (24, 1, 1)] else []
    else if off = 0x104 then [(0, 17, s.weali.actions / 8192)]
    else if 0x1200 ≤ off ∧ off < 0x1680 then
      let v := s.counter ((off - 0x1200) / 64) ((off - 0x1200) % 64 / 8)
      [(0, 32, if off % 8 = 0 then v else v / 2 ^ 32)]
    else if 0x2000 ≤ off ∧ off < 0x2400 then
      let v := mget 0 s.tally.life ((off - 0x2000) / 8)
      [(0, 32, if off % 8 = 0 then v else v / 2 ^ 32)]
    else if 0x4000 ≤ off ∧ off < 0x6000 then [(0, 32, mget 0 s.tally.hist ((off - 0x4000) / 4))]
    else if off = 0x3004 then [(0, 15, sill.recs.length), (15, 1, b2n sill.full), (16, 1, b2n sill.stopped)]
    else if off = 0x3008 then [(0, 32, sill.gen)]
    else if off = 0x300C then [(0, 32, (sill.recs.head?.map (·.1)).getD 0)]
    else if off = 0x3010 then [(0, 32, (sill.recs.getLast?.map (·.1)).getD 0)]
    else if off = 0x3014 then [(0, 32, sill.repeats)]
    else if off = 0x3018 then [(0, 32, sill.dropped)]
    else if 0x3100 ≤ off ∧ off < 0x3200 then [(0, 32, s.sillAt (s.word 0x3020) >>> (8 * (off - 0x3100)))]
    else if off = 0x3804 then [(0, 14, (smp.ready.map List.length).sum), (14, 1, b2n (decide (2 ≤ smp.ready.length)))]
    else if off = 0x3808 then [(0, 32, smp.lost)]
    else if off = 0x380C then [(0, 32, smp.last)]
    else []
  else if off < 0x20000 then
    if 0x10000 ≤ off ∧ off < 0x12000 ∧ off % 32 = 24 then
      let k := s.queue ((off - 0x10000) / 32)
      [(0, 2, k.state), (2, 3, k.err), (5, 11, k.flights.length), (16, 1, b2n k.deleting),
       (17, 1, b2n (k.flights.any (·.held) && k.state != 2))]
    else if off = 0x12000 then
      [(0, 11, s.inflight), (11, 1, b2n (decide (1024 ≤ s.inflight))),
       (12, 9, (s.kelric.queues.filter (fun (_, k) => k.state != 0)).length)]
    else if 0x14400 ≤ off ∧ off < 0x14E00 then [(6, 1, b2n (s.getF Reg.BGT_STAT.MACRO == (off - 0x14400) / 4))]
    else []
  else if off < 0x60000 then
    if 0x30100 ≤ off ∧ off < 0x31900 then (if s.setPresent ((off - 0x30100) / 64) then [] else [(0, 12, 0)])
    else if off = 0x40004 then [(4, 1, b2n s.waysChanging)]
    else if off = 0x40008 then [(0, 27, s.budget)]
    else if off = 0x4000C then
      [(0, 27, s.charge), (27, 1, b2n (!s.creditRoom && s.host.heads.any (fun (_, h) => h.withheld))),
       (28, 1, b2n s.writeThrough)]
    else if off = 0x40014 then
      [(0, 14, s.regsFree), (14, 10, (s.cache.missWait.filter (·.overflow)).length),
       (24, 1, b2n (decide (512 ≤ (s.cache.missWait.filter (·.overflow)).length)
         || (List.range 8).any (fun h => decide (64 ≤ (s.cache.missWait.filter (fun w => w.head == h && !w.overflow)).length))))]
    else if off = 0x40030 then
      [(10, 1, b2n (!s.cache.jobs.isEmpty)), (11, 1, b2n (decide (8 ≤ s.cache.jobs.length))), (12, 4, s.cache.jobs.length)]
    else if 0x40100 ≤ off ∧ off < 0x40200 then [(6, 1, b2n (s.disabling ((off - 0x40100) / 4)))]
    else if off = 0x50004 then
      [(0, 6, s.deepActive false),
       (6, 14, (s.reads.regs.filter (fun r => r.phase == .deepWait)).length)]
    else if 0x58000 ≤ off ∧ off < 0x5C000 then
      let die := (off - 0x58000) / 16
      let p := (off - 0x58000) % 16
      (List.range 4).map (fun k => (8 * k, 4, s.trimBits die (p + k)))
    else []
  else if off < 0x80000 then
    if off = 0x60004 then
      [(0, 1, b2n s.writeThrough), (2, 12, min 4095 s.wtPending),
       (16, 1, b2n (s.home.act.any (fun a => a.req.op.write? && a.wantMirror && a.phase == .placed && !a.wantProg)))]
    else if 0x61000 ≤ off ∧ off < 0x61180 then
      (List.range 16).map (fun p => (2 * p, 2, s.laneBusy ((off - 0x61000) / 4) p))
    else if off = 0x70010 then
      let n := s.freeSlots
      [(0, 26, n), (26, 1, b2n (decide (n < 1048576))), (27, 1, b2n (decide (n < 65536))), (28, 1, b2n (n == 0)),
       (29, 1, b2n (s.map.copies.any (fun c => c.why == .racking))), (30, 1, b2n s.map.ckptBusy)]
    else if off = 0x70014 then [(0, 26, (s.map.retired.filter (fun p => decide (psnSlot p < dataSlots))).length)]
    else if off = 0x70020 then [(0, 23, s.pinned), (23, 1, b2n (decide (pinLimit ≤ s.pinned)))]
    else if off = 0x70024 then [(0, 21, s.map.poison.length)]
    else if off = 0x70028 then [(0, 23, s.map.residue.length)]
    else if off = 0x7002C then [(0, 26, s.map.worn.length)]
    else if off = 0x7006C then [(4, 1, b2n (s.map.discards.any (·.fromReg)))]
    else if off = 0x70070 then
      match s.map.discards.find? (·.fromReg) with
      | some d => [(0, 26, d.done)]
      | none => []
    else []
  else if off < 0xB0000 then
    if off = 0x80004 then [(0, 7, s.passPct), (9, 17, s.patrol.queue.length)]
    else if off = 0x80014 then
      let active := ((s.patrol.rebuilds.filter (·.active)).map (·.ds)).eraseDups
      [(0, 7, s.sparesFree), (7, 6, active.length),
       (13, 7, (((s.patrol.rebuilds.filter (fun b => !b.active)).map (·.ds)).eraseDups.filter (fun d => !active.contains d)).length),
       (20, 1, b2n ((List.range 96).any (fun d => s.setPresent d && decide (2 ≤ s.lost d)))),
       (21, 1, b2n (!s.patrol.noSpare.isEmpty))]
    else if 0x80400 ≤ off ∧ off < 0x80580 then s.rebuildView ((off - 0x80400) / 4)
    else if 0x81000 ≤ off ∧ off < 0x82000 then [(0, 8, s.failCount ((off - 0x81000) / 4))]
    else if off = 0x90004 then [(9, 7, s.map.rekeyRun.length)]
    else if off = 0x90008 then [(0, 26, s.map.rekeys.length)]
    else if 0x90014 ≤ off ∧ off < 0x90020 then
      let i := s.word 0x90010 % 2 ^ 18
      let k := s.key i
      if off = 0x90014 then [(0, 1, b2n k.valid), (1, 1, b2n k.persist), (2, 1, b2n k.locked), (3, 1, b2n k.rotating), (4, 18, k.succ)]
      else if off = 0x90018 then [(0, 32, k.kcv.toNat)]
      else [(0, 26, (s.namesKey i).length)]
    else if 0xA0010 ≤ off ∧ off < 0xA0030 then [(13, 5, s.ldsOf ((off - 0xA0010) / 4))]
    else if 0xA0100 ≤ off ∧ off < 0xA0200 then [(8, 18, s.staticBlocks ((off - 0xA0100) / 4))]
    else if off = 0xA0204 then
      let b := s.block (s.word 0xA0200 % 2 ^ 17)
      if b.kind = 0 then [] else [(0, 6, b.ld), (6, 17, b.num), (23, 2, b.kind), (25, 1, b2n b.releasing)]
    else []
  else
    if off = 0xB0004 then [(0, 28, (s.home.dir.map (fun (_, l) => (l.filter (fun e => e.state != 0)).length)).sum)]
    else if off = 0xB0008 then [(0, 15, s.home.act.length), (15, 17, s.home.wait.length)]
    else if off = 0xC0044 then
      let r := mget {} s.fabric.routes (s.word 0xC0040 % 4096)
      [(0, 3, r.primary), (3, 3, r.alt1), (6, 3, r.alt2), (9, 5, r.hops), (14, 1, b2n r.valid), (15, 1, b2n r.pinned)]
    else if off = 0xD0000 then [(0, 32, s.ft)]
    else if off = 0xD0004 then [(0, 32, s.ft / 2 ^ 32)]
    else if off = 0xD0008 then [(0, 16, s.frac)]
    else if off = 0xD0200 then [(0, 9, s.time.actions.length), (9, 1, b2n s.actionsFull)]
    else if off = 0xD0380 then [(0, 23, s.cask.log.length - s.cask.spilled)]
    else if off = 0xD0384 then [(0, 29, s.cask.spilled)]
    else []

/-- The word of the control window at an offset as it reads (R438: 0 where no chapter defines it). -/
def State.regView (s : State) (off : Nat) : Nat :=
  match regDef off with
  | none => 0
  | some r =>
    let held := (s.viewFields off).foldl (fun x (b, w, v) => putBits x b w v) (s.word off)
    let wo := r.mask (· == .wo)
    held - (held &&& wo) + (mget 0 s.rsv off &&& r.mask (· == .rsv))

/-- `n` words from an offset as bytes. -/
def State.image (s : State) (off n : Nat) : List Byte := (List.range n).flatMap (fun i => leBytes (s.regView (off + 4 * i)) 4)

end Sys2Proof.Machine
end

