-- ==== Sys2Proof/Machine/KelricCache.lean ====
section
/-!
DEFINITION. The Kelric commands of identity, cache and discard (spec/17, R419, R420).
-/

namespace Sys2Proof.Machine

/-! ### Addresses of an LD (R231, R418, R420) -/

/-- The home tile at a DPA of an LD, in a block of this device that the LD owns (R231); imported blocks have none (R420). -/
def State.dpaTile (s : State) (ld dpa : Nat) : Option Nat :=
  match s.dpaKey ld dpa with
  | some k => if k < 2 ^ 39 ∧ s.tileLd (keyTile k) = some ld then some (keyTile k) else none
  | none => none

/-- `n` tiles from the tile at DPA / 256 `t`, as runs of home tiles, one for each block (R420); none when one lies outside the
LD. -/
def State.dpaRuns (s : State) (ld t n : Nat) : Nat → Option (List (Nat × Nat))
  | 0 => if n = 0 then some [] else none
  | fuel + 1 =>
    if n = 0 then some []
    else match s.dpaTile ld (256 * t) with
      | none => none
      | some l =>
        let k := min n (2 ^ 20 - t % 2 ^ 20)
        (s.dpaRuns ld (t + k) (n - k) fuel).map (fun r => (l, k) :: r)

/-- The LD a command acts on; a head's FM-owned LD names none (R407, R418). -/
def State.needLd (s : State) (c : KCmd) (f : Nat → Nat) : Nat :=
  match s.cmdLd c.src with
  | some ld => f ld
  | none => kRange

/-- The LD of a command that has one. -/
def State.theLd (s : State) (c : KCmd) : Nat := (s.cmdLd c.src).getD 0

/-- The level x of K3.2.x in force: the ROM's, or that of the active patch (R419, R428). -/
def State.patchLevel (s : State) : Nat := if s.maint.active.checked then s.maint.active.level else Config.romLevel

/-! ### IDENTIFY_K -/

/-- RESULT of IDENTIFY_K (R419). -/
def State.identifyResult (s : State) : Nat :=
  0xB0 + b2n (Config.grade != 0) * 2 ^ 8 + 3 * 2 ^ 16 + 2 * 2 ^ 24 + s.patchLevel % 65536 * 2 ^ 32 + s.keys.lifecycle % 4 * 2 ^ 48
    + s.getF Reg.MEDIA_GEOM.PKG_PER_CH * 2 ^ 50 + b2n s.host.memActive * 2 ^ 52

/-- IDENTIFY_K answers. -/
def State.identifyAct (c : KCmd) (re : CmdSrc) (s : State) : State :=
  let head := match c.src with
    | .path (.mgmtFm h) => h.val
    | _ => (s.ldAsg (s.theLd c)).head
  let cap := match s.cmdLd c.src with | some ld => s.staticBlocks ld | none => 0
  s.doneData c re s.identifyResult (leBytes Config.uid.toNat 8 ++ leBytes s.nodeId 2 ++ leBytes (s.ldsOf head) 2 ++ leBytes cap 4
    ++ leBytes (s.regView 0x30000) 4 ++ leBytes 0 12)

/-- IDENTIFY_K (R419). -/
def execIdentifyK (c : KCmd) (s : State) : Res := .next (s.kRun 0xC000 c (fun _ _ => kOk) State.identifyAct)

/-! ### CACHE_ENABLE and CACHE_DISABLE -/

/-- WAYS_NOW as a result. -/
def State.waysResult (s : State) : Nat := s.getF Reg.LC_WAYS.WAYS_NOW

/-- CACHE_ENABLE's own checks (R88 to R91, R419, R451). -/
def State.cacheEnableCheck (c : KCmd) (s : State) : Nat :=
  let v := c.op 1 1
  match c.op 0 1 with
  | 0 => if 2 < v then kField
    else s.needLd c (fun ld =>
      if s.getF (Reg.LC_LD_CTRL.ALLOC_EN ld) = 0 ∧ !s.flag (Reg.LC_LD_CTRL.INV_DONE ld) then kInvalidate
      else if s.frozen (0x40100 + 4 * ld) then kLock else kOk)
  | 1 =>
    if 1 < v ∨ waysOf v ≤ s.waysNow then kField
    else if s.waysChanging ∨ (v = 0 ∧ s.avail.stackDown ≠ 0) then kBusy
    else if s.frozen 0x40004 then kLock else kOk
  | 2 => if v ≠ 0 then kField else kOk
  | _ => kField

/-- CACHE_ENABLE's effect (R88 to R91, R419). -/
def State.cacheEnableAct (c : KCmd) (re : CmdSrc) (s : State) : State :=
  match c.op 0 1 with
  | 0 =>
    let ld := s.theLd c
    s.cmdSet [(Reg.LC_LD_CTRL.ALLOC_EN ld, 1), (Reg.LC_LD_CTRL.PREFETCH ld, c.op 1 1)] re s.waysResult
  | 1 => (s.rwpWrite 0x40004 3 (c.op 1 1) none).wayStart (c.op 1 1) (some re)
  | _ => (s.raise Reg.LC_CONFIG.VISITOR_EN).done re s.waysResult []

/-- CACHE_ENABLE (R419). -/
def execCacheEnable (c : KCmd) (s : State) : Res := .next (s.kRun 0xC010 c State.cacheEnableCheck State.cacheEnableAct)

/-- CACHE_DISABLE's own checks (R89, R91, R95, R419). -/
def State.cacheDisableCheck (c : KCmd) (s : State) : Nat :=
  let v := c.op 1 1
  match c.op 0 1 with
  | 0 => if v ≠ 0 then kField
    else s.needLd c (fun ld => if s.disabling ld then kBusy
      else if s.flag (Reg.LC_LD_CTRL.ALLOC_EN ld) && s.frozen (0x40100 + 4 * ld) then kLock else kOk)
  | 1 =>
    if v = 0 ∨ 2 < v ∨ s.waysNow ≤ waysOf v then kField
    else if s.waysChanging then kBusy else if s.frozen 0x40004 then kLock else kOk
  | 2 => if v ≠ 0 then kField else kOk
  | _ => kField

/-- CACHE_DISABLE's effect (R89, R91, R95, R267). -/
def State.cacheDisableAct (c : KCmd) (re : CmdSrc) (s : State) : State :=
  match c.op 0 1 with
  | 0 =>
    let ld := s.theLd c
    if !s.flag (Reg.LC_LD_CTRL.ALLOC_EN ld) then s.done re s.waysResult []
    else (s.rwpWrite (0x40100 + 4 * ld) 1 0 none).disableStart ld (some re)
  | 1 => (s.rwpWrite 0x40004 3 (c.op 1 1) none).wayStart (c.op 1 1) (some re)
  | _ => s.visitorOut (some re)

/-- CACHE_DISABLE (R89, R419). -/
def execCacheDisable (c : KCmd) (s : State) : Res := .next (s.kRun 0xC011 c State.cacheDisableCheck State.cacheDisableAct)

/-! ### CACHE_RANGE and CACHE_STATUS -/

/-- The tile runs of a range: DPA and LEN in bytes. -/
def State.rangeRuns (s : State) (ld dpa len : Nat) : Option (List (Nat × Nat)) := s.dpaRuns ld (dpa / 256) (len / 256) 131073

/-- CACHE_RANGE's own checks (R86, R419). -/
def State.cacheRangeCheck (c : KCmd) (s : State) : Nat :=
  let dpa := c.op 8 8
  let len := c.op 16 8
  if c.op 0 1 = 0 ∨ 3 < c.op 0 1 ∨ 1 < c.op 1 1 ∨ dpa % 256 ≠ 0 ∨ len % 256 ≠ 0 ∨ (c.op 1 1 = 0 ∧ len = 0) then kField
  else s.needLd c (fun ld =>
    if c.op 1 1 = 0 ∧ (2 ^ 46 < len ∨ (s.rangeRuns ld dpa len).isNone) then kRange
    else if 8 ≤ s.cache.jobs.length then kBusy else kOk)

/-- The operation an OP names (R94, R419). -/
def rangeOp (op : Nat) : RangeOp := if op = 1 then .clean else if op = 2 then .invalidate else .flush

/-- CACHE_RANGE's effect: one job, its runs in DPA order (R86, R419). -/
def State.cacheRangeAct (c : KCmd) (re : CmdSrc) (s : State) : State :=
  let ld := s.theLd c
  let whole := c.op 1 1 == 1
  let runs := if whole then [] else (s.rangeRuns ld (c.op 8 8) (c.op 16 8)).getD []
  s.rangeNow { op := rangeOp (c.op 0 1), scopeLd := whole, ld := ld, tiles := runs, src := some re }

/-- CACHE_RANGE (R86, R419). -/
def execCacheRange (c : KCmd) (s : State) : Res := .next (s.kRun 0xC012 c State.cacheRangeCheck State.cacheRangeAct)

/-- CACHE_STATUS answers: the LD words of other LDs read 0 on an LD path (R419). -/
def State.cacheStatusAct (c : KCmd) (re : CmdSrc) (s : State) : State :=
  let charge := s.regView 0x4000C
  let res := s.budget % 2 ^ 27 + s.charge % 2 ^ 27 * 2 ^ 27 + s.waysResult * 2 ^ 54 + bitsOf charge 28 1 * 2 ^ 56
    + bitsOf charge 27 1 * 2 ^ 57 + b2n (!s.cache.jobs.isEmpty) * 2 ^ 58
  let mine := fun n => if fromMgmt c.src || s.cmdLd c.src == some n then s.regView (0x40100 + 4 * n) else 0
  s.doneData c re res (([0x40008, 0x4000C, 0x40014, 0x40004, 0x40030] : List Nat).flatMap (fun o => leBytes (s.regView o) 4)
    ++ (List.range 64).flatMap (fun n => leBytes (mine n) 4)
    ++ ([2, 3, 4, 5] : List Nat).flatMap (fun k => leBytes (s.counter 4 k) 8) ++ leBytes 0 12)

/-- CACHE_STATUS (R419). -/
def execCacheStatus (c : KCmd) (s : State) : Res := .next (s.kRun 0xC013 c (fun _ _ => kOk) State.cacheStatusAct)

/-! ### DISCARD and DISCARD_STATUS -/

/-- The runs of a discard, in segments or in tiles (R420). -/
def State.discRuns (s : State) (ld : Nat) (tiles : Bool) (dpa count : Nat) : Option (List (Nat × Nat)) :=
  if tiles then s.dpaRuns ld (dpa / 256) count 131073
  else (s.dpaRuns ld (dpa / 256) (4096 * count) 131073).map (fun l => l.map (fun (f, n) => (f / 4096, n / 4096)))

/-- The segments that runs of tiles touch. -/
def segsOfTiles (runs : List (Nat × Nat)) : List (Nat × Nat) :=
  runs.map (fun (f, n) => (f / 4096, (f + n - 1) / 4096 + 1 - f / 4096))

/-- DISCARD's own checks: the whole range before anything changes (R170, R173, R419, R420). -/
def State.discardCheck (c : KCmd) (s : State) : Nat :=
  let dpa := c.op 8 8
  let n := c.op 16 4
  let tiles := c.op 1 1 == 1
  if 2 < c.op 0 1 ∨ 1 < c.op 1 1 ∨ dpa % (if tiles then 256 else 2 ^ 20) ≠ 0 ∨ n = 0 ∨ 2 ^ 26 ≤ n then kField
  else s.needLd c (fun ld =>
    match s.discRuns ld tiles dpa n with
    | none => kRange
    | some runs => s.discCheck (lsnsOf (if tiles then segsOfTiles runs else runs)))

/-- DISCARD's effect: it completes with the last unit (R169 to R173, R420). -/
def State.discardAct (c : KCmd) (re : CmdSrc) (s : State) : State :=
  let tiles := c.op 1 1 == 1
  let runs := (s.discRuns (s.theLd c) tiles (c.op 8 8) (c.op 16 4)).getD []
  s.discardNow (if tiles then .tiles else .segments) (s.discSecure (c.op 0 1)) runs (some re) false 0 (c.op 8 8)

/-- DISCARD (R420). -/
def execDiscard (c : KCmd) (s : State) : Res := .next (s.kRun 0xC020 c State.discardCheck State.discardAct)

/-- The CID and queue of a job's command: 0xFFFF for the mailbox and for register writes (R419). -/
def srcIds (src : Option CmdSrc) : Nat × Nat :=
  match src with
  | some (.queue q cid) => (cid.toNat, q.val)
  | _ => (0, 0xFFFF)

/-- A record of DISCARD_STATUS (R419); VARIANT is the one carried out, 1 plain or 2 secure. -/
def State.discRecord (s : State) (d : Discard) : List Byte :=
  let (cid, q) := srcIds d.src
  let left := (s.map.marks.filter (fun m => m.scrub && d.scrubbing.any (fun x => x.2 == m.psn))).length
  leBytes d.dpa 8 ++ leBytes d.count 4 ++ leBytes d.done 4 ++ leBytes (if d.secure then 2 else 1) 1
    ++ leBytes (if d.scope = .tiles then 1 else 0) 1 ++ leBytes 0 2 ++ leBytes left 4 ++ leBytes cid 2 ++ leBytes q 2 ++ leBytes 0 4

/-- DISCARD_STATUS answers. -/
def State.discardStatusAct (c : KCmd) (re : CmdSrc) (s : State) : State :=
  s.doneData c re (min 127 s.map.discards.length + s.map.residue.length % 2 ^ 23 * 2 ^ 7)
    ((s.map.discards.take 64).flatMap s.discRecord)

/-- DISCARD_STATUS (R419). -/
def execDiscardStatus (c : KCmd) (s : State) : Res := .next (s.kRun 0xC021 c (fun _ _ => kOk) State.discardStatusAct)

end Sys2Proof.Machine
end

