-- ==== Sys2Proof/Machine/KelricKeys.lean ====
section
/-!
DEFINITION. The Kelric commands of keys (spec/08, R208 to R217; spec/17, R419, R421). The same checks and effects serve
KEY_CMD and LD_KEY (R224).
-/

namespace Sys2Proof.Machine

/-- A 40-byte wrapped root as a number, byte 0 highest (R208, R224). -/
def wrappedOf (l : List Byte) : BitVec 320 := BitVec.ofNat 320 (l.foldl (fun a b => 256 * a + b.toNat) 0)

/-- The named session, open on the DOE of the LD or on the management bus (R208). -/
def State.session (s : State) (ld : Option Nat) (id : Nat) : Option Session :=
  s.keys.sessions.find? (fun x => x.id.toNat == id && (match x.at_ with | .doe l => ld == some l.val | .smbus _ => true))

/-- The root that a wrapped root holds under a session's transport KEK; none when the check fails (R205, R208). -/
def State.unwrapRoot (x : Session) (w : BitVec 320) : Option (BitVec 256) :=
  keyUnwrap (kdf x.secret labelTK x.id.toNat 0) w

/-- Is an index reserved, or its KEY_LOAD under way (R208, R325)? -/
def State.keyTaken (s : State) (idx : Nat) : Bool :=
  s.keys.resv.any (fun r => r.1 == idx) || s.keys.ops.any (fun o => !o.retire && o.idx == idx)

/-- What the index's state and ROTATE_FROM say to a root (R208, R217). -/
def State.keyIndexStatus (s : State) (idx : Nat) (root : BitVec 256) (from_ : Option Nat) : Nat :=
  let k := s.key idx
  if k.valid then kKeyInUse
  else if k.locked && from_.isSome then kKeyInUse
  else if k.locked && k.kcv != kcvOf root idx then kKeyMismatch
  else match from_ with
    | some f => if (s.key f).valid ∧ !(s.key f).rotating ∧ f ≠ idx then kOk else kInvalidIndex
    | none => kOk

/-- The outcome of KEY_LOAD's checks, in the order of R208, with the root when they pass. -/
def State.keyLoadStatus (s : State) (ld : Option Nat) (idx sess : Nat) (w : BitVec 320) (from_ : Option Nat) :
    Nat × Option (BitVec 256) :=
  if s.keys.lifecycle = 0 then (kLifecycle, none)
  else if idx = 0 ∨ s.eng.faulty.contains idx then (kInvalidIndex, none)
  else match s.session ld sess with
    | none => (kNoSession, none)
    | some x => match State.unwrapRoot x w with
      | none => (kUnwrapFailed, none)
      | some root =>
        let st := if s.keyTaken idx then kKeyInUse else s.keyIndexStatus idx root from_
        (st, if st = kOk then some root else none)

/-- KEY_LOAD's effect: its key-table record is programmed into both copies, then it takes effect (R208). -/
def State.keyLoadGo (s : State) (idx : Nat) (root : BitVec 256) (persist : Bool) (from_ : Option Nat) (src : Option CmdSrc) : State :=
  let s : State := { s with keys := { s.keys with ops := s.keys.ops ++ [{ idx := idx, src := src, root := root, persist := persist, from_ := from_ }] } }
  let keep := if (s.key idx).locked then (s.key idx).persist else persist
  let t := keyRecordTile idx root (kcvOf root idx) keep ((mget {} s.keys.table idx).seq + 1)
  ((s.reserveProg .keyTable 3 t idx).2.reserveProg .keyTable 3 t idx).2.feedProgs

/-- ROTATE_FROM of a command, if ROTATE is set. -/
def keyFrom (c : KCmd) : Option Nat := if bitAt (c.op 3 1) 1 then some (c.op 8 3) else none

/-- Would a rotation rebind an LD while KEY_LOCK is set (R13, R217, R447)? -/
def State.rotateLocked (s : State) (from_ : Option Nat) : Bool :=
  match from_ with
  | some f => s.flag Reg.REG_LOCK.KEY_LOCK && (List.range 64).any (fun n => s.ldKey n == f)
  | none => false

/-- KEY_LOAD's own checks (R13, R208, R325, R419). -/
def State.keyLoadCheck (c : KCmd) (s : State) : Nat :=
  if 2 ^ 18 ≤ c.op 0 3 ∨ 2 ^ 18 ≤ c.op 8 3 then kRange
  else if c.data.length != 40 || (match c.src with | .queue _ _ => c.dlen.toNat != 40 | _ => false) then kData
  else
    let st := (s.keyLoadStatus (s.cmdLd c.src) (c.op 0 3) (c.op 4 4) (wrappedOf c.data) (keyFrom c)).1
    if st = kOk && s.rotateLocked (keyFrom c) then kLock else st

/-- KEY_LOAD carried out. -/
def State.keyLoadAct (c : KCmd) (re : CmdSrc) (s : State) : State :=
  match (s.keyLoadStatus (s.cmdLd c.src) (c.op 0 3) (c.op 4 4) (wrappedOf c.data) (keyFrom c)).2 with
  | some root => s.keyLoadGo (c.op 0 3) root (bitAt (c.op 3 1) 0) (keyFrom c) (some re)
  | none => s

/-- A timed KEY_LOAD unwraps its root at submission and reserves its index (R325). -/
def State.keyLoadHold (c : KCmd) (s : State) : State :=
  match (s.keyLoadStatus (s.cmdLd c.src) (c.op 0 3) (c.op 4 4) (wrappedOf c.data) (keyFrom c)).2 with
  | some root => { s with keys := { s.keys with resv := s.keys.resv ++ [(c.op 0 3, root)] } }
  | none => s

/-- A reservation is given up or taken up. -/
def State.unreserve (s : State) (idx : Nat) : State :=
  { s with keys := { s.keys with resv := s.keys.resv.filter (fun r => r.1 != idx) } }

/-- A timed KEY_LOAD is applied from the root it holds; its checks but the session's are repeated (R325, R326). -/
def State.keyLoadLate (s : State) (c : KCmd) (re : CmdSrc) : State :=
  let idx := c.op 0 3
  match s.keys.resv.find? (fun r => r.1 == idx) with
  | none => s.fail re kAborted
  | some (_, root) =>
    let s := s.unreserve idx
    let st := if s.keys.lifecycle = 0 then kLifecycle else if s.eng.faulty.contains idx then kInvalidIndex
      else s.keyIndexStatus idx root (keyFrom c)
    if st = kOk then s.keyLoadGo idx root (bitAt (c.op 3 1) 0) (keyFrom c) (some re) else s.fail re st

/-- KEY_LOAD (R208, R419, R421). -/
def execKeyLoad (c : KCmd) (s : State) : Res :=
  .next (s.kRun 0xC030 c State.keyLoadCheck State.keyLoadAct State.keyLoadHold)

/-! ### KEY_RETIRE -/

/-- KEY_RETIRE's checks (R212). -/
def State.keyRetireStatus (s : State) (ld : Option Nat) (idx sess : Nat) (erase : Bool) : Nat :=
  let segs := s.namesKey idx
  if (s.session ld sess).isNone then kNoSession
  else if idx = 0 ∨ (List.range 64).any (fun n => s.ldKey n == idx) then kKeyInUse
  else if !(s.key idx).valid && !(s.key idx).locked then kInvalidIndex
  else if s.keys.ops.any (fun o => o.idx == idx) then kKeyInUse
  else if segs.isEmpty then kOk
  else if !erase then kKeyInUse
  else if segs.any (fun l => (s.entry l).cask) then kCaskMember
  else kOk

/-- KEY_RETIRE's effect: with ERASE the index's segments are discarded first, then the record goes (R212). -/
def State.keyRetireGo (s : State) (idx : Nat) (src : Option CmdSrc) : State :=
  let segs := s.namesKey idx
  let s : State := { s with keys := { s.keys with ops := s.keys.ops ++ [{ idx := idx, retire := true, src := src }] } }
  s.discardNow .segments (s.discSecure 0) (segs.map (fun l => (l, 1))) none false (1 + idx) 0

/-- KEY_RETIRE's own checks (R212, R419). -/
def State.keyRetireCheck (c : KCmd) (s : State) : Nat :=
  if 2 ^ 18 ≤ c.op 0 3 then kRange else s.keyRetireStatus (s.cmdLd c.src) (c.op 0 3) (c.op 4 4) (bitAt (c.op 3 1) 0)

/-- KEY_RETIRE carried out. -/
def State.keyRetireAct (c : KCmd) (re : CmdSrc) (s : State) : State := s.keyRetireGo (c.op 0 3) (some re)

/-- KEY_RETIRE (R212, R419). -/
def execKeyRetire (c : KCmd) (s : State) : Res := .next (s.kRun 0xC031 c State.keyRetireCheck State.keyRetireAct)

/-! ### KEY_BIND -/

/-- The LD's mapped segments not yet under its index are queued for re-key, and the LD is recorded (R211, R215). Answers how
many. -/
def State.rekeyLd (s : State) (ld idx : Nat) : Nat × State :=
  let segs := s.ldRekeyLeft ld idx
  if segs.isEmpty then (0, s)
  else
    let s := s.journal 0 0x0B (ld + idx * 64)
    let old := s.map.rekeys.filter (fun r => segs.contains r.lsn)
    let new := segs.filter (fun l => !old.any (fun r => r.lsn == l))
    let s := s.modMap (fun m =>
      { m with rekeyLd := m.rekeyLd.filter (fun x => x.1 != ld) ++ [(ld, idx)],
               rekeys := m.rekeys.map (fun r => if segs.contains r.lsn then { r with newIdx := some idx } else r)
                 ++ new.map (fun l => { lsn := l, cls := 4, newIdx := some idx }) })
    (segs.length, s)

/-- KEY_BIND's own checks (R211, R419, R447). -/
def State.keyBindCheck (c : KCmd) (s : State) : Nat :=
  let idx := c.op 0 3
  let ld := c.op 8 1
  if 2 ^ 18 ≤ idx ∨ 64 ≤ ld then kRange
  else if (s.session (s.cmdLd c.src) (c.op 4 4)).isNone then kNoSession
  else if !(s.key idx).valid then kInvalidIndex
  else if s.flag Reg.REG_LOCK.KEY_LOCK && s.ldKey ld != idx then kLock
  else kOk

/-- KEY_BIND carried out: the binding, and with REKEY the queue (R211). -/
def State.keyBindAct (c : KCmd) (re : CmdSrc) (s : State) : State :=
  let idx := c.op 0 3
  let ld := c.op 8 1
  let s := s.setF (Reg.LD_KEY.KEYIDX ld) idx
  let (n, s) := if bitAt (c.op 3 1) 0 then s.rekeyLd ld idx else (0, s)
  s.done re n []

/-- KEY_BIND (R211, R419, R421). -/
def execKeyBind (c : KCmd) (s : State) : Res := .next (s.kRun 0xC032 c State.keyBindCheck State.keyBindAct)

/-! ### KEY_STATUS -/

/-- KEY_STATUS's own check: an LD path sees its own indexes (R419). -/
def State.keyStatusCheck (c : KCmd) (s : State) : Nat :=
  let idx := c.op 0 3
  if 2 ^ 18 ≤ idx then kRange
  else if fromMgmt c.src then kOk
  else match s.cmdLd c.src with
    | some ld => if s.ldKey ld = idx ∨ (s.namesKey idx).any (fun l => s.tileLd (4096 * l) == some ld) then kOk else kPermission
    | none => kPermission

/-- KEY_STATUS answers. -/
def State.keyStatusAct (c : KCmd) (re : CmdSrc) (s : State) : State :=
  let idx := c.op 0 3
  let k := s.key idx
  let info := b2n k.valid + 2 * b2n k.persist + 4 * b2n k.locked + 8 * b2n k.rotating + k.succ % 2 ^ 18 * 16
  s.doneData c re (info + k.kcv.toNat * 2 ^ 22)
    (leBytes (s.namesKey idx).length 4 ++ s.image 0x90008 1 ++ s.image 0x90004 1 ++ leBytes 0 4)

/-- KEY_STATUS (R419). -/
def execKeyStatus (c : KCmd) (s : State) : Res := .next (s.kRun 0xC033 c State.keyStatusCheck State.keyStatusAct)

end Sys2Proof.Machine
end

