-- ==== Sys2Proof/Machine/KelricMedia.lean ====
section
/-!
DEFINITION. The Kelric commands of media upkeep (spec/17, R416, R422; spec/07, R185, R192, R196; spec/12, R324).
-/

namespace Sys2Proof.Machine

/-- One value of a command with a MASK: its bit, the field, the value, and the values admitted (R416). -/
structure MaskItem where
  bit : Nat
  field : Field
  val : Nat
  lo : Nat
  hi : Nat
deriving DecidableEq, Repr

/-- The values a MASK names, as fields to set. -/
def maskSet (mask : Nat) (l : List MaskItem) : List (Field × Nat) :=
  (l.filter (fun i => bitAt mask i.bit)).map (fun i => (i.field, i.val))

/-- Are the values a MASK names in range, and none in a frozen register (R416, R451)? -/
def State.maskCheck (s : State) (mask : Nat) (l : List MaskItem) : Nat :=
  if l.any (fun i => bitAt mask i.bit && (decide (i.val < i.lo) || decide (i.hi < i.val))) then kField
  else if s.anyFrozen (maskSet mask l) then kLock
  else kOk

/-! ### PATROL_SET and PATROL_STATUS -/

/-- An accelerated pass starts (R185). -/
def State.accelStart (s : State) : State :=
  ({ s with patrol := { s.patrol with accelOn := true, accel := [], tally := [], freeTally := [] } }).raise Reg.PATROL_STAT.ACCEL

/-- The values of PATROL_SET (R197, R422). -/
def patrolItems (c : KCmd) : List MaskItem :=
  [⟨0, Reg.PATROL_CFG.PERIOD_DAYS, c.op 1 1, 1, 30⟩, ⟨1, Reg.PATROL_CFG.REFRESH_BITS, c.op 2 1, 1, 3⟩,
   ⟨2, Reg.PATROL_CFG.RELOC_TILES, c.op 3 1, 1, 255⟩, ⟨3, Reg.PATROL_CFG.ACCEL_HOURS, c.op 4 1, 1, 24⟩,
   ⟨4, Reg.PATROL_CFG.PATROL_DEEP, c.op 5 1, 0, 1⟩]

/-- PATROL_SET's own checks (R416, R422). -/
def State.patrolSetCheck (c : KCmd) (s : State) : Nat :=
  let st := s.maskCheck (c.op 0 1) (patrolItems c)
  if st ≠ kOk then st else if c.op 6 1 = 1 ∧ s.patrol.accelOn then kBusy else kOk

/-- PATROL_SET's effect. -/
def State.patrolSetAct (c : KCmd) (re : CmdSrc) (s : State) : State :=
  (if c.op 6 1 = 1 then s.accelStart else s).cmdSet (maskSet (c.op 0 1) (patrolItems c)) re

/-- PATROL_SET (R422). -/
def execPatrolSet (c : KCmd) (s : State) : Res := .next (s.kRun 0xC040 c State.patrolSetCheck State.patrolSetAct)

/-- PATROL_STATUS answers. -/
def State.patrolStatusAct (c : KCmd) (re : CmdSrc) (s : State) : State :=
  let v := s.regView 0x80004
  s.doneData c re (bitsOf v 0 8 + bitsOf v 9 17 * 2 ^ 8)
    (s.image 0x80000 2 ++ leBytes s.patrol.passes 8 ++ leBytes s.patrol.drops 8
      ++ (List.range 1024).flatMap (fun d => leBytes (mget 0 s.patrol.bits d) 8))

/-- PATROL_STATUS (R422). -/
def execPatrolStatus (c : KCmd) (s : State) : Res := .next (s.kRun 0xC041 c (fun _ _ => kOk) State.patrolStatusAct)

/-! ### SCHEDULE_SET -/

/-- The eight words of a slot map given as 32 bytes, byte j bit b setting slot 8j + b (R422). -/
def mapOf (l : List Byte) : List Nat := (List.range 8).map (fun i => leAt l (4 * i) 4)

/-- SCHEDULE_SET's own checks (R324, R422). -/
def State.scheduleSetCheck (c : KCmd) (s : State) : Nat :=
  if c.op 0 1 = 0 then
    if 2 < c.op 1 1 then kField
    else if c.data.length < 32 then kData
    else if mapBits (mapOf c.data) < 16 then kSparse
    else if (List.range 8).any (fun i => s.frozen (0xD0100 + 32 * c.op 1 1 + 4 * i)) then kLock
    else kOk
  else if c.op 0 1 = 1 then
    if s.time.actions.any (fun a => a.handle == c.op 2 2) then kOk else kRange
  else kField

/-- A pending action leaves the queue by its handle, with the index a timed KEY_LOAD reserved (R325, R327). -/
def State.cancelAction (s : State) (h : Nat) : State :=
  let s := match s.time.actions.find? (fun a => a.handle == h) with
    | some { what := .command 0xC030 k, .. } => s.unreserve (k.op 0 3)
    | _ => s
  (s.modTime (fun t => { t with actions := t.actions.filter (fun a => a.handle != h) })).pageWrites 1

/-- SCHEDULE_SET's effect: the map is stored and waits for its frame boundary, or the action is removed (R324, R327). -/
def State.scheduleSetAct (c : KCmd) (re : CmdSrc) (s : State) : State :=
  if c.op 0 1 = 0 then
    let g := c.op 1 1
    let ws := mapOf c.data
    let s := ws.zipIdx.foldl (fun s (w, i) => s.rwpWrite (0xD0100 + 32 * g + 4 * i) 0xFFFFFFFF w (some re)) s
    ((s.newMap g ws s.nextFrame).mapsDue).cmdStored re 0 []
  else (s.cancelAction (c.op 2 2)).done re 0 []

/-- SCHEDULE_SET (R324, R422). -/
def execScheduleSet (c : KCmd) (s : State) : Res := .next (s.kRun 0xC042 c State.scheduleSetCheck State.scheduleSetAct)

/-! ### SPARE_STATUS, REBUILD_CONTROL, WEAR_REPORT -/

/-- SPARE_STATUS answers. -/
def State.spareStatusAct (c : KCmd) (re : CmdSrc) (s : State) : State :=
  s.doneData c re (bitsOf (s.regView 0x80014) 0 20)
    (s.image 0x80010 2 ++ (List.range 96).flatMap (fun d => s.image (0x30100 + 64 * d) 10) ++ s.image 0x80400 96 ++ s.image 0x81000 1024)

/-- SPARE_STATUS (R422). -/
def execSpareStatus (c : KCmd) (s : State) : Res := .next (s.kRun 0xC050 c (fun _ _ => kOk) State.spareStatusAct)

/-- The values of REBUILD_CONTROL SET (R197, R422). -/
def rebuildItems (c : KCmd) : List MaskItem :=
  [⟨0, Reg.SPARE_CFG.REBUILD_RATE, c.op 2 1, 1, 128⟩, ⟨1, Reg.SPARE_CFG.REBUILD_SETS, c.op 3 1, 1, 32⟩,
   ⟨2, Reg.SPARE_CFG.DIE_FAIL_LIMIT, c.op 4 1, 8, 255⟩]

/-- Does a set wait for its rebuild (R192)? -/
def State.rebuildWaits (s : State) (ds : Nat) : Bool :=
  s.patrol.rebuilds.any (fun b => b.ds == ds && !b.active) && !s.patrol.rebuilds.any (fun b => b.ds == ds && b.active)

/-- REBUILD_CONTROL's own checks (R196, R416, R422). -/
def State.rebuildControlCheck (c : KCmd) (s : State) : Nat :=
  match c.op 0 1 with
  | 0 => s.maskCheck (c.op 1 1) (rebuildItems c)
  | 1 => if s.rebuildWaits (c.op 2 1) then kOk else kRange
  | 2 =>
    if 32 ≤ c.op 2 1 ∨ 32 ≤ c.op 3 1 then kRange
    else match s.dieMember (32 * c.op 2 1 + c.op 3 1) with
      | none => kRange
      | some (ds, _) => if s.lost ds ≠ 0 then kDegraded else kOk
  | _ => kField

/-- REBUILD_CONTROL's effect: settings, a waiting set moved to the front, or a die declared failed by the host (R186, R196). -/
def State.rebuildControlAct (c : KCmd) (re : CmdSrc) (s : State) : State :=
  match c.op 0 1 with
  | 0 => s.cmdSet (maskSet (c.op 1 1) (rebuildItems c)) re
  | 1 =>
    let (a, b) := s.patrol.rebuilds.partition (fun b => b.ds == c.op 2 1)
    ((({ s with patrol := { s.patrol with rebuilds := a ++ b } }).rebuildPump 96)).done re 0 []
  | _ => (s.dieFail (32 * c.op 2 1 + c.op 3 1) 6).wavesEnd.done re 0 []

/-- REBUILD_CONTROL (R422). -/
def execRebuildControl (c : KCmd) (s : State) : Res := .next (s.kRun 0xC051 c State.rebuildControlCheck State.rebuildControlAct)

/-- Data slots of the sets present by PCOUNT bucket of 78,125; the last holds every higher count (R422). -/
def State.wearBuckets (s : State) : List Nat :=
  let here := fun p => decide (psnSlot p < dataSlots) && s.setPresent (psnSet p)
  let told := ((s.map.pcount.map (·.1)) ++ s.map.retired).eraseDups.filter here
  let total := ((List.range 96).filter s.setPresent).length * dataSlots
  let bucket := fun n => min 63 (n / 78125)
  let base := bucket s.map.formats
  (List.range 64).map (fun i =>
    (told.filter (fun p => bucket (s.pcount p) == i)).length + (if i = base then total - told.length else 0))

/-- WEAR_REPORT answers. -/
def State.wearReportAct (c : KCmd) (re : CmdSrc) (s : State) : State :=
  s.doneData c re (s.getF Reg.MAP_WEAR.WEAR_MIN)
    (s.image 0x70010 8 ++ s.wearBuckets.flatMap (fun n => leBytes n 8))

/-- WEAR_REPORT (R422). -/
def execWearReport (c : KCmd) (s : State) : Res := .next (s.kRun 0xC052 c (fun _ _ => kOk) State.wearReportAct)

end Sys2Proof.Machine
end

