-- ==== Sys2Proof/Machine/Pair.lean ====
section
/-!
DEFINITION. Mirror entries paired, unpaired, resynchronised and exchanged, and the redirects that promotion records make
(spec/11, R288, R299 to R305; spec/17, R423).
-/

namespace Sys2Proof.Machine

/-! ### The entries of a node (R299) -/

/-- Does a range of segments meet one that an entry of this node takes part in, at its own side? -/
def State.mirrorMeets (s : State) (k first n : Nat) : Bool :=
  s.fabric.mirrors.any (fun (j, m) =>
    let own := if m.role = 0 ∧ m.state ≠ 4 then m.homeLsn else m.mirrorLsn
    j != k && m.state != 0 && decide (own < first + n) && decide (first < own + m.count))

/-- Do the segments lie in static capacity of one LD here (R299)? -/
def State.staticRange (s : State) (first n : Nat) : Bool :=
  let a := first / 256
  let bs := (List.range ((first + n + 255) / 256 - a)).map (fun i => s.block (a + i))
  n != 0 && bs.all (fun b => b.kind == 1 && !b.releasing && some b.ld == bs.head?.map (·.ld))


/-- The checks of MIRROR_SET and DF_MIRROR (R299, R304, R306, R422). -/
def State.mirrorStatus (s : State) (op k homeLsn mirrorLsn count partner : Nat) : Nat :=
  let e : MirrorEnt := mget {} s.fabric.mirrors k
  let inView := fun n => s.fabric.view.any (fun x => x.1 == n)
  if op = 0 then
    if e.state ≠ 0 ∨ e.op ≠ 0 ∨ !inView partner then kBusy
    else if count = 0 ∨ partner = s.nodeId ∨ 2 ^ 24 * s.pkgs < homeLsn + count ∨ 2 ^ 25 < mirrorLsn + count
        ∨ s.mirrorMeets k homeLsn count then kRange
    else kOk
  else if op = 3 ∧ (e.state ≠ 2 ∨ e.role ≠ 0) then kField
  else if e.state = 0 then kRange
  else if e.op ≠ 0 ∨ !inView e.partner then kBusy
  else if e.role = 1 ∧ e.state ≠ 4 then kField
  else kOk

/-- An entry's range at its home side here: a promoted entry's copy is this node's (R302). -/
def MirrorEnt.turned (e : MirrorEnt) : MirrorEnt :=
  if e.state = 4 then { e with role := 0, homeLsn := e.mirrorLsn, mirrorLsn := e.homeLsn } else e

/-- MIRROR_SET's effect: the partner is asked to record the entry; the answer completes it. For SWAP requests to the range wait,
every line of it is taken back, and then the partner is asked (R299, R301, R304, R423). -/
def State.mirrorGo (s : State) (op k homeLsn mirrorLsn count partner : Nat) (src : Option CmdSrc) : State :=
  let e : MirrorEnt := mget {} s.fabric.mirrors k
  if op = 0 then
    let n : MirrorEnt := { homeLsn := homeLsn, count := count, mirrorLsn := mirrorLsn, partner := partner, op := 1, src := src }
    (s.modMirror k (fun _ => n)).mirTell partner 1 0 homeLsn mirrorLsn count
  else
    let t := e.turned
    let s := s.modMirror k (fun e => { e with op := op + 1, src := src, swap := e.swap || op == 3 })
    if op ≠ 3 then s.mirTell e.partner (op + 1) 0 t.homeLsn t.mirrorLsn t.count
    else
      let first := t.homeLsn * 16384
      let n := t.count * 16384
      let held := (s.home.dir.flatMap (fun (i, l) => l.filterMap (fun (x : DirEntry) =>
        if x.proxy ∨ x.state = 0 then none else some (x.key i)))).filter (fun l => decide (first ≤ l) && decide (l < first + n))
      let s := held.foldl (fun (s : State) l =>
        s.submit { src := .own ((s.tileLd (l / 4)).getD 0), op := .invA, line := l, at_ := s.ft }) s
      let w : OwnWait := { first := first, count := n, after := .swap k }
      ({ s with home := { s.home with owns := s.home.owns ++ [w] } } : State).pump

/-! ### Redirects (R302, R304) -/

/-- An exchanged range is released once its redirect is known: requests that waited go to its new home, and requests of proxies
outstanding to a home that a record redirects are issued again. A peer's request that waits here is dropped: its proxy issues it
again. -/
def State.redirect (s : State) : State :=
  let homes := (s.home.proxy.map (·.home)).eraseDups
  let s := homes.foldl (fun s n => s.reissue n false) s
  s.fabric.mirrors.foldl (fun s (k, e) =>
    let first := e.mirrorLsn * 16384
    let n := e.count * 16384
    let back := s.fabric.promos.any (fun p => p.failed.toNat == e.partner && p.homeLsn.toNat == e.homeLsn)
    if !e.swap ∨ e.role ≠ 1 ∨ e.op ≠ 0 ∨ (s.rehome 0xFFF first = first && !back) then s
    else
      let mine := fun (r : HReq) => decide (first ≤ r.line) && decide (r.line < first + n)
      let go := fun (r : HReq) => if mine r then { r with line := lineKey e.partner (r.line - first + e.homeLsn * 16384) } else r
      let keep := fun (r : HReq) => !(mine r && (match r.src with | .peer _ _ _ => true | _ => false))
      let s := s.modMirror k (fun e => { e with swap := false })
      let s := s.modFabric (fun x => { x with promos := x.promos.filter (fun p => !(p.failed.toNat == e.partner && p.homeLsn.toNat == e.homeLsn)) })
      let s := if back then s.floodLsa else s
      { s with home := { s.home with wait := (s.home.wait.filter keep).map go, stall := (s.home.stall.filter keep).map go } }) s

/-- LSA (R288, R302, R304): an advertisement newer than the one held is stored and forwarded, and its redirects
followed; another is dropped. -/
def execLsa (f : Frame) (b : LsaBody) (s : State) : Res :=
  match s.linkAccept f 1 [4] b.len b.bits with
  | (false, s) => .next s
  | (true, s) =>
    let newer := match s.fabric.lsdb.find? (fun a => a.uid == b.uid) with
      | some a => let d := (b.seq - a.seq).toNat; decide (0 < d) && decide (d < 2 ^ 31)
      | none => true
    if b.uid = Config.uid ∨ !newer then .next s
    else .next (((s.storeLsa b).sendLsa b (some f.link.val)).graphCheck.computeRoutes).redirect.pump

/-! ### The partner's side (R299, R301, R304, R423) -/

/-- The entry of this node for a pairing with a partner. -/
def State.pairOf (s : State) (partner homeLsn mirrorLsn count : Nat) : Option (Nat × MirrorEnt) :=
  s.fabric.mirrors.find? (fun (_, e) => e.partner == partner && e.homeLsn == homeLsn && e.mirrorLsn == mirrorLsn && e.count == count)

/-- A partner asks this node to record a pairing as its mirror: the status of its answer, and the state after it. -/
def State.mirAsked (s : State) (node kind homeLsn mirrorLsn count : Nat) : Nat × State :=
  let old := s.pairOf node homeLsn mirrorLsn count
  let new : MirrorEnt := { homeLsn := homeLsn, count := count, mirrorLsn := mirrorLsn, partner := node, role := 1, state := 1 }
  match kind, old with
  | 1, _ | 3, none =>
    match old with
    | some (k, e) => if e.role = 1 then (kOk, s.modMirror k (fun e => { e with state := 1, next := 0 })) else (kRange, s)
    | none =>
      if !s.staticRange mirrorLsn count ∨ s.mirrorMeets 256 mirrorLsn count then (kRange, s)
      else match (List.range 256).find? (fun k => (mget {} s.fabric.mirrors k : MirrorEnt) == {}) with
        | some k => (kOk, s.modMirror k (fun _ => new))
        | none => (kBusy, s)
  | 2, some (k, e) => if e.role = 1 then (kOk, s.modMirror k (fun _ => {})) else (kRange, s)
  | 2, none => (kOk, s)
  | 3, some (k, e) =>
    if e.role ≠ 1 then (kRange, s)
    else
      let s' := s.modMirror k (fun e => { e with state := 1, next := 0 })
      -- a returned node discards its stale copy first (R304)
      (kOk, if e.state = 3 then s'.discardNow .segments false [(mirrorLsn, count)] none false 0 0 else s')
  | 4, some (k, e) =>
    if e.role ≠ 1 ∨ e.state ≠ 2 then (kField, s)
    else
      let s := s.modMirror k (fun e => { e with role := 0, homeLsn := e.mirrorLsn, mirrorLsn := e.homeLsn })
      let s := s.setMirror mirrorLsn count node
      -- the range comes back to the node its pool addresses name, or is redirected here
      let back := s.fabric.lsdb.any (fun a => s.idOfUid a.uid == some node && a.promos.any (fun p =>
        p.failed.toNat == s.nodeId && p.homeLsn.toNat == mirrorLsn && p.copyLsn.toNat == homeLsn))
      if back then (kOk, s)
      else
        let p : Promotion := { failed := BitVec.ofNat 12 node, homeLsn := BitVec.ofNat 25 homeLsn, count := BitVec.ofNat 25 count,
                               copyLsn := BitVec.ofNat 25 mirrorLsn }
        (kOk, (s.modFabric (fun x => { x with promos := x.promos ++ [p] })).floodLsa)
  | _, _ => (kRange, s)

/-- The partner's answer: the entry is recorded on both sides and the command completes (R299, R301, R304, R423). -/
def State.mirAnswer (s : State) (node kind st homeLsn mirrorLsn count : Nat) : State :=
  match s.fabric.mirrors.find? (fun (_, e) => e.op == kind && e.partner == node && e.turned.homeLsn == homeLsn
      && e.turned.mirrorLsn == mirrorLsn && e.count == count) with
  | none => s
  | some (k, e) =>
    if st ≠ kOk then
      let s := (s.modMirror k (fun e => { e with swap := false })).mirrorEnd k st
      if kind = 1 then s.modMirror k (fun _ => {}) else s
    else match kind with
      | 1 => ((s.setMirror homeLsn count node).modMirror k (fun e => { e with state := 1, next := 0, out := [] })).mirrorEnd k kOk
      | 2 =>
        let s := ((s.setMirror homeLsn count 0xFFF).modMirror k (fun e => { e with state := 0 })).mirrorEnd k kOk
        (s.modMirror k (fun _ => {})).mirrorless node
      | 3 =>
        let go := fun (e : MirrorEnt) => { e.turned with state := 1, next := 0, out := [] }
        ((s.setMirror homeLsn count node).modMirror k go).mirrorEnd k kOk
      | _ =>
        let s := s.setMirror e.homeLsn count 0xFFF
        let s := s.modMirror k (fun e => { e with role := 1, homeLsn := e.mirrorLsn, mirrorLsn := e.homeLsn })
        (s.mirrorEnd k kOk).redirect

/-- MGMT (R305): an MCTP packet reaches the management function; a packet of mirror partners is acted on (R299, R423). -/
def execMgmt (f : Frame) (packet : List Byte) (s : State) : Res :=
  match s.linkAccept f 7 [4] ((packet.length + 15) / 16) (leNat packet) with
  | (false, s) => .next s
  | (true, s) =>
    if leAt packet 0 1 ≠ 0 ∨ packet.length ≠ 16 then
      .next (s.modFabric (fun x => { x with mgmtIn := x.mgmtIn ++ [(f.src, packet)] }))
    else
      let kind := leAt packet 1 1
      let h := leAt packet 4 4
      let m := leAt packet 8 4
      let n := leAt packet 12 4
      if 8 ≤ kind then .next (s.mirAnswer f.src (kind - 8) (leAt packet 2 2) h m n).pump
      else
        let (st, s) := s.mirAsked f.src kind h m n
        .next (s.mirTell f.src (kind + 8) st h m n).pump

end Sys2Proof.Machine
end

