-- ==== Sys2Proof/Machine/KelricFabric.lean ====
section
/-!
DEFINITION. The Kelric commands of mirrors, fabric, time and casks (spec/11, spec/12; spec/17, R422, R423). The same checks
and effects serve the registers DF_MIRROR, DF_EXPORT, DF_IMPORT and CASK_CFG (R306, R343).
-/

namespace Sys2Proof.Machine

/-! ### MIRROR_SET -/

/-- MIRROR_SET's own checks (R299, R304, R422). -/
def State.mirrorSetCheck (c : KCmd) (s : State) : Nat :=
  let op := c.op 0 1
  if 4 < op ∨ 4096 ≤ c.op 16 2 then kField
  else if op = 4 then s.maskCheck 1 [⟨0, Reg.DF_CONFIG.RESYNC_RATE, c.op 18 2, 0, 65535⟩]
  else s.mirrorStatus op (c.op 1 1) (c.op 4 4) (c.op 8 4) (c.op 12 4) (c.op 16 2)

/-- MIRROR_SET carried out (R299, R301, R304, R423). -/
def State.mirrorSetAct (c : KCmd) (re : CmdSrc) (s : State) : State :=
  let k := c.op 1 1
  if c.op 0 1 = 4 then s.cmdSet [(Reg.DF_CONFIG.RESYNC_RATE, c.op 18 2)] re (mget {} s.fabric.mirrors k : MirrorEnt).state
  else s.mirrorGo (c.op 0 1) k (c.op 4 4) (c.op 8 4) (c.op 12 4) (c.op 16 2) (some re)

/-- MIRROR_SET (R299, R422, R423). -/
def execMirrorSet (c : KCmd) (s : State) : Res := .next (s.kRun 0xC060 c State.mirrorSetCheck State.mirrorSetAct)

/-! ### Table windows and FABRIC_STATUS -/

/-- The 128 bits of DF_MIRROR for an entry (R306). -/
def MirrorEnt.bits (e : MirrorEnt) : Nat :=
  e.homeLsn % 2 ^ 25 + e.count % 2 ^ 25 * 2 ^ 25 + e.mirrorLsn % 2 ^ 25 * 2 ^ 50 + e.partner % 2 ^ 12 * 2 ^ 75 + e.role % 2 * 2 ^ 87
    + e.state % 8 * 2 ^ 88

/-- The 128 bits of DF_EXPORT for an entry (R306). -/
def ExportEnt.bits (e : ExportEnt) : Nat :=
  e.first % 2 ^ 17 + e.count % 2 ^ 17 * 2 ^ 17 + e.node % 2 ^ 12 * 2 ^ 34 + b2n e.write * 2 ^ 46 + b2n e.valid * 2 ^ 47

/-- The 128 bits of DF_IMPORT for an entry (R306). -/
def ImportEnt.bits (e : ImportEnt) : Nat :=
  e.ld % 64 + e.region % 2 * 2 ^ 6 + e.first % 2 ^ 17 * 2 ^ 7 + e.count % 2 ^ 17 * 2 ^ 24 + e.pool / 2 ^ 28 % 2 ^ 29 * 2 ^ 41
    + b2n e.valid * 2 ^ 70

/-- A node record of FABRIC_STATUS: ID, UID, mask of its links in UP, hops by the primary (R422). -/
def State.nodeRecord (s : State) (n : Nat) (u : BitVec 64) : List Byte :=
  let links : List Nat := match s.fabric.lsdb.find? (fun (a : LsaBody) => a.uid == u) with | some a => a.links.map (fun (_, i, _) => i.val) | none => []
  let hops := if n = s.nodeId then 0 else (mget {} s.fabric.routes n : Route).hops
  leBytes n 2 ++ leBytes u.toNat 8 ++ leBytes (links.foldl (fun m k => m ||| 2 ^ k) 0) 1 ++ leBytes hops 1 ++ leBytes 0 4

/-- FABRIC_STATUS answers: the table asked for, node records in the order of their IDs (R305, R422). -/
def State.fabricStatusAct (c : KCmd) (re : CmdSrc) (s : State) : State :=
  let nodes := sortBy (fun a b => decide (a.1 ≤ b.1)) s.fabric.view
  let all := List.range 256
  let table := match c.op 0 1 with
    | 0 => ((nodes.drop (c.op 4 2)).take 2048).flatMap (fun (n, u) => s.nodeRecord n u)
    | 1 => all.flatMap (fun k => leBytes (mget {} s.fabric.mirrors k : MirrorEnt).bits 16)
    | 2 => all.flatMap (fun k => leBytes (mget {} s.fabric.exports k : ExportEnt).bits 16)
    | 3 => all.flatMap (fun k => leBytes (mget {} s.fabric.imports k : ImportEnt).bits 16)
    | _ => s.image 0xB0200 64
  s.doneData c re (s.getF Reg.DF_NODE.NODES % 2 ^ 13 + s.getF Reg.DF_VIEW.VIEW * 2 ^ 13)
    (s.image 0xC0000 3 ++ s.image 0xC0010 8 ++ table)

/-- FABRIC_STATUS (R422). -/
def execFabricStatus (c : KCmd) (s : State) : Res :=
  .next (s.kRun 0xC061 c (fun c _ => if 4 < c.op 0 1 then kField else kOk) State.fabricStatusAct)

/-! ### Exports and imports (R294, R295, R423) -/

/-- The checks of adding an export (R294, R422). -/
def State.exportStatus (s : State) (k first count node : Nat) : Nat :=
  if (mget {} s.fabric.exports k : ExportEnt).valid then kBusy
  else if count = 0 ∨ s.blockCount < first + count ∨ 4096 ≤ node then kRange
  else kOk

/-- An export is added (R294). -/
def State.exportAdd (s : State) (k first count node : Nat) (write : Bool) : State :=
  let e : ExportEnt := { first := first, count := count, node := node, write := write, valid := true }
  s.modFabric (fun x => { x with exports := mset {} x.exports k e })

/-- The check of removing an export. -/
def State.exportDelStatus (s : State) (k : Nat) : Nat := if (mget {} s.fabric.exports k : ExportEnt).valid then kOk else kRange

/-- An export is removed: later requests are denied, INV leaves for every peer that holds a line of its range, and the command
completes with the last answer (R294, R423). -/
def State.exportDel (s : State) (k : Nat) (src : Option CmdSrc) : State :=
  let e : ExportEnt := mget {} s.fabric.exports k
  let first := e.first * 2 ^ 22
  let n := e.count * 2 ^ 22
  let s := s.modFabric (fun x => { x with exports := mset {} x.exports k {} })
  let held := (s.home.dir.flatMap (fun (i, l) => l.filterMap (fun (x : DirEntry) =>
    if !x.proxy && (x.state == 3 || (x.state != 0 && x.ext != 0)) then some (x.key i) else none))).filter
      (fun l => decide (first ≤ l) && decide (l < first + n))
  let s := held.foldl (fun (s : State) l =>
    s.submit { src := .own ((s.tileLd (l / 4)).getD 0), op := .invA, line := l, kind := 1, at_ := s.ft }) s
  let w : OwnWait := { first := first, count := n, after := .cmd src }
  ({ s with home := { s.home with owns := s.home.owns ++ [w] } } : State).pump

/-- The checks of adding an import: an unused entry, blocks of a DC region of the LD that nothing else holds, and a remote block of
256 MiB (R295, R422). -/
def State.importStatus (s : State) (k ld region first count pool : Nat) : Nat :=
  let e : DcExtent := { region := Fin.ofNat 2 region, first := BitVec.ofNat _ first, count := BitVec.ofNat _ count }
  if (mget {} s.fabric.imports k : ImportEnt).valid then kBusy
  else if pool % 2 ^ 28 ≠ 0 ∨ 1 < region then kField
  else if 64 ≤ ld ∨ count = 0 ∨ dcBlocks < first + count ∨ 2 ^ 57 ≤ pool then kRange
  else if s.importMeets ld region e ∨ (s.regionExtents ld region).any (fun o => extMeets o e)
      ∨ s.host.blocks.any (fun (_, b) => b.kind == region + 2 && b.ld == ld && decide (first ≤ b.num) && decide (b.num < first + count))
    then kRange
  else kOk

/-- An import is added: its LD block numbers are reserved (R295). -/
def State.importAdd (s : State) (k ld region first count pool : Nat) : State :=
  let e : ImportEnt := { ld := ld, region := region, first := first, count := count, pool := pool, valid := true }
  s.modFabric (fun x => { x with imports := mset {} x.imports k e })

/-- The checks of removing an import: BUSY while a block of it is added as DC capacity (R422). -/
def State.importDelStatus (s : State) (k : Nat) : Nat :=
  let m : ImportEnt := mget {} s.fabric.imports k
  let e : DcExtent := { region := Fin.ofNat 2 m.region, first := BitVec.ofNat _ m.first, count := BitVec.ofNat _ m.count }
  if !m.valid then kRange
  else if (s.regionExtents m.ld m.region).any (fun o => extMeets o e) then kBusy else kOk

/-- The visitor lines of `count` remote blocks from a pool address are dropped (R295). -/
def State.dropPool (s : State) (pool count : Nat) : State :=
  let first := pool % 2 ^ 45 / 64
  s.dropLines (fun k => keyNode k == pool / 2 ^ 45 && decide (first ≤ keyL k) && decide (keyL k < first + count * 2 ^ 22))

/-- An import is removed and its visitor lines dropped (R295). -/
def State.importDel (s : State) (k : Nat) : State :=
  let m : ImportEnt := mget {} s.fabric.imports k
  ((s.modFabric (fun x => { x with imports := mset {} x.imports k {} })).dropPool m.pool m.count).pump

/-! ### FABRIC_ROUTE_SET -/

/-- The LINK_EN value with one link's bit set or cleared. -/
def State.linkEn (s : State) (k : Nat) (on : Bool) : List (Field × Nat) :=
  [(Reg.DF_CONFIG.LINK_EN, putBits (s.getF Reg.DF_CONFIG.LINK_EN) k 1 (b2n on))]

/-- FABRIC_ROUTE_SET's own checks (R292, R294, R295, R422). -/
def State.routeSetCheck (c : KCmd) (s : State) : Nat :=
  let k := c.op 1 1
  match c.op 0 1 with
  | 0 => if 8 ≤ c.op 4 1 then kField else if 4095 ≤ c.op 2 2 ∨ c.op 2 2 = s.nodeId then kRange else kOk
  | 1 => if 4095 ≤ c.op 2 2 ∨ c.op 2 2 = s.nodeId then kRange else kOk
  | 2 => s.exportStatus k (c.op 4 4) (c.op 8 4) (c.op 12 2)
  | 3 => s.exportDelStatus k
  | 4 => s.importStatus k (c.op 2 1) (c.op 3 1) (c.op 4 4) (c.op 8 4) (c.op 16 8)
  | 5 => s.importDelStatus k
  | 6 | 7 => if 8 ≤ c.op 4 1 then kField else if s.anyFrozen (s.linkEn 0 true) then kLock else kOk
  | _ => kField

/-- A destination's primary link is pinned, or no longer (R292). -/
def State.pinRoute (s : State) (node link : Nat) (pin : Bool) : State :=
  (s.modFabric (fun x => { x with routes := mmod {} x.routes node (fun r =>
    if pin then { r with primary := link, pinned := true } else { r with pinned := false }) })).computeRoutes

/-- FABRIC_ROUTE_SET carried out (R292, R294, R295, R423). -/
def State.routeSetAct (c : KCmd) (re : CmdSrc) (s : State) : State :=
  let k := c.op 1 1
  match c.op 0 1 with
  | 0 => (s.pinRoute (c.op 2 2) (c.op 4 1) true).done re 0 []
  | 1 => (s.pinRoute (c.op 2 2) 0 false).done re 0 []
  | 2 => (s.exportAdd k (c.op 4 4) (c.op 8 4) (c.op 12 2) (bitAt (c.op 14 1) 0)).done re 0 []
  | 3 => s.exportDel k (some re)
  | 4 => (s.importAdd k (c.op 2 1) (c.op 3 1) (c.op 4 4) (c.op 8 4) (c.op 16 8)).done re 0 []
  | 5 => (s.importDel k).done re 0 []
  | n => s.cmdSet (s.linkEn (c.op 4 1) (n == 6)) re

/-- FABRIC_ROUTE_SET (R422, R423). -/
def execFabricRouteSet (c : KCmd) (s : State) : Res := .next (s.kRun 0xC062 c State.routeSetCheck State.routeSetAct)

/-! ### TIME_SOURCE_SET and TIME_STATUS (R322, R422) -/

/-- The values of TIME_SOURCE_SET (R422). -/
def timeItems (c : KCmd) : List MaskItem :=
  let v := c.op 1 1
  [⟨0, Reg.TIME_CFG.FTSYNC_EN, bitsOf v 0 1, 0, 1⟩, ⟨1, Reg.TIME_CFG.PTM_EN, bitsOf v 1 1, 0, 1⟩,
   ⟨2, Reg.TIME_CFG.PTM_HEAD, c.op 2 1, 0, 7⟩, ⟨3, Reg.TIME_CFG.SYNC_OUT_EN, bitsOf v 3 1, 0, 1⟩,
   ⟨4, Reg.TIME_CFG.GM_ELIGIBLE, bitsOf v 4 1, 0, 1⟩]

/-- TIME_SOURCE_SET's own checks (R322, R422). -/
def State.timeSourceCheck (c : KCmd) (s : State) : Nat :=
  match c.op 3 1 with
  | 0 => s.maskCheck (c.op 0 1) (timeItems c)
  | 1 => if s.cask.doms.any (fun (_, d) => d.state != 0) ∨ !s.time.actions.isEmpty then kBusy else kOk
  | _ => kField

/-- The source's value: the parent's time for a follower, the own source's otherwise (R320, R322). -/
def State.sourceTime (s : State) : Option Nat :=
  match s.time.parent with
  | some k =>
    let l : SyncLink := mget {} s.time.links k
    if l.haveTheta then some ((s.ft : Int) + l.theta / 65536).toNat else none
  | none => if s.time.haveSrc then some ((s.ft : Int) + s.time.srcTheta).toNat else none

/-- RESTEP: FT takes the source's value, even an earlier one; LWTs later than it are set to it, and an event is recorded (R322). -/
def State.restep (s : State) : State :=
  match s.sourceTime with
  | none => s
  | some t =>
    let s := if s.ft ≤ t then s.passTo t else { s with ft := t, frac := 0 }
    let late := s.map.entries.filter (fun (_, e) => decide (t / 2 ^ 30 < e.lwt))
    let s := late.foldl (fun s (l, e) => s.setEntryQuiet l { e with lwt := t / 2 ^ 30 % 2 ^ 32 }) s
    let s := (s.modTime (fun x => { x with slew := 0, step := none, behind := false })).setF Reg.TIME_STAT.REJECTED 0
    (s.event (mkEv .info 12 0 .changed) none).timeChoose

/-- TIME_SOURCE_SET carried out (R322, R422). -/
def State.timeSourceAct (c : KCmd) (re : CmdSrc) (s : State) : State :=
  if c.op 3 1 = 1 then s.restep.done re 0 [] else s.cmdSet (maskSet (c.op 0 1) (timeItems c)) re

/-- TIME_SOURCE_SET (R322, R422). -/
def execTimeSourceSet (c : KCmd) (s : State) : Res := .next (s.kRun 0xC070 c State.timeSourceCheck State.timeSourceAct)

/-- A pending-action record of TIME_STATUS (R422). -/
def TimedAct.record (a : TimedAct) : List Byte :=
  leBytes a.handle 2 ++ leBytes (match a.what with | .update _ => 0 | .command opc _ => opc) 2 ++ leBytes 0 4 ++ leBytes a.at_ 8

/-- TIME_STATUS answers. -/
def State.timeStatusAct (c : KCmd) (re : CmdSrc) (s : State) : State :=
  let st := s.regView 0xD0014
  let rec_ := (s.time.actions.take 256).flatMap TimedAct.record
  s.doneData c re (st % 2 ^ 16 + bitsOf st 21 1 * 2 ^ 16 + bitsOf st 24 1 * 2 ^ 17)
    (leBytes s.ft 8 ++ s.image 0xD0008 1 ++ s.image 0xD0010 4 ++ s.image 0xD0200 1 ++ leBytes 0 8
      ++ rec_ ++ leBytes 0 (4096 - rec_.length))

/-- TIME_STATUS (R422). -/
def execTimeStatus (c : KCmd) (s : State) : Res := .next (s.kRun 0xC071 c (fun _ _ => kOk) State.timeStatusAct)

/-! ### Casks (R328 to R330, R342, R422, R423) -/

/-- The first slot a domain may name: two slots ahead (R329, R330). -/
def State.slotAhead (s : State) : Nat := (s.ft + 3 * 2 ^ 20 - 1) / 2 ^ 20

/-- The checks of creating a domain (R328, R329, R422). -/
def State.caskCreateStatus (s : State) (id period start : Nat) (nodes : List Nat) (mask : BitVec 64) : Nat :=
  let used := (s.cask.doms.filter (fun (_, d) => d.state != 0)).length + s.cask.creates.length
  let taken := fun n => (s.ldDomain n).isSome || s.cask.creates.any (fun x => x.1.ldMask.getLsbD n)
  if id = 0 ∨ period = 0 ∨ nodes.isEmpty ∨ 64 < nodes.length ∨ nodes.any (fun n => decide (4095 ≤ n)) ∨ !nodes.contains s.nodeId
      ∨ start < s.slotAhead ∨ 2 ^ 44 ≤ start ∨ (List.range 64).any (fun n => mask.getLsbD n && taken n)
      ∨ (s.domOf id).isSome ∨ s.cask.creates.any (fun x => x.1.id == id) then kField
  else if 16 ≤ used then kBusy
  else kOk

/-- A domain is created; its creation waits for discards on its LDs (R328, R329, R434). -/
def State.caskCreate (s : State) (id period start : Nat) (nodes : List Nat) (mask : BitVec 64) (src : Option CmdSrc) : State :=
  let d : CaskDom := { id := id, state := 1, period := period, start := start, nodes := nodes, ldMask := mask }
  if s.discardOn mask then { s with cask := { s.cask with creates := s.cask.creates ++ [(d, src)] } } else s.caskMake d src

/-- A domain is deleted: its records are freed and CASK is cleared; a recovery under way is aborted (R328, R423). -/
def State.caskDelete (s : State) (i : Nat) : State :=
  let d := s.dom i
  let s := match d.recov with | some r => s.respondTo r.src kAborted 0 [] | none => s
  let s := s.freeRecords (fun r => r.dom == i)
  let mine := s.map.entries.filter (fun (l, e) => e.cask
    && (match s.tileLd (4096 * l) with | some n => d.ldMask.getLsbD n | none => false))
  let s := mine.foldl (fun s (l, _) => s.changeEntry l (fun e => { e with cask := false })) s
  let s := s.modDom i (fun _ => {})
  let idx := (s.cask.idx.map (fun (k, l) => (k, l.filter (fun (e : UndoIdx) => e.dom != i)))).filter (fun (_, l) => !l.isEmpty)
  ({ s with cask := { s.cask with idx := idx } } : State).pump

/-- An extra boundary is placed at a slot (R330). -/
def State.caskMark (s : State) (i slot : Nat) : State := s.modDom i (fun d => { d with extra := d.extra ++ [slot] })

/-- The node IDs in a command's data. -/
def caskNodes (c : KCmd) : List Nat := (List.range (c.op 1 1)).map (fun k => leAt c.data (2 * k) 2)

/-- CASK_CONFIG's own checks (R329, R330, R422). -/
def State.caskConfigCheck (c : KCmd) (s : State) : Nat :=
  let id := c.op 4 4
  match c.op 0 1 with
  | 0 =>
    if c.data.length < 2 * c.op 1 1 then kData
    else s.caskCreateStatus id (c.op 2 2) (c.op 8 8) (caskNodes c) (BitVec.ofNat 64 (c.op 16 8))
  | 1 => if (s.domOf id).isSome then kOk else kRange
  | 2 => if (s.domOf id).isNone then kRange else if c.op 8 8 < s.ft + 2 ^ 21 then kField else kOk
  | _ => kField

/-- CASK_CONFIG carried out. -/
def State.caskConfigAct (c : KCmd) (re : CmdSrc) (s : State) : State :=
  let id := c.op 4 4
  match c.op 0 1, s.domOf id with
  | 0, _ => s.caskCreate id (c.op 2 2) (c.op 8 8) (caskNodes c) (BitVec.ofNat 64 (c.op 16 8)) (some re)
  | 1, some i => (s.caskDelete i).done re 0 []
  | _, some i => (s.caskMark i ((c.op 8 8 + 2 ^ 20 - 1) / 2 ^ 20)).done re 0 []
  | _, none => s

/-- CASK_CONFIG (R328 to R330, R422, R423). -/
def execCaskConfig (c : KCmd) (s : State) : Res := .next (s.kRun 0xC080 c State.caskConfigCheck State.caskConfigAct)

/-- The 256 bits of CASK_DOM for a domain slot (R343). -/
def CaskDom.bits (d : CaskDom) : Nat :=
  if d.state = 0 then 0
  else d.id % 2 ^ 32 + d.period % 2 ^ 16 * 2 ^ 32 + d.coord % 2 ^ 12 * 2 ^ 48 + d.state % 16 * 2 ^ 60 + d.epoch % 2 ^ 48 * 2 ^ 64
    + d.committed % 2 ^ 48 * 2 ^ 112 + d.released % 2 ^ 48 * 2 ^ 160 + d.nodes.length % 2 ^ 7 * 2 ^ 208 + b2n d.early * 2 ^ 215
    + b2n d.logFull * 2 ^ 216

/-- A domain as CASK_STATUS gives it: CASK_DOM and 128 bytes of member IDs. -/
def CaskDom.record (d : CaskDom) : List Byte :=
  leBytes d.bits 32 ++ (List.range 64).flatMap (fun k => leBytes (d.nodes.getD k 0) 2)

/-- CASK_STATUS answers; for all slots the manual gives no STATE as RESULT: a free value. -/
def State.caskStatusAct (c : KCmd) (re : CmdSrc) (s : State) : State :=
  let tail := s.image 0xD0380 2
  match s.domOf (c.op 4 4) with
  | some i => s.doneData c re (s.dom i).state ((s.dom i).record ++ tail)
  | none =>
    let (r, s) := s.draw
    s.doneData c re (r % 16) ((List.range 16).flatMap (fun i => (s.dom i).record) ++ tail)

/-- CASK_STATUS (R422). -/
def execCaskStatus (c : KCmd) (s : State) : Res :=
  .next (s.kRun 0xC081 c (fun c s => if c.op 4 4 ≠ 0 ∧ (s.domOf (c.op 4 4)).isNone then kRange else kOk) State.caskStatusAct)

/-- The checks of a recovery (R342, R422). -/
def State.recoverStatus (s : State) (id : Nat) : Nat :=
  match s.domOf id with
  | none => kRange
  | some i => if (s.dom i).state ≠ 2 ∧ (s.dom i).state ≠ 4 then kField else if (s.dom i).recov.isSome then kBusy else kOk

/-- CASK_RECOVER's own checks. -/
def State.caskRecoverCheck (c : KCmd) (s : State) : Nat := if 1 < c.op 0 1 then kField else s.recoverStatus (c.op 4 4)

/-- CASK_RECOVER carried out: QUERY to every member (R342). -/
def State.caskRecoverAct (c : KCmd) (re : CmdSrc) (s : State) : State :=
  match s.domOf (c.op 4 4) with
  | some i => s.recoverStart i (c.op 0 1 == 0) (some re)
  | none => s

/-- CASK_RECOVER (R342, R422, R423). -/
def execCaskRecover (c : KCmd) (s : State) : Res := .next (s.kRun 0xC082 c State.caskRecoverCheck State.caskRecoverAct)

end Sys2Proof.Machine
end

