-- ==== Sys2Proof/Machine/KelricSystem.lean ====
section
/-!
DEFINITION. The Kelric commands of hold-up, temperature, observation and settings (spec/17, R416, R419, R422, R424, R433;
spec/13, R355; spec/15, R386; spec/20, R476; spec/21, R490 to R502).
-/

namespace Sys2Proof.Machine

/-! ### HOLDUP_STATUS and HOLDUP_TEST -/

/-- RESULT of HOLDUP_STATUS (R419). -/
def State.holdupResult (s : State) : Nat :=
  s.getF Reg.HU_STAT.VBANK + b2n s.writeThrough * 2 ^ 11 + s.regView 0xE003C * 2 ^ 12

/-- HOLDUP_STATUS answers: hold-up words, V0 of the last test in 10 mV, its FT. -/
def State.holdupStatusAct (c : KCmd) (re : CmdSrc) (s : State) : State :=
  s.doneData c re s.holdupResult (s.image 0xE0018 3 ++ s.image 0xE0034 3 ++ s.image 0x40008 1
    ++ leBytes (s.power.test.v0 / 10000) 4 ++ leBytes s.power.test.lastAt 8)

/-- HOLDUP_STATUS (R419). -/
def execHoldupStatus (c : KCmd) (s : State) : Res := .next (s.kRun 0xC090 c (fun _ _ => kOk) State.holdupStatusAct)

/-- HOLDUP_TEST's own check: one test at a time (R355). -/
def State.holdupTestCheck (_ : KCmd) (s : State) : Nat := if s.flag Reg.HU_TEST.BUSY then kBusy else kOk

/-- HOLDUP_TEST (R355, R422): a test starts at once and the command completes with it. -/
def execHoldupTest (c : KCmd) (s : State) : Res :=
  .next (s.kRun 0xC091 c State.holdupTestCheck (fun _ re s => s.testStart (some re)))

/-! ### THROTTLE_SET and THERMAL_STATUS -/

/-- The values of THROTTLE_SET (R386, R422); bit 5 names a remote input with its mode and limits. -/
def throttleItems (c : KCmd) : List MaskItem :=
  let n := c.op 6 1
  [⟨0, Reg.THERM_CFG.T_START, c.op 1 1, 70, 105⟩, ⟨1, Reg.THERM_CFG.SLOPE, c.op 2 1, 1, 20⟩,
   ⟨2, Reg.THERM_CFG.MED_START, c.op 3 1, 40, 85⟩, ⟨3, Reg.THERM_CFG.MED_SLOPE, c.op 4 1, 1, 20⟩,
   ⟨4, Reg.THERM_CFG.REMOTE_CRIT_EN, c.op 5 1, 0, 1⟩, ⟨5, Reg.TSNS_CFG.MODE n, c.op 7 1, 0, 2⟩,
   ⟨5, Reg.TSNS_CFG.WARN n, c.op 8 1, 0, 255⟩, ⟨5, Reg.TSNS_CFG.CRIT n, c.op 9 1, 0, 255⟩]

/-- THROTTLE_SET's own checks (R386, R416, R422). -/
def State.throttleSetCheck (c : KCmd) (s : State) : Nat :=
  if bitAt (c.op 0 1) 5 && (decide (16 ≤ c.op 6 1) || decide (c.op 9 1 ≤ c.op 8 1)) then kField
  else s.maskCheck (c.op 0 1) (throttleItems c)

/-- THROTTLE_SET's effect. -/
def State.throttleSetAct (c : KCmd) (re : CmdSrc) (s : State) : State := s.cmdSet (maskSet (c.op 0 1) (throttleItems c)) re

/-- THROTTLE_SET (R386, R422). -/
def execThrottleSet (c : KCmd) (s : State) : Res := .next (s.kRun 0xC0A0 c State.throttleSetCheck State.throttleSetAct)

/-- A sensor's reading as two bytes, 0x8000 for an excluded sensor (R419). -/
def State.sensorBytes (s : State) (i : Nat) : List Byte :=
  leBytes (if s.therm.excluded.contains i then 0x8000 else ofSigned (s.therm.last.getD i 0) 16) 2

/-- THERMAL_STATUS answers. -/
def State.thermalStatusAct (c : KCmd) (re : CmdSrc) (s : State) : State :=
  let st := s.regView 0x20004
  s.doneData c re (bitsOf st 0 16 + bitsOf st 17 6 * 2 ^ 16)
    (s.image 0x20000 2 ++ s.image 0x20010 3 ++ (List.range 32).flatMap s.sensorBytes ++ s.image 0x20100 32
      ++ leBytes s.therm.lastDry 8 ++ leBytes 0 4)

/-- THERMAL_STATUS (R419). -/
def execThermalStatus (c : KCmd) (s : State) : Res := .next (s.kRun 0xC0A1 c (fun _ _ => kOk) State.thermalStatusAct)

/-! ### Settings (R424) -/

/-- A setting that is one field, with the values it admits (the setting tables of spec/04 to spec/21). -/
def settingField (id : Nat) : Option (Field × Nat × Nat) :=
  match id with
  | 0x0101 => some (Reg.BGT_CFG.BGT_GAP_US, 1, 10000)
  | 0x0102 => some (Reg.BGT_CFG.BGT_EN, 0, 1)
  | 0x0103 => some (Reg.RET_CFG.RET_EN, 0, 1)
  | 0x0104 => some (Reg.RET_CFG.RET_IDLE_US, 10, 65535)
  | 0x0501 => some (Reg.RP_CONFIG.SHIFT_EN, 0, 1)
  | 0x0502 => some (Reg.RP_CONFIG.DEEP_EN, 0, 1)
  | 0x0503 => some (Reg.RP_CONFIG.MIRROR_FETCH, 0, 1)
  | 0x0504 => some (Reg.RP_CONFIG.TRIM_EN, 0, 1)
  | 0x0505 => some (Reg.RP_CONFIG.DEEP_MAX, 1, 32)
  | 0x0506 => some (Reg.RP_CONFIG.AUTO_CAL, 0, 1)
  | 0x0601 => some (Reg.WP_CONFIG.WT_FORCE, 0, 1)
  | 0x0602 => some (Reg.WP_CONFIG.VERIFY_RETRY, 0, 1)
  | 0x0603 => some (Reg.WP_CONFIG.WT_INFLIGHT, 256, 4095)
  | 0x0701 => some (Reg.MAP_CONFIG.RACK_EN, 0, 1)
  | 0x0702 => some (Reg.MAP_CONFIG.SECURE_DEFAULT, 0, 1)
  | 0x0703 => some (Reg.MAP_CONFIG.TOP_MIN, 1, 255)
  | 0x0704 => some (Reg.MAP_CONFIG.BASE_MAX, 0, 254)
  | 0x0705 => some (Reg.MAP_CONFIG.RACK_MAX, 1, 7)
  | 0x0706 => some (Reg.MAP_RACK_LIMIT.LIMIT, 10000, 1000000)
  | 0x0707 => some (Reg.MAP_PERIODS.CKPT_PERIOD, 1, 255)
  | 0x0708 => some (Reg.MAP_PERIODS.HEAT_DECAY, 16, 65535)
  | 0x0A01 => some (Reg.COH_CONFIG.BI_TIMEOUT_MS, 1, 1000)
  | 0x0A02 => some (Reg.COH_CONFIG.PEER_CACHE, 0, 1)
  | 0x1501 => some (Reg.SILL_CFG.INTERVAL_S, 60, 86400)
  | _ => none

/-- A setting that is a whole register: its word, and the fields with the values they admit (the setting tables of spec/09,
spec/13 and spec/22). -/
def settingReg (id n : Nat) : Option (Nat × List (Field × Nat × Nat)) :=
  match id with
  | 0x0901 | 0x0902 | 0x0903 | 0x0904 =>
    let p := id - 0x0901
    some (0xA0000 + 4 * p, [(Reg.HP_PORT_CFG.MAX_RATE p, 0, 5)])
  | 0x0910 => some (0xA0100 + 4 * n, [])
  | 0x0D01 => some (0xE0000, [(Reg.PWR_CFG.PG_TIMEOUT_MS, 1, 100), (Reg.PWR_CFG.RETRIES, 1, 7)])
  | 0x0D02 => some (0xE0100 + 4 * n, [(Reg.PWR_RAIL.STEP n, 0, 16), (Reg.PWR_RAIL.SENSE n, 0, if 18 ≤ n then 2 else 0)])
  | 0x0D03 => some (0xE0010, [(Reg.HU_CFG0.EFF, 50, 100), (Reg.HU_CFG0.PDRY, 50, 1000)])
  | 0x0D04 => some (0xE0014, [(Reg.HU_CFG1.MARGIN, 10, 100), (Reg.HU_CFG1.DIV, 1, 63), (Reg.HU_CFG1.ITEST, 1, 255),
                              (Reg.HU_CFG1.DROP, 2, 20), (Reg.HU_CFG1.PERIOD_H, 1, 63)])
  | 0x0D05 => some (0xE0030, [(Reg.DRY_CFG.CUT_US, 0, 2000)])
  | 0x0D06 => some (0xE0080 + 4 * n, [(Reg.RST_CFG.STRETCH_MS n, 1, 200)])
  | 0x1601 => some (0x200, [])
  | _ => none

/-- The values INDEX may name under a setting (R424). -/
def settingIndex (id n : Nat) : Bool :=
  if id = 0x0D02 then decide (n < 24)
  else if id = 0x0D06 then decide (n < 5)
  else if id = 0x0910 then decide (n < 64)
  else if 0x1000 ≤ id ∧ id < 0x1100 then n == 0 || n == id - 0x1000
  else if id = 0x1401 then decide (n ≤ 4095)
  else n == 0

/-- Is the ID a setting at all, readable or writable? -/
def settingKnown (id n : Nat) : Bool :=
  (settingField id).isSome || (settingReg id n).isSome || (decide (0x1000 ≤ id) && decide (id < 0x1100)) || id == 0x1401
    || (decide (0x0530 ≤ id) && decide (id ≤ 0x0532))

/-- A word as a setting's value: RSV bits zero (R424). -/
def State.plainWord (s : State) (off : Nat) : Nat :=
  let v := s.regView off
  v - (v &&& accMask off (· == .rsv))

/-- Words as bytes, RSV bits zero. -/
def State.plainImage (s : State) (off n : Nat) : List Byte := (List.range n).flatMap (fun i => leBytes (s.plainWord (off + 4 * i)) 4)

/-- What SETTING_READ returns (R424, R486). -/
def State.settingValue (s : State) (id n : Nat) : List Byte :=
  if 0x1000 ≤ id ∧ id < 0x1100 then
    let o := 0x10000 + 32 * (id - 0x1000)
    s.plainImage o 6 ++ leBytes 0 4 ++ s.plainImage (o + 0x18) 1
  else if id = 0x1401 then
    let l := memRead s.weali.board (4 * n) (min 28 (16384 - 4 * n))
    l ++ leBytes 0 (32 - l.length)
  else if 0x0530 ≤ id ∧ id ≤ 0x0532 then s.plainImage (0x51000 + 0x400 * (id - 0x0530)) 256
  else
    let v := match settingField id, settingReg id n with
      | some (f, _, _), _ => bitsOf (s.regView (f.off + 4 * (f.lsb / 32))) (f.lsb % 32) f.width
      | _, some (off, _) => s.plainWord off
      | _, _ => 0
    leBytes v 32

/-- SETTING_READ's own checks (R424). -/
def State.settingReadCheck (c : KCmd) (_ : State) : Nat :=
  if settingKnown (c.op 0 2) (c.op 2 2) && settingIndex (c.op 0 2) (c.op 2 2) then kOk else kField

/-- SETTING_READ (R424). -/
def execSettingRead (c : KCmd) (s : State) : Res :=
  .next (s.kRun 0xC0E0 c State.settingReadCheck (fun c re s => s.doneData c re 0 (s.settingValue (c.op 0 2) (c.op 2 2))))

/-- May an LD take the assignment in the bits of HP_LD_CFG (R229, R230): at most 16 LDs and one of each LD-ID on a head, 32
HDM-DB LDs, and none made HDM-DB on a head trained with 68-byte flits? Stores under way count as made. -/
def State.ldCfgOk (s : State) (n new : Nat) : Bool :=
  let others := (List.range 64).filter (· != n)
  let cfg := fun m => s.storedWord (0xA0100 + 4 * m)
  let h := bitsOf new 0 3
  let mates := others.filter (fun m => bitsOf (cfg m) 0 3 == h)
  let fresh := bitAt new 7 && !bitAt (cfg n) 7
  decide (mates.length < 16) && !mates.any (fun m => bitsOf (cfg m) 3 4 == bitsOf new 3 4)
    && (!fresh || (decide ((others.filter (fun m => bitAt (cfg m) 7)).length < 32)
      && !(s.flag (Reg.HP_HEAD_STAT.LINK_UP h) && !s.flag (Reg.HP_HEAD_STAT.FLIT256 h))))

/-- The bits of a word that a setting writes. -/
def settableMask (off : Nat) : Nat := accMask off (fun a => a == .rw || a == .rwp || a == .rwl)

/-- Checks of a setting that is one field (R174, R424, R451). -/
def State.settingFieldStatus (s : State) (id v : Nat) (f : Field) (lo hi : Nat) : Nat :=
  let top := if id = 0x0703 then v else s.getF Reg.MAP_CONFIG.TOP_MIN
  let base := if id = 0x0704 then v else s.getF Reg.MAP_CONFIG.BASE_MAX
  if 2 ^ f.width ≤ v ∨ v < lo ∨ hi < v then kField
  else if (id = 0x0703 ∨ id = 0x0704) ∧ top ≤ base then kField
  else if s.anyFrozen [(f, v)] then kLock
  else kOk

/-- Checks of a setting that is a register (R13, R229, R230, R367, R424, R447, R451). -/
def State.settingRegStatus (s : State) (id n v off : Nat) (l : List (Field × Nat × Nat)) : Nat :=
  if 2 ^ 32 ≤ v ∨ v &&& accMask off (· == .rsv) ≠ 0 then kField
  else if l.any (fun (f, lo, hi) => decide (bitsOf v f.lsb f.width < lo) || decide (hi < bitsOf v f.lsb f.width)) then kField
  else if id = 0x0D05 ∧ bitsOf v 21 10 ≤ bitsOf v 11 10 then kField
  else if id = 0x0910 ∧ !s.ldCfgOk n v then kField
  else if id = 0x0D02 ∧ s.flag Reg.REG_LOCK.PWR_LOCK then kLock
  else if s.frozen off then kLock
  else kOk

/-- Checks of a queue setting (R398, R399, R413, R424): the ranges of the register table when the queue is to be created. -/
def State.settingQueueStatus (c : KCmd) (s : State) (q v : Nat) : Nat :=
  let o := 0x10000 + 32 * q
  let self := match c.src with | .queue n _ => n.val == q | _ => false
  let bad := (List.range 6).any (fun i => (v >>> (32 * i)) % 2 ^ 32 &&& accMask (o + 4 * i) (· == .rsv) != 0)
  let ctrl := bitsOf v 128 32
  let size := fun x => decide (4 ≤ x) && decide (x ≤ 12)
  if self || decide (2 ^ 192 ≤ v) || bad then kField
  else if bitAt ctrl 24 && s.getF (Reg.KQ_CTRL.ENABLE q) == 0
      && (!size (bitsOf ctrl 0 4) || !size (bitsOf ctrl 4 4) || decide (bitsOf ctrl 14 6 < 2)) then kField
  else kOk

/-- The six words of a queue pair written: ignored but for ENABLE and FORCE while the pair is enabled, and the pair created or
deleted as ENABLE says (R413, R414). -/
def State.queueWords (s : State) (q : Nat) (v : Nat) : State :=
  let o := 0x10000 + 32 * q
  let ctrl := bitsOf v 128 32
  let on := s.flag (Reg.KQ_CTRL.ENABLE q)
  let en := bitAt ctrl 24
  if on && en then s
  else if on then s.queueDelete q (bitAt ctrl 25)
  else
    let s := (List.range 6).foldl (fun s i =>
      let m := accMask (o + 4 * i) (· == .rw) - (if i = 4 then accMask (o + 16) (· == .rw) &&& 2 ^ 24 else 0)
      s.setWord (o + 4 * i) (setMask (s.word (o + 4 * i)) m (bitsOf v (32 * i) 32))) s
    if en then s.queueCreate q else s

/-- VALUE of SETTING_WRITE. -/
def settingVal (c : KCmd) : Nat := c.op 4 28

/-- SETTING_WRITE's own checks (R424, R451, R476, R486). -/
def State.settingWriteCheck (c : KCmd) (s : State) : Nat :=
  let id := c.op 0 2
  let n := c.op 2 2
  let v := settingVal c
  if !settingKnown id n || !settingIndex id n || id == 0x1601 || (decide (0x0530 ≤ id) && decide (id ≤ 0x0532)) then kField
  else if 0x1000 ≤ id ∧ id < 0x1100 then s.settingQueueStatus c (id - 0x1000) v
  else if id = 0x1401 then (if 100000 ≤ mget 0 s.weali.writes (256 + n / 16) then kLock else kOk)
  else match settingField id, settingReg id n with
    | some (f, lo, hi), _ => s.settingFieldStatus id v f lo hi
    | _, some (off, l) => s.settingRegStatus id n v off l
    | _, _ => kField

/-- SETTING_WRITE's effect (R416, R424, R476). -/
def State.settingWriteAct (c : KCmd) (re : CmdSrc) (s : State) : State :=
  let id := c.op 0 2
  let n := c.op 2 2
  let v := settingVal c
  if 0x1000 ≤ id ∧ id < 0x1100 then (s.queueWords (id - 0x1000) v).done re 0 []
  else if id = 0x1401 then
    let x : Nat × List Byte × Option CmdSrc := (4 * n, leBytes v 28, some re)
    { s with weali := { s.weali with boardOps := s.weali.boardOps ++ [x] } }
  else match settingField id, settingReg id n with
    | some (f, _, _), _ => s.cmdSet [(f, v)] re
    | _, some (off, _) => (s.rwpWrite off (settableMask off) v (some re)).cmdStored re 0 []
    | _, _ => s

/-- SETTING_WRITE (R424). -/
def execSettingWrite (c : KCmd) (s : State) : Res := .next (s.kRun 0xC0E1 c State.settingWriteCheck State.settingWriteAct)

/-! ### LOG_SNAPSHOT, SAMPLE_CONFIG and COUNTER_CONFIG (R433) -/

/-- LOG_SNAPSHOT's own checks (R433, R501). -/
def State.logSnapshotCheck (c : KCmd) (s : State) : Nat :=
  match c.op 0 1 with
  | 0 => if c.op 8 1 = 0 then kField else kOk
  | 1 => if (s.sillClear (c.op 12 8)).isSome then kOk else kField
  | _ => kField

/-- LOG_SNAPSHOT's effect: at most COUNT records from SEQ FIRST on, or a clear (R433, R501, R502). -/
def State.logSnapshotAct (c : KCmd) (re : CmdSrc) (s : State) : State :=
  if c.op 0 1 = 0 then
    let l := (s.tally.sill.recs.filter (fun x => decide (c.op 4 4 ≤ x.1))).take (c.op 8 1)
    s.doneData c re l.length (l.flatMap (fun x => leBytes x.2 256))
  else ((s.sillClear (c.op 12 8)).getD s).done re 0 []

/-- LOG_SNAPSHOT (R433, R501, R502). -/
def execLogSnapshot (c : KCmd) (s : State) : Res := .next (s.kRun 0xC0F0 c State.logSnapshotCheck State.logSnapshotAct)

/-- SAMPLE_CONFIG's own checks (R433). -/
def State.sampleConfigCheck (c : KCmd) (_ : State) : Nat :=
  if 1 < c.op 0 1 then kField
  else if c.op 0 1 = 0 ∧ (1 < c.op 1 1 ∨ 20 < c.op 2 1 ∨ 0x40 < c.op 3 1) then kField
  else kOk

/-- SAMPLE_CONFIG's effect: the sampling set or the record dropped, then records copied (R497, R498). -/
def State.sampleConfigAct (c : KCmd) (re : CmdSrc) (s : State) : State :=
  let s := if c.op 0 1 = 1 then s.sampleDrop
    else
      let old := s.flag Reg.SAMPLE_CTRL.ENABLE
      let s := ((s.setF Reg.SAMPLE_CTRL.ENABLE (c.op 1 1)).setF Reg.SAMPLE_CTRL.RATE_LOG (c.op 2 1)).setF Reg.SAMPLE_CTRL.LD (c.op 3 1)
      s.sampleEnable old (c.op 1 1 == 1)
  let n := match re with | .queue _ _ => c.dlen.toNat / 64 | _ => 0
  let (l, s) := s.sampleCopy n
  s.done re (l.length + s.tally.sample.lost * 2 ^ 13) (l.flatMap (fun r => leBytes r 64))

/-- SAMPLE_CONFIG (R433, R498). -/
def execSampleConfig (c : KCmd) (s : State) : Res := .next (s.kRun 0xC0F1 c State.sampleConfigCheck State.sampleConfigAct)

/-- The persistent values of COUNTER_CONFIG. -/
def counterItems (c : KCmd) : List (Field × Nat) :=
  [(Reg.TALLY_CFG.WINDOW_MS, c.op 4 4), (⟨0x1010, c.op 8 1, 1⟩, b2n (bitAt (c.op 9 1) 0))]

/-- COUNTER_CONFIG's own checks (R433). -/
def State.counterConfigCheck (c : KCmd) (s : State) : Nat :=
  if 17 < c.op 0 1 ∨ 7 < c.op 1 1 ∨ c.op 4 4 = 0 ∨ 10000 < c.op 4 4 ∨ 64 ≤ c.op 8 1 then kField
  else if s.anyFrozen (counterItems c) then kLock
  else kOk

/-- COUNTER_CONFIG's effect: the counter's value before any clear is its result (R490, R491). -/
def State.counterConfigAct (c : KCmd) (re : CmdSrc) (s : State) : State :=
  let b := c.op 0 1
  let k := c.op 1 1
  let v := s.counter b k
  let s := s.setChain b (k / 2) (bitAt (c.op 2 1) 0)
  let s := if bitAt (c.op 2 1) 1 then s.clearCounter b k else s
  s.cmdSet (counterItems c) re v

/-- COUNTER_CONFIG (R433, R490, R491). -/
def execCounterConfig (c : KCmd) (s : State) : Res := .next (s.kRun 0xC0F2 c State.counterConfigCheck State.counterConfigAct)

end Sys2Proof.Machine
end

