-- ==== Sys2Proof/Machine/KelricMaint.lean ====
section
/-!
DEFINITION. The Kelric commands of self-tests, patches and the lifecycle (spec/17, R425 to R432; spec/08, R218 and R219;
spec/20, R480).
-/

namespace Sys2Proof.Machine

/-! ### Self-tests (R425 to R427) -/

/-- Tests running (R426). -/
def State.testsRunning (s : State) : List SelfTest := s.maint.tests.filter (fun t => t.state == 1)

/-- Is an LD offline for MEDIA_PATTERN: no committed decoder, no accepted DC extent, no cask domain (R426)? -/
def State.ldOffline (s : State) (ld : Nat) : Bool :=
  !(List.range 4).any (fun d => match s.host.decoders.find? (fun x => x.1 == 4 * ld + d) with
    | some (_, x) => x.committed
    | none => false)
    && !s.host.dcExtents.any (fun x => x.1 == ld)
    && !s.cask.doms.any (fun (_, d) => d.state != 0 && d.ldMask.getLsbD ld)

/-- SELF_TEST's own checks (R425, R426). -/
def State.selfTestCheck (c : KCmd) (s : State) : Nat :=
  let v := c.op 0 1
  let scope := c.op 4 4
  if v = 0 ∨ 7 < v ∨ 25 < c.op 1 1 ∨ (v = 5 ∧ 3 ≤ scope) ∨ (v = 7 ∧ 64 ≤ scope) then kField
  else if s.testsRunning.any (fun t => t.variant == v) ∨ 4 ≤ s.testsRunning.length then kBusy
  else if v = 7 ∧ !s.ldOffline scope then kBusy
  else if v = 6 ∧ s.maint.activating.isSome then kBusy
  else kOk

/-- The key index of a test: the queue's, or that of the LD on a path (R399, R425). -/
def State.testKey (s : State) (src : CmdSrc) : Nat :=
  match src with
  | .queue q _ => s.getF (Reg.KQ_KEY.KEYIDX q.val)
  | _ => match s.cmdLd src with | some ld => s.ldKey ld | none => 0

/-- A discard of every segment of an LD's static capacity that a test waits for (R425, R427); `why` is 2^20 + 64 + TEST_ID. -/
def State.testDiscard (s : State) (id ld : Nat) (secure : Bool) : State :=
  s.discardNow .segments secure (s.ldRuns ld (fun b => b.kind == 1)) none false (2 ^ 20 + 64 + id) 0

/-- SELF_TEST's effect: the test is under way; MEDIA_PATTERN discards its LD first (R425). -/
def State.selfTestAct (c : KCmd) (re : CmdSrc) (s : State) : State :=
  let v := c.op 0 1
  let id := s.maint.nextTest
  let t : SelfTest := { id := id, variant := v, cap := if c.op 1 1 = 0 then 5 else c.op 1 1, scope := if v = 6 then 64 else c.op 4 4,
                        key := s.testKey c.src, state := 1, ft := s.ft,
                        runs := if v = 7 then s.ldRuns (c.op 4 4) (fun b => b.kind == 1) else [] }
  let s := s.modMaint (fun m => { m with tests := m.tests.filter (fun x => x.id != id) ++ [t], nextTest := id % 255 + 1 })
  let s := if v = 7 then s.testDiscard id (c.op 4 4) false else if v = 4 then s.calStart else s
  s.done re id []

/-- SELF_TEST (R425, R426). -/
def execSelfTest (c : KCmd) (s : State) : Res := .next (s.kRun 0xC0B0 c State.selfTestCheck State.selfTestAct)

/-- A test changed. -/
def State.modTest (s : State) (id : Nat) (f : SelfTest → SelfTest) : State :=
  s.modMaint (fun m => { m with tests := lupd (fun t => t.id == id) f m.tests })

/-- The state a test ends in: aborted, failed, or passed. -/
def SelfTest.final (t : SelfTest) : Nat := if t.aborting then 4 else if t.errors.isEmpty then 2 else 3

/-- What the faults a test found bring: a memory word is remapped, a cipher unit that fails its known answers is retired, a former
supervisor engine that passes becomes a spare again (R425, R426, R459, R466, R517). -/
def State.testFaults (s : State) (t : SelfTest) : State :=
  match t.variant with
  | 2 =>
    let bad := (t.errors.map (fun e => e.point.toNat)).eraseDups.length
    s.setF Reg.AVAIL_STAT.CIPHER_UNITS (s.getF Reg.AVAIL_STAT.CIPHER_UNITS - bad)
  | 3 => (t.errors.filter (fun e => decide (e.point.toNat < 640))).foldl (fun s e => s.macroWord e.point.toNat (e.addr.toNat % 16384)) s
  | 6 =>
    if 64 ≤ t.scope then s
    else if t.errors.isEmpty then s.engBack t.scope
    else s.modEng (fun x => { x with testing := x.testing.filter (· != t.scope) })
  | _ => s

/-- The self-test key of an index: its root's "PGST" output (R206). -/
def State.loopKey (s : State) (idx : Nat) : BitVec 256 := kdf (s.key idx).root labelST idx 0

/-- The loopback tile of DATAPATH, encrypted and decrypted under the self-test key of the queue's or LD's index and never stored, is an
error where it does not come back (R17, R399, R425). -/
def State.loopback (s : State) (t : SelfTest) : List TestError :=
  if t.variant ≠ 1 then []
  else
    let f : FieldBlock := { tag := 0, wcount := 0, keyver := 0, poison := 0, discard := false, fmt := 1, achk := 0 }
    let want := Config.patternTile 0
    let (c, f) := sealTile (s.loopKey t.key) 0 0 0 f want
    if openTile (s.loopKey t.key) 0 0 0 f c = some want then []
    else [{ point := 2, addr := 0, expected := tileCrc want 0, found := tileCrc c 0 }]

/-- SELF_TEST_END (R425, R427): a test has finished or reached the point where it stops; MEDIA_PATTERN first discards its LD under
SECURE_DEFAULT. -/
def execSelfTestEnd (id : BitVec 8) (errors : List TestError) (s : State) : Res :=
  match s.maint.tests.find? (fun t => t.id == id.toNat && t.state == 1) with
  | none => .next s
  | some t =>
    let t := { t with errors := t.errors ++ s.loopback t ++ errors, ft := s.ft }
    if t.variant = 7 then
      let s := s.modTest t.id (fun _ => { t with disc := some s.map.discNext })
      .next (s.testDiscard t.id t.scope (s.flag Reg.MAP_CONFIG.SECURE_DEFAULT))
    else .next ((s.modTest t.id (fun _ => { t with state := t.final })).testFaults t)

/-- SELF_TEST_STATUS's record of an error (R427). -/
def testRecord (t : SelfTest) (e : TestError) : List Byte :=
  leBytes e.point.toNat 4 ++ leBytes e.addr.toNat 8 ++ leBytes t.ft 8 ++ leBytes e.expected.toNat 4 ++ leBytes e.found.toNat 4 ++ leBytes 0 4

/-- An abort: at once where no tile is under way, otherwise at the test's next tile (R427). Variants 2, 3 and 6 move no tile. -/
def State.testAbort (s : State) (t : SelfTest) : State :=
  if t.state ≠ 1 then s
  else if t.variant = 2 ∨ t.variant = 3 ∨ t.variant = 6 then s.modTest t.id (fun t => { t with state := 4, aborting := true, ft := s.ft })
  else s.modTest t.id (fun t => { t with aborting := true })

/-- SELF_TEST_STATUS answers; the per cent done of a test that has not passed is a free value. -/
def State.selfTestStatusAct (c : KCmd) (re : CmdSrc) (s : State) : State :=
  match s.maint.tests.find? (fun t => t.id == c.op 0 1) with
  | none => s.doneData c re 0 []
  | some t0 =>
    let s := if bitAt (c.op 1 1) 0 then s.testAbort t0 else s
    let t := (s.maint.tests.find? (fun t => t.id == c.op 0 1)).getD t0
    let (r, s) := s.draw
    let pct := if t.state = 2 then 100 else r % 101
    s.doneData c re (t.state + pct * 2 ^ 4 + min t.errors.length (2 ^ 32 - 1) * 2 ^ 11) ((t.errors.take 16).flatMap (testRecord t))

/-- SELF_TEST_STATUS (R427). -/
def execSelfTestStatus (c : KCmd) (s : State) : Res := .next (s.kRun 0xC0B1 c (fun _ _ => kOk) State.selfTestStatusAct)

/-! ### Patches (R428 to R431) -/

/-- Bytes as a number, byte 0 highest. -/
def beNat (l : List Byte) : Nat := l.foldl (fun a b => 256 * a + b.toNat) 0

/-- The check of a whole image: 0, or its STAGE_RESULT (R428, R429). -/
def imageResult (l : List Byte) (svnMin : Nat) : Nat :=
  let body := l.drop 256
  if l.length < 256 then 6
  else if beNat (l.take 4) ≠ 0x50474B50 ∨ leAt l 4 2 ≠ 1 ∨ ((l.drop 160).take 96).any (· != 0) then 1
  else if leAt l 6 2 ≠ 0x0302 then 2
  else if body.length < leAt l 12 4 then 6
  else if leAt l 12 4 < body.length then 1
  else if (sha384 body).toNat ≠ beNat ((l.drop 16).take 48) then 3
  else if !Config.patchSigned (l.take 160) then 4
  else if leAt l 10 2 < svnMin then 5
  else 0

/-- The checks of a staging: BUSY while an activation runs, the slot's limit of stagings, and parts contiguous and ascending within
262,144 bytes (R429, R480). -/
def State.stageStatus (s : State) (action off : Nat) (data : List Byte) : Nat :=
  let held := (s.maint.staging.getD []).length
  if s.maint.activating.isSome then kBusy
  else if 4 < action ∨ off % 128 ≠ 0 then kField
  else if action ≤ 1 then (if off ≠ 0 ∨ 262144 < data.length then kField else kOk)
  else if action = 4 then kOk
  else if s.maint.staging.isNone ∨ off ≠ held ∨ 262144 < held + data.length then kField
  else kOk

/-- STAGED is overwritten: one more staging of its slot, with the events of R480. -/
def State.stagedClear (s : State) : State :=
  let n := s.maint.staged.stagings + 1
  let s := s.modMaint (fun m => { m with staged := { stagings := n }, stageResult := 0 })
  if n = 90000 then s.event (mkEv .warning 16 3 .limit) none
  else if n = 100000 then s.event (mkEv .critical 16 3 .limit) none else s

/-- The whole image is checked and staged, or the failure is told in STAGE_RESULT (R429). -/
def State.stageCheck (s : State) (l : List Byte) : Nat × State :=
  let r := imageResult l s.maint.svnMin
  let go := fun (m : MaintSt) =>
    let p := { m.staged with bytes := l, level := leAt l 8 2, svn := leAt l 10 2, checked := true }
    { m with staging := none, stageResult := r, staged := if r = 0 then p else m.staged }
  (if r = 0 then kOk else kField, s.modMaint go)

/-- A part is staged; answers the status its command ends with (R429, R480). -/
def State.stagePart (s : State) (action : Nat) (data : List Byte) : Nat × State :=
  if action = 4 then (kOk, s.modMaint (fun m => { m with staging := none }))
  else if action ≤ 1 ∧ 100000 ≤ s.maint.staged.stagings then (kField, s.modMaint (fun m => { m with stageResult := 7 }))
  else
    let s := s.pageWrites ((data.length + 63) / 64)
    let s := if action ≤ 1 then s.stagedClear else s
    let l := (if action ≤ 1 then [] else s.maint.staging.getD []) ++ data
    if action = 0 ∨ action = 3 then s.stageCheck l
    else (kOk, s.modMaint (fun m => { m with staging := some l }))

/-- PATCH_STAGE's own checks (R415, R429). -/
def State.patchStageCheck (c : KCmd) (s : State) : Nat :=
  let short := match c.src with | .queue _ _ => c.dlen.toNat != c.data.length | _ => false
  if short then kData else s.stageStatus (c.op 0 1) (c.op 4 4) c.data

/-- PATCH_STAGE's effect. -/
def State.patchStageAct (c : KCmd) (re : CmdSrc) (s : State) : State :=
  let (st, s) := s.stagePart (c.op 0 1) c.data
  s.respond re st 0 0 []

/-- PATCH_STAGE (R429). -/
def execPatchStage (c : KCmd) (s : State) : Res := .next (s.kRun 0xC0C0 c State.patchStageCheck State.patchStageAct)

/-- May STAGED be activated (R430)? -/
def State.activateStatus (s : State) : Nat :=
  if !s.maint.staged.checked then kField
  else if s.maint.staging.isSome ∨ s.maint.activating.isSome then kBusy
  else if s.testsRunning.any (fun t => t.variant == 6) ∨ !s.eng.moves.isEmpty then kBusy
  else if s.spares.length < 2 then kBusy
  else kOk

/-- The activation starts; PATCH_ROUND_END carries its rounds on (R430). -/
def State.activateGo (s : State) (commit : Bool) (src : CmdSrc) : State :=
  s.modMaint (fun m => { m with activating := some commit, back := false, moved := [], actSrc := some src })

/-- PATCH_ACTIVATE (R430). -/
def execPatchActivate (c : KCmd) (s : State) : Res :=
  .next (s.kRun 0xC0C1 c (fun _ s => s.activateStatus) (fun c re s => s.activateGo (bitAt (c.op 0 1) 0) re))

/-- RESULT of PATCH_STATUS (R431). -/
def State.patchResult (s : State) : Nat :=
  let m := s.maint
  let st := if m.activating.isSome then 2 else if m.staging.isSome then 1 else 0
  s.patchLevel % 2 ^ 16 + (if m.staged.checked then m.staged.level % 2 ^ 16 else 0) * 2 ^ 16 + st * 2 ^ 32
    + m.moved.length % 64 * 2 ^ 34 + m.stageResult * 2 ^ 40 + m.svnMin % 2 ^ 16 * 2 ^ 43

/-- PATCH_STATUS (R431). -/
def execPatchStatus (c : KCmd) (s : State) : Res := .next (s.kRun 0xC0C2 c (fun _ _ => kOk) (fun c re s => s.doneData c re s.patchResult []))

/-! ### LIFECYCLE_SET (R219, R432, R434) -/

/-- The transitions of R219. -/
def lifecycleOk (now target : Nat) : Bool :=
  (now == 0 && target == 1) || (now == 1 && target == 2) || (now == 2 && target == 1) || (target == 3 && now != 3)

/-- LIFECYCLE_SET's own checks (R219, R432). -/
def State.lifecycleSetCheck (c : KCmd) (s : State) : Nat :=
  let t := c.op 0 1
  if 3 < t ∨ c.op 1 1 ≠ (if t = 3 then 0xD5 else 0) then kField
  else match s.session (s.cmdLd c.src) (c.op 4 4) with
    | none => kNoSession
    | some x =>
      if !x.withMutual then kNoSession
      else if !lifecycleOk s.keys.lifecycle t then kLifecycle
      else if s.keys.lcWait.isSome then kBusy
      else kOk

/-- Has the cache nothing left to clean (R219)? -/
def State.cacheClean (s : State) : Bool :=
  !s.hostWays.any (fun (_, _, y) => y.dirty != 0 && !y.pin) && s.cache.mash.isEmpty && !s.progs.list.any (fun p => p.why.user? && p.why != .pinned)

/-- LIFECYCLE_SET (R219, R432, R434): nothing new is fetched until the transition. -/
def execLifecycleSet (c : KCmd) (s : State) : Res :=
  .next (s.kRun 0xC0D0 c State.lifecycleSetCheck
    (fun c re s => ({ s with keys := { s.keys with lcWait := some (c.op 0 1, re) } } : State).lcAdvance))

/-- The default root (R205, R206). -/
def State.defaultRoot (s : State) : BitVec 256 := kdf Config.drs labelD0 s.keys.dgen 0

/-- The context a key-table record gives at a start: a persistent root VALID, a volatile one LOCKED, and a rotation found again
(R208, R215, R217). -/
def KeyRec.ctx (r : KeyRec) : KeyCtx :=
  let rot := r.succ.isSome
  match r.root with
  | some k => { root := k, valid := true, persist := true, rotating := rot, succ := r.succ.getD 0, kcv := r.kcv }
  | none => { locked := true, rotating := rot, succ := r.succ.getD 0, kcv := r.kcv }

/-- The key store after a start or a transition: the default root and the table's indexes; none in DECOMMISSIONED (R206, R208,
R218, R219). -/
def State.keysRestore (s : State) : State :=
  if s.keys.fuse then s
  else
    let k0 : KeyCtx := { root := s.defaultRoot, valid := true, persist := true, kcv := kcvOf s.defaultRoot 0 }
    let s := s.setKey 0 k0
    s.keys.table.foldl (fun s (i, r) => if i = 0 then s else s.setKey i r.ctx) s

/-- The key store is wiped (R219): contexts, derived keys, transport KEKs with their sessions, the staged root. -/
def State.keysWipe (s : State) : State :=
  let s := s.endSessions (fun _ => true)
  { s with keys := { s.keys with ctx := [], derived := [], sessions := [], staged := 0 } }

/-- DGEN and RGEN advance (R219). -/
def State.genAdvance (s : State) : State := { s with keys := { s.keys with dgen := s.keys.dgen + 1, rgen := s.keys.rgen + 1 } }

/-- The transition is recorded (R219, R247, R432); `restart` is owed a reset flush and a cold start. -/
def State.lcTransit (s : State) (t : Nat) : State :=
  let was := s.keys.lifecycle
  let s := s.keysWipe
  let s : State := { s with keys := { s.keys with lifecycle := t, lcWait := none } }
  let s := (s.setF Reg.CIPHER_STATUS.LIFECYCLE t).pageWrites 1
  if t = 3 then
    let s : State := { s with keys := { s.keys with fuse := true, table := [], holdWrites := false } }
    let s := s.modHost (fun h => { h with memActive := false })
    ((List.range 64).foldl (fun s ld => s.dropDecoders ld) s).pump
  else if was = 1 then
    ({ s with keys := { s.keys with holdWrites := false } } : State).keysRestore.pump
  else
    let s := s.genAdvance
    let s := if was = 2 then
        let s : State := { s with keys := { s.keys with table := [] } }
        let mapped := (s.map.entries.filter (fun (_, e) => e.state != stDiscarded)).map (·.1)
        mapped.foldl (fun s l => s.discSegment l false) s
      else s
    s.modPower (fun p => { p with restart := true })

/-- The reset flush and cold start that a transition owes (R379, R432). -/
def State.restartNow (s : State) : State :=
  let s := (s.modPower (fun p => { p with restart := false })).resetOut 4 true
  if s.power.seq == .on && s.host.memActive && !s.keys.wiped then (s.startDry 0 true false).dryCut
  else (s.modPower (fun p => { p with why := 2, dscDone := false })).lowerStart .idle true

/-- A transition that waits is made once nothing is in flight and the cache is clean; its command completes (R219, R432). -/
def State.lcFinish (s : State) : State :=
  let s := s.lcAdvance
  match s.keys.lcWait with
  | some (t, src) => if s.keys.holdWrites && s.cacheClean then (s.lcTransit t).done src 0 [] else s
  | none => s

/-! ### The timed-action queue (R325 to R327) -/

/-- A timed command's checks are repeated and it is carried out (R326). -/
def State.timedRun (s : State) (opc : Nat) (c : KCmd) (src : CmdSrc) (check : KCmd → State → Nat)
    (act : KCmd → CmdSrc → State → State) : State :=
  let st := s.kGate opc c
  let st := if st = kOk then check c s else st
  if st = kOk then act c src s else s.fail src st

/-- A timed command is carried out under its handle by its opcode (R325, R326). -/
def State.runTimed (s : State) (opc : Nat) (c : KCmd) (h : Nat) : State :=
  let src : CmdSrc := .timed (BitVec.ofNat 16 h)
  match opc with
  | 0xC010 => s.timedRun opc c src State.cacheEnableCheck State.cacheEnableAct
  | 0xC011 => s.timedRun opc c src State.cacheDisableCheck State.cacheDisableAct
  | 0xC030 =>
    let st := s.kGate opc c
    if st = kOk then s.keyLoadLate c src else (s.unreserve (c.op 0 3)).fail src st
  | 0xC032 => s.timedRun opc c src State.keyBindCheck State.keyBindAct
  | 0xC040 => s.timedRun opc c src State.patrolSetCheck State.patrolSetAct
  | 0xC042 => s.timedRun opc c src State.scheduleSetCheck State.scheduleSetAct
  | 0xC051 => s.timedRun opc c src State.rebuildControlCheck State.rebuildControlAct
  | 0xC060 => s.timedRun opc c src State.mirrorSetCheck State.mirrorSetAct
  | 0xC070 => s.timedRun opc c src State.timeSourceCheck State.timeSourceAct
  | 0xC080 => s.timedRun opc c src State.caskConfigCheck State.caskConfigAct
  | 0xC0A0 => s.timedRun opc c src State.throttleSetCheck State.throttleSetAct
  | 0xC0E1 => s.timedRun opc c src State.settingWriteCheck State.settingWriteAct
  | _ => s

/-- An action leaves the queue and is applied; one whose AT has passed sets LATE (R326, R327). -/
def State.actionRun (s : State) (a : TimedAct) : State :=
  let s := (s.modTime (fun t => { t with actions := t.actions.filter (fun x => x.handle != a.handle) })).pageWrites 1
  let s := if a.late then s.raise Reg.TA_STAT.LATE else s
  let t := match a.what with
    | .update ws => ((s.applyStaged ws true).count 12 2 1).event { mkEv .info 12 0 .timed with detail := [a.handle, kOk] } none
    | .command opc c => s.runTimed opc c a.handle
  -- an action both late and failed is one event of counter 3 (R344)
  if a.late && t.counter 12 3 == s.counter 12 3 then t.count 12 3 1 else t

/-- The action to be applied next: the earliest AT, the first submitted among equals (R326). -/
def State.nextAction (s : State) : Option TimedAct :=
  s.time.actions.foldl (fun b a => match b with
    | none => some a
    | some x => if a.at_ < x.at_ then some a else some x) none

/-- TIMED_ACTION_DUE (R325 to R327): FT reaches the earliest AT and that action is applied; before Memory_Active actions wait. -/
def execTimedActionDue (s : State) : Res :=
  match s.nextAction with
  | none => .next s
  | some a => .next (if s.host.memActive then (if s.ft < a.at_ then s.passTo a.at_ else s).actionRun a else s)

end Sys2Proof.Machine
end

