-- ==== Sys2Proof/Machine/Mailbox.lean ====
section
/-!
DEFINITION. The mailbox and its standard commands (spec/16, R394 to R397, R410; spec/09, R231 to R240; spec/21, R503 and
R504). A command comes on an LD's mailbox or on the management bus; its payload holds the values the spec gives, in the
order given there, and what another standard fixes as `Config.stdPayload`.
-/

namespace Sys2Proof.Machine

/-- The standard opcodes the part supports (R395). -/
def stdOpcodes : List Nat :=
  [0x0001, 0x0002, 0x0003, 0x0004, 0x0005, 0x0100, 0x0101, 0x0102, 0x0103, 0x0200, 0x0201, 0x0202, 0x0300, 0x0301, 0x0400, 0x0401]
  ++ [0x4000, 0x4100, 0x4101, 0x4102, 0x4103, 0x4200, 0x4201, 0x4202, 0x4203, 0x4204, 0x4300, 0x4301, 0x4302, 0x4303, 0x4304, 0x4305,
      0x4400, 0x4401, 0x4800, 0x4801, 0x4802, 0x4803]

/-- MAILBOX_DOORBELL (R394, R395): the path takes the command, or answers at once: Busy while it holds one, Unsupported for an opcode
that is none of the part's, Invalid Input for a payload above 64 KiB. Before the mailbox stage of the start nothing answers. -/
def execMailboxDoorbell (path : MboxPath) (opc : BitVec 16) (len : BitVec 21) (s : State) : Res :=
  let p := pathNo path
  let o := opc.toNat
  if !s.host.mailbox then .next s
  else if (mget {} s.host.mbox p).busy then .next (s.emit (.mbox p o .busy []))
  else
    let m : MboxSt := { busy := true, opc := o, len := len.toNat, at_ := s.ft }
    let s := { s with host := { s.host with mbox := mset {} s.host.mbox p m } }
    if !stdOpcodes.contains o && !kOpcodes.contains o then .next (s.endPath p .unsupported [])
    else if 65536 < len.toNat then .next (s.endPath p .invalidInput [])
    else .next s

/-! ### What every standard command shares -/

/-- The LD a path names; none for a head's FM-owned LD (R394). -/
def pathLd : MboxPath → Option Nat
  | .mailbox ld => some ld.val
  | .mgmt ld => some ld.val
  | .mgmtFm _ => none

/-- A standard command is carried out on its path: Busy while the path holds another, DRYDOWN's Busy during a drydown but for Get
Health Info (R394, R406, R410). -/
def State.stdRun (s : State) (path : MboxPath) (opc : Nat) (f : Nat → State → State) : State :=
  let p := pathNo path
  if !s.host.mailbox then s
  else if s.pathBusy p opc then s.emit (.mbox p opc .busy [])
  else
    let s := s.kMark (.path path) opc
    if s.inDrydown && opc != 0x4200 then s.endPath p (rcOf kDrydown) [] else f p s

/-- A standard command of an LD: a head's FM-owned LD answers Unsupported. -/
def State.ldRun (s : State) (path : MboxPath) (opc : Nat) (f : Nat → Nat → State → State) : State :=
  s.stdRun path opc (fun p s => match pathLd path with
    | some ld => f p ld s
    | none => s.endPath p .unsupported [])

/-- A standard command that runs as a background operation: Busy while the LD function holds one (R397). -/
def State.bgRun (s : State) (p opc : Nat) (f : State → State) : State :=
  if s.bgHeld p then s.endPath p .busy [] else f (s.startBg p opc)

/-- The static capacity of an LD in bytes (R232). -/
def State.capacity (s : State) (ld : Nat) : Nat := s.staticBlocks ld * 2 ^ 28

/-! ### General commands -/

/-- IDENTIFY (R395): component type memory device. -/
def execIdentify (path : MboxPath) (s : State) : Res :=
  .next (s.stdRun path 0x0001 (fun p s => s.endPath p .success (Config.stdPayload 0x0001 0 ++ leBytes 3 1)))

/-- The number of a return code in the order of `Rc`. -/
def Rc.code : Rc → Nat
  | .success => 0 | .started => 1 | .invalidInput => 2 | .unsupported => 3 | .internalError => 4 | .busy => 5 | .aborted => 6

/-- BACKGROUND_OPERATION_STATUS (R395, R397): running, per cent done as a free value, the opcode and its return code. -/
def execBackgroundOperationStatus (path : MboxPath) (s : State) : Res :=
  .next (s.stdRun path 0x0002 (fun p s =>
    let b := mget {} s.host.bgs (pathFn p)
    let (r, s) := s.draw
    let pct := if b.opc = 0 then 100 else r % 101
    s.endPath p .success (leBytes (b2n (b.opc != 0) + 2 * pct) 1 ++ leBytes 0 1 ++ leBytes (if b.opc = 0 then b.lastOpc else b.opc) 2
      ++ Config.stdPayload 0x0002 b.lastRc.code)))

/-- Is a path the management bus? -/
def mgmtPath : MboxPath → Bool
  | .mailbox _ => false
  | _ => true

/-- GET_RESPONSE_MESSAGE_LIMIT (R395): management bus only; the limit as a power of two. -/
def execGetResponseMessageLimit (path : MboxPath) (s : State) : Res :=
  .next (s.stdRun path 0x0003 (fun p s =>
    if mgmtPath path then s.endPath p .success (leBytes (mget 16 s.host.msgLimit p) 1) else s.endPath p .unsupported []))

/-- SET_RESPONSE_MESSAGE_LIMIT (R395): 256 bytes to 64 KiB. -/
def execSetResponseMessageLimit (path : MboxPath) (log2 : BitVec 8) (s : State) : Res :=
  .next (s.stdRun path 0x0004 (fun p s =>
    if !mgmtPath path then s.endPath p .unsupported []
    else if log2.toNat < 8 ∨ 16 < log2.toNat then s.endPath p .invalidInput []
    else (s.modHost (fun h => { h with msgLimit := mset 16 h.msgLimit p log2.toNat })).endPath p .success (leBytes log2.toNat 1)))

/-- A scan of an LD stops. -/
def State.scanStop (s : State) (ld : Nat) : State := s.modHost (fun h => { h with scans := mset (0, 0, 0) h.scans ld (0, 0, 0) })

/-- REQUEST_ABORT_BACKGROUND_OP (R395): a Scan Media is aborted; for any other operation Aborted is returned without effect. -/
def execRequestAbortBackgroundOp (path : MboxPath) (s : State) : Res :=
  .next (s.stdRun path 0x0005 (fun p s =>
    let b := mget {} s.host.bgs (pathFn p)
    if b.opc = 0x4304 then ((s.scanStop (pathFn p)).endBg b.path .aborted []).endPath p .success []
    else s.endPath p (if b.opc = 0 then .success else .aborted) []))

/-! ### Event records (R395, R503, R504) -/

/-- The number of a log. -/
def logCode : LogNo → Nat
  | .info => 0 | .warning => 1 | .failure => 2 | .fatal => 3 | .dynCap => 4


/-- The DPA of the first line a media record concerns, on an LD (R503). -/
def State.mediaDpa (s : State) (e : EvRec) : Nat :=
  let l := (([0, 1, 2, 3].find? (fun i => bitAt e.lines i)).getD 0)
  s.tileDpa e.ld e.addr * 256 + 64 * l

/-- A record as it is returned: its UUID, handle and timestamp, then its body (R503, R504). -/
def State.recBytes (s : State) (e : EvRec) : List Byte :=
  let hdr := fun k => Config.stdPayload 0x0100 k ++ leBytes e.handle 2 ++ leBytes e.stamp 8
  if e.media then hdr 1 ++ leBytes (s.mediaDpa e) 8 ++ Config.stdPayload 0x0100 2 else hdr 0 ++ e.body

/-- GET_EVENT_RECORDS (R395, R503): the log's overflow count and timestamps, its records' number, and the records. -/
def execGetEventRecords (path : MboxPath) (log : LogNo) (s : State) : Res :=
  .next (s.stdRun path 0x0100 (fun p s =>
    let l : EvLog := mget {} s.host.logs (5 * pathFn p + logCode log)
    s.endPath p .success (leBytes (b2n (l.overflow != 0)) 1 ++ leBytes (min l.overflow 65535) 2 ++ leBytes l.firstOver 8
      ++ leBytes l.lastOver 8 ++ leBytes l.recs.length 2 ++ l.recs.flatMap s.recBytes)))

/-- CLEAR_EVENT_RECORDS (R395): all records with the overflow, or those named by their handles; a handle the log does not hold is
Invalid Input and clears nothing. -/
def execClearEventRecords (path : MboxPath) (log : LogNo) (all : Bool) (handles : List (BitVec 16)) (s : State) : Res :=
  .next (s.stdRun path 0x0101 (fun p s =>
    let k := 5 * pathFn p + logCode log
    let l : EvLog := mget {} s.host.logs k
    let hs := handles.map (·.toNat)
    if all then (s.modHost (fun h => { h with logs := mset {} h.logs k {} })).endPath p .success []
    else if hs.any (fun x => !l.recs.any (fun r => r.handle == x)) then s.endPath p .invalidInput []
    else
      let l := { l with recs := l.recs.filter (fun r => !hs.contains r.handle) }
      (s.modHost (fun h => { h with logs := mset {} h.logs k l })).endPath p .success []))

/-- GET_EVENT_INTERRUPT_POLICY (R395): one byte for each log. -/
def execGetEventInterruptPolicy (path : MboxPath) (s : State) : Res :=
  .next (s.stdRun path 0x0102 (fun p s => s.endPath p .success (leBytes (mget 0 s.host.evPolicy (pathFn p)) 5)))

/-- SET_EVENT_INTERRUPT_POLICY (R395). -/
def execSetEventInterruptPolicy (path : MboxPath) (policy : BitVec 40) (s : State) : Res :=
  .next (s.stdRun path 0x0103 (fun p s =>
    (s.modHost (fun h => { h with evPolicy := mset 0 h.evPolicy (pathFn p) policy.toNat })).endPath p .success []))

/-! ### Firmware (R395, R428 to R430) -/

/-- GET_FW_INFO (R395): two slots, online activation supported, the level in force and the staged one. -/
def execGetFwInfo (path : MboxPath) (s : State) : Res :=
  .next (s.stdRun path 0x0200 (fun p s =>
    let staged := if s.maint.staged.checked then s.maint.staged.level else 0
    s.endPath p .success (leBytes 2 1 ++ leBytes 1 1 ++ leBytes 1 1 ++ leBytes (s.patchLevel % 65536) 2 ++ leBytes staged 2)))

/-- TRANSFER_FW (R395, R397, R429): slot 2 only, as PATCH_STAGE, offsets in units of 128 bytes. -/
def execTransferFw (path : MboxPath) (action : BitVec 8) (slot : BitVec 8) (off : BitVec 32) (data : List Byte) (s : State) : Res :=
  .next (s.stdRun path 0x0201 (fun p s =>
    if slot.toNat ≠ 2 then s.endPath p .invalidInput []
    else
      let st := s.stageStatus action.toNat (128 * off.toNat) data
      if st ≠ kOk then s.endPath p (rcOf st) []
      else s.bgRun p 0x0201 (fun s =>
        let (st, s) := s.stagePart action.toNat data
        s.endBg p (rcOf st) [])))

/-- ACTIVATE_FW (R395, R397, R430): slot 2, online only, as PATCH_ACTIVATE. -/
def execActivateFw (path : MboxPath) (action : BitVec 8) (slot : BitVec 8) (s : State) : Res :=
  .next (s.stdRun path 0x0202 (fun p s =>
    if action.toNat ≠ 0 ∨ slot.toNat ≠ 2 then s.endPath p .invalidInput []
    else if s.activateStatus ≠ kOk then s.endPath p (rcOf s.activateStatus) []
    else s.bgRun p 0x0202 (fun s => s.activateGo false (.bg path))))

/-! ### Timestamp and logs (R395) -/

/-- GET_TIMESTAMP (R395): FT plus the recorded offset. -/
def execGetTimestamp (path : MboxPath) (s : State) : Res :=
  .next (s.stdRun path 0x0300 (fun p s => s.endPath p .success (leBytes (s.stamp (pathFn p)) 8)))

/-- SET_TIMESTAMP (R395): an offset from FT is recorded; FT stays. -/
def execSetTimestamp (path : MboxPath) (t : BitVec 64) (s : State) : Res :=
  .next (s.stdRun path 0x0301 (fun p s =>
    (s.modHost (fun h => { h with tsOffset := mset 0 h.tsOffset (pathFn p) ((t.toNat : Int) - s.ft) })).endPath p .success []))

/-- The sillage log as Get Log returns it: its records, oldest first. -/
def State.sillLog (s : State) : List Byte := s.tally.sill.recs.flatMap (fun x => leBytes x.2 256)

/-- GET_SUPPORTED_LOGS (R395): the Command Effects Log and the sillage log with their sizes. -/
def execGetSupportedLogs (path : MboxPath) (s : State) : Res :=
  .next (s.stdRun path 0x0400 (fun p s =>
    s.endPath p .success (leBytes 2 2 ++ Config.stdPayload 0x0400 0 ++ leBytes (Config.stdPayload 0x0401 0).length 4
      ++ Config.stdPayload 0x0400 1 ++ leBytes (256 * s.tally.sill.recs.length) 4)))

/-- GET_LOG (R395): bytes of one of the two logs; Invalid Input outside it. -/
def execGetLog (path : MboxPath) (log : StdLog) (off : BitVec 32) (len : BitVec 32) (s : State) : Res :=
  .next (s.stdRun path 0x0401 (fun p s =>
    let give := fun (l : List Byte) =>
      if l.length < off.toNat + len.toNat ∨ 65536 < len.toNat then s.endPath p .invalidInput []
      else s.endPath p .success ((l.drop off.toNat).take len.toNat)
    match log with
    | .commandEffects => give (Config.stdPayload 0x0401 0)
    | .sillage => give s.sillLog
    | .other => s.endPath p .invalidInput []))

/-! ### Capacity, labels, health (R240, R395) -/

/-- IDENTIFY_MEMORY_DEVICE (R395): volatile capacity 0, persistent the LD's static capacity, LSA 128 KiB, poison list 4,096. -/
def execIdentifyMemoryDevice (path : MboxPath) (s : State) : Res :=
  .next (s.ldRun path 0x4000 (fun p ld s =>
    s.endPath p .success (leBytes 0 8 ++ leBytes (s.capacity ld) 8 ++ leBytes 131072 4 ++ leBytes 4096 3)))

/-- GET_PARTITION_INFO (R395): all capacity persistent. -/
def execGetPartitionInfo (path : MboxPath) (s : State) : Res :=
  .next (s.ldRun path 0x4100 (fun p ld s =>
    s.endPath p .success (leBytes 0 8 ++ leBytes (s.capacity ld) 8 ++ leBytes 0 8 ++ leBytes 0 8)))

/-- SET_PARTITION_INFO (R395): accepted without effect with volatile capacity 0 only. -/
def execSetPartitionInfo (path : MboxPath) (volatileCap : BitVec 64) (s : State) : Res :=
  .next (s.ldRun path 0x4101 (fun p _ s => s.endPath p (if volatileCap = 0 then .success else .invalidInput) []))

/-- GET_LSA (R395): 128 KiB for each LD. -/
def execGetLsa (path : MboxPath) (off : BitVec 32) (len : BitVec 32) (s : State) : Res :=
  .next (s.ldRun path 0x4102 (fun p ld s =>
    if 131072 < off.toNat + len.toNat ∨ 65536 < len.toNat then s.endPath p .invalidInput []
    else s.endPath p .success (memRead (mget [] s.host.lsa ld) off.toNat len.toNat)))

/-- SET_LSA (R395). -/
def execSetLsa (path : MboxPath) (off : BitVec 32) (data : List Byte) (s : State) : Res :=
  .next (s.ldRun path 0x4103 (fun p ld s =>
    if 131072 < off.toNat + data.length then s.endPath p .invalidInput []
    else (s.modHost (fun h => { h with lsa := mmod [] h.lsa ld (fun m => memWrite m off.toNat data) })).endPath p .success []))

/-- Media Status (R247): 0 Ready, 1 Not Ready, 2 Error with Reset Needed, 3 Disabled. -/
def State.mediaStatus (s : State) : Nat :=
  if s.keys.lifecycle = 3 then 3 else if s.keys.wipeFilled then 2 else if s.host.memActive then 0 else 1

/-- GET_HEALTH_INFO (R240, R247, R410): the media status and the Dirty Shutdown Count. -/
def execGetHealthInfo (path : MboxPath) (s : State) : Res :=
  .next (s.stdRun path 0x4200 (fun p s =>
    s.endPath p .success (leBytes s.mediaStatus 1 ++ leBytes (s.getF Reg.DSC.COUNT) 4 ++ Config.stdPayload 0x4200 0)))

/-- GET_ALERT_CONFIGURATION (R395). -/
def execGetAlertConfiguration (path : MboxPath) (s : State) : Res :=
  .next (s.ldRun path 0x4201 (fun p ld s => s.endPath p .success (leBytes (mget 0 s.host.alertCfg ld) 12)))

/-- SET_ALERT_CONFIGURATION (R395). -/
def execSetAlertConfiguration (path : MboxPath) (cfg : BitVec 96) (s : State) : Res :=
  .next (s.ldRun path 0x4202 (fun p ld s =>
    (s.modHost (fun h => { h with alertCfg := mset 0 h.alertCfg ld cfg.toNat })).endPath p .success []))

/-- GET_SHUTDOWN_STATE (R240). -/
def execGetShutdownState (path : MboxPath) (s : State) : Res :=
  .next (s.ldRun path 0x4203 (fun p ld s => s.endPath p .success (leBytes (mget 0 s.host.shutdown ld) 1)))

/-- SET_SHUTDOWN_STATE (R240): recorded; nothing else changes. -/
def execSetShutdownState (path : MboxPath) (st : BitVec 8) (s : State) : Res :=
  .next (s.ldRun path 0x4204 (fun p ld s =>
    (s.modHost (fun h => { h with shutdown := mset 0 h.shutdown ld st.toNat })).endPath p .success []))

/-! ### Poison (R237, R238) -/

/-- The DPA of a line key on an LD, when it is a home line of one of its blocks (R231, R238). -/
def State.lineDpa (s : State) (ld k : Nat) : Option Nat :=
  if k < 2 ^ 39 ∧ s.tileLd (keyTile k) = some ld then some (s.tileDpa ld (keyTile k) * 256 + k % 4 * 64) else none

/-- Line keys as DPAs of an LD in a range of `n` lines from a DPA. -/
def State.linesIn (s : State) (ld dpa n : Nat) (l : List Nat) : List Nat :=
  (l.filterMap (s.lineDpa ld)).filter (fun a => decide (dpa ≤ a) && decide (a < dpa + 64 * n))

/-- GET_POISON_LIST (R238): the overflow indication with its time, the number of lines in the range, and their DPAs. -/
def execGetPoisonList (path : MboxPath) (dpa : BitVec 64) (len : BitVec 64) (s : State) : Res :=
  .next (s.ldRun path 0x4300 (fun p ld s =>
    if dpa.toNat % 64 ≠ 0 then s.endPath p .invalidInput []
    else
      let l := s.linesIn ld dpa.toNat len.toNat (s.host.poisonList.map (·.line))
      s.endPath p .success (leBytes (b2n s.host.poisonOver) 1 ++ leBytes s.host.poisonOverAt 8 ++ leBytes l.length 2
        ++ l.flatMap (fun a => leBytes a 8))))

/-- A line of the LD is written by the part itself on behalf of a path, which is answered when the write is placed (R237, R238). -/
def State.ownWrite (s : State) (p ld dpa : Nat) (data : Line) (poison : Bool) : State :=
  if dpa % 64 ≠ 0 then s.endPath p .invalidInput []
  else if !s.host.memActive then s.endPath p .busy []
  else match s.dpaKey ld dpa with
    | some k =>
      if 2 ^ 39 ≤ k ∨ s.mirrorCopy (ltnSeg (keyTile k)) then s.endPath p .invalidInput []
      else
        let r : HReq := { src := .own ld, op := .wrI, line := k, data := data, mask := BitVec.allOnes 64, poison := poison, at_ := s.ft }
        let w : OwnWait := { first := k, count := 1, after := .path p }
        let s : State := { s with home := { s.home with owns := s.home.owns ++ [w] } }
        (s.submit r).pump
    | none => s.endPath p .invalidInput []

/-- INJECT_POISON (R237, R238). -/
def execInjectPoison (path : MboxPath) (dpa : BitVec 64) (s : State) : Res :=
  .next (s.ldRun path 0x4301 (fun p ld s => s.ownWrite p ld dpa.toNat 0 true))

/-- CLEAR_POISON (R238): the given 64 bytes as a full-line write. -/
def execClearPoison (path : MboxPath) (dpa : BitVec 64) (data : BitVec 512) (s : State) : Res :=
  .next (s.ldRun path 0x4302 (fun p ld s => s.ownWrite p ld dpa.toNat data false))

/-! ### Scan Media (R238) -/

/-- GET_SCAN_MEDIA_CAPABILITIES (R395): what the standard asks for, of an estimate the spec does not give. -/
def execGetScanMediaCapabilities (path : MboxPath) (dpa : BitVec 64) (len : BitVec 64) (s : State) : Res :=
  .next (s.ldRun path 0x4303 (fun p _ s => s.endPath p .success (Config.stdPayload 0x4303 (dpa.toNat + len.toNat * 2 ^ 64))))

/-- SCAN_MEDIA (R238, R397): the tiles of a range are read in the background; lines returned as poison before leave the list. -/
def execScanMedia (path : MboxPath) (dpa : BitVec 64) (len : BitVec 64) (s : State) : Res :=
  .next (s.ldRun path 0x4304 (fun p ld s =>
    let a := dpa.toNat
    let n := len.toNat
    if a % 64 ≠ 0 ∨ n = 0 then s.endPath p .invalidInput []
    else if !s.host.memActive then s.endPath p .busy []
    else s.bgRun p 0x4304 (fun s =>
      let first := a / 256
      let tiles := (a + 64 * n + 255) / 256 - first
      let here := fun (x : PoisonLine) => !x.scan && (match s.lineDpa ld x.line with
        | some d => decide (a ≤ d) && decide (d < a + 64 * n)
        | none => false)
      s.modHost (fun h => { h with poisonList := h.poisonList.filter (fun x => !here x), scanRes := mset [] h.scanRes ld [],
                                   scans := mset (0, 0, 0) h.scans ld (first, tiles, 0) }))))

/-- GET_SCAN_MEDIA_RESULTS (R238): the lines the scan found. -/
def execGetScanMediaResults (path : MboxPath) (s : State) : Res :=
  .next (s.ldRun path 0x4305 (fun p ld s =>
    let l := (mget [] s.host.scanRes ld).filterMap (s.lineDpa ld)
    s.endPath p .success (leBytes l.length 2 ++ l.flatMap (fun a => leBytes a 8))))

/-! ### Sanitize and Secure Erase (R395, R397) -/

/-- Every segment of the LD is discarded in the background; meanwhile its reads return poison and its writes are not stored. A segment
in a cask refuses it (R170). -/
def State.eraseLd (s : State) (p ld opc : Nat) (secure advance : Bool) : State :=
  let runs := s.ldRuns ld (fun b => b.kind != 0 && !b.releasing)
  let st := s.discCheck (lsnsOf runs)
  if !s.host.memActive then s.endPath p .busy []
  else if st ≠ kOk then s.endPath p (rcOf st) []
  else s.bgRun p opc (fun s =>
    let s := s.modHost (fun h => { h with erasing := mset 0 h.erasing ld (p + 1) })
    let id := s.map.discNext
    let s := s.discardNow .segments secure runs none false (2 ^ 20 + ld) 0
    s.modDisc id (fun d => { d with advance := advance }))

/-- SANITIZE (R171, R395): secure discard. -/
def execSanitize (path : MboxPath) (s : State) : Res := .next (s.ldRun path 0x4400 (fun p ld s => s.eraseLd p ld 0x4400 true false))

/-- SECURE_ERASE (R395): plain discard with KEYVER advanced. -/
def execSecureErase (path : MboxPath) (s : State) : Res := .next (s.ldRun path 0x4401 (fun p ld s => s.eraseLd p ld 0x4401 false true))

/-! ### Dynamic capacity (R235, R236, R295) -/

/-- GET_DC_CONFIGURATION (R235): two regions with base, size and block size. -/
def execGetDcConfiguration (path : MboxPath) (s : State) : Res :=
  .next (s.ldRun path 0x4800 (fun p ld s =>
    s.endPath p .success (leBytes 2 1 ++ ([0, 1] : List Nat).flatMap (fun r =>
      leBytes (s.dcBase ld r * 2 ^ 28) 8 ++ leBytes (dcBlocks * 2 ^ 28) 8 ++ leBytes (2 ^ 28) 8))))

/-- An extent's DPA and length in bytes. -/
def State.extBytes (s : State) (ld : Nat) (e : DcExtent) : List Byte :=
  leBytes ((s.dcBase ld e.region.val + e.first.toNat) * 2 ^ 28) 8 ++ leBytes (e.count.toNat * 2 ^ 28) 8

/-- GET_DC_EXTENT_LIST (R235): the accepted extents. -/
def execGetDcExtentList (path : MboxPath) (s : State) : Res :=
  .next (s.ldRun path 0x4801 (fun p ld s =>
    let l := (s.host.dcExtents.filter (fun x => x.1 == ld)).map (·.2)
    s.endPath p .success (leBytes l.length 4 ++ l.flatMap (s.extBytes ld))))

/-- Does an extent lie in another? -/
def extWithin (a b : DcExtent) : Bool :=
  a.region == b.region && a.count != 0 && decide (b.first.toNat ≤ a.first.toNat) && decide (a.first.toNat + a.count.toNat ≤ b.first.toNat + b.count.toNat)

/-- Is an LD block of a region in an extent? -/
def extHas (e : DcExtent) (r num : Nat) : Bool :=
  e.region.val == r && decide (e.first.toNat ≤ num) && decide (num < e.first.toNat + e.count.toNat)

/-- ADD_DC_RESPONSE (R235, R295): of the oldest capacity offered, what the response names becomes accessible and the rest returns to
free. An extent outside the offer, or more than 256 extents in the region, is Invalid Input. -/
def execAddDcResponse (path : MboxPath) (extents : List DcExtent) (s : State) : Res :=
  .next (s.ldRun path 0x4802 (fun p ld s =>
    match s.host.dcOffers.find? (fun o => o.ld == ld) with
    | none => s.endPath p .invalidInput []
    | some o =>
      let held := (s.host.dcExtents.filter (fun x => x.1 == ld && x.2.region.val == o.region)).length
      if extents.any (fun e => !o.extents.any (fun b => extWithin e b)) || decide (256 < held + extents.length) then s.endPath p .invalidInput []
      else
        let taken := fun (b : Block) => extents.any (fun e => extHas e o.region b.num)
        let put := fun (m : SMap Block) (k : Nat) => mmod {} m k (fun b => if taken b then { b with ready := true } else {})
        let s := s.modHost (fun h => { h with blocks := o.blocks.foldl put h.blocks, dcOffers := h.dcOffers.erase o,
                                              dcExtents := h.dcExtents ++ extents.map (fun e => (ld, e)) })
        s.endPath p .success []))

/-- An extent without the blocks of another. -/
def extLess (a b : DcExtent) : List DcExtent :=
  if a.region != b.region || !extMeets a b then [a]
  else
    let lo := a.first.toNat
    let hi := a.first.toNat + a.count.toNat
    let blo := b.first.toNat
    let bhi := b.first.toNat + b.count.toNat
    (if lo < blo then [{ a with count := BitVec.ofNat 17 (blo - lo) }] else [])
      ++ (if bhi < hi then [{ a with first := BitVec.ofNat 17 bhi, count := BitVec.ofNat 17 (hi - bhi) }] else [])

/-- The device blocks of an LD's released blocks, of the region's kind. -/
def State.extBlocks (s : State) (ld : Nat) (e : DcExtent) : List Nat :=
  (s.host.blocks.filter (fun (_, b) => b.ld == ld && b.kind == e.region.val + 2 && b.ready && !b.releasing && extHas e e.region.val b.num)).map (·.1)

/-- The pool addresses and counts of an LD's released imported blocks (R295). -/
def State.extPools (s : State) (ld : Nat) (e : DcExtent) : List (Nat × Nat) :=
  (s.fabric.imports.filter (fun (_, m) => m.valid && m.ld == ld && m.region == e.region.val)).filterMap (fun (_, m) =>
    let lo := max m.first e.first.toNat
    let hi := min (m.first + m.count) (e.first.toNat + e.count.toNat)
    if lo < hi then some (m.pool + (lo - m.first) * 2 ^ 28, hi - lo) else none)

/-- RELEASE_DC (R236, R295): the blocks become unmapped at once, their segments are discarded, and they are free again; an extent that
is not accepted capacity, or holds a cask's segment, refuses the whole. -/
def execReleaseDc (path : MboxPath) (extents : List DcExtent) (s : State) : Res :=
  .next (s.ldRun path 0x4803 (fun p ld s =>
    let mine := (s.host.dcExtents.filter (fun x => x.1 == ld)).map (·.2)
    let ok := extents.all (fun e => mine.any (fun b => extWithin e b) && !(s.extBlocks ld e).any s.blockCask)
    if !s.host.memActive then s.endPath p .busy []
    else if !ok then s.endPath p .invalidInput []
    else
      let bs := (extents.flatMap (s.extBlocks ld)).eraseDups
      let pools := extents.flatMap (s.extPools ld)
      let left := extents.foldl (fun l e => l.flatMap (fun a => extLess a e)) mine
      let s := s.modHost (fun h => { h with dcExtents := h.dcExtents.filter (fun x => x.1 != ld) ++ left.map (fun e => (ld, e)) })
      let s := bs.foldl (fun s b => s.releaseBlock b) s
      let s := pools.foldl (fun s (a, n) => s.dropPool a n) s
      (s.endPath p .success []).pump))

/-! ### Background operations (R397) -/

/-- BACKGROUND_OP_END (R397, R432): an operation whose work has ended is reported and the LD function may hold another. A scan ends when
its range has been read, or with an Internal Error; a lifecycle transition is made when its command's turn has come. -/
def execBackgroundOpEnd (path : MboxPath) (ok : Bool) (s : State) : Res :=
  let p := pathNo path
  let fn := pathFn p
  let s := s.lcFinish
  let b := mget {} s.host.bgs fn
  if b.opc = 0 ∨ b.path ≠ p then .next s
  else
    let (f, n, x) := mget (0, 0, 0) s.host.scans fn
    let res := match b.res with
      | some r => some r
      | none =>
        if b.opc ≠ 0x4304 then none
        else if !ok then some (Rc.internalError, [])
        else if s.scanLeft fn (f + x) (f + n) then none
        else some (Rc.success, [])
    match res with
    | none => .next s
    | some (rc, l) =>
      let s := if b.opc = 0x4304 then s.scanStop fn else s
      let s := s.modHost (fun h => { h with bgs := mset {} h.bgs fn { lastOpc := b.opc, lastRc := rc } })
      let s := s.emit (.bgStatus p b.opc rc l)
      .next (if s.power.restart then s.restartNow else s)

end Sys2Proof.Machine
end

