-- ==== Sys2Proof/Machine/Registers.lean ====
section
/-!
DEFINITION. Accesses to BAR2's control window and its bit aliases (spec/18, R435 to R452), with the actions that writes start:
the registers of every chapter whose words hold WO or RW1S bits or are checked as they are written. The rows that name one
action are the same access with that action's bits set in the value.
-/

namespace Sys2Proof.Machine

/-! ### Who may reach what (R441, R442) -/

/-- May a requester write the word (R441): the management bus, the Kelric engines and ADMIN LDs every word, another LD its own
LC_LD_CTRL? -/
def State.mayWrite (s : State) (req : Requester) (off : Nat) : Bool :=
  match req with
  | .ld n => s.admin n.val || off == 0x40100 + 4 * n.val
  | _ => true

/-- Is the block served: blocks 0, 14 and 15 always, the others from the end of the hardware fill (R442)? -/
def State.served (s : State) (off : Nat) : Bool := s.host.mailbox || ([0, 14, 15] : List Nat).contains (off / 0x10000)

/-- Words that read 0 through the BAR2 of an LD that is not ADMIN (R441). -/
def State.hidden (s : State) (req : Requester) (off : Nat) : Bool :=
  match req with
  | .ld n =>
    let other := fun (b : Nat) => decide (b ≤ off) && decide (off < b + 256) && off != b + 4 * n.val
    !s.admin n.val && (other 0x40100 || other 0x90100 || other 0xA0100 || (decide (0x90014 ≤ off) && decide (off < 0x90020)))
  | _ => false

/-! ### Reads (R438, R439, R443, R445) -/

/-- A table window whose words were read is set to its entry, with the fields that are not the entry's left (R306). -/
def State.tableWindow (s : State) (off bits keep : Nat) : State :=
  s.setWide off (setMask bits keep (s.wide off 4)) 4

/-- A read of word 0 of a window takes its snapshot (R174, R306, R343). -/
def State.snapshot (s : State) (off : Nat) : State :=
  if off = 0x70044 then s.setWide off (s.entry (s.getF Reg.MAP_WIN_SEL.LSN)).bits 4
  else if off = 0xC0104 then
    s.tableWindow off (mget {} s.fabric.mirrors (s.getF Reg.DF_MIRROR_SEL.ENTRY) : MirrorEnt).bits (3 * 2 ^ 91 + 2 ^ 94)
  else if off = 0xC0204 then
    s.tableWindow off (mget {} s.fabric.exports (s.getF Reg.DF_EXPORT_SEL.ENTRY) : ExportEnt).bits (2 ^ 48 + 2 ^ 50)
  else if off = 0xC0304 then
    s.tableWindow off (mget {} s.fabric.imports (s.getF Reg.DF_IMPORT_SEL.ENTRY) : ImportEnt).bits (2 ^ 71 + 2 ^ 73)
  else if off = 0xD0304 then s.setWide off (s.dom (s.getF Reg.CASK_SEL.SLOT)).bits 8
  else s

/-- The words a read of a low word latches: the high word, or the rest of both counters of a chained pair (R445, R507). -/
def State.latched (s : State) (off : Nat) : List Nat :=
  if 0x1200 ≤ off ∧ off < 0x1680 ∧ off % 8 = 0 then
    let b := (off - 0x1200) / 64
    let c := (off - 0x1200) % 64 / 8
    if s.chained b (c / 2) then (if c % 2 = 0 then [off + 4, off + 8, off + 12] else []) else [off + 4]
  else if off = 0xD0000 ∨ off = 0x70018 ∨ (0x1700 ≤ off ∧ off < 0x1720 ∧ off % 8 = 0) ∨ (0x2000 ≤ off ∧ off < 0x2400 ∧ off % 8 = 0)
    then [off + 4]
  else []

/-- A read of a low word latches what belongs to it, in place of the requester's former latch (R445). -/
def State.takeLatch (s : State) (req off : Nat) : State :=
  let l := s.latched off
  if l.isEmpty then s
  else s.modRegs (fun r => { r with latch := mset [] r.latch req (l.map (fun o => (o, s.regView o))) })

/-- A 4-byte read by a requester: the value, and the state after it. -/
def State.read4 (s : State) (req : Requester) (off : Nat) : Nat × State :=
  let n := reqNo req
  if off % 4 ≠ 0 then (0xFFFFFFFF, s.raise Reg.REG_STATUS.ACCESS_ERR)
  else if 0x2000000 ≤ off then
    let w := (off - 0x2000000) / 128 * 4
    let v := if !s.served w then 1 else if s.hidden req w then 0 else bitsOf (s.regView w) ((off - 0x2000000) % 128 / 4) 1
    (v, s)
  else if 0x100000 ≤ off then (0, s)
  else if !s.served off then (0xFFFFFFFF, s)
  else if s.hidden req off then (0, s)
  else
    let held := mget [] s.regs.latch n
    match held.find? (fun x => x.1 == off) with
    | some (_, v) => (v, s.modRegs (fun r => { r with latch := mset [] r.latch n (held.filter (fun x => x.1 != off)) }))
    | none =>
      let s := s.snapshot off
      if off = 0x380C then s.sampleWord else (s.regView off, s.takeLatch n off)

/-- A read and its answer to the requester. -/
def State.busRead (s : State) (req : Requester) (off : Nat) : State :=
  let (v, s) := s.read4 req off
  s.emit (.regRead (reqNo req) off 4 v)

/-! ### UNLOCK and UPDATE (R448, R450) -/

/-- UNLOCK takes a value: 0x7A5E arms the writer; any other ends its arming, and the sixteenth disables UNLOCK (R448). -/
def State.unlockTake (s : State) (req key : Nat) : State :=
  let rest := s.regs.armed.filter (· != req)
  if 16 ≤ s.regs.unlockBad then s
  else if key = 0x7A5E then s.modRegs (fun r => { r with armed := rest ++ [req] })
  else (s.modRegs (fun r => { r with armed := rest, unlockBad := r.unlockBad + 1 })).raise Reg.REG_STATUS.UNLOCK_BAD

/-- A write to UPDATE acts on the staging of the blocks in its MASK (R450). -/
def State.updateGo (s : State) (val : Nat) : State :=
  let mask := bitsOf val 0 16
  let ws := s.stagedIn mask
  if bitAt val 17 then s.dropStaged mask
  else if ws.isEmpty then s
  else if bitAt val 16 then
    if s.actionsFull then s.raise Reg.TA_STAT.TA_REFUSED
    else
      let (h, s) := s.addAction (s.getF Reg.UPDATE_AT.AT) (.update ws)
      (s.dropStaged mask).setF Reg.UPDATE_STAT.LAST_HANDLE h
  else (s.dropStaged mask).applyStaged ws false

/-! ### What GO does, register by register -/

/-- LC_RANGE_CTRL GO: a job is held, or rejected with ERROR; with eight held it is ignored (R86, R94). -/
def State.rangeGo (s : State) : State :=
  let op := s.getF Reg.LC_RANGE_CTRL.OP
  let whole := s.flag Reg.LC_RANGE_CTRL.SCOPE
  let first := s.getF Reg.LC_RANGE_BASE.BASE
  let n := s.getF Reg.LC_RANGE_LEN.LEN
  if 8 ≤ s.cache.jobs.length then s
  else if op = 0 ∨ (!whole && (n == 0 || decide (s.blockCount * 2 ^ 20 < first + n))) then s.raise Reg.LC_RANGE_CTRL.ERROR
  else s.rangeNow { op := rangeOp op, scopeLd := whole, ld := s.getF Reg.LC_RANGE_CTRL.LD, tiles := if whole then [] else [(first, n)] }

/-- DISC_CMD GO: a discard starts, or RESULT and DONE tell why not; ignored while one started so is under way (R169 to R174). -/
def State.discGo (s : State) : State :=
  let tiles := s.flag Reg.DISC_CMD.SCOPE
  let first := s.getF Reg.DISC_FIRST.FIRST
  let n := s.getF Reg.DISC_COUNT.COUNT
  let top := 2 ^ 24 * s.pkgs * (if tiles then 4096 else 1)
  let refuse := fun (r : Nat) => (s.setF Reg.DISC_CMD.RESULT r).raise Reg.DISC_CMD.DONE
  if s.map.discards.any (·.fromReg) then s
  else if n = 0 ∨ top < first + n then refuse 2
  else
    let st := s.discCheck (lsnsOf (if tiles then segsOfTiles [(first, n)] else [(first, n)]))
    if st = kCaskMember then refuse 1
    else if st ≠ kOk then refuse 3
    else (s.setF Reg.DISC_CMD.DONE 0).discardNow (if tiles then .tiles else .segments)
      (s.discSecure (s.getF Reg.DISC_CMD.VARIANT)) [(first, n)] none true 0 0

/-- RESULT of KEY_CMD for a status (R224). -/
def keyResult (st : Nat) : Nat :=
  if st = kKeyInUse then 1 else if st = kKeyMismatch then 2 else if st = kNoSession then 3 else if st = kUnwrapFailed then 4
  else if st = kCaskMember then 5 else if st = kLifecycle then 6 else if st = kInvalidIndex then 7 else 0

/-- The LD whose DOE a requester of BAR2 stands for (R208, R224). -/
def reqLd : Requester → Option Nat
  | .ld n => some n.val
  | _ => none

/-- The wrapped root in the staging words, byte 4i of a word in its bits [31:24] (R224). -/
def State.stagedRoot (s : State) : BitVec 320 :=
  BitVec.ofNat 320 ((List.range 10).foldl (fun a i => 2 ^ 32 * a + s.word (0x90200 + 4 * i)) 0)

/-- KEY_CMD GO: KEY_LOAD or KEY_RETIRE from the staging words, which are then zeroed; ignored while BUSY (R208, R212, R224). -/
def State.keyGo (s : State) (req : Requester) : State :=
  let op := s.getF Reg.KEY_CMD.OP
  let idx := s.getF Reg.KEY_CMD.INDEX
  let sess := s.getF Reg.KEY_SESSION.SESSION
  let from_ := if s.flag Reg.KEY_CMD.ROTATE then some (s.getF Reg.KEY_FROM.ROTATE_FROM) else none
  let zero := fun (s : State) => (List.range 10).foldl (fun (s : State) i => s.setWord (0x90200 + 4 * i) 0) s
  if s.flag Reg.KEY_CMD.BUSY then s
  else if op = 0 then zero s
  else if op = 1 then
    match s.keyLoadStatus (reqLd req) idx sess s.stagedRoot from_ with
    | (_, some root) => ((zero s).setF Reg.KEY_CMD.BUSY 1).keyLoadGo idx root (s.flag Reg.KEY_CMD.PERSIST) from_ none
    | (st, none) => (zero s).setF Reg.KEY_CMD.RESULT (keyResult st)
  else
    let st := s.keyRetireStatus (reqLd req) idx sess (op == 3)
    if st = kOk then ((zero s).setF Reg.KEY_CMD.BUSY 1).keyRetireGo idx none
    else (zero s).setF Reg.KEY_CMD.RESULT (keyResult st)

/-- A write to LD_KEY: KEYIDX binds the LD as KEY_BIND does, or REFUSED is set; REKEY queues the LD's segments (R211, R224,
R447). -/
def State.ldKeyWrite (s : State) (ld val bits : Nat) (free : Bool) : State :=
  let off := 0x90100 + 4 * ld
  let k := setMask (s.word off) bits val % 2 ^ 18
  let s := s.wordWrite off val bits free
  let rekey := bitAt (val &&& bits) 18
  if k != s.ldKey ld && !(s.lockedWord off && !free) then
    if !(s.key k).valid then s.raise (Reg.LD_KEY.REFUSED ld)
    else
      let s := s.setF (Reg.LD_KEY.KEYIDX ld) k
      if rekey then (s.rekeyLd ld k).2 else s
  else if rekey then (s.rekeyLd ld (s.ldKey ld)).2
  else s

/-- A word without an action of its own is written, and what its new value does is done. -/
def State.wordPlain (s : State) (off val bits : Nat) (free : Bool) : State :=
  let old := s.word off
  let s := s.wordWrite off val bits free
  if bufferedWord off || s.word off == old then s else s.regEffect off old

/-- A write to LC_LD_CTRL: one that sets ALLOC_EN while INV_DONE is 0 is ignored and sets REFUSED (R90, R94, R95). -/
def State.allocWrite (s : State) (ld val bits : Nat) (free : Bool) : State :=
  if bitAt (val &&& bits) 0 && !s.flag (Reg.LC_LD_CTRL.INV_DONE ld) then s.raise (Reg.LC_LD_CTRL.REFUSED ld)
  else s.wordPlain (0x40100 + 4 * ld) val bits free

/-- A write to LC_WAYS: 11b is ignored, and 00b after the loss of a stack (R91, R94). -/
def State.waysWrite (s : State) (val bits : Nat) (free : Bool) : State :=
  let e := setMask (s.storedWord 0x40004) bits val % 4
  if e = 3 ∨ (e = 0 ∧ s.avail.stackDown ≠ 0) then s else s.wordPlain 0x40004 val bits free

/-- A write to HP_LD_CFG: an assignment the checks refuse stores nothing and sets REFUSED (R229, R230, R248). -/
def State.ldCfgWrite (s : State) (n val bits : Nat) (free : Bool) : State :=
  let off := 0xA0100 + 4 * n
  let new := setMask (s.storedWord off) (accMask off (· == .rwp) &&& bits) val
  if s.ldCfgOk n new then s.wordPlain off val bits free
  else (s.wordPlain off val (bits - (bits &&& accMask off (· == .rwp))) free).raise (Reg.HP_LD_CFG.REFUSED n)

/-- A write to a word of a queue pair (R413, R414): while ENABLE is 1 all but its clearing is ignored. -/
def State.queueWord (s : State) (off val bits : Nat) : State :=
  let q := (off - 0x10000) / 32
  let ctrl := off % 32 == 16
  let w := setMask (s.word off) bits val
  if s.flag (Reg.KQ_CTRL.ENABLE q) then (if ctrl && !bitAt w 24 then s.queueDelete q (bitAt w 25) else s)
  else
    let m := accMask off (· == .rw) - (if ctrl then 2 ^ 24 else 0)
    let s := s.setWord off (setMask (s.word off) (m &&& bits) val)
    if ctrl && bitAt w 24 then s.queueCreate q else s

/-- May the check-bit test mode act on a macro (R471)? -/
def State.memtestOk (s : State) (m : Nat) : Bool :=
  if s.keys.lifecycle ≤ 1 then decide (128 ≤ m) && decide (m < 640)
  else s.keys.lifecycle == 2 && decide (384 ≤ m) && decide (m < 512) && s.engRole ((m - 384) / 2) == 5

/-- The stored data and check bits of a word; what nothing wrote raw holds free data with its check bits. -/
def State.rawWord (s : State) (m w : Nat) : (BitVec 64 × BitVec 8) × State :=
  match mget none s.eng.words (16384 * m + w) with
  | some x => (x, s)
  | none =>
    let (r, s) := s.draw
    ((BitVec.ofNat 64 r, eccOf (BitVec.ofNat 64 r) w), s)

/-- MEMTEST_CMD GO: a raw write, a raw read or a checked read of one word (R471, R473). -/
def State.memtestGo (s : State) : State :=
  let m := s.getF Reg.MEMTEST_SEL.MACRO
  let w := s.getF Reg.MEMTEST_SEL.WORD
  let op := s.getF Reg.MEMTEST_CMD.OP
  if !s.memtestOk m then s.raise Reg.MEMTEST_CMD.DENIED
  else if op = 1 then
    let x := (BitVec.ofNat 64 (s.getF Reg.MEMTEST_DATA.DATA), BitVec.ofNat 8 (s.getF Reg.MEMTEST_CHECK.CHECK))
    s.modEng (fun e => { e with words := mset none e.words (16384 * m + w) (some x) })
  else if op = 2 then
    let ((d, c), s) := s.rawWord m w
    (s.setF Reg.MEMTEST_DATA.DATA d.toNat).setF Reg.MEMTEST_CHECK.CHECK c.toNat
  else if op = 3 then
    let ((d, c), s) := s.rawWord m w
    let (syn, r) := eccRead d c w
    let s := s.setF Reg.MEMTEST_CHECK.SYNDROME syn.toNat
    match r with
    | .good => s.setF Reg.MEMTEST_DATA.DATA d.toNat
    | .fixed d' => s.setF Reg.MEMTEST_DATA.DATA d'.toNat
    | .bad =>
      -- the data of a word that cannot be corrected are not stated: a free value
      let (x, s) := s.draw
      s.setF Reg.MEMTEST_DATA.DATA (x % 2 ^ 64)
  else s

/-- DF_MIRROR GO (R299, R306): the checks of MIRROR_SET. -/
def State.mirrorReg (s : State) : State :=
  let op := s.getF Reg.DF_MIRROR.OP
  let k := s.getF Reg.DF_MIRROR_SEL.ENTRY
  let h := s.getF Reg.DF_MIRROR.HOME_LSN
  let m := s.getF Reg.DF_MIRROR.MIRROR_LSN
  let n := s.getF Reg.DF_MIRROR.COUNT
  let p := s.getF Reg.DF_MIRROR.PARTNER
  if s.mirrorStatus op k h m n p = kOk then s.mirrorGo op k h m n p none else s.raise Reg.DF_MIRROR.REFUSED

/-- DF_EXPORT GO (R294, R306). -/
def State.exportReg (s : State) : State :=
  let k := s.getF Reg.DF_EXPORT_SEL.ENTRY
  let first := s.getF Reg.DF_EXPORT.FIRST_BLOCK
  let n := s.getF Reg.DF_EXPORT.COUNT
  let node := s.getF Reg.DF_EXPORT.NODE
  if s.flag Reg.DF_EXPORT.OP then
    if s.exportDelStatus k = kOk then s.exportDel k none else s.raise Reg.DF_EXPORT.REFUSED
  else if s.exportStatus k first n node = kOk then s.exportAdd k first n node (s.flag Reg.DF_EXPORT.WRITE)
  else s.raise Reg.DF_EXPORT.REFUSED

/-- DF_IMPORT GO (R295, R306). -/
def State.importReg (s : State) : State :=
  let k := s.getF Reg.DF_IMPORT_SEL.ENTRY
  let ld := s.getF Reg.DF_IMPORT.LD
  let region := s.getF Reg.DF_IMPORT.REGION
  let first := s.getF Reg.DF_IMPORT.FIRST_LD_BLOCK
  let n := s.getF Reg.DF_IMPORT.COUNT
  let pool := s.getF Reg.DF_IMPORT.POOL_BLOCK * 2 ^ 28
  if s.flag Reg.DF_IMPORT.OP then
    if s.importDelStatus k = kOk then s.importDel k else s.raise Reg.DF_IMPORT.REFUSED
  else if s.importStatus k ld region first n pool = kOk then s.importAdd k ld region first n pool
  else s.raise Reg.DF_IMPORT.REFUSED

/-- CASK_CFG GO (R328 to R330, R342, R343): the checks of CASK_CONFIG and CASK_RECOVER. -/
def State.caskReg (s : State) : State :=
  let op := s.getF Reg.CASK_CFG.OP
  let id := s.getF Reg.CASK_CFG.DOMAIN_ID
  let slot := s.getF Reg.CASK_CFG.SLOT
  let refused := s.raise Reg.CASK_CFG.REFUSED
  if op = 0 then
    let mem := s.getF Reg.CASK_CFG.MEMBER
    let n := s.getF Reg.CASK_CFG.NODES
    let nodes := (List.range n).map (fun k => bitsOf mem (12 * k) 12)
    let period := s.getF Reg.CASK_CFG.PERIOD
    let mask := BitVec.ofNat 64 (s.getF Reg.CASK_CFG.LD_MASK)
    if s.caskCreateStatus id period slot nodes mask = kOk then s.caskCreate id period slot nodes mask none else refused
  else match s.domOf id with
    | none => refused
    | some i =>
      if op = 1 then s.caskDelete i
      else if op = 2 then (if slot * 2 ^ 20 < s.ft + 2 ^ 21 then refused else s.caskMark i slot)
      else if op = 3 ∨ op = 4 then (if s.recoverStatus id = kOk then s.recoverStart i (op == 3) none else refused)
      else refused

/-- CNT_CTRL of a block written: CHAIN of each pair, then CLEAR of each counter (R490, R491, R507). -/
def State.cntWrite (s : State) (b val bits : Nat) : State :=
  let s := (List.range 4).foldl (fun (s : State) k => if bitAt bits k then s.setChain b k (bitAt val k) else s) s
  (List.range 8).foldl (fun (s : State) c => if bitAt (val &&& bits) (4 + c) then s.clearCounter b c else s) s

/-- SAMPLE_CTRL written (R497, R498, R507). -/
def State.sampleWrite4 (s : State) (val bits : Nat) (free : Bool) : State :=
  let old := s.flag Reg.SAMPLE_CTRL.ENABLE
  let s := s.wordPlain 0x3800 val bits free
  let s := s.sampleEnable old (s.flag Reg.SAMPLE_CTRL.ENABLE)
  let s := if bitAt (val &&& bits) 13 then s.sampleShut else s
  if bitAt (val &&& bits) 14 then s.sampleDrop else s

/-- Word 6 of CASK_DOM written: EARLY and LOG_FULL of the selected domain are cleared by 1 (R343). -/
def State.caskDomWrite (s : State) (val bits : Nat) (free : Bool) : State :=
  let on := val &&& bits
  (s.wordPlain 0xD031C val bits free).modDom (s.getF Reg.CASK_SEL.SLOT)
    (fun d => { d with early := d.early && !bitAt on 23, logFull := d.logFull && !bitAt on 24 })

/-! ### A word written -/

/-- The bits `bits` of a word are written by a requester, with the actions of its chapter. -/
def State.wordAct (s : State) (req : Requester) (off val bits : Nat) (free : Bool) : State :=
  let on := fun b => bitAt (val &&& bits) b
  let plain := s.wordPlain off val bits free
  if off = 0x20 then s.updateGo (val &&& bits)
  else if off = 0x118 then (if on 9 then plain.boardGo (plain.getF Reg.WEALI_BOARD_CMD.OP) else plain)
  else if 0x1100 ≤ off ∧ off < 0x1148 then s.cntWrite ((off - 0x1100) / 4) val bits
  else if off = 0x3024 then
    match s.sillClear (val &&& bits) with
    | some t => t
    | none => s.raise Reg.REG_STATUS.ACCESS_ERR
  else if off = 0x3800 then s.sampleWrite4 val bits free
  else if 0x10000 ≤ off ∧ off < 0x12000 ∧ off % 32 < 24 then s.queueWord off val bits
  else if off = 0x14E34 then (if on 2 then plain.memtestGo else plain)
  else if off = 0x30010 then (if 2 ≤ s.keys.lifecycle then s else plain)
  else if off = 0x40004 then s.waysWrite val bits free
  else if off = 0x40030 then (if on 9 then plain.rangeGo else plain)
  else if 0x40100 ≤ off ∧ off < 0x40200 then s.allocWrite ((off - 0x40100) / 4) val bits free
  else if off = 0x5000C then
    s.modReads (fun r => { r with gravReset := (r.gravReset ++ ([0, 1, 2] : List Nat).filter on).eraseDups })
  else if off = 0x7006C then (if on 3 then plain.discGo else plain)
  else if off = 0x80000 then (if on 21 && !s.patrol.accelOn then plain.accelStart else plain)
  else if 0x90100 ≤ off ∧ off < 0x90200 then s.ldKeyWrite ((off - 0x90100) / 4) val bits free
  else if 0x90200 ≤ off ∧ off < 0x90228 then s.setWord off (setMask (s.word off) bits val)
  else if off = 0x90230 then (if on 22 then plain.keyGo req else plain)
  else if 0xA0100 ≤ off ∧ off < 0xA0200 then s.ldCfgWrite ((off - 0xA0100) / 4) val bits free
  else if off = 0xC010C then (if on 29 then plain.mirrorReg else plain)
  else if off = 0xC0208 then (if on 17 then plain.exportReg else plain)
  else if off = 0xC030C then (if on 8 then plain.importReg else plain)
  else if off = 0xD031C then s.caskDomWrite val bits free
  else if off = 0xD0414 then (if on 6 then plain.caskReg else plain)
  else if off = 0xE0020 then (if on 0 && !plain.flag Reg.HU_TEST.BUSY then plain.testStart none else plain)
  else plain

/-- Bits on which a write of 0 does nothing, so that an alias write of 0 to them starts nothing (R443). -/
def idleBits (off : Nat) : Nat := accMask off (fun a => a == .ro || a == .rsv || a == .wo || a == .rw1c || a == .rw1s)

/-- The bits of a word are written by a requester that may write it: its arming ends (R448), and the word is written. -/
def State.wordTake (s : State) (req : Requester) (off val bits : Nat) : State :=
  if off = 0x10 then
    if bits = 0xFFFFFFFF ∨ val &&& bits ≠ 0 then s.unlockTake (reqNo req) (bitsOf (val &&& bits) 0 16) else s
  else
    let (free, s) := s.useArm (reqNo req)
    if bits ≠ 0xFFFFFFFF ∧ bits &&& idleBits off = bits ∧ val &&& bits = 0 then s else s.wordAct req off val bits free

/-- A 4-byte write by a requester; none when it changes RSV bits (R10, R438, R439, R441 to R443). -/
def State.write4 (s : State) (req : Requester) (off val : Nat) : Option State :=
  let alias_ := decide (0x2000000 ≤ off)
  let w := if alias_ then (off - 0x2000000) / 128 * 4 else off
  let bit := (off - 0x2000000) % 128 / 4
  if off % 4 ≠ 0 then some (s.raise Reg.REG_STATUS.ACCESS_ERR)
  else if (!alias_ && decide (0x100000 ≤ off)) || !s.served w then some s
  else if !s.mayWrite req w then some (s.raise Reg.REG_STATUS.WR_DENIED)
  else if (regDef w).isNone then some s
  else if alias_ then some (s.wordTake req w (val % 2 * 2 ^ bit) (2 ^ bit))
  else if s.rsvClash w val then none
  else some (s.wordTake req w val 0xFFFFFFFF)

/-- An 8-byte write of a 64-bit persistent register is one store and one write counted (R439, R451). -/
def State.writeLong (s : State) (req : Requester) (off val : Nat) : State :=
  if !s.served off then s
  else if !s.mayWrite req off then s.raise Reg.REG_STATUS.WR_DENIED
  else (s.useArm (reqNo req)).2.rwpWrite off (2 ^ 64 - 1) val none

/-- A write of 4 or 8 bytes: an 8-byte one is that of a 64-bit register, or two 4-byte writes, the low word first; any other is an
access error (R439). -/
def State.writeSized (s : State) (req : Requester) (off size val : Nat) : Option State :=
  if size = 4 then s.write4 req off (bitsOf val 0 32)
  else if size = 8 ∧ rwpReg (off + 4) = off then some (s.writeLong req off val)
  else if size = 8 ∧ off % 8 = 0 then (s.write4 req off (bitsOf val 0 32)).bind (fun t => t.write4 req (off + 4) (bitsOf val 32 32))
  else some (s.raise Reg.REG_STATUS.ACCESS_ERR)

/-- The outcome of a write: one that changes RSV bits leaves the behaviour undefined (R10). -/
def regRes (o : Option State) : Res :=
  match o with
  | some s => .next s
  | none => .fault .rsvBitsChanged

/-- A write of a whole word with some of its fields forced: `set` is put over the bits in `mask`. -/
def State.forced (s : State) (req : Requester) (off val mask set : Nat) : Res := regRes (s.write4 req off (setMask val mask set))

/-! ### The rows of spec/18 -/

/-- REGISTER_WRITE (R9, R439). -/
def execRegisterWrite (req : Requester) (off : BitVec 26) (size : BitVec 4) (val : BitVec 64) (s : State) : Res :=
  regRes (s.writeSized req off.toNat size.toNat val.toNat)

/-- LOW_WORD_LATCH_READ (R439, R445). -/
def execLowWordLatchRead (req : Requester) (off : BitVec 26) (s : State) : Res := .next (s.busRead req off.toNat)

/-- BIT_ALIAS_WRITE (R443, R444): an offset in the bit-alias region; `off` below it is taken as counted from its start. -/
def execBitAliasWrite (req : Requester) (off : BitVec 26) (val : BitVec 32) (s : State) : Res :=
  regRes (s.write4 req (if off.toNat < 0x2000000 then off.toNat + 0x2000000 else off.toNat) val.toNat)

/-- UPDATE_APPLY (R450): UPDATE with TIMED and DROP clear. -/
def execUpdateApply (req : Requester) (val : BitVec 32) (s : State) : Res := s.forced req 0x20 val.toNat 0x30000 0

/-- UPDATE_TIMED (R325, R450): UPDATE with TIMED. -/
def execUpdateTimed (req : Requester) (val : BitVec 32) (s : State) : Res := s.forced req 0x20 val.toNat 0x30000 0x10000

/-- UPDATE_DROP (R450): UPDATE with DROP. -/
def execUpdateDrop (req : Requester) (val : BitVec 32) (s : State) : Res := s.forced req 0x20 val.toNat 0x20000 0x20000

/-- UNLOCK (R448). -/
def execUnlock (req : Requester) (val : BitVec 32) (s : State) : Res := regRes (s.write4 req 0x10 val.toNat)

/-- UNLOCK_ARM_EXPIRY (R448): an arming ends unused. -/
def execUnlockArmExpiry (req : Requester) (s : State) : Res := .next (s.useArm (reqNo req)).2

/-- KEY_LOCK_SET (R447). -/
def execKeyLockSet (req : Requester) (s : State) : Res :=
  s.forced req 0x8 (mget 0 s.rsv 0x8) 2 2

/-- MAP_WIN_SNAPSHOT (R174). -/
def execMapWinSnapshot (req : Requester) (s : State) : Res := .next (s.busRead req 0x70044)

/-- CASK_DOM_SNAPSHOT (R343). -/
def execCaskDomSnapshot (req : Requester) (s : State) : Res := .next (s.busRead req 0xD0304)

/-- DF_WINDOW_SNAPSHOT (R306). -/
def execDfWindowSnapshot (req : Requester) (w : DfWindow) (s : State) : Res :=
  .next (s.busRead req (match w with | .mirror => 0xC0104 | .exports => 0xC0204 | .imports => 0xC0304))

/-! ### The line cache and the read path -/

/-- LC_RANGE_CLEAN (R86, R87): GO with OP 01b. -/
def execLcRangeClean (req : Requester) (val : BitVec 32) (s : State) : Res := s.forced req 0x40030 val.toNat 0x203 0x201

/-- LC_RANGE_INVALIDATE (R86, R87): GO with OP 10b. -/
def execLcRangeInvalidate (req : Requester) (val : BitVec 32) (s : State) : Res := s.forced req 0x40030 val.toNat 0x203 0x202

/-- LC_RANGE_FLUSH (R86, R87): GO with OP 11b. -/
def execLcRangeFlush (req : Requester) (val : BitVec 32) (s : State) : Res := s.forced req 0x40030 val.toNat 0x203 0x203

/-- ALLOC_EN_WRITE (R88 to R90, R95). -/
def execAllocEnWrite (req : Requester) (ld : LdNo) (val : BitVec 32) (s : State) : Res :=
  regRes (s.write4 req (0x40100 + 4 * ld.val) val.toNat)

/-- WAYS_REQ_WRITE (R91, R94). -/
def execWaysReqWrite (req : Requester) (val : BitVec 32) (s : State) : Res := regRes (s.write4 req 0x40004 val.toNat)

/-- GRAV_RESET_GROUP (R117). -/
def execGravResetGroup (req : Requester) (val : BitVec 32) (s : State) : Res := regRes (s.write4 req 0x5000C val.toNat)

/-- CRC_INJECT_ARM (R65): ARM set. -/
def execCrcInjectArm (req : Requester) (val : BitVec 32) (s : State) : Res := s.forced req 0x30010 val.toNat 0x40 0x40

/-! ### Discards, patrol, keys -/

/-- DISC_SEGMENT_GO (R169, R174): GO with SCOPE 0. -/
def execDiscSegmentGo (req : Requester) (val : BitVec 32) (s : State) : Res := s.forced req 0x7006C val.toNat 0xC 0x8

/-- DISC_TILE_GO (R172, R174): GO with SCOPE 1. -/
def execDiscTileGo (req : Requester) (val : BitVec 32) (s : State) : Res := s.forced req 0x7006C val.toNat 0xC 0xC

/-- ACCEL_GO (R185, R449): it acts at once; the other fields are staged. -/
def execAccelGo (req : Requester) (val : BitVec 32) (s : State) : Res := s.forced req 0x80000 val.toNat 0x200000 0x200000

/-- KEY_CMD_LOAD (R208, R224): GO with OP 01b. -/
def execKeyCmdLoad (req : Requester) (val : BitVec 32) (s : State) : Res := s.forced req 0x90230 val.toNat 0x700000 0x500000

/-- KEY_CMD_RETIRE (R212, R224): GO with OP 10b. -/
def execKeyCmdRetire (req : Requester) (val : BitVec 32) (s : State) : Res := s.forced req 0x90230 val.toNat 0x700000 0x600000

/-- KEY_CMD_RETIRE_ERASE (R212, R224): GO with OP 11b. -/
def execKeyCmdRetireErase (req : Requester) (val : BitVec 32) (s : State) : Res := s.forced req 0x90230 val.toNat 0x700000 0x700000

/-- LD_KEY_REKEY (R211, R224): REKEY set. -/
def execLdKeyRekey (req : Requester) (ld : LdNo) (val : BitVec 32) (s : State) : Res :=
  s.forced req (0x90100 + 4 * ld.val) val.toNat 0x40000 0x40000

/-- LD_KEY_KEYIDX_WRITE (R211, R224, R447). -/
def execLdKeyKeyidxWrite (req : Requester) (ld : LdNo) (val : BitVec 32) (s : State) : Res :=
  regRes (s.write4 req (0x90100 + 4 * ld.val) val.toNat)

/-! ### Mirrors, exports, imports, casks -/

/-- DF_MIRROR_PAIR (R299, R306): word 2 with GO and OP 0. -/
def execDfMirrorPair (req : Requester) (val : BitVec 32) (s : State) : Res := s.forced req 0xC010C val.toNat 0x38000000 0x20000000

/-- DF_MIRROR_UNPAIR (R306, R423): OP 1. -/
def execDfMirrorUnpair (req : Requester) (val : BitVec 32) (s : State) : Res := s.forced req 0xC010C val.toNat 0x38000000 0x28000000

/-- DF_MIRROR_RESYNC (R301, R306): OP 2. -/
def execDfMirrorResync (req : Requester) (val : BitVec 32) (s : State) : Res := s.forced req 0xC010C val.toNat 0x38000000 0x30000000

/-- DF_MIRROR_SWAP (R304, R306): OP 3. -/
def execDfMirrorSwap (req : Requester) (val : BitVec 32) (s : State) : Res := s.forced req 0xC010C val.toNat 0x38000000 0x38000000

/-- DF_EXPORT_ADD (R294, R306): word 1 with GO and OP 0. -/
def execDfExportAdd (req : Requester) (val : BitVec 32) (s : State) : Res := s.forced req 0xC0208 val.toNat 0x30000 0x20000

/-- DF_EXPORT_DEL (R306, R423): OP 1. -/
def execDfExportDel (req : Requester) (val : BitVec 32) (s : State) : Res := s.forced req 0xC0208 val.toNat 0x30000 0x30000

/-- DF_IMPORT_ADD (R295, R306): word 2 with GO and OP 0. -/
def execDfImportAdd (req : Requester) (val : BitVec 32) (s : State) : Res := s.forced req 0xC030C val.toNat 0x180 0x100

/-- DF_IMPORT_DEL (R295, R306): OP 1. -/
def execDfImportDel (req : Requester) (val : BitVec 32) (s : State) : Res := s.forced req 0xC030C val.toNat 0x180 0x180

/-- CASK_CFG_CREATE (R329, R343): word 5 with GO and OP 0. -/
def execCaskCfgCreate (req : Requester) (val : BitVec 32) (s : State) : Res := s.forced req 0xD0414 val.toNat 0x78 0x40

/-- CASK_CFG_DELETE (R343, R423): OP 1. -/
def execCaskCfgDelete (req : Requester) (val : BitVec 32) (s : State) : Res := s.forced req 0xD0414 val.toNat 0x78 0x48

/-- CASK_CFG_MARK (R330, R343): OP 2. -/
def execCaskCfgMark (req : Requester) (val : BitVec 32) (s : State) : Res := s.forced req 0xD0414 val.toNat 0x78 0x50

/-- CASK_CFG_RECOVER_LATEST (R342, R343): OP 3. -/
def execCaskCfgRecoverLatest (req : Requester) (val : BitVec 32) (s : State) : Res := s.forced req 0xD0414 val.toNat 0x78 0x58

/-- CASK_CFG_RECOVER_COMMITTED (R342, R343): OP 4. -/
def execCaskCfgRecoverCommitted (req : Requester) (val : BitVec 32) (s : State) : Res := s.forced req 0xD0414 val.toNat 0x78 0x60

/-! ### Power, queues, memories, board area -/

/-- HU_TEST_GO (R355, R371). -/
def execHuTestGo (req : Requester) (val : BitVec 32) (s : State) : Res := s.forced req 0xE0020 val.toNat 1 1

/-- KQ_CREATE (R413): KQ_CTRL with ENABLE 1. -/
def execKqCreate (req : Requester) (q : QNo) (val : BitVec 32) (s : State) : Res :=
  s.forced req (0x10010 + 32 * q.val) val.toNat 0x1000000 0x1000000

/-- KQ_DELETE (R413): KQ_CTRL with ENABLE 0. -/
def execKqDelete (req : Requester) (q : QNo) (val : BitVec 32) (s : State) : Res :=
  s.forced req (0x10010 + 32 * q.val) val.toNat 0x1000000 0

/-- MEMTEST_RAW_WRITE (R471): GO with OP 1. -/
def execMemtestRawWrite (req : Requester) (val : BitVec 32) (s : State) : Res := s.forced req 0x14E34 val.toNat 7 5

/-- MEMTEST_RAW_READ (R471): OP 2. -/
def execMemtestRawRead (req : Requester) (val : BitVec 32) (s : State) : Res := s.forced req 0x14E34 val.toNat 7 6

/-- MEMTEST_CHECKED_READ (R471): OP 3. -/
def execMemtestCheckedRead (req : Requester) (val : BitVec 32) (s : State) : Res := s.forced req 0x14E34 val.toNat 7 7

/-- WEALI_BOARD_WRITE (R476, R486): GO with OP 01b. -/
def execWealiBoardWrite (req : Requester) (val : BitVec 32) (s : State) : Res := s.forced req 0x118 val.toNat 0x380 0x280

/-- WEALI_BOARD_READ (R486): OP 10b. -/
def execWealiBoardRead (req : Requester) (val : BitVec 32) (s : State) : Res := s.forced req 0x118 val.toNat 0x380 0x300

/-! ### Counters, samples, the sillage log -/

/-- CNT_CLEAR (R490, R491). -/
def execCntClear (req : Requester) (b : Fin 18) (val : BitVec 32) (s : State) : Res := regRes (s.write4 req (0x1100 + 4 * b.val) val.toNat)

/-- SAMPLE_ENABLE_WRITE (R497). -/
def execSampleEnableWrite (req : Requester) (val : BitVec 32) (s : State) : Res := regRes (s.write4 req 0x3800 val.toNat)

/-- SAMPLE_CLOSE (R497): CLOSE set. -/
def execSampleClose (req : Requester) (val : BitVec 32) (s : State) : Res := s.forced req 0x3800 val.toNat 0x2000 0x2000

/-- DROP_REST (R498): DROP_REST set. -/
def execDropRest (req : Requester) (val : BitVec 32) (s : State) : Res := s.forced req 0x3800 val.toNat 0x4000 0x4000

/-- SAMPLE_DATA_READ (R498). -/
def execSampleDataRead (req : Requester) (s : State) : Res := .next (s.busRead req 0x380C)

/-- SILL_CLEAR (R501, R507). -/
def execSillClear (req : Requester) (val : BitVec 32) (s : State) : Res := regRes (s.write4 req 0x3024 val.toNat)

/-! ### The management bus (R442) -/

/-- MCTP_BAR2_ACCESS (R439, R442): a read or write of a word, answered with a status; an offset outside BAR2, a misaligned one
and another operation are access errors, a block not served yet denies a write. -/
def execMctpBar2Access (op : BitVec 8) (ld : LdNo) (off val : BitVec 32) (s : State) : Res :=
  let o := off.toNat
  let w := if 0x2000000 ≤ o then (o - 0x2000000) / 128 * 4 else o
  let _ := ld
  if 2 ^ 26 ≤ o ∨ o % 4 ≠ 0 ∨ (op ≠ 1 ∧ op ≠ 2) then .next ((s.raise Reg.REG_STATUS.ACCESS_ERR).emit (.mctp 1 none))
  else if op = 1 then
    let (v, s) := s.read4 .mgmt o
    .next (s.emit (.mctp 0 (some v)))
  else if !s.served w && !(decide (0x100000 ≤ o) && decide (o < 0x2000000)) then .next (s.emit (.mctp 2 none))
  else match s.write4 .mgmt o val.toNat with
    | some t => .next (t.emit (.mctp 0 none))
    | none => .fault .rsvBitsChanged

end Sys2Proof.Machine
end

