-- ==== Sys2Proof/Machine/Slots.lean ====
section
/-!
DEFINITION. The event of a slot boundary (spec/12 R309, spec/01 R24), which drives work of many chapters.
-/

namespace Sys2Proof.Machine

/-- The events written once in a slot may be written again (R209, R229, R234). -/
def State.tellAgain (s : State) : State :=
  { s with host := { s.host with unmTold := [], denyTold := false }, keys := { s.keys with toldSlot := [] } }

/-- SLOT_BOUNDARY (R24, R62, R107, R309, R311, R313, R316, R318, R334, R340, R344, R387, R393): FT reaches a slot boundary, and the work of
the slot begins. -/
def execSlotBoundary (s : State) : Res :=
  let here := s.ft % 2 ^ 20 == 0 && s.time.slotDone != s.ft / 2 ^ 20
  let s := if here then s else s.passTo ((s.ft / 2 ^ 20 + 1) * 2 ^ 20)
  let s := s.modTime (fun t => { t with slotDone := s.ft / 2 ^ 20, ptmAge := min 17 (t.ptmAge + 1) })
  let s := (s.gravDue.slotPolls.sendSyncs.timeChoose.lockStep.stalls.caskStore)
  let s := if s.locked then s else (s.count 12 0 1).noteFlag 9
  let s := s.thermalSlot.modPatrol (fun p => { p with slotRef := [] })
  let s := s.tellAgain.missesEnd.maintSlot
  let s := (List.range 8).foldl (fun s k => s.setF (Reg.DF_LINK.REPLAYS k) (s.link k).replays) s
  let s := s.upLinks.foldl (fun s k => s.sendHello k) s
  let s := s.modFabric (fun f => { f with quiet := f.quiet + 1, lsaSlots := f.lsaSlots + 1,
                                           absent := f.absent.map (fun (n, k) => (n, k + 1)),
                                           links := f.links.map (fun (k, l) =>
                                             (k, { l with keySlots := l.keySlots + 1, tagFails := 0, replays := 0 })) })
  .next (if s.flag Reg.TIME_CFG.SYNC_OUT_EN then s.emit .ftsyncOut else s)

end Sys2Proof.Machine
end

