-- ==== Sys2Proof/Machine/Start.lean ====
section
/-!
DEFINITION. The stages of a start after the rails (spec/14): the always-on domain's rise, straps, the end of the fill, media
training, keys, the map load and first format, up to Memory_Active.
-/

namespace Sys2Proof.Machine

/-! ### The always-on domain (R310, R351, R369, R381, R532) -/

/-- Bits of the words of the always-on blocks that the Weali store holds (R451, R479). -/
def wealiBits (off : Nat) : Nat :=
  if off = 0xE003C then 0xFFFFFFFF
  else if off = 0xE001C then 0xFFFFF
  else if off = 0xE0034 then 0xF8
  else accMask off (fun a => a == .rwp || a == .rwl)

/-- The words after the always-on domain rises: its blocks keep what the Weali store holds. -/
def aonWords (m : SMap Nat) : SMap Nat :=
  m.filterMap (fun (off, v) =>
    let w := if 0xE0000 ≤ off ∧ off < 0x100000 then setMask (resetWord off) (wealiBits off) v else v
    if w = resetWord off then none else some (off, w))

/-- FT as it resumes after the always-on domain was lost: the later of the last drydown record's and an hour after the last
checkpoint's, plus 1 s (R310). A record that was never made counts for nothing. -/
def TimeSt.resumed (t : TimeSt) : Nat :=
  max t.storedDry (if t.storedCkpt = 0 then 0 else t.storedCkpt + 3600000000000) + 1000000000

/-- AON_POWER_ON (R310, R369, R381): the always-on domain rises; all but the medium and the Weali store is lost. -/
def execAonPowerOn (s : State) : Res :=
  let p := s.power
  let down := p.seq == .off || p.seq == .held || p.seq == .backoff
  let stores := s.regs.stores
  let s := s.coreLost (down || p.dry.any (·.flushed))
  let power : PowerSt := { record := p.record, coldLow := p.coldLow, failRec := p.failRec, hot := p.record.cause == 4 && p.record.outcome != 2 }
  let s : State := { s with words := aonWords s.words, power := power, therm := {}, avail := {},
                            ft := s.time.resumed, frac := 0 }
  .next ((s.storesCut stores).raise Reg.TIME_STAT.UNTRACEABLE)

/-- STRAP_SAMPLE (R351, R532): 11b, and address 63, are taken as standalone; 11b raises an event. -/
def execStrapSample (role : BitVec 2) (slotId : BitVec 6) (s : State) : Res :=
  let r := if role = 3 ∨ slotId = 63 then 0 else role.toNat
  let s := (s.setF Reg.SEQ_STAT.ROLE r).setF Reg.SEQ_STAT.SLOT slotId.toNat
  .next (if role = 3 then s.event { mkEv .warning 13 0 .fault with detail := [3, slotId.toNat] } none else s)

/-! ### The end of the fill (R365, R370, R373, R375) -/

/-- Stacks that did not train are failed stacks that hold nothing yet; planes, PLLs and sensors are in service again (R93, R375,
R511 to R514). -/
def State.unitsAtStart (s : State) (stackOk : BitVec 2) : State :=
  let s := s.modAvail (fun a => { a with stackDown := 0, shareOut := false, lostLines := [], pll := 0, pllDown := 0 })
  let s := s.modAvail (fun a => { a with planeDown := 0, below := false, cipherDown := 0, misses := [] })
  let s := s.setF Reg.AVAIL_STAT.CIPHER_UNITS 16
  let s := (s.modTherm (fun t => { t with excluded := [], off := [] })).setF Reg.AVAIL_STAT.BELOW_MIN 0
  let s := s.setFlag Reg.AVAIL_STAT.OSC_SINGLE (s.avail.oscDown != 0)
  let bad := ([0, 1] : List Nat).filter (fun k => !stackOk.getLsbD k)
  let s := bad.foldl (fun s k => s.stackFail k) s
  let s := s.modAvail (fun a => { a with shareOut := false, lostLines := [] })
  ({ s with home := { s.home with unknown := false } } : State).setF Reg.AVAIL_STAT.DIR_UNKNOWN 0

/-- Write-through stands until the bank has charged; with no C stored a test starts at once (R358). -/
def State.budgetAtStart (s : State) : State :=
  let s := (((s.modPower (fun p => { p with samples := [], budget := 0 })).setFlag Reg.HU_STAT.WT true).setFlag Reg.WP_STATUS.WT_HOLDUP true)
  if s.getF Reg.HU_CAP.CAP_MF = 0 && s.power.test.phase == 0 then s.testStart none else s

/-- FILL_END (R365, R370, R373, R375, R459): engines are released, the mailbox is ready, heads train, and every package is asked for
IDENT. -/
def execFillEnd (stackOk : BitVec 2) (engineOk : BitVec 64) (s : State) : Res :=
  if s.power.seq != .on || s.getF Reg.START_STAT.STAGE != 2 then .next s
  else
    let s := (s.setF Reg.START_STAT.STAGE 3).engStart engineOk
    let s := (s.unitsAtStart stackOk).budgetAtStart
    if s.avail.below then .next s
    else
      let s := if s.power.record.outcome = 2 then s.dirtyShutdown else s
      let s := s.modHost (fun h => { h with mailbox := true })
      let s := ((List.range 8).filter (fun h => s.headExists h && s.host.perst.getLsbD (h / 2))).foldl (fun s h => s.headResetEnd h) s
      let s := s.modPatrol (fun p => { p with ident := [], trained := false })
      let pk := (List.range 32).flatMap (fun c => [32 * c, 32 * c + 16])
      .next (pk.foldl (fun s d => s.sendPacket 5 d 0 0 0 none) s)

/-! ### Memory_Active (R247, R327, R365, R375) -/

/-- Memory_Active is set on every LD: the record is OPEN, the time of the start is reported, credit is granted (R247, R365, R370,
R374, R383). -/
def State.activate (s : State) : State :=
  let s := s.modHost (fun h => { h with memActive := true })
  let s := s.dryRecord { s.power.record with outcome := 2 }
  let s := s.modPower (fun p => { p with resuming := false, formatting := false, dscDone := false })
  let s := s.setF Reg.START_TIME.MS (min 0xFFFF ((s.ft - s.power.refAt) / 1000000))
  (s.setF Reg.START_STAT.STAGE 7).pump

/-- Timed actions whose FT has passed are applied in the order of their AT with LATE set (R327). -/
def State.lateActions (s : State) : Nat → State
  | 0 => s
  | n + 1 =>
    match s.nextAction with
    | some a => if a.at_ < s.ft then (s.actionRun { a with late := true }).lateActions n else s
    | none => s

/-- A warm resume ends (R90, R375, R377, R431): disable sequences start again, and engines that ran a staged image are back on the
active one. -/
def State.resumeEnd (s : State) : State :=
  let again := s.cache.disabling.map (·.ld)
  let s := s.modCache (fun c => { c with disabling := [] })
  let s := (List.range 64).foldl (fun s e => s.setF (Reg.ENG_STAT.STAGED e) 0) s
  let s := (s.modMaint (fun m => { m with moved := [] })).activate
  let s := again.foldl (fun s ld => s.disableStart ld none) s
  (s.rebuildPump 96).lateActions s.time.actions.length

/-! ### Media training (R55, R63, R186, R187, R370) -/

/-- The packages per channel that the answers show: two, one at position 0, or a pattern R55 refuses. -/
def State.popSeen (s : State) : Option Nat :=
  let has := fun c p => mget false s.patrol.ident (2 * c + p)
  let all := List.range 32
  if all.all (fun c => has c 0 && has c 1) then some 2
  else if all.all (fun c => has c 0 && !has c 1) then some 1
  else none

/-- MEDIA_GEOM for a number of packages per channel (R54, R63). -/
def State.setGeom (s : State) (n : Nat) : State :=
  (((s.setF Reg.MEDIA_GEOM.PKG_PER_CH n).setF Reg.MEDIA_GEOM.DIESETS (48 * n)).setF Reg.MEDIA_GEOM.SPARE_DIES (32 * n)).setF
    Reg.MEDIA_GEOM.TILE_FMT 1

/-- Packages of the population that gave no IDENT count as 16 failed dies, and channels that did not train fail (R55, R186, R187). -/
def State.absentFail (s : State) (trained : BitVec 32) : State :=
  let gone := (List.range 64).filter (fun i => decide (i % 2 < s.patrol.pop) && !mget false s.patrol.ident i)
  let dies := gone.flatMap (fun i => (List.range 16).map (fun d => 32 * (i / 2) + 16 * (i % 2) + d))
  let s := s.diesFail dies 5
  ((List.range 32).filter (fun c => !trained.getLsbD c)).foldl (fun s c => s.chanFail c) s

/-- Members of the die sets present whose die has not failed, whose package answered and whose channel trained are VALID; one that is
being rebuilt in is so at the rebuild's end (R64, R191). -/
def State.membersValid (s : State) (n : Nat) (trained : BitVec 32) : State :=
  ((List.range 96).filter (fun ds => decide (ds % 32 < 16 * n))).foldl (fun (s : State) ds =>
    (List.range 10).foldl (fun (s : State) m =>
      let die := s.memberDie ds m
      let ok := trained.getLsbD (die / 32) && mget false s.patrol.ident (2 * (die / 32) + die % 32 / 16) && !s.dieFailed die
        && !s.flag (Reg.DIESET_MEMBER.REBUILDING ds m)
      s.setFlag (Reg.DIESET_MEMBER.VALID ds m) ok) s) s

/-- MEDIA_TRAINING_DONE (R55, R63, R370, R377): the channels have trained; before first format another pattern of packages than R55's
stops the start. A warm resume ends here. -/
def execMediaTrainingDone (trained : BitVec 32) (retried : Bool) (s : State) : Res :=
  let st := s.getF Reg.START_STAT.STAGE
  if s.power.seq != .on || s.inDrydown || s.patrol.trained || (st != 3 && st != 4) || s.host.memActive then .next s
  else
    let s := if retried then s.raise Reg.START_STAT.MEDIA_RETRY else s
    if s.patrol.pop = 0 then
      match s.popSeen with
      | some n =>
        let s := ((s.membersValid n trained).setGeom n).setF Reg.START_STAT.STAGE 4
        .next (s.modPatrol (fun p => { p with trained := true }))
      | none =>
        let seen := (List.range 64).foldl (fun a i => if mget false s.patrol.ident i then a + 2 ^ i else a) 0
        .next ((s.raise Reg.START_STAT.POP_REFUSED).emit (.population (BitVec.ofNat 64 seen)))
    else
      let s := ((s.modPatrol (fun p => { p with trained := true })).membersValid s.patrol.pop trained).absentFail trained
      let s := (s.setGeom s.patrol.pop).setF Reg.START_STAT.STAGE 4
      .next (if s.power.resuming then s.resumeEnd else s)

/-! ### Keys (R206, R208, R370, R376) -/

/-- KEY_SETUP_END (R206, R208, R370, R376): the default root and the key table's indexes are in the key store; with no population stored,
first format follows unless the part is in MANUFACTURE. -/
def execKeySetupEnd (s : State) : Res :=
  if s.power.seq != .on || s.inDrydown || !s.patrol.trained || s.getF Reg.START_STAT.STAGE != 4 || s.power.resuming then .next s
  else
    let s := (s.setF Reg.START_STAT.STAGE 5).keysRestore
    if s.patrol.pop ≠ 0 ∨ s.keys.lifecycle = 0 ∨ s.keys.fuse then .next s
    else
      let s := s.modPatrol (fun p => { p with pop := s.getF Reg.MEDIA_GEOM.PKG_PER_CH })
      let s := (s.pageWrites 1).modPower (fun p => { p with formatting := true })
      .next ((s.setF Reg.START_STAT.STAGE 6).setF Reg.START_STAT.CAUSE 4)

/-! ### The map load (R153, R154, R166, R215) -/

/-- The entry in the body of a kind 01h record (R145, R151). -/
def entryOf (x : Nat) : MapEntry where
  psn := bitsOf x 0 26
  keyidx := bitsOf x 26 18
  keyver := bitsOf x 44 16
  note := bitsOf x 60 2
  lwt := bitsOf x 62 32
  state := bitsOf x 94 4
  mirror := bitsOf x 98 12
  cask := bitAt x 110
  heat := bitsOf x 111 8

/-- A kind 01h record replayed: its body whole. A slot it leaves goes under release marking, and one it takes leaves the marks, when
the image does not hold them already. -/
def MapSt.replayEntry (m : MapSt) (lsn : Nat) (e : MapEntry) (fresh : Bool) : MapSt :=
  let was := mget MapEntry.first m.entries lsn
  let old := was.psn
  let m := if e.state = stWorn then (if m.worn.contains lsn then m else { m with worn := m.worn ++ [lsn] })
    else if e.state = stRebuilding then m else { m with worn := m.worn.filter (· != lsn) }
  let marks := if !fresh || old == e.psn then m.marks
    else m.marks.filter (fun k => k.psn != e.psn) ++ (if old = noPsn then [] else [{ psn := old, waiting := true, lsn := lsn }])
  { m with entries := mset MapEntry.first m.entries lsn e, marks := marks }

/-- A journal record replayed, with the copies under way as (segment, target, state before) (R151, R154). `fresh` says that the image
is older than the record. -/
def replayRec (m : MapSt) (copies : List CopyRec) (r : JRec) (fresh : Bool) : MapSt × List CopyRec :=
  let b := r.body
  let psn := bitsOf b 0 26
  let ltn := bitsOf b 26 37
  let mask := BitVec.ofNat 4 (bitsOf b 63 4)
  let add := fun (l : List (Nat × Nat)) (x : Nat × Nat) => if l.contains x then l else l ++ [x]
  match r.kind with
  | 0x01 => (m.replayEntry r.lsn (entryOf b) fresh, copies)
  | 0x02 => ({ m with retired := if m.retired.contains psn then m.retired else psn :: m.retired }, copies)
  | 0x03 => ({ m with residue := add m.residue (r.lsn, psn) }, copies)
  | 0x04 => ({ m with residue := m.residue.filter (fun x => x != (r.lsn, psn)) }, copies)
  | 0x05 => ({ m with poison := mset 0 m.poison ltn (mget 0 m.poison ltn ||| mask) }, copies)
  | 0x06 => ({ m with poison := mset 0 m.poison ltn 0 }, copies)
  | 0x08 => ({ m with rekeyTab := mset (0, 0) m.rekeyTab r.lsn (bitsOf b 0 18, bitsOf b 18 16 + 1) }, copies)
  | 0x09 => ({ m with rekeyTab := m.rekeyTab.filter (fun x => x.1 != r.lsn) }, copies)
  | 0x0A => (m, copies.filter (fun x => x.lsn != r.lsn) ++ [{ lsn := r.lsn, target := psn, prev := bitsOf b 26 4, why := r.why }])
  | 0x0B =>
    let ld := bitsOf b 0 6
    ({ m with rekeyLd := m.rekeyLd.filter (fun x => x.1 != ld) ++ [(ld, bitsOf b 6 18)] }, copies)
  | 0x0C => ({ m with rekeyLd := m.rekeyLd.filter (fun x => x != (bitsOf b 0 6, bitsOf b 6 18)) }, copies)
  | _ => (m, copies)

/-- The records from a sequence number on, in order, up to the first that does not follow or whose CRC fails (R154). -/
def journalRun (l : List JRec) : Nat → Nat → List JRec
  | 0, _ => []
  | fuel + 1, seq =>
    match l.find? (fun r => r.seq == seq) with
    | some r => if r.crc = r.check then r :: journalRun l fuel (seq + 1) else []
    | none => []

/-- The map of an image. -/
def MapSt.ofImage (m : MapSt) (i : MapImage) : MapSt :=
  { m with entries := i.entries, pcount := i.pcount, retired := i.retired, residue := i.residue, poison := i.poison,
           rekeyTab := i.rekeyTab, rekeyLd := i.rekeyLd, rekeys := i.rekeys, marks := i.marks, walked := i.walked, worn := i.worn }

/-- The newest checkpoint, its delta, and the journal replayed (R154). Answers the copies under way, and whether a valid delta was
there. -/
def State.mapRead (s : State) : (List CopyRec × Bool) × State :=
  let newest := (s.map.ckpts.filter (·.valid)).foldl (fun (a : Option MapImage) c => match a with
    | none => some c
    | some x => if x.number < c.number then some c else some x) none
  let base : MapImage := newest.getD {}
  let delta := s.map.delta.filter (fun d => d.number == base.number && newest.isSome)
  let img := delta.getD base
  let run := journalRun s.map.jmedia s.map.jmedia.length base.seq
  let (m, copies) := run.foldl (fun (x : MapSt × List CopyRec) r => replayRec x.1 x.2 r (decide (img.seq ≤ r.seq)))
    (s.map.ofImage img, img.copies)
  let next := base.seq + run.length
  let used := m.entries.map (fun (_, e) => e.psn)
  let m := { m with jmedia := s.map.jmedia.filter (fun r => decide (r.seq < next)), jseq := next, loaded := true,
                    marks := m.marks.filter (fun k => k.scrub || !used.contains k.psn),
                    worn := m.worn.filter (fun l => m.entries.any (fun (k, e) => k == l && (e.state == stWorn
                      || (e.state == stRebuilding && copies.any (fun c => c.lsn == l && c.prev == stWorn))))) }
  ((copies, delta.isSome), { s with map := m })

/-- A segment found rebuilding: its entry returns to the state before, the target is marked, the copy is queued again for its purpose
(R154). -/
def State.undoCopy (s : State) (c : CopyRec) : State :=
  let e := s.entry c.lsn
  if e.state ≠ stRebuilding then s
  else
    let s := s.setEntry c.lsn { e with state := c.prev }
    let s := if c.prev = stWorn ∧ !s.map.worn.contains c.lsn then s.modMap (fun m => { m with worn := m.worn ++ [c.lsn] }) else s
    (s.releaseSlot c.target c.lsn false false false).queueCopy c.lsn c.why

/-- A pin-spill entry is read back as a pinned dirty tile (R166). -/
def State.spillBack (s : State) (x : PinSpill) : State :=
  match s.takeWay 0xFFF x.ltn ((s.tileLd x.ltn).getD 0) with
  | none => s
  | some (w, s) => s.modWay 0xFFF x.ltn w (fun y =>
      { y with valid := x.valid, dirty := x.dirty, poison := x.poison, data := x.data, pin := true, cause := x.cause, spilled := true })

/-- The re-keys that a start resumes, and, without a valid delta, those rebuilt from what persists (R215). -/
def State.rekeysBack (s : State) (delta : Bool) : State :=
  let runs := s.map.rekeyTab.map (fun (l, i, v) => ({ lsn := l, oldIdx := i, oldVer := v - 1 } : RekeyRun))
  let s := s.modMap (fun m => { m with rekeyRun := runs,
                                       rekeys := m.rekeys.filter (fun r => !runs.any (fun q => q.lsn == r.lsn)) })
  if delta then s
  else
    let s := s.modMap (fun m => { m with rekeys := [] })
    let pins := ((s.map.spill.filter (fun x => x.cause == 1 || x.cause == 2)).map (fun x => ltnSeg x.ltn)).eraseDups
    let s := pins.foldl (fun s l => s.queueRekey l 1 none) s
    let rot := s.keys.ctx.filter (fun (_, k) => k.rotating)
    let s := rot.foldl (fun s (i, k) => (s.namesKey i).foldl (fun s l => s.queueRekey l 3 (some k.succ)) s) s
    s.map.rekeyLd.foldl (fun s (ld, i) => (s.ldRekeyLeft ld i).foldl (fun s l => s.queueRekey l 4 (some i)) s) s

/-- What a start does once the map is there: sets that lost members, rebuilds, ways, wear (R161, R190 to R193). -/
def State.upkeepStart (s : State) : State :=
  let evac := (List.range 96).filter (fun d => decide (2 ≤ s.lost d) && s.spareless d)
  let s := evac.foldl (fun s d => (s.setSegs d).foldl (fun s l => s.queueCopy l .evacuate) s) s
  (s.rebuildPump 96).wayWant

/-- A member that did not answer a recovery applies the target stored for it before it admits writes (R342). -/
def State.storedRecovery (s : State) : State :=
  s.cask.doms.foldl (fun s (i, d) =>
    match d.storedTarget with
    | some t => s.modDom i (fun d => { d with state := 3, recov := some { target := some t } })
    | none => s) s

/-- MAP_LOAD_END (R90, R138, R154, R161, R166, R185, R327, R365, R370): map, journal, re-keys and the pin spill are loaded, and
Memory_Active is set. -/
def execMapLoadEnd (s : State) : Res :=
  if s.power.seq != .on || s.inDrydown || s.getF Reg.START_STAT.STAGE != 5 || s.patrol.pop == 0 || s.keys.fuse then .next s
  else
    let found := s.power.record.outcome
    let ((copies, delta), s) := s.mapRead
    let s := copies.foldl (fun s c => s.undoCopy c) s
    let s := s.rekeysBack delta
    let s := s.storedRecovery
    let s := s.map.spill.foldl (fun s x => s.spillBack x) s
    let s := s.modMap (fun m => { m with ckptLast := s.ft / 2 ^ 20 })
    let s := (List.range 64).foldl (fun s n => s.raise (Reg.LC_LD_CTRL.INV_DONE n)) s
    let s := ((s.setF Reg.START_STAT.STAGE 6).wearCompute.upkeepStart).activate
    let s := if found = 1 ∨ found = 2 then s.accelStart else s
    .next (s.lateActions s.time.actions.length)

/-! ### First format (R211, R213, R376, R546) -/

/-- Every persistent field at its value at first format, every LD bound to index 0 (R211, R451). -/
def formatWords (m : SMap Nat) : SMap Nat :=
  m.filterMap (fun (off, v) =>
    let k := accMask off (· == .rwp) ||| (if 0x90100 ≤ off ∧ off < 0x90200 then 0x3FFFF else 0)
      ||| (if 0x51000 ≤ off ∧ off < 0x51C00 then 0xFFFFFFFF else 0)
    let w := setMask v k (resetWord off)
    if w = resetWord off then none else some (off, w))

/-- FIRST_FORMAT_END (R146, R213, R376, R546): every entry discarded, a first checkpoint, every slot marked; Memory_Active is set. -/
def execFirstFormatEnd (s : State) : Res :=
  if s.power.seq != .on || s.inDrydown || !s.power.formatting then .next s
  else
    let s : State := { s with words := formatWords s.words, host := { s.host with archived := [] }, weali := { s.weali with rings := [] } }
    let s := s.modReads (fun r => { r with gravStored := [], gravNext := [], cal := [] })
    let first : MapImage := { number := 1, valid := true }
    let s := s.modMap (fun m => { formats := m.formats + 1, ckpts := [first], loaded := true })
    let s := (List.range 64).foldl (fun s n => s.raise (Reg.LC_LD_CTRL.INV_DONE n)) s
    .next (s.wearCompute.activate)

end Sys2Proof.Machine
end

