-- ==== Sys2Proof/Machine/Dispatch.lean ====
section
/-!
DEFINITION. One arm per command: the meaning it has, or a rejection by name.
-/

namespace Sys2Proof.Machine

/-- The effect of a command on everything but the queue. -/
def exec (i : Instr) (s : State) : Host.Outcome State Fault Refusal :=
  match i with
  | .memrd h q => Sys2Proof.Machine.execMemrd h q s
  | .meminv h q => Sys2Proof.Machine.execMeminv h q s
  | .memwr h w => Sys2Proof.Machine.execMemwr h w s
  | .memwrptl h w mask => Sys2Proof.Machine.execMemwrptl h w mask s
  | .birsp h biTag rsp => Sys2Proof.Machine.execBirsp h biTag rsp s
  | .biconflict h ldId line => Sys2Proof.Machine.execBiconflict h ldId line s
  | .bisnpTimeout h biTag => Sys2Proof.Machine.execBisnpTimeout h biTag s
  | .slotPurgeEnd slot => Sys2Proof.Machine.execSlotPurgeEnd slot s
  | .mapEntryReturn ltn => Sys2Proof.Machine.execMapEntryReturn ltn s
  | .tileReadAdmit k why => Sys2Proof.Machine.execTileReadAdmit k why s
  | .chunkReadData ch pos part cidx bits => Sys2Proof.Machine.execChunkReadData ch pos part cidx bits s
  | .tileAttempt k => Sys2Proof.Machine.execTileAttempt k s
  | .crcResendArrival ltn tile crc => Sys2Proof.Machine.execCrcResendArrival ltn tile crc s
  | .deepRecoveryStart k => Sys2Proof.Machine.execDeepRecoveryStart k s
  | .laneHoldExpiry ds lane => Sys2Proof.Machine.execLaneHoldExpiry ds lane s
  | .deepRecoveryEnd k => Sys2Proof.Machine.execDeepRecoveryEnd k s
  | .tagCacheMissReturn set visitor => Sys2Proof.Machine.execTagCacheMissReturn set visitor s
  | .writeCreditGrant port => Sys2Proof.Machine.execWriteCreditGrant port s
  | .mashIdleTimeout ltn => Sys2Proof.Machine.execMashIdleTimeout ltn s
  | .streamTrackerTimeout i_ => Sys2Proof.Machine.execStreamTrackerTimeout i_ s
  | .cleanerStart => Sys2Proof.Machine.execCleanerStart s
  | .cleanerStop => Sys2Proof.Machine.execCleanerStop s
  | .counterReadReturn k => Sys2Proof.Machine.execCounterReadReturn k s
  | .laneGrant ds lane => Sys2Proof.Machine.execLaneGrant ds lane s
  | .statusPoll ch pkg die => Sys2Proof.Machine.execStatusPoll ch pkg die s
  | .statusResponse ch pkg die bits => Sys2Proof.Machine.execStatusResponse ch pkg die bits s
  | .partitionBusyTimeout ch pos part => Sys2Proof.Machine.execPartitionBusyTimeout ch pos part s
  | .tempResponse ch pkg bits => Sys2Proof.Machine.execTempResponse ch pkg bits s
  | .identResponse ch pkg bits => Sys2Proof.Machine.execIdentResponse ch pkg bits s
  | .mediaAlert ch => Sys2Proof.Machine.execMediaAlert ch s
  | .alertStuckTimeout ch => Sys2Proof.Machine.execAlertStuckTimeout ch s
  | .mediaNoAnswerTimeout ch pos => Sys2Proof.Machine.execMediaNoAnswerTimeout ch pos s
  | .channelRetrainEnd ch ok => Sys2Proof.Machine.execChannelRetrainEnd ch ok s
  | .rebuildTick ds => Sys2Proof.Machine.execRebuildTick ds s
  | .patrolAdvance ds => Sys2Proof.Machine.execPatrolAdvance ds s
  | .accelPassEnd => Sys2Proof.Machine.execAccelPassEnd s
  | .checkpointDue => Sys2Proof.Machine.execCheckpointDue s
  | .checkpointEnd => Sys2Proof.Machine.execCheckpointEnd s
  | .copyStart lsn => Sys2Proof.Machine.execCopyStart lsn s
  | .copyPassEnd lsn => Sys2Proof.Machine.execCopyPassEnd lsn s
  | .releaseMarkStart psn => Sys2Proof.Machine.execReleaseMarkStart psn s
  | .releaseMarkEnd psn => Sys2Proof.Machine.execReleaseMarkEnd psn s
  | .endureReached lsn => Sys2Proof.Machine.execEndureReached lsn s
  | .discardHoldDrained lsn => Sys2Proof.Machine.execDiscardHoldDrained lsn s
  | .rekeyStart g => Sys2Proof.Machine.execRekeyStart g s
  | .rekeyEnd lsn => Sys2Proof.Machine.execRekeyEnd lsn s
  | .calibrationPass sums => Sys2Proof.Machine.execCalibrationPass sums s
  | .slotBoundary => Sys2Proof.Machine.execSlotBoundary s
  | .frameBoundary => Sys2Proof.Machine.execFrameBoundary s
  | .hourlyCheckpoint => Sys2Proof.Machine.execHourlyCheckpoint s
  | .ftsyncEdge => Sys2Proof.Machine.execFtsyncEdge s
  | .ftcodeWord word => Sys2Proof.Machine.execFtcodeWord word s
  | .ftcodeOutSend => Sys2Proof.Machine.execFtcodeOutSend s
  | .ptmResponse ok root => Sys2Proof.Machine.execPtmResponse ok root s
  | .sync f body => Sys2Proof.Machine.execSync f body s
  | .ftStepForward => Sys2Proof.Machine.execFtStepForward s
  | .timedActionDue => Sys2Proof.Machine.execTimedActionDue s
  | .caskBoundary dom => Sys2Proof.Machine.execCaskBoundary dom s
  | .undoSpill => Sys2Proof.Machine.execUndoSpill s
  | .undoIndexWalk => Sys2Proof.Machine.execUndoIndexWalk s
  | .caskReadySend dom => Sys2Proof.Machine.execCaskReadySend dom s
  | .earlyThreshold dom => Sys2Proof.Machine.execEarlyThreshold dom s
  | .ready f body => Sys2Proof.Machine.execReady f body s
  | .commit f body => Sys2Proof.Machine.execCommit f body s
  | .caskAck f body => Sys2Proof.Machine.execCaskAck f body s
  | .release f body => Sys2Proof.Machine.execRelease f body s
  | .earlyReq f body => Sys2Proof.Machine.execEarlyReq f body s
  | .early f body => Sys2Proof.Machine.execEarly f body s
  | .query f body => Sys2Proof.Machine.execQuery f body s
  | .state f body => Sys2Proof.Machine.execState f body s
  | .recover f body => Sys2Proof.Machine.execRecover f body s
  | .caskWritebackEnd dom => Sys2Proof.Machine.execCaskWritebackEnd dom s
  | .recoverDone f body => Sys2Proof.Machine.execRecoverDone f body s
  | .caskRecoverTimeout dom => Sys2Proof.Machine.execCaskRecoverTimeout dom s
  | .rdS f m => Sys2Proof.Machine.execRdS f m s
  | .rdE f m => Sys2Proof.Machine.execRdE f m s
  | .rdNc f m => Sys2Proof.Machine.execRdNc f m s
  | .upg f m => Sys2Proof.Machine.execUpg f m s
  | .wr f m => Sys2Proof.Machine.execWr f m s
  | .inv f m => Sys2Proof.Machine.execInv f m s
  | .snpS f m => Sys2Proof.Machine.execSnpS f m s
  | .fwdS f m => Sys2Proof.Machine.execFwdS f m s
  | .fwdE f m => Sys2Proof.Machine.execFwdE f m s
  | .data f m => Sys2Proof.Machine.execData f m s
  | .cmp f m => Sys2Proof.Machine.execCmp f m s
  | .snpRsp f m => Sys2Proof.Machine.execSnpRsp f m s
  | .fwdAck f m => Sys2Proof.Machine.execFwdAck f m s
  | .ack f m => Sys2Proof.Machine.execAck f m s
  | .mwr f m => Sys2Proof.Machine.execMwr f m s
  | .mcmp f m => Sys2Proof.Machine.execMcmp f m s
  | .mrd f m => Sys2Proof.Machine.execMrd f m s
  | .mdata f m => Sys2Proof.Machine.execMdata f m s
  | .mdisc f m => Sys2Proof.Machine.execMdisc f m s
  | .mdack f m => Sys2Proof.Machine.execMdack f m s
  | .rsync f m => Sys2Proof.Machine.execRsync f m s
  | .rsack f m => Sys2Proof.Machine.execRsack f m s
  | .resyncTick entry => Sys2Proof.Machine.execResyncTick entry s
  | .hello f b => Sys2Proof.Machine.execHello f b s
  | .lsa f b => Sys2Proof.Machine.execLsa f b s
  | .lsaRefreshDue => Sys2Proof.Machine.execLsaRefreshDue s
  | .offer f b => Sys2Proof.Machine.execOffer f b s
  | .proof f b => Sys2Proof.Machine.execProof f b s
  | .confirm f => Sys2Proof.Machine.execConfirm f s
  | .abort f reason => Sys2Proof.Machine.execAbort f reason s
  | .handshakeTimeout k => Sys2Proof.Machine.execHandshakeTimeout k s
  | .keyRenewalDue k => Sys2Proof.Machine.execKeyRenewalDue k s
  | .linkTagFailureLimit k => Sys2Proof.Machine.execLinkTagFailureLimit k s
  | .mgmt f packet => Sys2Proof.Machine.execMgmt f packet s
  | .null f => Sys2Proof.Machine.execNull f s
  | .linkReplayTimeout k => Sys2Proof.Machine.execLinkReplayTimeout k s
  | .linkTrained k ok => Sys2Proof.Machine.execLinkTrained k ok s
  | .helloLoss k => Sys2Proof.Machine.execHelloLoss k s
  | .viewSettle => Sys2Proof.Machine.execViewSettle s
  | .nodeFailDeclare node => Sys2Proof.Machine.execNodeFailDeclare node s
  | .aonPowerOn => Sys2Proof.Machine.execAonPowerOn s
  | .strapSample role slotId => Sys2Proof.Machine.execStrapSample role slotId s
  | .powerUpStart => Sys2Proof.Machine.execPowerUpStart s
  | .stepComplete => Sys2Proof.Machine.execStepComplete s
  | .stepTimeout ch => Sys2Proof.Machine.execStepTimeout ch s
  | .retryBackoffExpiry => Sys2Proof.Machine.execRetryBackoffExpiry s
  | .resetStretchExpiry k => Sys2Proof.Machine.execResetStretchExpiry k s
  | .step w => Sys2Proof.Machine.execStep w s
  | .poll w => Sys2Proof.Machine.execPoll w s
  | .seqAbort w => Sys2Proof.Machine.execSeqAbort w s
  | .off w => Sys2Proof.Machine.execOff w s
  | .seqRelease w => Sys2Proof.Machine.execSeqRelease w s
  | .pfw w => Sys2Proof.Machine.execPfw w s
  | .seqTimeout => Sys2Proof.Machine.execSeqTimeout s
  | .railFault ch => Sys2Proof.Machine.execRailFault ch s
  | .railWarning sense => Sys2Proof.Machine.execRailWarning sense s
  | .budgetCompute capUv => Sys2Proof.Machine.execBudgetCompute capUv s
  | .capTestStart => Sys2Proof.Machine.execCapTestStart s
  | .capTestSettled => Sys2Proof.Machine.execCapTestSettled s
  | .capTestNotCharged => Sys2Proof.Machine.execCapTestNotCharged s
  | .capTestDischargeEnd dtUs => Sys2Proof.Machine.execCapTestDischargeEnd dtUs s
  | .capTestRetry => Sys2Proof.Machine.execCapTestRetry s
  | .capRecharged => Sys2Proof.Machine.execCapRecharged s
  | .vinWarning => Sys2Proof.Machine.execVinWarning s
  | .pfwNAssert => Sys2Proof.Machine.execPfwNAssert s
  | .drydownCut => Sys2Proof.Machine.execDrydownCut s
  | .flushEnd => Sys2Proof.Machine.execFlushEnd s
  | .bankLowInFlush => Sys2Proof.Machine.execBankLowInFlush s
  | .quiesceEnd => Sys2Proof.Machine.execQuiesceEnd s
  | .railsOffEnd => Sys2Proof.Machine.execRailsOffEnd s
  | .vinGoodReturn => Sys2Proof.Machine.execVinGoodReturn s
  | .resumeHoldExpiry => Sys2Proof.Machine.execResumeHoldExpiry s
  | .coldReset => Sys2Proof.Machine.execColdReset s
  | .coldResetRelease => Sys2Proof.Machine.execColdResetRelease s
  | .emergencyWipeTrigger cause => Sys2Proof.Machine.execEmergencyWipeTrigger cause s
  | .wipeFillEnd => Sys2Proof.Machine.execWipeFillEnd s
  | .fillEnd stackOk engineOk => Sys2Proof.Machine.execFillEnd stackOk engineOk s
  | .mediaTrainingDone trained retried => Sys2Proof.Machine.execMediaTrainingDone trained retried s
  | .keySetupEnd => Sys2Proof.Machine.execKeySetupEnd s
  | .mapLoadEnd => Sys2Proof.Machine.execMapLoadEnd s
  | .firstFormatEnd => Sys2Proof.Machine.execFirstFormatEnd s
  | .onDieSensorSample t => Sys2Proof.Machine.execOnDieSensorSample t s
  | .remoteSensorSample n t open_ => Sys2Proof.Machine.execRemoteSensorSample n t open_ s
  | .sensorSelfCheck failing => Sys2Proof.Machine.execSensorSelfCheck failing s
  | .timebaseCompensate => Sys2Proof.Machine.execTimebaseCompensate s
  | .bandgapRetrim => Sys2Proof.Machine.execBandgapRetrim s
  | .oscillatorCompare off0 off1 => Sys2Proof.Machine.execOscillatorCompare off0 off1 s
  | .pllLockLoss pll => Sys2Proof.Machine.execPllLockLoss pll s
  | .pllRelockStable => Sys2Proof.Machine.execPllRelockStable s
  | .hbmStackFail stack => Sys2Proof.Machine.execHbmStackFail stack s
  | .hbmShareRebuilt => Sys2Proof.Machine.execHbmShareRebuilt s
  | .heartbeatCheck beat => Sys2Proof.Machine.execHeartbeatCheck beat s
  | .engineFail e cause => Sys2Proof.Machine.execEngineFail e cause s
  | .failoverTakeover e => Sys2Proof.Machine.execFailoverTakeover e s
  | .moverDescriptorEnd k bad => Sys2Proof.Machine.execMoverDescriptorEnd k bad s
  | .bgtRegionTest bad => Sys2Proof.Machine.execBgtRegionTest bad s
  | .retentionIdleExpiry m => Sys2Proof.Machine.execRetentionIdleExpiry m s
  | .macroWakeEnd m => Sys2Proof.Machine.execMacroWakeEnd m s
  | .patchRoundEnd => Sys2Proof.Machine.execPatchRoundEnd s
  | .wealiPageWriteEnd page bad1 bad2 => Sys2Proof.Machine.execWealiPageWriteEnd page bad1 bad2 s
  | .rwpStoreEnd off => Sys2Proof.Machine.execRwpStoreEnd off s
  | .wealiSweepTick page margin uncorr => Sys2Proof.Machine.execWealiSweepTick page margin uncorr s
  | .tallyWindowEnd => Sys2Proof.Machine.execTallyWindowEnd s
  | .summaryIntervalEnd => Sys2Proof.Machine.execSummaryIntervalEnd s
  | .perstNAssert p => Sys2Proof.Machine.execPerstNAssert p s
  | .perstNRelease p => Sys2Proof.Machine.execPerstNRelease p s
  | .hotReset h => Sys2Proof.Machine.execHotReset h s
  | .headLinkUp h width rate flit256 => Sys2Proof.Machine.execHeadLinkUp h width rate flit256 s
  | .cxlReset ld memClear => Sys2Proof.Machine.execCxlReset ld memClear s
  | .functionLevelReset ld => Sys2Proof.Machine.execFunctionLevelReset ld s
  | .busMasterDisable ld => Sys2Proof.Machine.execBusMasterDisable ld s
  | .ideIntegrityFailure h => Sys2Proof.Machine.execIdeIntegrityFailure h s
  | .gpfPhase2 h => Sys2Proof.Machine.execGpfPhase2 h s
  | .spdmKeyExchange at_ session withMutual secret => Sys2Proof.Machine.execSpdmKeyExchange at_ session withMutual secret s
  | .ideKmKeyProg session h key => Sys2Proof.Machine.execIdeKmKeyProg session h key s
  | .doeDiscovery ld index => Sys2Proof.Machine.execDoeDiscovery ld index s
  | .cdatRead ld => Sys2Proof.Machine.execCdatRead ld s
  | .fmLdAllocate ld blocks => Sys2Proof.Machine.execFmLdAllocate ld blocks s
  | .fmAddDc ld region extents => Sys2Proof.Machine.execFmAddDc ld region extents s
  | .mctpBar2Access op ld off val => Sys2Proof.Machine.execMctpBar2Access op ld off val s
  | .mailboxDoorbell path opc len => Sys2Proof.Machine.execMailboxDoorbell path opc len s
  | .backgroundOpEnd path ok => Sys2Proof.Machine.execBackgroundOpEnd path ok s
  | .identify path => Sys2Proof.Machine.execIdentify path s
  | .backgroundOperationStatus path => Sys2Proof.Machine.execBackgroundOperationStatus path s
  | .getResponseMessageLimit path => Sys2Proof.Machine.execGetResponseMessageLimit path s
  | .setResponseMessageLimit path log2 => Sys2Proof.Machine.execSetResponseMessageLimit path log2 s
  | .requestAbortBackgroundOp path => Sys2Proof.Machine.execRequestAbortBackgroundOp path s
  | .getEventRecords path log => Sys2Proof.Machine.execGetEventRecords path log s
  | .clearEventRecords path log all handles => Sys2Proof.Machine.execClearEventRecords path log all handles s
  | .getEventInterruptPolicy path => Sys2Proof.Machine.execGetEventInterruptPolicy path s
  | .setEventInterruptPolicy path policy => Sys2Proof.Machine.execSetEventInterruptPolicy path policy s
  | .getFwInfo path => Sys2Proof.Machine.execGetFwInfo path s
  | .transferFw path action slot off data => Sys2Proof.Machine.execTransferFw path action slot off data s
  | .activateFw path action slot => Sys2Proof.Machine.execActivateFw path action slot s
  | .getTimestamp path => Sys2Proof.Machine.execGetTimestamp path s
  | .setTimestamp path t => Sys2Proof.Machine.execSetTimestamp path t s
  | .getSupportedLogs path => Sys2Proof.Machine.execGetSupportedLogs path s
  | .getLog path log off len => Sys2Proof.Machine.execGetLog path log off len s
  | .identifyMemoryDevice path => Sys2Proof.Machine.execIdentifyMemoryDevice path s
  | .getPartitionInfo path => Sys2Proof.Machine.execGetPartitionInfo path s
  | .setPartitionInfo path volatileCap => Sys2Proof.Machine.execSetPartitionInfo path volatileCap s
  | .getLsa path off len => Sys2Proof.Machine.execGetLsa path off len s
  | .setLsa path off data => Sys2Proof.Machine.execSetLsa path off data s
  | .getHealthInfo path => Sys2Proof.Machine.execGetHealthInfo path s
  | .getAlertConfiguration path => Sys2Proof.Machine.execGetAlertConfiguration path s
  | .setAlertConfiguration path cfg => Sys2Proof.Machine.execSetAlertConfiguration path cfg s
  | .getShutdownState path => Sys2Proof.Machine.execGetShutdownState path s
  | .setShutdownState path st => Sys2Proof.Machine.execSetShutdownState path st s
  | .getPoisonList path dpa len => Sys2Proof.Machine.execGetPoisonList path dpa len s
  | .injectPoison path dpa => Sys2Proof.Machine.execInjectPoison path dpa s
  | .clearPoison path dpa data => Sys2Proof.Machine.execClearPoison path dpa data s
  | .getScanMediaCapabilities path dpa len => Sys2Proof.Machine.execGetScanMediaCapabilities path dpa len s
  | .scanMedia path dpa len => Sys2Proof.Machine.execScanMedia path dpa len s
  | .getScanMediaResults path => Sys2Proof.Machine.execGetScanMediaResults path s
  | .sanitize path => Sys2Proof.Machine.execSanitize path s
  | .secureErase path => Sys2Proof.Machine.execSecureErase path s
  | .getDcConfiguration path => Sys2Proof.Machine.execGetDcConfiguration path s
  | .getDcExtentList path => Sys2Proof.Machine.execGetDcExtentList path s
  | .addDcResponse path extents => Sys2Proof.Machine.execAddDcResponse path extents s
  | .releaseDc path extents => Sys2Proof.Machine.execReleaseDc path extents s
  | .sqTail ld q val => Sys2Proof.Machine.execSqTail ld q val s
  | .cqHead ld q val => Sys2Proof.Machine.execCqHead ld q val s
  | .queueEntryFetch q entry => Sys2Proof.Machine.execQueueEntryFetch q entry s
  | .kelricCommandComplete q cid writeOk => Sys2Proof.Machine.execKelricCommandComplete q cid writeOk s
  | .identifyK c => Sys2Proof.Machine.execIdentifyK c s
  | .cacheEnable c => Sys2Proof.Machine.execCacheEnable c s
  | .cacheDisable c => Sys2Proof.Machine.execCacheDisable c s
  | .disableCleanDone ld => Sys2Proof.Machine.execDisableCleanDone ld s
  | .wayChangeEnd => Sys2Proof.Machine.execWayChangeEnd s
  | .cacheRange c => Sys2Proof.Machine.execCacheRange c s
  | .rangeJobEnd => Sys2Proof.Machine.execRangeJobEnd s
  | .cacheStatus c => Sys2Proof.Machine.execCacheStatus c s
  | .discard c => Sys2Proof.Machine.execDiscard c s
  | .discardStatus c => Sys2Proof.Machine.execDiscardStatus c s
  | .keyLoad c => Sys2Proof.Machine.execKeyLoad c s
  | .keyRetire c => Sys2Proof.Machine.execKeyRetire c s
  | .keyBind c => Sys2Proof.Machine.execKeyBind c s
  | .keyStatus c => Sys2Proof.Machine.execKeyStatus c s
  | .patrolSet c => Sys2Proof.Machine.execPatrolSet c s
  | .patrolStatus c => Sys2Proof.Machine.execPatrolStatus c s
  | .scheduleSet c => Sys2Proof.Machine.execScheduleSet c s
  | .spareStatus c => Sys2Proof.Machine.execSpareStatus c s
  | .rebuildControl c => Sys2Proof.Machine.execRebuildControl c s
  | .wearReport c => Sys2Proof.Machine.execWearReport c s
  | .mirrorSet c => Sys2Proof.Machine.execMirrorSet c s
  | .fabricStatus c => Sys2Proof.Machine.execFabricStatus c s
  | .fabricRouteSet c => Sys2Proof.Machine.execFabricRouteSet c s
  | .timeSourceSet c => Sys2Proof.Machine.execTimeSourceSet c s
  | .timeStatus c => Sys2Proof.Machine.execTimeStatus c s
  | .caskConfig c => Sys2Proof.Machine.execCaskConfig c s
  | .caskStatus c => Sys2Proof.Machine.execCaskStatus c s
  | .caskRecover c => Sys2Proof.Machine.execCaskRecover c s
  | .holdupStatus c => Sys2Proof.Machine.execHoldupStatus c s
  | .holdupTest c => Sys2Proof.Machine.execHoldupTest c s
  | .throttleSet c => Sys2Proof.Machine.execThrottleSet c s
  | .thermalStatus c => Sys2Proof.Machine.execThermalStatus c s
  | .selfTest c => Sys2Proof.Machine.execSelfTest c s
  | .selfTestEnd id errors => Sys2Proof.Machine.execSelfTestEnd id errors s
  | .selfTestStatus c => Sys2Proof.Machine.execSelfTestStatus c s
  | .patchStage c => Sys2Proof.Machine.execPatchStage c s
  | .patchActivate c => Sys2Proof.Machine.execPatchActivate c s
  | .patchStatus c => Sys2Proof.Machine.execPatchStatus c s
  | .lifecycleSet c => Sys2Proof.Machine.execLifecycleSet c s
  | .settingRead c => Sys2Proof.Machine.execSettingRead c s
  | .settingWrite c => Sys2Proof.Machine.execSettingWrite c s
  | .logSnapshot c => Sys2Proof.Machine.execLogSnapshot c s
  | .sampleConfig c => Sys2Proof.Machine.execSampleConfig c s
  | .counterConfig c => Sys2Proof.Machine.execCounterConfig c s
  | .registerWrite req off size val => Sys2Proof.Machine.execRegisterWrite req off size val s
  | .lowWordLatchRead req off => Sys2Proof.Machine.execLowWordLatchRead req off s
  | .bitAliasWrite req off val => Sys2Proof.Machine.execBitAliasWrite req off val s
  | .updateApply req val => Sys2Proof.Machine.execUpdateApply req val s
  | .updateTimed req val => Sys2Proof.Machine.execUpdateTimed req val s
  | .updateDrop req val => Sys2Proof.Machine.execUpdateDrop req val s
  | .unlock req val => Sys2Proof.Machine.execUnlock req val s
  | .unlockArmExpiry req => Sys2Proof.Machine.execUnlockArmExpiry req s
  | .keyLockSet req => Sys2Proof.Machine.execKeyLockSet req s
  | .mapWinSnapshot req => Sys2Proof.Machine.execMapWinSnapshot req s
  | .caskDomSnapshot req => Sys2Proof.Machine.execCaskDomSnapshot req s
  | .dfWindowSnapshot req w => Sys2Proof.Machine.execDfWindowSnapshot req w s
  | .lcRangeClean req val => Sys2Proof.Machine.execLcRangeClean req val s
  | .lcRangeInvalidate req val => Sys2Proof.Machine.execLcRangeInvalidate req val s
  | .lcRangeFlush req val => Sys2Proof.Machine.execLcRangeFlush req val s
  | .allocEnWrite req ld val => Sys2Proof.Machine.execAllocEnWrite req ld val s
  | .waysReqWrite req val => Sys2Proof.Machine.execWaysReqWrite req val s
  | .gravResetGroup req val => Sys2Proof.Machine.execGravResetGroup req val s
  | .crcInjectArm req val => Sys2Proof.Machine.execCrcInjectArm req val s
  | .discSegmentGo req val => Sys2Proof.Machine.execDiscSegmentGo req val s
  | .discTileGo req val => Sys2Proof.Machine.execDiscTileGo req val s
  | .accelGo req val => Sys2Proof.Machine.execAccelGo req val s
  | .keyCmdLoad req val => Sys2Proof.Machine.execKeyCmdLoad req val s
  | .keyCmdRetire req val => Sys2Proof.Machine.execKeyCmdRetire req val s
  | .keyCmdRetireErase req val => Sys2Proof.Machine.execKeyCmdRetireErase req val s
  | .ldKeyRekey req ld val => Sys2Proof.Machine.execLdKeyRekey req ld val s
  | .dfMirrorPair req val => Sys2Proof.Machine.execDfMirrorPair req val s
  | .dfMirrorUnpair req val => Sys2Proof.Machine.execDfMirrorUnpair req val s
  | .dfMirrorResync req val => Sys2Proof.Machine.execDfMirrorResync req val s
  | .dfMirrorSwap req val => Sys2Proof.Machine.execDfMirrorSwap req val s
  | .dfExportAdd req val => Sys2Proof.Machine.execDfExportAdd req val s
  | .dfExportDel req val => Sys2Proof.Machine.execDfExportDel req val s
  | .dfImportAdd req val => Sys2Proof.Machine.execDfImportAdd req val s
  | .dfImportDel req val => Sys2Proof.Machine.execDfImportDel req val s
  | .caskCfgCreate req val => Sys2Proof.Machine.execCaskCfgCreate req val s
  | .caskCfgDelete req val => Sys2Proof.Machine.execCaskCfgDelete req val s
  | .caskCfgMark req val => Sys2Proof.Machine.execCaskCfgMark req val s
  | .caskCfgRecoverLatest req val => Sys2Proof.Machine.execCaskCfgRecoverLatest req val s
  | .caskCfgRecoverCommitted req val => Sys2Proof.Machine.execCaskCfgRecoverCommitted req val s
  | .huTestGo req val => Sys2Proof.Machine.execHuTestGo req val s
  | .kqCreate req q val => Sys2Proof.Machine.execKqCreate req q val s
  | .kqDelete req q val => Sys2Proof.Machine.execKqDelete req q val s
  | .memtestRawWrite req val => Sys2Proof.Machine.execMemtestRawWrite req val s
  | .memtestRawRead req val => Sys2Proof.Machine.execMemtestRawRead req val s
  | .memtestCheckedRead req val => Sys2Proof.Machine.execMemtestCheckedRead req val s
  | .wealiBoardWrite req val => Sys2Proof.Machine.execWealiBoardWrite req val s
  | .wealiBoardRead req val => Sys2Proof.Machine.execWealiBoardRead req val s
  | .cntClear req b val => Sys2Proof.Machine.execCntClear req b val s
  | .sampleEnableWrite req val => Sys2Proof.Machine.execSampleEnableWrite req val s
  | .sampleClose req val => Sys2Proof.Machine.execSampleClose req val s
  | .dropRest req val => Sys2Proof.Machine.execDropRest req val s
  | .sampleDataRead req => Sys2Proof.Machine.execSampleDataRead req s
  | .sillClear req val => Sys2Proof.Machine.execSillClear req val s
  | .hdmDecoderCommit ld d c => Sys2Proof.Machine.execHdmDecoderCommit ld d c s
  | .busMasterEnable ld => Sys2Proof.Machine.execBusMasterEnable ld s
  | .ldKeyKeyidxWrite req ld val => Sys2Proof.Machine.execLdKeyKeyidxWrite req ld val s
  | .doroshSignalSeen k => Sys2Proof.Machine.execDoroshSignalSeen k s
  | .vinGoodLoss => Sys2Proof.Machine.execVinGoodLoss s
  | .railsOffStep => Sys2Proof.Machine.execRailsOffStep s
  | .seqPollReply slave reply => Sys2Proof.Machine.execSeqPollReply slave reply s
  | .seqOffDeadline => Sys2Proof.Machine.execSeqOffDeadline s
  | .spdmSessionEnd session => Sys2Proof.Machine.execSpdmSessionEnd session s
  | .hbmWayWakeEnd => Sys2Proof.Machine.execHbmWayWakeEnd s
  | .planeSelfCheckFail plane => Sys2Proof.Machine.execPlaneSelfCheckFail plane s
  | .vectorSignalHoldoffEnd ld vec => Sys2Proof.Machine.execVectorSignalHoldoffEnd ld vec s
  | .refclkReturn w => Sys2Proof.Machine.execRefclkReturn w s

end Sys2Proof.Machine
end

