-- ==== Sys2Proof/Safety.lean ====
section
/-!
DEFINITION. The terms claims are stated in: what holds of every state worth reaching, what a command path's answer is, and when a
command may be carried out.
-/

namespace Sys2Proof.Machine

/-! ### Canonical memory (R395, R479) -/

/-- The board's area of the Weali store, every label storage area, and the map of the areas are in canonical form, so that equal
contents are equal data. -/
def State.memoryCanonical (s : State) : Bool :=
  s.weali.board.wf && mwf ([] : Memory) s.host.lsa && s.host.lsa.all (fun x => x.2.wf)

/-! ### Command paths (R394, R396, R397) -/

/-- A command path can carry out a standard command of an opcode: the mailbox stage of the start has been reached, the path holds no
other command, and no drydown is under way. -/
def State.pathReady (s : State) (path : MboxPath) (opc : Nat) : Bool :=
  s.host.mailbox && !s.pathBusy (pathNo path) opc && !s.inDrydown

/-- `t` is `s` once a path has answered: the answer left, with vector 0 of an LD's own mailbox unless it is masked; the path is free;
nothing else differs but the histograms. -/
def State.MboxAnswer (s t : State) (path : MboxPath) (opc : Nat) (rc : Rc) (payload : List Byte) : Prop :=
  let p := pathNo path
  ∃ hist, t = { s with
    host := { s.host with mbox := mset {} s.host.mbox p {} },
    tally := { s.tally with hist := hist },
    out := s.out ++ .mbox p opc rc payload :: (if p < 64 ∧ mget false s.host.msixMasked p = false then [.msix p 0] else []) }

/-! ### Kelric commands (R398 to R418) -/

/-- A submission of a Kelric command comes to its action: `d` is the command with its operands as its queue entry or its path holds them;
its path is free; the checks all commands meet and its own admit it; it is not held for a time; and a path's background place is free
where the command runs in the background. -/
def State.kReady (s : State) (opc : Nat) (c : KCmd) (check : KCmd → State → Nat) (d : KCmd) : Prop :=
  let u := s.kMark d.src opc
  s.kTake c opc = some d ∧ (∀ p, d.src = .path p → s.pathBusy (pathNo p) opc = false) ∧ u.kGate opc d = kOk ∧ check d u = kOk
    ∧ d.timedAt = none ∧ (∀ p, d.src = .path p → u.kLong opc d = true → u.bgHeld (pathNo p) = false)

/-- The command's action begins: where its answer goes, and the state it acts on, in which a path's long command has been answered
Background Command Started. -/
def State.kBegun (s : State) (opc : Nat) (d : KCmd) : CmdSrc × State :=
  let u := s.kMark d.src opc
  match d.src with
  | .path p => if u.kLong opc d then (.bg p, u.startBg (pathNo p) opc) else (d.src, u)
  | _ => (d.src, u)

/-- The path and the opcode of a standard mailbox command. -/
def stdOpcode (c : Instr) : Option (MboxPath × Nat) :=
  match c with
  | .identify path => some (path, 0x0001)
  | .backgroundOperationStatus path => some (path, 0x0002)
  | .getResponseMessageLimit path => some (path, 0x0003)
  | .setResponseMessageLimit path _ => some (path, 0x0004)
  | .requestAbortBackgroundOp path => some (path, 0x0005)
  | .getEventRecords path _ => some (path, 0x0100)
  | .clearEventRecords path _ _ _ => some (path, 0x0101)
  | .getEventInterruptPolicy path => some (path, 0x0102)
  | .setEventInterruptPolicy path _ => some (path, 0x0103)
  | .getFwInfo path => some (path, 0x0200)
  | .transferFw path _ _ _ _ => some (path, 0x0201)
  | .activateFw path _ _ => some (path, 0x0202)
  | .getTimestamp path => some (path, 0x0300)
  | .setTimestamp path _ => some (path, 0x0301)
  | .getSupportedLogs path => some (path, 0x0400)
  | .getLog path _ _ _ => some (path, 0x0401)
  | .identifyMemoryDevice path => some (path, 0x4000)
  | .getPartitionInfo path => some (path, 0x4100)
  | .setPartitionInfo path _ => some (path, 0x4101)
  | .getLsa path _ _ => some (path, 0x4102)
  | .setLsa path _ _ => some (path, 0x4103)
  | .getHealthInfo path => some (path, 0x4200)
  | .getAlertConfiguration path => some (path, 0x4201)
  | .setAlertConfiguration path _ => some (path, 0x4202)
  | .getShutdownState path => some (path, 0x4203)
  | .setShutdownState path _ => some (path, 0x4204)
  | .getPoisonList path _ _ => some (path, 0x4300)
  | .injectPoison path _ => some (path, 0x4301)
  | .clearPoison path _ _ => some (path, 0x4302)
  | .getScanMediaCapabilities path _ _ => some (path, 0x4303)
  | .scanMedia path _ _ => some (path, 0x4304)
  | .getScanMediaResults path => some (path, 0x4305)
  | .sanitize path => some (path, 0x4400)
  | .secureErase path => some (path, 0x4401)
  | .getDcConfiguration path => some (path, 0x4800)
  | .getDcExtentList path => some (path, 0x4801)
  | .addDcResponse path _ => some (path, 0x4802)
  | .releaseDc path _ => some (path, 0x4803)
  | _ => none

/-- A Kelric command's submission and its opcode. -/
def kelricOpcode (c : Instr) : Option (KCmd × Nat) :=
  match c with
  | .identifyK c => some (c, 0xC000)
  | .cacheEnable c => some (c, 0xC010)
  | .cacheDisable c => some (c, 0xC011)
  | .cacheRange c => some (c, 0xC012)
  | .cacheStatus c => some (c, 0xC013)
  | .discard c => some (c, 0xC020)
  | .discardStatus c => some (c, 0xC021)
  | .keyLoad c => some (c, 0xC030)
  | .keyRetire c => some (c, 0xC031)
  | .keyBind c => some (c, 0xC032)
  | .keyStatus c => some (c, 0xC033)
  | .patrolSet c => some (c, 0xC040)
  | .patrolStatus c => some (c, 0xC041)
  | .scheduleSet c => some (c, 0xC042)
  | .spareStatus c => some (c, 0xC050)
  | .rebuildControl c => some (c, 0xC051)
  | .wearReport c => some (c, 0xC052)
  | .mirrorSet c => some (c, 0xC060)
  | .fabricStatus c => some (c, 0xC061)
  | .fabricRouteSet c => some (c, 0xC062)
  | .timeSourceSet c => some (c, 0xC070)
  | .timeStatus c => some (c, 0xC071)
  | .caskConfig c => some (c, 0xC080)
  | .caskStatus c => some (c, 0xC081)
  | .caskRecover c => some (c, 0xC082)
  | .holdupStatus c => some (c, 0xC090)
  | .holdupTest c => some (c, 0xC091)
  | .throttleSet c => some (c, 0xC0A0)
  | .thermalStatus c => some (c, 0xC0A1)
  | .settingRead c => some (c, 0xC0E0)
  | .settingWrite c => some (c, 0xC0E1)
  | .logSnapshot c => some (c, 0xC0F0)
  | .sampleConfig c => some (c, 0xC0F1)
  | .counterConfig c => some (c, 0xC0F2)
  | .selfTest c => some (c, 0xC0B0)
  | .selfTestStatus c => some (c, 0xC0B1)
  | .patchStage c => some (c, 0xC0C0)
  | .patchActivate c => some (c, 0xC0C1)
  | .patchStatus c => some (c, 0xC0C2)
  | .lifecycleSet c => some (c, 0xC0D0)
  | _ => none

/-! ### Register accesses (R10, R438, R441, R442) -/

/-- A requester may store a value in a register word: its block is served, the word is one the requester may write, and the value leaves
the word's reserved bits as they are. -/
def State.mayStore (s : State) (req : Requester) (off val : Nat) : Bool :=
  s.served off && s.mayWrite req off && !s.rsvClash off val

/-- The commands that store a value of the sender's own in a register word, and so can meet its reserved bits (R10). -/
def storesRegister (c : Instr) : Bool :=
  match c with
  | .mctpBar2Access _ _ _ _ => true
  | .sqTail _ _ _ => true
  | .cqHead _ _ _ => true
  | .registerWrite _ _ _ _ => true
  | .bitAliasWrite _ _ _ => true
  | .updateApply _ _ => true
  | .updateTimed _ _ => true
  | .updateDrop _ _ => true
  | .unlock _ _ => true
  | .keyLockSet _ => true
  | .lcRangeClean _ _ => true
  | .lcRangeInvalidate _ _ => true
  | .lcRangeFlush _ _ => true
  | .allocEnWrite _ _ _ => true
  | .waysReqWrite _ _ => true
  | .gravResetGroup _ _ => true
  | .crcInjectArm _ _ => true
  | .discSegmentGo _ _ => true
  | .discTileGo _ _ => true
  | .accelGo _ _ => true
  | .keyCmdLoad _ _ => true
  | .keyCmdRetire _ _ => true
  | .keyCmdRetireErase _ _ => true
  | .ldKeyRekey _ _ _ => true
  | .dfMirrorPair _ _ => true
  | .dfMirrorUnpair _ _ => true
  | .dfMirrorResync _ _ => true
  | .dfMirrorSwap _ _ => true
  | .dfExportAdd _ _ => true
  | .dfExportDel _ _ => true
  | .dfImportAdd _ _ => true
  | .dfImportDel _ _ => true
  | .caskCfgCreate _ _ => true
  | .caskCfgDelete _ _ => true
  | .caskCfgMark _ _ => true
  | .caskCfgRecoverLatest _ _ => true
  | .caskCfgRecoverCommitted _ _ => true
  | .huTestGo _ _ => true
  | .kqCreate _ _ _ => true
  | .kqDelete _ _ _ => true
  | .memtestRawWrite _ _ => true
  | .memtestRawRead _ _ => true
  | .memtestCheckedRead _ _ => true
  | .wealiBoardWrite _ _ => true
  | .wealiBoardRead _ _ => true
  | .cntClear _ _ _ => true
  | .sampleEnableWrite _ _ => true
  | .sampleClose _ _ => true
  | .dropRest _ _ => true
  | .sillClear _ _ => true
  | .ldKeyKeyidxWrite _ _ _ => true
  | _ => false

end Sys2Proof.Machine
end

