-- ==== Sys2Proof/WellFormed.lean ====
section
/-!
DEFINITION. Well-formed commands: the bounds the spec puts on a command's operands that their types do not hold. A command that is not
well formed is one no sender can send; `exec` is total all the same.
-/

namespace Sys2Proof

/-- Where a Kelric command can come from: a path or a queue entry. The other sources are the machine's own names for work under way
(R394, R402). -/
def CmdSrc.sent (c : CmdSrc) : Bool :=
  match c with
  | .path _ => true
  | .queue _ _ => true
  | .bg _ => false
  | .timed _ => false

/-- The operand bytes and the data of a command fit what carries them: the 64 KiB payload of a path with the 32 operand bytes before
them (R394, R396), or a queue entry's data buffer of DLEN bytes, 16 MiB at most (R402). -/
def KCmd.fits (c : KCmd) : Bool :=
  match c.src with
  | .path _ => decide (c.data.length + 32 ≤ 65536)
  | _ => decide (c.data.length ≤ c.dlen.toNat) && decide (c.dlen.toNat ≤ 2 ^ 24)

/-- A Kelric command that a sender can send. -/
def KCmd.wf (c : KCmd) : Bool := c.src.sent && c.fits

/-- A PROOF fragment: 1 to 32 fragments, its number below their count, 272 bytes at most (R222). -/
def ProofBody.wf (b : ProofBody) : Bool :=
  decide (1 ≤ b.count.toNat) && decide (b.count.toNat ≤ 32) && decide (b.frag.toNat < b.count.toNat) && decide (b.part.length ≤ 272)

/-- A link-state advertisement: at most one entry for each of the eight links (R282, R288). -/
def LsaBody.wf (b : LsaBody) : Bool := decide (b.links.length ≤ 8) && decide ((b.links.map (fun x => x.2.1)).Nodup)

/-- The Kelric command that a command submits. -/
def Instr.kelric (i : Instr) : Option KCmd :=
  match i with
  | .identifyK c | .cacheEnable c | .cacheDisable c | .cacheRange c | .cacheStatus c | .discard c | .discardStatus c
  | .keyLoad c | .keyRetire c | .keyBind c | .keyStatus c | .patrolSet c | .patrolStatus c | .scheduleSet c | .spareStatus c
  | .rebuildControl c | .wearReport c | .mirrorSet c | .fabricStatus c | .fabricRouteSet c | .timeSourceSet c | .timeStatus c
  | .caskConfig c | .caskStatus c | .caskRecover c | .holdupStatus c | .holdupTest c | .throttleSet c | .thermalStatus c
  | .selfTest c | .selfTestStatus c | .patchStage c | .patchActivate c | .patchStatus c | .lifecycleSet c | .settingRead c
  | .settingWrite c | .logSnapshot c | .sampleConfig c | .counterConfig c => some c
  | _ => none

/-- A command whose operands are within the bounds the spec gives them: a Kelric command's source and data (R394, R396, R402); the data
of a standard command within the 64 KiB payload (R394); a PROOF fragment (R222); a link-state advertisement (R288); a reading for each of
the 32 on-die sensors (R384); one sum for each group and age bucket (R107). -/
def Instr.wf (i : Instr) : Bool :=
  match i with
  | .setLsa _ _ d => decide (d.length ≤ 65536)
  | .transferFw _ _ _ _ d => decide (d.length ≤ 65536)
  | .mailboxDoorbell _ _ len => decide (len.toNat ≤ 65536)
  | .proof _ b => b.wf
  | .lsa _ b => b.wf
  | .onDieSensorSample t => decide (t.length = 32)
  | .calibrationPass sums => decide ((sums.map (fun x => (x.group, x.age))).Nodup)
  | i => match i.kelric with
    | some c => c.wf
    | none => true

end Sys2Proof
end

