-- ==== Sys2Proof/Certificates/Slice0/Obligations.lean ====
section
/-!
DEFINITION. The statements about the model. Most of them say, for every command of a family, that it answers a next state and which one,
for every state that meets the conditions named; the others hold of all commands, of the registers, of the codec and of the paths.
-/

section
open Sys2Proof Sys2Proof.Machine

/-- A step takes the command at the front of the queue and carries it out. Rules: R440. -/
def Obligations.StepRunsTheFrontCommand : Prop :=
  ∀ (c : Instr) (rest : List Instr) (s : State), step { s with pending := c :: rest } = exec c { s with pending := rest }

/-- The model's choice: on an empty queue a step lets one nanosecond of fabric time pass. Rules: R308, R330. -/
def Obligations.AnEmptyQueueLetsTimePass : Prop :=
  ∀ s : State, s.pending = [] → step s = .next (s.passTo (s.ft + 1)) ∧ (s.passTo (s.ft + 1)).ft = s.ft + 1

/-- Reset leaves every register at its reset value, the rails down, the links DOWN and the heads in reset. Rules: R9, R369, R370. -/
def Obligations.ResetIsThePowerOnState : Prop :=
  State.reset.pending = [] ∧ State.reset.out = [] ∧ State.reset.host.mailbox = false ∧ State.reset.host.memActive = false
    ∧ State.reset.keys.fuse = false ∧ State.reset.keys.wiped = false
    -- every register word at its reset value
    ∧ (∀ off, State.reset.word off = resetWord off)
    -- the rails are down and being brought up, every link is DOWN, every head is held in reset
    ∧ State.reset.getF Reg.START_STAT.STAGE = 1 ∧ State.reset.getF Reg.START_STAT.CAUSE = 0 ∧ State.reset.getF Reg.DRY_STAT.PHASE = 0
    ∧ (∀ k : Fin 8, State.reset.getF (Reg.DF_LINK.STATE k.val) = 0)
    ∧ (∀ h : Fin 8, State.reset.getF (Reg.HP_HEAD_STAT.IN_RESET h.val) = 1)
    ∧ State.reset.memoryCanonical = true

/-- No command changes the queue of commands or the reserved bits of a register. Rules: R10. -/
def Obligations.CommandsLeaveQueueAndReservedBits : Prop :=
  ∀ (c : Instr) (s t : State), exec c s = .next t → t.pending = s.pending ∧ t.rsv = s.rsv

/-- Every step keeps the board area and the label storage areas in canonical form. Rules: R395, R479. -/
def Obligations.EveryStepKeepsMemoryCanonical : Prop :=
  ∀ s t : State, s.memoryCanonical = true → step s = .next t → t.memoryCanonical = true

/-- A label storage area changes by SET_LSA alone, and then only in the bytes that it names of its own LD's area. Rules: R395. -/
def Obligations.LabelsChangeBySetLsaAlone : Prop :=
  ∀ (c : Instr) (s t : State), exec c s = .next t →
    ((∀ path off data, c ≠ .setLsa path off data) → t.host.lsa = s.host.lsa)
    -- and SET_LSA changes the bytes it names, of its own LD's area, and no others
    ∧ (∀ path off data, c = .setLsa path off data → ∀ n a,
        memByte (mget [] t.host.lsa n) a ≠ memByte (mget [] s.host.lsa n) a →
          pathLd path = some n ∧ off.toNat ≤ a ∧ a < off.toNat + data.length ∧ off.toNat + data.length ≤ 131072)

/-- SET_LSA on a ready path stores its data at its offset and leaves every other byte, area and state alone. Rules: R395. -/
def Obligations.SetLsaStoresExactlyItsBytes : Prop :=
  ∀ (s : State) (path : MboxPath) (ld : Nat) (off : BitVec 32) (data : List Byte),
    pathLd path = some ld → s.pathReady path 0x4103 = true → off.toNat + data.length ≤ 131072 →
    ∃ t, exec (.setLsa path off data) s = .next t
      ∧ (∀ i (h : i < data.length), memByte (mget [] t.host.lsa ld) (off.toNat + i) = data[i])
      ∧ (∀ a, a < off.toNat ∨ off.toNat + data.length ≤ a → memByte (mget [] t.host.lsa ld) a = memByte (mget [] s.host.lsa ld) a)
      ∧ (∀ n, n ≠ ld → mget [] t.host.lsa n = mget [] s.host.lsa n)
      ∧ t.words = s.words ∧ t.map = s.map ∧ t.cache = s.cache ∧ t.keys = s.keys ∧ t.weali = s.weali ∧ t.home = s.home

/-- The shutdown state changes by SET_SHUTDOWN_STATE alone, which changes nothing that persists. Rules: R240. -/
def Obligations.ShutdownStateIsRecordedOnly : Prop :=
  ∀ (c : Instr) (s t : State), exec c s = .next t →
    ((∀ path st, c ≠ .setShutdownState path st) → t.host.shutdown = s.host.shutdown)
    -- and recording one changes nothing that persists: no register, nothing of the map, the caches, the keys or the stores
    ∧ (∀ path st, c = .setShutdownState path st → t.words = s.words ∧ t.map = s.map ∧ t.cache = s.cache ∧ t.keys = s.keys
        ∧ t.weali = s.weali ∧ t.host.lsa = s.host.lsa ∧ t.patrol = s.patrol ∧ t.power = s.power)

/-- The lifecycle moves at the end of a background operation alone, and the fuse of DECOMMISSIONED stays blown. Rules: R219, R432. -/
def Obligations.TheFuseIsPermanent : Prop :=
  ∀ (c : Instr) (s t : State), exec c s = .next t →
    (s.keys.fuse = true → t.keys.fuse = true)
    -- it is blown by the transition to DECOMMISSIONED alone, and the lifecycle moves at the end of a background operation alone
    ∧ (s.keys.fuse = false → t.keys.fuse = true → t.keys.lifecycle = 3)
    ∧ ((∀ path ok, c ≠ .backgroundOpEnd path ok) → t.keys.lifecycle = s.keys.lifecycle ∧ t.keys.fuse = s.keys.fuse)

/-- The bytes of the board area change at the end of a Weali page write or of a quiesce alone. Rules: R477, R479, R486. -/
def Obligations.BoardBytesChangeWithPageWritesAlone : Prop :=
  ∀ (c : Instr) (s t : State), exec c s = .next t → t.weali.board ≠ s.weali.board →
    c = .quiesceEnd ∨ ∃ page bad1 bad2, c = .wealiPageWriteEnd page bad1 bad2

/-- Every command completes in every state, but for a register write that would change reserved bits. Rules: R10. -/
def Obligations.EveryCommandCompletes : Prop :=
  ∀ (c : Instr) (s : State),
    (storesRegister c = false → ∃ t, exec c s = .next t)
    ∧ (storesRegister c = true → (∃ t, exec c s = .next t) ∨ exec c s = .fault .rsvBitsChanged)

/-- The model's choice: a register write that would change RSV bits faults, and one that keeps them completes. Rules: R10, R439. -/
def Obligations.ReservedBitsMayNotChange : Prop :=
  ∀ (s : State) (req : Requester) (off : BitVec 26) (val : BitVec 64),
    off.toNat % 4 = 0 → off.toNat < 0x100000 → (regDef off.toNat).isSome = true → s.served off.toNat = true → s.mayWrite req off.toNat = true →
    let m := accMask off.toNat (· == .rsv)
    (bitsOf val.toNat 0 32 &&& m ≠ mget 0 s.rsv off.toNat &&& m → exec (.registerWrite req off 4 val) s = .fault .rsvBitsChanged)
    ∧ (bitsOf val.toNat 0 32 &&& m = mget 0 s.rsv off.toNat &&& m → ∃ t, exec (.registerWrite req off 4 val) s = .next t)

/-- The standard commands that read answer their data and change nothing but the path and the output. Rules: R235, R238, R240, R247, R288,
R302, R304, R395, R410, R503. -/
def Obligations.MailboxReadsAnswerAndChangeNothing : Prop :=
  ∀ (s : State) (path : MboxPath) (opc : BitVec 16) (c : Instr) (payload : List Byte),
    s.pathReady path opc.toNat = true →
    (let fn := pathFn (pathNo path)
     (c = .identify path ∧ opc = 0x0001 ∧ payload = Config.stdPayload 0x0001 0 ++ leBytes 3 1)
     ∨ (c = .getResponseMessageLimit path ∧ opc = 0x0003 ∧ mgmtPath path = true ∧ payload = leBytes (mget 16 s.host.msgLimit (pathNo path)) 1)
     ∨ (∃ log, c = .getEventRecords path log ∧ opc = 0x0100 ∧
          (let l : EvLog := mget {} s.host.logs (5 * fn + logCode log)
           payload = leBytes (b2n (l.overflow != 0)) 1 ++ leBytes (min l.overflow 65535) 2 ++ leBytes l.firstOver 8
             ++ leBytes l.lastOver 8 ++ leBytes l.recs.length 2 ++ l.recs.flatMap s.recBytes))
     ∨ (c = .getEventInterruptPolicy path ∧ opc = 0x0102 ∧ payload = leBytes (mget 0 s.host.evPolicy fn) 5)
     ∨ (c = .getFwInfo path ∧ opc = 0x0200 ∧ payload = leBytes 2 1 ++ leBytes 1 1 ++ leBytes 1 1 ++ leBytes (s.patchLevel % 65536) 2
          ++ leBytes (if s.maint.staged.checked then s.maint.staged.level else 0) 2)
     ∨ (c = .getTimestamp path ∧ opc = 0x0300 ∧ payload = leBytes (((s.ft : Int) + mget 0 s.host.tsOffset fn) % 2 ^ 64).toNat 8)
     ∨ (c = .getSupportedLogs path ∧ opc = 0x0400 ∧ payload = leBytes 2 2 ++ Config.stdPayload 0x0400 0
          ++ leBytes (Config.stdPayload 0x0401 0).length 4 ++ Config.stdPayload 0x0400 1 ++ leBytes (256 * s.tally.sill.recs.length) 4)
     ∨ (∃ off len : BitVec 32, c = .getLog path .sillage off len ∧ opc = 0x0401 ∧ off.toNat + len.toNat ≤ s.sillLog.length ∧ len.toNat ≤ 65536
          ∧ payload = (s.sillLog.drop off.toNat).take len.toNat)
     ∨ (c = .getHealthInfo path ∧ opc = 0x4200
          ∧ payload = leBytes s.mediaStatus 1 ++ leBytes (s.getF Reg.DSC.COUNT) 4 ++ Config.stdPayload 0x4200 0)
     ∨ (∃ ld, pathLd path = some ld ∧
         ((c = .identifyMemoryDevice path ∧ opc = 0x4000
             ∧ payload = leBytes 0 8 ++ leBytes (s.staticBlocks ld * 2 ^ 28) 8 ++ leBytes 131072 4 ++ leBytes 4096 3)
          ∨ (c = .getPartitionInfo path ∧ opc = 0x4100 ∧ payload = leBytes 0 8 ++ leBytes (s.staticBlocks ld * 2 ^ 28) 8 ++ leBytes 0 8 ++ leBytes 0 8)
          ∨ (∃ off len : BitVec 32, c = .getLsa path off len ∧ opc = 0x4102 ∧ off.toNat + len.toNat ≤ 131072 ∧ len.toNat ≤ 65536
              ∧ payload = (List.range len.toNat).map (fun i => memByte (mget [] s.host.lsa ld) (off.toNat + i)))
          ∨ (c = .getAlertConfiguration path ∧ opc = 0x4201 ∧ payload = leBytes (mget 0 s.host.alertCfg ld) 12)
          ∨ (c = .getShutdownState path ∧ opc = 0x4203 ∧ payload = leBytes (mget 0 s.host.shutdown ld) 1)
          ∨ (∃ dpa len : BitVec 64, c = .getPoisonList path dpa len ∧ opc = 0x4300 ∧ dpa.toNat % 64 = 0 ∧
              (let l := s.linesIn ld dpa.toNat len.toNat (s.host.poisonList.map (·.line))
               payload = leBytes (b2n s.host.poisonOver) 1 ++ leBytes s.host.poisonOverAt 8 ++ leBytes l.length 2
                 ++ l.flatMap (fun a => leBytes a 8)))
          ∨ (∃ dpa len : BitVec 64, c = .getScanMediaCapabilities path dpa len ∧ opc = 0x4303
              ∧ payload = Config.stdPayload 0x4303 (dpa.toNat + len.toNat * 2 ^ 64))
          ∨ (c = .getScanMediaResults path ∧ opc = 0x4305 ∧
              (let l := (mget [] s.host.scanRes ld).filterMap (s.lineDpa ld)
               payload = leBytes l.length 2 ++ l.flatMap (fun a => leBytes a 8)))
          ∨ (c = .getDcConfiguration path ∧ opc = 0x4800 ∧ payload = leBytes 2 1 ++ ([0, 1] : List Nat).flatMap (fun r =>
              leBytes (s.dcBase ld r * 2 ^ 28) 8 ++ leBytes (dcBlocks * 2 ^ 28) 8 ++ leBytes (2 ^ 28) 8))
          ∨ (c = .getDcExtentList path ∧ opc = 0x4801 ∧
              (let l := (s.host.dcExtents.filter (fun x => x.1 == ld)).map (·.2)
               payload = leBytes l.length 4 ++ l.flatMap (s.extBytes ld)))))) →
    ∃ t, exec c s = .next t ∧ s.MboxAnswer t path opc.toNat .success payload

/-- The standard commands that set record what they are given and answer Success. Rules: R240, R288, R302, R304, R395, R397. -/
def Obligations.MailboxSettingsAreRecorded : Prop :=
  ∀ (s : State) (path : MboxPath),
    let p := pathNo path
    let fn := pathFn p
    (∀ log2 : BitVec 8, s.pathReady path 0x0004 = true → mgmtPath path = true → 8 ≤ log2.toNat → log2.toNat ≤ 16 →
      ∃ t, exec (.setResponseMessageLimit path log2) s = .next t ∧
        (s.modHost (fun h => { h with msgLimit := mset 16 h.msgLimit p log2.toNat })).MboxAnswer t path 0x0004 .success (leBytes log2.toNat 1))
    ∧ (∀ (log : LogNo) (all : Bool) (handles : List (BitVec 16)), s.pathReady path 0x0101 = true →
        let k := 5 * fn + logCode log
        let l : EvLog := mget {} s.host.logs k
        (all = true ∨ ∀ x ∈ handles, ∃ r ∈ l.recs, r.handle = x.toNat) →
        ∃ t, exec (.clearEventRecords path log all handles) s = .next t ∧
          (let left : EvLog := if all then {} else { l with recs := l.recs.filter (fun r => !(handles.map (·.toNat)).contains r.handle) }
           (s.modHost (fun h => { h with logs := mset {} h.logs k left })).MboxAnswer t path 0x0101 .success []))
    ∧ (∀ policy : BitVec 40, s.pathReady path 0x0103 = true →
        ∃ t, exec (.setEventInterruptPolicy path policy) s = .next t ∧
          (s.modHost (fun h => { h with evPolicy := mset 0 h.evPolicy fn policy.toNat })).MboxAnswer t path 0x0103 .success [])
    ∧ (∀ time : BitVec 64, s.pathReady path 0x0301 = true →
        ∃ t, exec (.setTimestamp path time) s = .next t ∧
          (s.modHost (fun h => { h with tsOffset := mset 0 h.tsOffset fn ((time.toNat : Int) - s.ft) })).MboxAnswer t path 0x0301 .success []
          ∧ t.stamp fn = time.toNat)
    ∧ (∀ ld, pathLd path = some ld →
        (s.pathReady path 0x4101 = true → ∃ t, exec (.setPartitionInfo path 0) s = .next t ∧ s.MboxAnswer t path 0x4101 .success [])
        ∧ (∀ cfg : BitVec 96, s.pathReady path 0x4202 = true →
            ∃ t, exec (.setAlertConfiguration path cfg) s = .next t ∧
              (s.modHost (fun h => { h with alertCfg := mset 0 h.alertCfg ld cfg.toNat })).MboxAnswer t path 0x4202 .success [])
        ∧ (∀ st : BitVec 8, s.pathReady path 0x4204 = true →
            ∃ t, exec (.setShutdownState path st) s = .next t ∧
              (s.modHost (fun h => { h with shutdown := mset 0 h.shutdown ld st.toNat })).MboxAnswer t path 0x4204 .success [])
        ∧ (∀ (off : BitVec 32) (data : List Byte), s.pathReady path 0x4103 = true → off.toNat + data.length ≤ 131072 →
            ∃ t, exec (.setLsa path off data) s = .next t ∧
              (s.modHost (fun h => { h with lsa := mmod [] h.lsa ld (fun m => memWrite m off.toNat data) })).MboxAnswer t path 0x4103 .success []))
    ∧ (s.pathReady path 0x0005 = true → (mget {} s.host.bgs fn).opc = 0 →
        ∃ t, exec (.requestAbortBackgroundOp path) s = .next t ∧ s.MboxAnswer t path 0x0005 .success [])
    ∧ (s.pathReady path 0x0002 = true →
        let b := mget {} s.host.bgs fn
        let percent := if b.opc = 0 then 100 else Config.freeNat s.free % 101
        ∃ t, exec (.backgroundOperationStatus path) s = .next t ∧
          ({ s with free := s.free + 1 } : State).MboxAnswer t path 0x0002 .success
            (leBytes (b2n (b.opc != 0) + 2 * percent) 1 ++ leBytes 0 1 ++ leBytes (if b.opc = 0 then b.lastOpc else b.opc) 2
              ++ Config.stdPayload 0x0002 b.lastRc.code))

/-- The doorbell takes a command, and the standard background commands start and end. Rules: R171, R238, R394, R395, R397, R429, R430, R432. -/
def Obligations.MailboxBackgroundCommandsStart : Prop :=
  ∀ (s : State) (path : MboxPath),
    let p := pathNo path
    let fn := pathFn p
    -- the background operation of an opcode has started: its path is answered at once and is free
    let started := fun (opc : Nat) (u : State) =>
      (s.modHost (fun h => { h with bgs := mset {} h.bgs fn { mget {} h.bgs fn with path := p, opc := opc, res := none } })).MboxAnswer
        u path opc .started []
    (∀ (opc : BitVec 16) (len : BitVec 21), s.host.mailbox = true → (mget {} s.host.mbox p).busy = false →
      opc.toNat ∈ stdOpcodes ++ kOpcodes → len.toNat ≤ 65536 →
      exec (.mailboxDoorbell path opc len) s = .next (s.modHost (fun h =>
        { h with mbox := mset {} h.mbox p { busy := true, run := false, opc := opc.toNat, len := len.toNat, at_ := s.ft } })))
    ∧ (∀ (action slot : BitVec 8) (off : BitVec 32) (data : List Byte), s.pathReady path 0x0201 = true → s.bgHeld p = false → slot = 2 →
        s.stageStatus action.toNat (128 * off.toNat) data = kOk →
        ∃ t u, exec (.transferFw path action slot off data) s = .next t ∧ started 0x0201 u ∧
          t = (u.stagePart action.toNat data).2.endBg p (rcOf (u.stagePart action.toNat data).1) [])
    ∧ (s.pathReady path 0x0202 = true → s.bgHeld p = false → s.activateStatus = kOk →
        ∃ t u, exec (.activateFw path 0 2) s = .next t ∧ started 0x0202 u ∧ t = u.activateGo false (.bg path)
          ∧ t.maint.activating = some false)
    ∧ (∀ ld, pathLd path = some ld →
        (∀ dpa len : BitVec 64, s.pathReady path 0x4304 = true → s.bgHeld p = false → s.host.memActive = true → dpa.toNat % 64 = 0 → len ≠ 0 →
          ∃ t u, exec (.scanMedia path dpa len) s = .next t ∧ started 0x4304 u ∧
            (let first := dpa.toNat / 256
             let tiles := (dpa.toNat + 64 * len.toNat + 255) / 256 - first
             let inRange := fun (x : PoisonLine) => match s.lineDpa ld x.line with
               | some d => decide (dpa.toNat ≤ d) && decide (d < dpa.toNat + 64 * len.toNat)
               | none => false
             t = u.modHost (fun h => { h with
               poisonList := h.poisonList.filter (fun x => x.scan || !inRange x),
               scanRes := mset [] h.scanRes ld [], scans := mset (0, 0, 0) h.scans ld (first, tiles, 0) })))
        ∧ (s.pathReady path 0x4400 = true → s.bgHeld p = false → s.host.memActive = true →
            let runs := s.ldRuns ld (fun b => b.kind != 0 && !b.releasing)
            s.discCheck (lsnsOf runs) = kOk →
            ∃ t u, exec (.sanitize path) s = .next t ∧ started 0x4400 u ∧
              t = ((u.modHost (fun h => { h with erasing := mset 0 h.erasing ld (p + 1) })).discardNow .segments true runs none false
                (2 ^ 20 + ld) 0).modDisc s.map.discNext (fun d => { d with advance := false }))
        ∧ (s.pathReady path 0x4401 = true → s.bgHeld p = false → s.host.memActive = true →
            let runs := s.ldRuns ld (fun b => b.kind != 0 && !b.releasing)
            s.discCheck (lsnsOf runs) = kOk →
            ∃ t u, exec (.secureErase path) s = .next t ∧ started 0x4401 u ∧
              t = ((u.modHost (fun h => { h with erasing := mset 0 h.erasing ld (p + 1) })).discardNow .segments false runs none false
                (2 ^ 20 + ld) 0).modDisc s.map.discNext (fun d => { d with advance := true })))
    ∧ (∀ ok : Bool, s.keys.lcWait = none →
        let b := mget {} s.host.bgs fn
        ∀ rc payload, b.opc ≠ 0 → b.path = p → b.res = some (rc, payload) → b.opc ≠ 0x4304 → s.power.restart = false →
        exec (.backgroundOpEnd path ok) s = .next ((s.modHost (fun h =>
          { h with bgs := mset {} h.bgs fn { lastOpc := b.opc, lastRc := rc } })).emit (.bgStatus p b.opc rc payload)))

/-- A host's read, write or snoop answer reaches the coherence home in its line's order; write credit is granted within the budget. Rules:
R77, R84, R139, R228, R237, R257, R261, R262, R265, R271, R272, R274, R276, R286. -/
def Obligations.HostRequestsReachTheHome : Prop :=
  ∀ (s : State) (h : HeadNo),
    -- a read or write of an enabled, decoded address becomes a request in its line's order, which the home then serves; what it
    -- passes on the way changes the counters alone
    (∀ (ldId : Fin 16) (ld hpa dpa k : Nat),
      s.headUp h.val = true → (mget {} s.host.heads h.val).ideNeeded = false → s.keys.wipeFilled = false →
      s.headLd h.val ldId.val = some ld → s.hpaToDpa ld hpa = some dpa → s.dpaKey ld dpa = some k →
      let asked := fun (op plain : ReqOp) => if s.isDb ld then op else plain
      (∀ q : M2SReq, q.ldId = ldId → q.hpa.toNat = hpa →
        let src : ReqSrc := if q.kind = .memSpecRd then .own ld else .host h.val ld q.tag.toNat
        (∃ u r, exec (.memrd h q) s = .next ((u.submit r).pump) ∧ (∃ tally, u = { s with tally := tally })
          ∧ r.line = k ∧ r.src = src ∧ r.kind = kindCode q.kind ∧ r.credit = false ∧ r.at_ = s.ft
          ∧ r.op = asked (match q.meta_ with | .s => .rdS | .a => .rdA | _ => .rdI) .rdI)
        ∧ (∃ u r, exec (.meminv h q) s = .next ((u.submit r).pump) ∧ (∃ tally, u = { s with tally := tally })
          ∧ r.line = k ∧ r.src = .host h.val ld q.tag.toNat ∧ r.credit = false ∧ r.at_ = s.ft
          ∧ r.op = asked (match q.meta_ with | .a => .invA | _ => .invI) .invI))
      ∧ (∀ (w : M2SRwD) (mask : BitVec 64), w.ldId = ldId → w.hpa.toNat = hpa →
          (k < 2 ^ 39 → s.mirrorCopy (ltnSeg (keyTile k)) = false) →
          let spent := mmod {} s.host.heads h.val (fun x => { x with rwdOut := x.rwdOut - 1 })
          let op := asked (match w.meta_ with | .s => .wrS | .a => .wrS | _ => .wrI) .wrI
          (∃ u r, exec (.memwr h w) s = .next ((u.submit r).pump)
            ∧ (∃ tally, u = { s with tally := tally, host := { s.host with heads := spent } })
            ∧ r.line = k ∧ r.src = .host h.val ld w.tag.toNat ∧ r.data = w.data ∧ r.mask = BitVec.allOnes 64 ∧ r.poison = w.poison
            ∧ r.credit = true ∧ r.at_ = s.ft ∧ r.op = op)
          ∧ (∃ u r, exec (.memwrptl h w mask) s = .next ((u.submit r).pump)
            ∧ (∃ tally, u = { s with tally := tally, host := { s.host with heads := spent } })
            ∧ r.line = k ∧ r.src = .host h.val ld w.tag.toNat ∧ r.data = w.data ∧ r.mask = mask ∧ r.poison = w.poison
            ∧ r.credit = true ∧ r.at_ = s.ft ∧ r.op = op)))
    -- an answer to a BISnp under way
    ∧ (∀ (tag : Fin 64) (n : Snoop), s.snoopOf h.val tag.val = some n →
        exec (.birsp h tag .i) s = .next (((s.histogram h.val 6 (s.ft - n.at_)).snoopAnswered n.dest
          (fun m => m.sent && m.head == h.val && m.tag == tag.val) false).pump)
        ∧ exec (.birsp h tag .s) s = .next (((if n.inv then s.event { mkEv .warning 5 h.val .protocol with detail := [tag.val] } none else s).histogram
          h.val 6 (s.ft - n.at_) |>.snoopAnswered n.dest (fun m => m.sent && m.head == h.val && m.tag == tag.val) (!n.inv)).pump))
    -- a BIConflict is acknowledged at once, or after the answer the LD is owed for the line
    ∧ (∀ (ldId : Fin 16) (line : BitVec 39) (ld : Nat), s.headLd h.val ldId.val = some ld →
        let owes := s.home.act.any (fun a => a.req.line == line.toNat && !a.answered
          && (match a.req.src with | .host _ l _ => l == ld | _ => false))
        ∃ t tally, exec (.biconflict h ldId line) s = .next t ∧
          t = { s with tally := tally,
                       home := { s.home with conflicts := if owes then s.home.conflicts ++ [(ld, line.toNat)] else s.home.conflicts },
                       out := if owes then s.out else s.out ++ [.s2m h.val ld 0 .conflictAck none false] })
    -- a purge walk ends
    ∧ (∀ slot : Fin 32, s.flag (Reg.COH_SLOT.PURGING slot.val) = true →
        exec (.slotPurgeEnd slot) s = .next (((s.purgeDir slot.val).dirSlotFree slot.val).dirSlotNext).pump)
    -- one write credit
    ∧ (s.headUp h.val = true → (mget {} s.host.heads h.val).rwdOut < 256 → s.creditHeld h.val = false → s.creditRoom = true →
        ∃ t tally, exec (.writeCreditGrant (.head h)) s = .next t ∧
          t = { s with tally := tally, out := s.out ++ [.credit h.val],
                       host := { s.host with heads := mset {} s.host.heads h.val { mget {} s.host.heads h.val with
                         rwdOut := (mget {} s.host.heads h.val).rwdOut + 1, withheld := false } } })
    ∧ (∀ k : LinkNo, s.getF (Reg.DF_LINK.STATE k.val) = 3 → s.creditHeld (8 + k.val) = false → s.creditRoom = true →
        let n := if s.keys.wipeFilled then (s.link k.val).withheld else min (s.link k.val).withheld (wrUnits * s.writeRoom)
        exec (.writeCreditGrant (.link k)) s = .next ((s.modLink k.val (fun l =>
          { l with owe := vcSet l.owe 0 (vcGet l.owe 0 + n), withheld := l.withheld - n })).sendNull k.val))

/-- Capacity moves between the free blocks and an LD's regions; decoders, resets, poison and DOE act on their own LD. Rules: R173, R232, R233,
R235, R236, R237, R238, R241, R243, R245, R295, R409. -/
def Obligations.CapacityCommandsMoveBlocks : Prop :=
  ∀ (s : State) (ld : LdNo),
    -- static capacity grows by free blocks in ascending order; a request for more than are free allocates nothing
    (∀ blocks : BitVec 18, s.keys.lifecycle ≠ 3 →
      let mine := s.host.blocks.filter (fun (_, b) => b.kind == 1 && b.ld == ld.val && !b.releasing)
      mine.length ≤ blocks.toNat →
      exec (.fmLdAllocate ld blocks) s = .next (
        if s.freeBlockCount < blocks.toNat - mine.length then s
        else
          let put := fun (m : SMap Block) (b : Nat × Nat) => mset {} m b.1 { kind := 1, ld := ld.val, num := mine.length + b.2 }
          s.modHost (fun x => { x with blocks := (s.freeBlocksFrom 0 (blocks.toNat - mine.length) s.blockCount).zipIdx.foldl put x.blocks })))
    -- dynamic capacity of one extent offered to an LD: its blocks are taken, the offer is held, an event tells it
    ∧ (∀ (region : Fin 2) (e : DcExtent), s.keys.lifecycle ≠ 3 → s.importOf ld.val region.val e = false →
        s.importMeets ld.val region.val e = false → e.count ≠ 0 → e.region = region → e.first.toNat + e.count.toNat ≤ dcBlocks →
        (∀ o ∈ s.regionExtents ld.val region.val, extMeets o e = false) →
        (∀ x ∈ s.host.blocks, ¬ (x.2.kind = region.val + 2 ∧ x.2.ld = ld.val ∧ e.first.toNat ≤ x.2.num ∧ x.2.num < e.first.toNat + e.count.toNat)) →
        (s.regionExtents ld.val region.val).length < 256 → e.count.toNat ≤ s.freeBlockCount →
        let bs := s.freeBlocksFrom 0 e.count.toNat s.blockCount
        let nums := (List.range e.count.toNat).map (e.first.toNat + ·)
        let put := fun (m : SMap Block) (b : Nat × Nat) => mset {} m b.1 { kind := region.val + 2, ld := ld.val, num := b.2 }
        exec (.fmAddDc ld region [e]) s = .next ((s.modHost (fun x => { x with
          blocks := (bs.zip nums).foldl put x.blocks,
          dcOffers := x.dcOffers ++ [{ ld := ld.val, region := region.val, extents := [e], blocks := bs }] })).event
            { mkEv .dynCap (s.ldAsg ld.val).head ld.val .changed with detail := [region.val, e.first.toNat, e.count.toNat] } (some ld.val)))
    -- the LD's software accepts extents of its oldest offer
    ∧ (∀ (path : MboxPath) (extents : List DcExtent) (o : DcAdd), pathLd path = some ld.val → s.pathReady path 0x4802 = true →
        s.host.dcOffers.find? (fun o => o.ld == ld.val) = some o →
        (∀ e ∈ extents, ∃ b ∈ o.extents, extWithin e b = true) →
        (s.host.dcExtents.filter (fun x => x.1 == ld.val && x.2.region.val == o.region)).length + extents.length ≤ 256 →
        ∃ t, exec (.addDcResponse path extents) s = .next t ∧
          let put := fun (m : SMap Block) (k : Nat) => mmod {} m k (fun b =>
            if extents.any (fun e => extHas e o.region b.num) then { b with ready := true } else {})
          (s.modHost (fun h => { h with
            blocks := o.blocks.foldl put h.blocks,
            dcOffers := h.dcOffers.erase o,
            dcExtents := h.dcExtents ++ extents.map (fun e => (ld.val, e)) })).MboxAnswer t path 0x4802 .success [])
    -- it gives extents back: their blocks are released, their imported pools dropped, and what is left stays accepted
    ∧ (∀ (path : MboxPath) (extents : List DcExtent), pathLd path = some ld.val → s.pathReady path 0x4803 = true → s.host.memActive = true →
        let mine := (s.host.dcExtents.filter (fun x => x.1 == ld.val)).map (·.2)
        (∀ e ∈ extents, (∃ b ∈ mine, extWithin e b = true) ∧ ∀ b ∈ s.extBlocks ld.val e, s.blockCask b = false) →
        let left := extents.foldl (fun l e => l.flatMap (fun a => extLess a e)) mine
        let u := (s.kMark (.path path) 0x4803).modHost (fun h =>
          { h with dcExtents := h.dcExtents.filter (fun x => x.1 != ld.val) ++ left.map (fun e => (ld.val, e)) })
        let u := ((extents.flatMap (s.extBlocks ld.val)).eraseDups).foldl (fun s b => s.releaseBlock b) u
        let u := (extents.flatMap (s.extPools ld.val)).foldl (fun s (a, n) => s.dropPool a n) u
        exec (.releaseDc path extents) s = .next (u.endPath (pathNo path) .success []).pump)
    -- poison and clean data written by the part itself to a home line that is no mirror copy
    ∧ (∀ (path : MboxPath) (dpa : BitVec 64) (k : Nat), pathLd path = some ld.val → s.host.memActive = true → dpa.toNat % 64 = 0 →
        s.dpaKey ld.val dpa.toNat = some k → k < 2 ^ 39 → s.mirrorCopy (ltnSeg (keyTile k)) = false →
        let own := fun (opc : Nat) (data : Line) (poison : Bool) =>
          let u := s.kMark (.path path) opc
          let u : State := { u with home := { u.home with owns := u.home.owns ++ [{ first := k, count := 1, after := .path (pathNo path) }] } }
          (u.submit { src := .own ld.val, op := .wrI, line := k, data := data, mask := BitVec.allOnes 64, poison := poison, at_ := s.ft }).pump
        (s.pathReady path 0x4301 = true → exec (.injectPoison path dpa) s = .next (own 0x4301 0 true))
        ∧ (∀ data : BitVec 512, s.pathReady path 0x4302 = true → exec (.clearPoison path dpa data) s = .next (own 0x4302 data false)))
    -- a decoder is committed when the checks of R233 pass and shows ERR when they do not
    ∧ (∀ (d : Fin 4) (c : DecoderCfg),
        let free : Decoder := { cfg := ⟨0, 0, 0, 0, 0, 0, false⟩ }
        let ok := s.commitOk ld.val d.val c
        let u := s.modHost (fun x => { x with decoders := mset free x.decoders (4 * ld.val + d.val) { committed := ok, err := !ok, cfg := c } })
        ∃ t, exec (.hdmDecoderCommit ld d c) s = .next t
          ∧ t = { s with host := { s.host with decoders := t.host.decoders } }
          ∧ mget free t.host.decoders (4 * ld.val + d.val)
              = { committed := ok, err := !ok, cfg := c, dpa := u.decoderBase ld.val d.val }
          ∧ ∀ k, k ≠ 4 * ld.val + d.val → mget free t.host.decoders k = mget free s.host.decoders k)
    -- resets of an LD function
    ∧ (let u := (s.dropDecoders ld.val).dropQueues (· == ld.val)
       exec (.cxlReset ld false) s = .next u
       ∧ (u.host.memActive = true → u.inDrydown = false →
          exec (.cxlReset ld true) s = .next (u.discardNow .segments (u.discSecure 0) (u.ldRuns ld.val (fun b => b.kind != 0)) none false 0 0)))
    ∧ exec (.functionLevelReset ld) s = .next (s.fnReset ld.val)
    -- what DOE answers
    ∧ (∀ index : BitVec 8, exec (.doeDiscovery ld index) s = .next (s.emit (.doe ld.val 0 (
        if index = 0 then [0x01, 0x00, 0x00, 0x01] else if index = 1 then [0x01, 0x00, 0x01, 0x02] else if index = 2 then [0x01, 0x00, 0x02, 0x03]
        else if index = 3 then [0x98, 0x1E, 0x02, 0x00] else [0xFF, 0xFF, 0x00, 0x00]))))
    ∧ exec (.cdatRead ld) s = .next (s.emit (.doe ld.val 2 (leBytes 0 8 ++ leBytes (s.staticBlocks ld.val * 2 ^ 28) 8 ++ leBytes 380 8
        ++ leBytes 120 8 ++ leBytes (s.linkRate (s.ldAsg ld.val).head) 8 ++ leBytes (s.linkRate (s.ldAsg ld.val).head) 8)))

/-- A head resets, comes up and fails as its events say; SPDM sessions and IDE keys come and go. Rules: R205, R226, R227, R239, R241, R242,
R245, R246, R248, R266, R370, R530. -/
def Obligations.HeadEventsTakeEffect : Prop :=
  ∀ (s : State) (h : HeadNo),
    -- a BISnp unanswered past its limit: the flag, the error on the head and an event, then the head resets
    (∀ (tag : Fin 64) (n : Snoop), s.snoopOf h.val tag.val = some n →
      let u := (s.raise Reg.COH_STATUS.BI_TIMEOUT).emit (.uncorrectable h.val)
      let u := u.event ({ mkEv .warning 5 h.val .limit with detail := [tag.val] }.stat Reg.COH_STATUS.BI_TIMEOUT) none
      exec (.bisnpTimeout h tag) s = .next ((u.headReset h.val).headResetEnd h.val))
    -- an integrity failure of IDE: the flag, the counter and the error, the head resets and needs a fresh key
    ∧ (s.flag (Reg.HP_HEAD_STAT.IDE_ACTIVE h.val) = true →
        let u := ((s.raise (Reg.HP_HEAD_STAT.IDE_FAULT h.val)).count (h.val / 2) 7 1).emit (.uncorrectable h.val)
        ∃ t, exec (.ideIntegrityFailure h) s = .next t
          ∧ t = ((u.headReset h.val).headResetEnd h.val).modHead h.val (fun x => { x with ideNeeded := true })
          ∧ (mget {} t.host.heads h.val).ideNeeded = true)
    ∧ (s.headExists h.val = true → s.flag (Reg.HP_HEAD_STAT.IN_RESET h.val) = false →
        exec (.hotReset h) s = .next ((s.headReset h.val).headResetEnd h.val))
    -- a head that is out of reset comes up and shows its width, rate and flit mode; one narrower than its port raises a warning
    ∧ (∀ (width : BitVec 5) (rate : BitVec 3) (flit : Bool), s.headExists h.val = true → s.flag (Reg.HP_HEAD_STAT.IN_RESET h.val) = false →
        s.headUp h.val = false → s.host.mailbox = true → s.host.refAbsent.getLsbD (h.val / 2) = false →
        let u := (s.raise (Reg.HP_HEAD_STAT.LINK_UP h.val)).setF (Reg.HP_HEAD_STAT.WIDTH h.val) width.toNat
        let u := (u.setF (Reg.HP_HEAD_STAT.RATE h.val) rate.toNat).setFlag (Reg.HP_HEAD_STAT.FLIT256 h.val) flit
        exec (.headLinkUp h width rate flit) s = .next (if width.toNat < u.headWidth h.val then
          u.event { mkEv .warning (h.val / 2) h.val .changed with detail := [width.toNat] } none else u))
    ∧ (s.headUp h.val = true → exec (.gpfPhase2 h) s = .next (s.modHost (fun x => { x with gpf := x.gpf.filter (· != h.val) ++ [h.val] })).pump)
    -- fundamental reset of a port
    ∧ (∀ p : PortNo, s.host.perst.getLsbD p.val = true →
        let down := fun (u : State) (k : Nat) => (u.headReset k).raise (Reg.HP_HEAD_STAT.IN_RESET k)
        exec (.perstNAssert p) s = .next (down (down (s.modHost (fun x => { x with perst := x.perst &&& ~~~(1#4 <<< p.val) })) (2 * p.val)) (2 * p.val + 1)))
    ∧ (∀ p : PortNo, s.host.perst.getLsbD p.val = false →
        let u := ((s.modHost (fun x => { x with perst := x.perst ||| (1#4 <<< p.val) })).portApply p.val).headResetEnd (2 * p.val)
        exec (.perstNRelease p) s = .next (if u.headExists (2 * p.val + 1) then u.headResetEnd (2 * p.val + 1) else u))
    -- a reference clock returns: that one is no longer absent, and nothing else changes
    ∧ (∀ w : RefClk, ∃ t, exec (.refclkReturn w) s = .next t ∧ t = { s with host := { s.host with refAbsent := t.host.refAbsent } }
        ∧ ∀ i : Nat, t.host.refAbsent.getLsbD i
            = (s.host.refAbsent.getLsbD i && !(i == match w with | .port p => p.val | .dorosh => 4)))
    -- SPDM sessions: a key exchange opens one, sixteen at most; a session ends
    ∧ (∀ (at_ : DoeOn) (id : BitVec 32) (withMutual : Bool) (secret : BitVec 256), s.keys.wiped = false →
        ∃ t, exec (.spdmKeyExchange at_ id withMutual secret) s = .next t ∧
          (if s.keys.sessions.length < 16 then
             t.keys.sessions = s.keys.sessions.filter (fun x => !(x.id == id)) ++ [{ id := id, at_ := at_, withMutual := withMutual, secret := secret }]
               ∧ t = { s with keys := { s.keys with sessions := t.keys.sessions }, out := s.out ++ [.spdm id true] }
           else t = { s with out := s.out ++ [.spdm id false] }))
    ∧ (∀ id : BitVec 32, exec (.spdmSessionEnd id) s
        = .next { s with keys := { s.keys with sessions := s.keys.sessions.filter (fun x => !(x.id == id)) } })
    -- IDE_KM programs a key through an open session: on a head whose IDE is active it stands by, else it takes effect
    ∧ (∀ (id : BitVec 32) (key : BitVec 256), (∃ x ∈ s.keys.sessions, x.id = id) → s.keys.wiped = false →
        ∃ t, exec (.ideKmKeyProg id h key) s = .next t ∧
          (if s.flag (Reg.HP_HEAD_STAT.IDE_ACTIVE h.val) then t = s.modHead h.val (fun x => { x with standby := some key })
           else t = (s.modHead h.val (fun x => { x with key := some key, ideNeeded := false })).raise (Reg.HP_HEAD_STAT.IDE_ACTIVE h.val)))

/-- The line cache finishes what it waits for: tag reads, mash slots, cleaning, disabling, way changes and range jobs. Rules: R72, R80, R82,
R85, R86, R87, R89, R90, R91, R353. -/
def Obligations.CacheEventsTakeEffect : Prop :=
  ∀ s : State,
    -- a tag record comes back from HBM: it is in the tag cache, most recently used, and what waited for it is served
    (∀ (set : BitVec 24) (visitor : Bool), 2 * set.toNat + b2n visitor ∈ s.cache.tagReads →
      let k := 2 * set.toNat + b2n visitor
      let u := (s.modCache (fun c => { c with tagReads := c.tagReads.filter (· != k) })).tagEnter k
      exec (.tagCacheMissReturn set visitor) s = .next (((s.home.act.filter (fun a =>
        a.phase == .tag && tagKey (keyNode a.req.line) (keyTile a.req.line) == k)).foldl (fun s a => s.serve a.id none) u).pump)
      ∧ u.cache.tags = (k :: s.cache.tags.filter (· != k)).take s.tagRoom ∧ u.cache.tagReads = s.cache.tagReads.filter (· != k))
    -- an idle mash slot that is not complete is moved into the cache
    ∧ (∀ (ltn : BitVec 37) (m : Mash), s.mashOf ltn.toNat = some m → m.valid ≠ 15 →
        exec (.mashIdleTimeout ltn) s = .next ((s.spillMash m).getD s).pump)
    -- a stream tracker is freed
    ∧ (∀ i : Fin 64, exec (.streamTrackerTimeout i) s
        = .next { s with cache := { s.cache with trackers := s.cache.trackers.filter (fun t => t.id != i.val) } })
    -- the cleaner starts at CLEAN_HI of the budget and stops at CLEAN_LO
    ∧ (s.budget * s.cleanHi ≤ s.charge * 100 →
        exec .cleanerStart s = .next ({ s with cache := { s.cache with cleaning := true } } : State).cleanWalk)
    ∧ (s.charge * 100 ≤ s.budget * s.cleanLo →
        exec .cleanerStop s = .next { s with cache := { s.cache with cleaning := false } })
    -- the cleans of an LD's disable sequence have ended: a second clean with its writes held, then the lookup is off
    ∧ (∀ (ld : LdNo) (d : Disabling), s.cache.disabling.find? (fun d => d.ld == ld.val) = some d → (∀ t ∈ d.left, s.progOf t = false) →
        let w := (s.cleanLd ld.val).2
        let left := (s.cleanLd ld.val).1
        (d.phase = .firstClean → exec (.disableCleanDone ld) s = .next (w.modCache (fun c =>
          { c with disabling := lupd (fun d => d.ld == ld.val) (fun d => { d with phase := .holdClean, left := left }) c.disabling })).retryWays)
        ∧ (d.phase = .holdClean → left ≠ [] → exec (.disableCleanDone ld) s = .next (w.modCache (fun c =>
            { c with disabling := lupd (fun d => d.ld == ld.val) (fun d => { d with left := left }) c.disabling })).retryWays)
        ∧ (d.phase = .holdClean → left = [] →
            let u := w.modCache (fun c => { c with disabling := c.disabling.filter (fun d => d.ld != ld.val),
                                                   lookupOff := ld.val :: c.lookupOff.filter (· != ld.val) })
            exec (.disableCleanDone ld) s = .next (u.respondTo d.src kOk (u.getF Reg.LC_WAYS.WAYS_NOW) []).pump.retryWays))
    -- a decrease of ways ends once the ways that leave hold nothing; an increase ends when the woken regions answer
    ∧ (∀ n, s.cache.wayTarget = some n → s.cache.waking = false → s.wayWalk.departing = [] →
        exec .wayChangeEnd s = .next s.wayWalk.wayFinish.retryWays)
    ∧ (∀ n, s.cache.wayTarget = some n → s.cache.waking = true →
        let u := (s.setF Reg.LC_WAYS.WAYS_NOW (waysEnc n)).modCache (fun c => { c with wayTarget := none, waySrc := none, waking := false })
        -- a command's answer waits for a store of its own register that is still under way
        let mine := fun (x : RwpStore) => x.off == 0x40004 && x.src.isNone && s.cache.waySrc.isSome
        exec .hbmWayWakeEnd s = .next (if s.regs.stores.any (fun x => x.off == 0x40004 && x.src.isNone) then
            State.pump { u with regs := { u.regs with stores := u.regs.stores.map (fun x =>
              if mine x then { x with src := s.cache.waySrc, res := waysEnc n } else x) } }
          else (u.respondTo s.cache.waySrc kOk (waysEnc n) []).wayWant.pump).retryWays)
    -- the range job under way has nothing left: DONE, its command completes with the tiles dropped, the next job starts
    ∧ (∀ j rest, s.cache.jobs = j :: rest → j.started = true → j.left = [] → j.late = [] →
        let u := ({ s with cache := { s.cache with jobs := rest } } : State).raise Reg.LC_RANGE_CTRL.DONE
        let u := if j.invDone && u.lookupOff j.ld then u.raise (Reg.LC_LD_CTRL.INV_DONE j.ld) else u
        exec .rangeJobEnd s = .next (u.respondTo j.src kOk j.dropped []).rangeStart.retryWays)

/-- The segment map finishes what it waits for: checkpoints, copies, markings, endurance, discards and re-keys. Rules: R101, R152, R156, R157,
R158, R163, R168, R169, R215, R342. -/
def Obligations.MapEventsTakeEffect : Prop :=
  ∀ s : State,
    -- a checkpoint falls due after its period: it starts, or waits for the one under way
    (s.map.ckptLast + s.ckptPeriod ≤ s.ft / 2 ^ 20 → ∃ t, exec .checkpointDue s = .next t ∧ t.map.ckptBusy = true
      ∧ (s.map.ckptBusy = false → t = s.checkpointStart ∧ t.map.ckptDue = false)
      ∧ (s.map.ckptBusy = true → t = { s with map := { s.map with ckptDue := true } }))
    -- its programs have ended: it is valid, the two newest are kept, and the journal before both is given up
    ∧ (s.map.ckptBusy = true → (∀ p ∈ s.progs.list, p.why ≠ .checkpoint) → s.map.ckptDue = false →
        let valid := s.map.ckpts.map (fun c => { c with valid := true })
        let keep := valid.drop (valid.length - 2)
        let first := (keep.map (·.seq)).foldl min s.map.jseq
        exec .checkpointEnd s = .next { s with map := { s.map with
          ckpts := keep, ckptBusy := false, jmedia := s.map.jmedia.filter (fun r => decide (first ≤ r.seq)) } })
    -- copies
    ∧ (∀ (lsn : BitVec 25) (l : Nat) (why : CopyWhy), s.map.copyWait.find? (fun w => w.1 == lsn.toNat) = some (l, why) →
        s.copyMayStart lsn.toNat why = true → exec (.copyStart lsn) s = .next (s.copyBegin lsn.toNat why))
    ∧ (∀ (lsn : BitVec 25) (c : Copy), s.map.copies.find? (fun c => c.lsn == lsn.toNat) = some c → c.pend = 0 → c.out = [] →
        (c.redo ≠ 0 → exec (.copyPassEnd lsn) s = .next (s.modCopy lsn.toNat (fun c =>
          { c with pend := c.redo, redo := 0, pass := c.pass + 1, held := decide (2 ≤ c.pass + 1) })))
        ∧ (c.redo = 0 → (∀ p ∈ s.progs.list, ¬ (p.why.user? = true ∧ ltnSeg p.ltn = lsn.toNat ∧ p.psn = c.source ∧ p.granted = true)) →
            exec (.copyPassEnd lsn) s = .next (s.copySwitch c)))
    -- release markings
    ∧ (∀ (psn : BitVec 26) (k : Marking), s.map.marks.find? (fun k => k.psn == psn.toNat) = some k → s.markMayStart k = true →
        exec (.releaseMarkStart psn) s = .next ((s.modMark psn.toNat (fun k => { k with started := true, waiting := false })).markFeed psn.toNat))
    ∧ (∀ psn : BitVec 26, exec (.releaseMarkEnd psn) s = .next ((s.markEnd psn.toNat).discDone.poolEvents s.freeSlots))
    -- a mapped segment reaches its endurance: it is copied to a slot below it, or becomes worn when there is none
    ∧ (∀ lsn : BitVec 25, (s.entry lsn.toNat).state = stMapped → (s.entry lsn.toNat).psn ≠ noPsn → endure ≤ s.pcount (s.entry lsn.toNat).psn →
        exec (.endureReached lsn) s = .next (
          if ((s.slotForCopy (s.entry lsn.toNat).psn (s.entry lsn.toNat).note).1).isSome then s.queueCopy lsn.toNat .endure else s.becomeWorn lsn.toNat))
    -- the requests a discard waited for have drained
    ∧ (∀ lsn : BitVec 25, exec (.discardHoldDrained lsn) s = .next (s.discDrained lsn.toNat).retryWays)
    -- re-keys
    ∧ (∀ (g : GroupNo) (r : Rekey), (s.map.rekeyRun.filter (fun r => psnSet (s.entry r.lsn).psn / 32 == g.val)).length < s.rekeyMax →
        s.rekeyNext g.val = some r → exec (.rekeyStart g) s = .next (s.rekeyBegin r))
    ∧ (∀ (lsn : BitVec 25) (r : RekeyRun), s.map.rekeyRun.find? (fun r => r.lsn == lsn.toNat) = some r → 4096 ≤ r.next → r.out = [] →
        exec (.rekeyEnd lsn) s = .next ((((s.journal lsn.toNat 9 0).modMap (fun m =>
          { m with rekeyTab := mset (0, 0) m.rekeyTab lsn.toNat (0, 0),
                   rekeyRun := m.rekeyRun.filter (fun q => q.lsn != lsn.toNat) })).count 10 4 1).rekeyLdDone.rotationRetire))

/-- A tile read goes from its map entry through its rounds and its deep recovery to its data. Rules: R38, R45, R47, R49, R59, R65, R79, R96,
R97, R98, R99, R100, R102, R105, R106, R108, R110, R111, R112, R113, R129, R130, R137, R178, R209, R342, R365, R370, R373, R375, R459. -/
def Obligations.ReadPathEventsTakeEffect : Prop :=
  ∀ s : State,
    -- the map entry of a miss arrives: a discarded segment returns zeros without a read, a mapped one with a usable key issues
    (∀ (ltn : BitVec 37) (r : Reg), s.regOf (.logical ltn) = some r → r.phase = .map →
      let e := s.entryNow (ltnSeg ltn.toNat)
      let take := fun (r : Reg) => { r with psn := e.psn, keyidx := e.keyidx, keyver := e.keyver, tMap := s.ft }
      let u := (s.modReg r.key take).prefetch (take r) ltn.toNat
      (e.state = stDiscarded → exec (.mapEntryReturn ltn) s = .next (u.deliver (take r) { fill := false }))
      ∧ (e.state ≠ stDiscarded → ¬ (e.state = stWorn ∧ e.psn = noPsn) → e.onMedium = true → u.keyLocked e.keyidx = false →
          exec (.mapEntryReturn ltn) s = .next ((u.derive e.keyidx e.keyver).modReg r.key (fun r => { r with phase := .issue }))))
    -- a tile read is admitted where every channel has room: its chunk reads leave
    ∧ (∀ (k : TileRef) (r q : Reg), s.regOf k = some r → r.phase = .issue → (s.latchReg r).regOf k = some q →
        let u := s.latchReg r
        let l := if q.why = .counter ∧ q.job = 0 then u.counterChunks q else u.roundReads q
        let sparge := l.any (fun (k, _) => decide (8 ≤ k)) && q.why != .patrol
        s.fromSource r = none → u.chanRoom q l = true →
        let v := u.modReg k (fun r => { r with sparge := sparge })
        let v := if sparge then v.count 6 0 1 else v
        let v := if q.why = .patrol then v.count 9 0 1 else v
        exec (.tileReadAdmit k r.why.account) s = .next ((v.workTaken q).sendReads q l))
    -- a chunk arrives for the read its die owes, under the one nearest data reference
    ∧ (∀ (ch : ChanNo) (pos : DiePos) (part : Fin 16) (cidx : BitVec 27) (bits : BitVec 320) (r : Reg) (g : Nat),
        let die := 32 * ch.val + pos.val
        s.reads.regs.find? (fun r => (r.t % 16 == part.val && chunkIndex (psnSlot r.psn) r.t == cidx.toNat)
          && r.chunks.any (fun c => c.die == die && decide (0 < c.out))) = some r → drefNearest bits.toNat = [g] →
        exec (.chunkReadData ch pos part cidx bits) s = .next (((s.modReg r.key (fun r => { r with
          chunks := lupd (fun c => c.die == die && decide (0 < c.out)) (fun c => c.take bits g (r.phase == .deep)) r.chunks })).releaseHolds
            ).sweepEnd r.key).patrolMore)
    -- an attempt that decodes, verifies and decrypts ends the read with its tile; a tile for the cache whose check fails at the
    -- cache writer is asked for again
    ∧ (∀ (k : TileRef) (r : Reg) (p c : Tile) (f : FieldBlock) (fields : Option FieldBlock), s.regOf k = some r → r.phase = .reading →
        r.waiting = false → r.why ≠ .counter →
        let u := if r.round = 0 then s.learnTrims r else s
        let u := if r.round ≤ 1 then u.countBad r else u
        u.attempt r r.kept (u.allRead r) = (.ok p c f, fields) →
        let v := u.tallyOpen r (.ok p c f, fields)
        let e : ReadEnd := .good p c f r.round
        let fills := r.way.isSome || r.why == .demand || r.why == .prefetch
        (∀ psn t, r.key = .physical psn t → exec (.tileAttempt k) s = .next (v.readEnd r e))
        ∧ (∀ l, r.key = .logical l →
            (fills = false ∨ v.crcGood 3 0 p l.toNat = true → exec (.tileAttempt k) s = .next (v.readEnd r e))
            ∧ (fills = true → v.crcGood 3 0 p l.toNat = false → exec (.tileAttempt k) s = .next
                (((v.setF Reg.CRC_INJECT.ARM 0).planeMiss.unitMiss.tileEvent { mkEv .warning 4 3 .fault with detail := [3, 0] } l.toNat).modReg
                  r.key (fun q => { q with phase := .resend, end_ := some e })))))
    -- the second copy of a tile whose check failed: it ends the read when its check holds, else poison is delivered with an event
    ∧ (∀ (ltn : BitVec 37) (tile : Tile) (crc : BitVec 32) (r : Reg), s.regOf (.logical ltn) = some r → r.phase = .resend →
        let e := (r.end_.getD (.bad false none)).resent tile
        exec (.crcResendArrival ltn tile crc) s = .next (
          if crc = tileCrc tile ltn ∧ s.flag Reg.CRC_INJECT.BOTH = false then s.readEnd r e
          else (s.planeMiss.unitMiss.tileEvent { mkEv .critical 4 3 .lost with detail := [3, 0] } ltn.toNat).deliver r { e.got with poison := 15 }))
    -- deep recovery: it starts while fewer run than the limit, and shows DEEP_OVER else; its lane is held until it ends; a
    -- combination that verifies ends it
    ∧ (∀ (k : TileRef) (r : Reg), s.regOf k = some r → r.phase = .deepWait →
        let u := (s.modReg k (fun r => { r with phase := .deep, swept := false, round := 4 })).modReads (fun x =>
          { x with holds := x.holds ++ [(16 * psnSet r.psn + r.t % 16, k)] })
        (s.deepFull r = false →
          exec (.deepRecoveryStart k) s = .next ((u.count 6 4 1).modInterval (fun i => { i with deep := i.deep + 1 })).sweepGo)
        ∧ (s.deepFull r = true → exec (.deepRecoveryStart k) s = .next (s.raise Reg.RP_STATUS.DEEP_OVER)))
    ∧ (∀ (ds : DieSet) (lane : Fin 16), exec (.laneHoldExpiry ds lane) s
        = .next (s.modReads (fun x => { x with holds := x.holds.eraseP (fun h => h.1 == 16 * ds.val + lane.val) })).resumePaused)
    ∧ (∀ (k : TileRef) (r : Reg), s.regOf k = some r → r.phase = .deep → r.swept = true → r.waiting = false →
        let u := (s.modReads (fun x => { x with holds := x.holds.filter (fun h => h.2 != k) })).resumePaused
        let cs := r.chunks.map (fun c => if c.dec.isSome || c.raws.isEmpty then c else { c with dec := trialDecode (gravSpan r.grav) c.raws })
        let q := { r with chunks := cs }
        let u := u.modReg k (fun x => { x with chunks := cs })
        let decoded := (List.range 10).filter (fun i => (cs.getD i {}).dec.isSome)
        let tries := (leftOut decoded).map (fun out => u.attempt q (q.kept.zipIdx.map (fun (c, i) => if out.contains i then none else c)) true)
        ∀ p c f, tries.findSome? (fun x => match x.1 with | .ok p c f => some (p, c, f) | _ => none) = some (p, c, f) →
        exec (.deepRecoveryEnd k) s = .next ((tries.foldl (fun s x => s.tallyOpen q x) u).fillEnd q (.good p c f 4)))
    -- a counter read whose four chunks agree with the counter they carry gives it to the programs that wait
    ∧ (∀ (ltn : BitVec 37) (r : Reg), s.regOf (.logical ltn) = some r → r.why = .counter → r.job = 0 → r.phase = .reading → r.waiting = false →
        let cs := [4, 5, 6, 7].map (fun i => r.chunks.getD i {})
        let f := counterFields cs
        cs.all (fun c => c.seen && c.dec.isSome && c.gen == f.wcount.toNat % 4) = true →
        let u := ((s.progsFor (.logical ltn)).filter (fun p => p.phase == .counter)).foldl (fun s p => s.progReady { p with old := some f })
          (s.dropReg (.logical ltn))
        exec (.counterReadReturn (.logical ltn)) s = .next ((r.secs.foldl (fun s id => s.serve id none) u).afterReg ltn.toNat))

/-- A lane is granted, a status is polled and answered, and a partition that stays busy is reset. Rules: R23, R24, R60, R61, R132, R133, R134,
R182, R186, R188, R342. -/
def Obligations.WritePathEventsTakeEffect : Prop :=
  ∀ s : State,
    -- a lane is granted to the first program that waits for it: it takes its source, and its first wave leaves
    (∀ (ds : DieSet) (lane : Fin 16) (p : Prog), (s.holder ds.val lane.val).isSome = false →
      (s.dropStale ds.val lane.val).firstFor ds.val lane.val = some p →
      let u := s.dropStale ds.val lane.val
      let worn := p.why.user? && p.why != .pinned && (u.entry (ltnSeg p.ltn)).state == stWorn
      (worn = true → exec (.laneGrant ds lane) s = .next (u.pinProg p 3))
      ∧ (worn = false →
          let q := (u.takeSource p).1
          let v := (u.takeSource p).2
          let q := { q with allow := v.allowances ds.val, skip := v.skipChunks q, phase := .wave, failed := [], again := [] }
          let v := v.modProg q.id (fun _ => q)
          let v := if q.sealed? then v.count 10 0 1 else v
          let v := if q.why.user? then v.dropRefresh q.ltn else v
          let v := v.rebuildIssued q.psn q.t
          exec (.laneGrant ds lane) s = .next ((v.waveFrom q 0).getD (v.programDone q))))
    -- the status of a die is asked for while chunk programs are out on its package's dies
    ∧ (∀ (ch : ChanNo) (pkg : Fin 2) (die : Fin 16) (k : Nat), k < 32 → s.dieChunks (32 * ch.val + k) ≠ [] →
        exec (.statusPoll ch pkg die) s = .next (s.sendPacket 3 (32 * ch.val + 16 * pkg.val + die.val) 0 0 0 none))
    -- a response of a sound check tells the chunks of its die done or failed; a die that asks for it fails; waves that are complete end
    ∧ (∀ (ch : ChanNo) (pkg : Fin 2) (die : Fin 16) (bits : BitVec 64),
        let d := 32 * ch.val + 16 * pkg.val + die.val
        let x := bits.toNat
        (s.responseCheck d 3 (responseOk x 8)).1 = true →
        let u := (s.responseCheck d 3 (responseOk x 8)).2
        let chunks := u.dieChunks d
        let u := if bitAt x 32 || chunks.isEmpty then u else u.modPatrol (fun p => { p with refused := mset 0 p.refused d 0 })
        let u := chunks.foldl (fun s c => s.chunkStatus d x c) u
        let u := u.refusals d (bitsOf x 48 8) (bitAt x 32)
        let u := if bitAt x 37 then u.dieFail d 3 else u
        exec (.statusResponse ch pkg die bits) s = .next u.wavesEnd.retrainGo.patrolMore)
    -- a partition busy past its limit is reset and its chunk taken as failed
    ∧ (∀ (ch : ChanNo) (pos : DiePos) (part : Fin 16) (id k q : Nat),
        let d := 32 * ch.val + pos.val
        (s.dieChunks d).find? (fun (_, _, p) => p == part.val) = some (id, k, q) →
        exec (.partitionBusyTimeout ch pos part) s = .next (((s.sendPacket 6 d part.val 0 0 none).chunkFailed id k d).wavesEnd.retrainGo.patrolMore))

/-- The patrol, the channels and the calibration take their events. Rules: R62, R107, R117, R176, R177, R178, R185, R186, R187, R188, R190,
R192. -/
def Obligations.PatrolAndSparingEventsTakeEffect : Prop :=
  ∀ s : State,
    -- ALERT_N of a channel falls: the alert is held and STATUS is asked of every die of it
    (∀ ch : ChanNo, exec (.mediaAlert ch) s = .next ((List.range (16 * s.pkgs)).foldl (fun s d => s.sendPacket 3 (32 * ch.val + d) 0 0 0 none)
      (s.modPatrol (fun p => { p with alerts := ch.val :: p.alerts.filter (· != ch.val) }))))
    -- it stays low past its limit: the channel fails
    ∧ (∀ ch : ChanNo, ch.val ∈ s.patrol.alerts → exec (.alertStuckTimeout ch) s
        = .next ((s.modPatrol (fun p => { p with alerts := p.alerts.filter (· != ch.val) })).chanFail ch.val).wavesEnd)
    -- a die does not answer
    ∧ (∀ (ch : ChanNo) (pos : DiePos), exec (.mediaNoAnswerTimeout ch pos) s = .next (s.unanswered (32 * ch.val + pos.val)).wavesEnd)
    -- a retrain ends: passed, its failures in a row are forgotten; failed, it is tried again, and the third failure fails the channel
    ∧ (∀ ch : ChanNo, ch.val ∈ s.progs.retrain →
        let rest := s.progs.retrain.filter (· != ch.val)
        let n := mget 0 s.patrol.retries ch.val + 1
        let failed : State := { s with progs := { s.progs with retrain := rest }, patrol := { s.patrol with retries := mset 0 s.patrol.retries ch.val n } }
        let passed : State := { s with progs := { s.progs with retrain := rest }, patrol := { s.patrol with retries := mset 0 s.patrol.retries ch.val 0 } }
        -- what waited for the channel goes on
        exec (.channelRetrainEnd ch true) s = .next passed.releaseHolds.resumePaused.retrainGo.patrolMore
        ∧ (3 ≤ n → exec (.channelRetrainEnd ch false) s
            = .next (failed.chanFail ch.val).wavesEnd.releaseHolds.resumePaused.retrainGo.patrolMore)
        ∧ (n < 3 → exec (.channelRetrainEnd ch false) s
            = .next (({ failed with progs := { failed.progs with retrain := rest ++ [ch.val] } } : State).count 9 7 1)))
    ∧ (∀ ds : DieSet, exec (.rebuildTick ds) s = .next (s.rebuildStep ds.val))
    -- the patrol reads a die set's next tile, unless a drydown is under way
    ∧ (∀ ds : DieSet, s.map.loaded = true → s.setPresent ds.val = true → s.inDrydown = false →
        exec (.patrolAdvance ds) s = .next (s.patrolTile ds.val))
    -- an accelerated pass over every die set ends and ACCEL is cleared
    ∧ (s.patrol.accelOn = true → (∀ d, d < 96 → s.setPresent d = true → s.patrolSeek d true (mget 0 s.patrol.accel d) (slotsPerSet + 1) = none) →
        exec .accelPassEnd s
          = .next ((s.modPatrol (fun p => { p with accelOn := false, accel := [] })).setF Reg.PATROL_STAT.ACCEL 0))
    -- a calibration pass gives each age bucket read its new entry, in force from the next slot boundary
    ∧ (∀ sums : List CalSum, s.flag Reg.RP_CONFIG.AUTO_CAL = true ∨ s.getF Reg.RP_STATUS.CAL_BUSY ≠ 0 →
        let new := sums.map (fun c => (256 * c.group.val + 8 * c.age.val + s.tempBucket c.group.val,
          calEntry (s.gravEntry c.group.val c.age.val (s.tempBucket c.group.val)) c.below c.base c.above))
        exec (.calibrationPass sums) s = .next ((s.modReads (fun r => { r with gravNext := r.gravNext ++ new })).setF Reg.RP_STATUS.CAL_BUSY 0))

/-- Fabric time follows its sources and its boundaries. Rules: R149, R161, R187, R311, R312, R313, R314, R316, R318, R320, R321, R324, R347,
R353, R460, R464. -/
def Obligations.TimeEventsTakeEffect : Prop :=
  ∀ s : State,
    -- at a frame boundary the frame's own work is done: maps due come into force, the failures of the frame start anew, movers' halts
    -- are cleared, and every HEAT_DECAY frames the write heat decays
    (let u := if s.ft % 2 ^ 28 = 0 ∧ s.time.frameDone ≠ s.ft / 2 ^ 28 then s else s.passTo ((s.ft / 2 ^ 28 + 1) * 2 ^ 28)
     let u := u.modTime (fun t => { t with frameDone := u.ft / 2 ^ 28 })
     let u := (u.mapsDue.modPatrol (fun p => { p with frameFails := [] })).wearCompute
     let u := ((List.range 128).filter (fun k => u.getF (Reg.MOVER_STAT.HALTS k) != 0)).foldl (fun s k => s.setF (Reg.MOVER_STAT.HALTS k) 0) u
     let u : State := { u with eng := { u.eng with fixed := [] } }
     exec .frameBoundary s = .next (if u.ft / 2 ^ 28 % u.heatDecay = 0 then u.heatWalk else u))
    -- the edge that a held FTCODE word names: the offset is its distance from FT, and with FTSYNC_EN the source is told; a node
    -- of class 3 whose word is traceable clears UNTRACEABLE
    ∧ (∀ next seq trace, s.time.code = some (next, seq, trace) →
        let u : State := { s with time := { s.time with code := none, good := min 3 (s.time.good + 1), ignored := 0 } }
        let u := u.setF Reg.FTSYNC_OFFSET.OFFSET (satOffset ((next : Int) - s.ft))
        let v := if u.flag Reg.TIME_CFG.FTSYNC_EN then u.sourceOffset 3 ((next : Int) - s.ft) else u
        exec .ftsyncEdge s = .next (if trace && v.flag Reg.TIME_CFG.FTSYNC_EN && v.ownClass == 3 then v.setF Reg.TIME_STAT.UNTRACEABLE 0 else v))
    -- an edge that no held word names: the third in a row gives the source up
    ∧ (s.time.code = none →
        let n := s.time.ignored + 1
        let u : State := { s with time := { s.time with ignored := n, good := if 3 ≤ n ∨ s.time.good < 3 then 0 else s.time.good } }
        exec .ftsyncEdge s = .next (if n = 3 then u.timeChoose else u))
    -- a sound word waits for its edge when its SEQ follows, and a word that is not sound is dropped
    ∧ (∀ word : BitVec 98,
        let d := bitsOf word.toNat 1 96
        let sound := word.getLsbD 0 = false ∧ word.getLsbD 97 = true ∧ bitsOf d 73 7 = 0 ∧ bitsOf d 80 16 = codeCrc d
        (sound → exec (.ftcodeWord word) s = .next { s with time := { s.time with
            lastSeq := some (bitsOf d 64 8),
            code := if (match s.time.lastSeq with | some p => bitsOf d 64 8 == (p + 1) % 256 | none => true)
              then some (bitsOf d 0 64, bitsOf d 64 8, bitAt d 72) else none } })
        ∧ (¬ sound → exec (.ftcodeWord word) s = .next { s with time := { s.time with code := none } }))
    -- the word that names the next slot boundary leaves while SYNC_OUT_EN is set
    ∧ (s.flag Reg.TIME_CFG.SYNC_OUT_EN = true →
        let n := s.ft / 2 ^ 20 + 1
        let d := n * 2 ^ 20 % 2 ^ 64 + n % 256 * 2 ^ 64 + b2n (!s.flag Reg.TIME_STAT.UNTRACEABLE) * 2 ^ 72
        exec .ftcodeOutSend s = .next (s.emit (.ftcode (BitVec.ofNat 98 (2 * (d + codeCrc d * 2 ^ 80) + 2 ^ 97)))))
    -- a PTM dialogue that succeeds gives the source its offset
    ∧ (∀ root : BitVec 64, s.flag Reg.TIME_CFG.PTM_EN = true →
        exec (.ptmResponse true root) s = .next ((s.modTime (fun t => { t with ptmAge := 0 })).sourceOffset 2 ((root.toNat : Int) - s.ft))
        ∧ exec (.ptmResponse false root) s = .next s)
    -- a SYNC frame that its link accepts and that is well formed tells its link's peer: time, grand master, class and steps
    ∧ (∀ (f : Frame) (body : BitVec 256),
        let b := body.toNat
        (s.linkAccept f 5 [3] 2 b).1 = true → bitsOf b 0 4 = 1 → bitsOf b 216 40 = 0 →
        let u := (s.linkAccept f 5 [3] 2 b).2
        let k := f.link.val
        let old := mget {} u.time.links k
        let l := old.heard b u.ftFine.toNat
        let v := (u.modTime (fun t => { t with links := mset {} t.links k l })).timeChoose
        l.peerSeq = bitsOf b 24 16 ∧ l.peerAt = u.ftFine.toNat ∧ l.seen = true ∧ l.gm = bitsOf b 4 12
        ∧ l.gmClass = bitsOf b 16 2 ∧ l.steps = bitsOf b 18 5 ∧ l.locked = bitAt b 23
        ∧ (∀ t e, old.exchange b = some (t, e) → l.theta = t ∧ l.delay = e ∧ l.haveTheta = true)
        -- an exchange: the frame follows the last one heard and answers the last frame sent here
        ∧ (old.seen = true → bitsOf b 24 16 = (old.peerSeq + 1) % 65536 → bitsOf b 40 16 = old.txSeq →
            let away := ((bitsOf b 136 80 : Nat) : Int) - old.txAt
            let back := (old.peerAt : Int) - ((bitsOf b 56 80 : Nat) : Int)
            old.exchange b = some ((away - back) / 2, (back + away) / 2))
        ∧ (v.time.parent ≠ some k ∨ old.exchange b = none → exec (.sync f body) s = .next v)
        ∧ (∀ t e, v.time.parent = some k → old.exchange b = some (t, e) →
            exec (.sync f body) s = .next ((v.setF Reg.TIME_OFFSET.OFFSET (satOffset (t / 65536))).applyOffset t)))
    -- a forward step due takes FT to its slot boundary, counted and told
    ∧ (∀ t, s.time.step = some t → s.ft < t →
        exec .ftStepForward s = .next (((((s.modTime (fun x => { x with step := none })).passTo t).raise Reg.TIME_STAT.STEPPED).count 12 1 1).noteFlag 8))

/-- A cask message that its link and its domain accept takes the effect of its operation. Rules: R329, R337, R339, R341, R342. -/
def Obligations.CaskMessagesTakeEffect : Prop :=
  ∀ (s : State) (f : Frame) (body : BitVec 256) (i : Nat),
    -- a message that its link accepts, from a member that knows the domain as it is known here, taken as kind k
    let b := body.toNat
    let taken := fun (k : Nat) (u : State) => s.caskTake f body k = (some i, u)
    let epoch := bitsOf b 36 48
    (∀ u, taken 1 u → (u.dom i).coord = u.nodeId → exec (.ready f body) s = .next (u.readyAt i f.src epoch))
    ∧ (∀ u, taken 2 u → (u.dom i).coord = f.src → exec (.commit f body) s = .next (u.commitAt i epoch))
    ∧ (∀ u, taken 3 u → (u.dom i).coord = u.nodeId → exec (.caskAck f body) s = .next (u.ackAt i f.src epoch))
    ∧ (∀ u, taken 4 u → (u.dom i).coord = f.src → exec (.release f body) s = .next (u.releaseAt i epoch))
    ∧ (∀ u, taken 5 u → (u.dom i).coord = u.nodeId → (u.dom i).live = true → exec (.earlyReq f body) s = .next (u.earlyAsk i))
    ∧ (∀ u, taken 6 u → (u.dom i).coord = f.src → ∃ t, exec (.early f body) s = .next t
        ∧ t = u.modDom i (fun d => { d with earlyAt := some (bitsOf b 84 44), extra := d.extra ++ [bitsOf b 84 44] })
        ∧ (t.dom i).earlyAt = some (bitsOf b 84 44))
    ∧ (∀ u, taken 7 u → exec (.query f body) s = .next (u.caskSend f.src 8 i (u.dom i).committed 0 0 (u.dom i).released))
    ∧ (∀ u, taken 8 u → exec (.state f body) s = .next (u.stateAt i f.src epoch (bitsOf b 164 48)))
    ∧ (∀ u, taken 9 u → ∃ t, exec (.recover f body) s = .next t ∧ t = u.recoverAt i epoch (some f.src)
        ∧ (t.dom i).state = 3 ∧ (t.dom i).storedTarget = some epoch)
    ∧ (∀ u, taken 10 u → exec (.recoverDone f body) s = .next (u.recovDoneAt i f.src (bitsOf b 160 4)))

/-- A member's own part of a cask: READY, boundaries, spills, the index walk, early boundaries, write-back and the recovery's limit. Rules:
R274, R329, R330, R336, R337, R339, R340, R341, R342, R421, R423. -/
def Obligations.CaskAgentEventsTakeEffect : Prop :=
  ∀ (s : State) (dom : Fin 16),
    let i := dom.val
    let d := s.dom i
    -- READY for the epoch just ended goes to the coordinator once its writes are done
    (d.state = 1 → d.begun = true → d.epoch ≠ 0 → s.locked = true → s.writesDone i = true → ¬ (d.readyAny = true ∧ d.epoch - 1 ≤ d.ready) →
      let u := s.modDom i (fun x => { x with ready := d.epoch - 1, readyAny := true })
      exec (.caskReadySend dom) s = .next (if d.coord = u.nodeId then u.readyAt i u.nodeId (d.epoch - 1)
        else u.caskSend d.coord 1 i (d.epoch - 1) 0 0 0))
    -- the next boundary of a domain is passed
    ∧ (d.state ≠ 0 → exec (.caskBoundary dom) s = .next (s.passTo (d.nextBoundary (s.ft / 2 ^ 20) * 2 ^ 20)))
    -- sixteen records of the undo ring are spilled to the reserve: a descriptor tile and their sixteen images
    ∧ (let ring := s.cask.log.length - s.cask.spilled
       s.spillPct * ringCap < ring * 100 → 16 ≤ ring → s.cask.spilled + 16 ≤ undoCap - ringCap →
       let rs := (s.cask.log.drop s.cask.spilled).take 16
       let u := rs.foldl (fun s r => (s.reserveProg .undo 3 r.data 0).2) (s.reserveProg .undo 3 (undoDescs rs) 0).2
       exec .undoSpill s = .next (({ u with cask := { u.cask with spilled := u.cask.spilled + 16 } } : State).count 12 5 16).pump)
    -- the index walk drops the entries of past epochs and counts itself
    ∧ (∃ t, exec .undoIndexWalk s = .next t ∧ t = { s with cask := { s.cask with walks := s.cask.walks + 1, idx := t.cask.idx } }
        ∧ ∀ k l, (k, l) ∈ t.cask.idx → l ≠ [] ∧ ∀ e ∈ l, e.epoch = (s.dom e.dom).epoch % 65536)
    -- the undo log passes the early threshold: the coordinator places an early boundary, or is asked for one, once
    ∧ (d.live = true → d.earlySent = false → s.earlyPct * undoCap ≤ s.cask.log.length * 100 →
        let u := s.modDom i (fun d => { d with earlySent := true })
        exec (.earlyThreshold dom) s = .next (if d.coord = u.nodeId then u.earlyAsk i else u.caskSend d.coord 5 i 0 0 0 0))
    -- the images of a recovery are back: the records above the target written newest first, the domain's records freed, the domain
    -- at rest until its next boundary, and the member that asked told, or this node's own part counted
    ∧ (∀ r t, d.recov = some r → r.target = some t → d.state = 3 → d.resting = false →
        let back := (s.cask.log.filter (fun x => x.dom == i && decide (t < x.epoch))).reverse
        let u := (back.foldl (fun s x => s.writeTile x.ltn x.data x.poison) s).freeRecords (fun x => x.dom == i)
        let result := b2n (u.fabric.mirrors.any (fun (_, m) => m.state == 4))
        let v := u.modDom i (fun d => { d with resting := true, storedTarget := none, logFull := false })
        (v.dom i).resting = true ∧ (v.dom i).storedTarget = none ∧
        exec (.caskWritebackEnd dom) s = .next (match r.askedBy with
          | some n => ((v.modDom i (fun d => { d with recov := none })).caskSend n 10 i 0 0 result 0).pump
          | none => if r.src.isNone then (v.modDom i (fun d => { d with recov := none })).pump else (v.recovDoneAt i v.nodeId result).pump))
    -- members that do not answer a recovery in time are left behind: the target is that of the members that did
    ∧ (∀ r, d.recov = some r → r.askedBy = none →
        (r.target.isSome = true → exec (.caskRecoverTimeout dom) s = .next (s.recovEnd i true))
        ∧ (r.target = none →
            let t := if r.latest then caskLatest else recoverTo r.states
            exec (.caskRecoverTimeout dom) s = .next (((s.caskSendAll 9 i t 0).recoverAt i t none).recovEnd i true)))

/-- A peer's request for an exported line reaches the home in its line's order; one that no export admits is denied. Rules: R269, R272, R274. -/
def Obligations.PeerRequestsReachTheHome : Prop :=
  ∀ (s u : State) (f : Frame) (m : CohMsg) (opc : Nat),
    -- a COH message that its link accepts, for a line of this home that the node may have
    s.cohTake f m opc = (true, u) → u.peerDup m.src m.tid m.line = none → u.rehome 0xFFF m.line = m.line →
    -- it becomes a request in its line's order, which the home then serves; the counters alone change on the way
    let served := fun (c : Instr) (op : ReqOp) (kind : Nat) => u.exported m.src m.line op.write? = true →
      ∃ v r, exec c s = .next ((v.submit r).pump) ∧ (∃ tally, v = { u with tally := tally })
        ∧ r.src = .peer f.link.val m.src m.tid ∧ r.line = m.line ∧ r.op = op ∧ r.kind = kind ∧ r.data = m.data ∧ r.mask = m.mask
        ∧ r.poison = m.poison ∧ r.at_ = u.ft ∧ r.keepE = (decide (opc = 5) && decide (m.grant = 2))
    -- a node that no export admits is denied
    let denied := fun (c : Instr) (op : ReqOp) => u.exported m.src m.line op.write? = false →
      exec c s = .next (u.deny m.src m.tid m.line (!op.write? && decide (opc ≠ 4)))
    (opc = 1 → served (.rdS f m) .rdS 6 ∧ denied (.rdS f m) .rdS)
    ∧ (opc = 2 → served (.rdE f m) .rdA 6 ∧ denied (.rdE f m) .rdA)
    ∧ (opc = 3 → served (.rdNc f m) .rdI 6 ∧ denied (.rdNc f m) .rdI)
    ∧ (opc = 4 → served (.upg f m) .invA 8 ∧ denied (.upg f m) .invA)
    ∧ (opc = 5 → served (.wr f m) (if m.grant = 1 then .wrS else .wrI) 7 ∧ denied (.wr f m) (if m.grant = 1 then .wrS else .wrI))

/-- Snoops of another home reach the local holders, and answers of the fabric close their transactions. Rules: R269, R271, R272, R273, R274,
R275, R276, R342. -/
def Obligations.PeerSnoopsAndAnswersTakeEffect : Prop :=
  ∀ (s u : State) (f : Frame) (m : CohMsg),
    let taken := fun (opc : Nat) => s.cohTake f m opc = (true, u)
    let k := lineKey m.src m.line
    let e := u.dirGet k
    -- a snoop of another home not seen before: the local holders it concerns are snooped, and it is answered once they have answered,
    -- at once when there is none
    let fresh := fun (opc : Nat) => u.keptAnswer m.src m.tid m.line opc = [] ∧ ∀ o ∈ u.home.owed, ¬ (o.key = k ∧ o.opc = opc ∧ o.tid = m.tid)
    let snooped := fun (c : Instr) (opc : Nat) (inv : Bool) =>
      let x := (if inv || e.state == 3 then slotsOf e.sharers else []).foldl (fun (x : List Snoop × State) i =>
        let y := x.2.sendSnoop k { dest := .slot i, inv := inv }
        (x.1 ++ [y.1], y.2)) (([] : List Snoop), u)
      let o : Owed := { key := k, opc := opc, tid := m.tid, aux := m.aux, snoops := x.1 }
      let v : State := { x.2 with home := { x.2.home with owed := x.2.home.owed ++ [o] } }
      exec c s = .next ((if x.1.isEmpty then v.finishOwed o else v).pump)
    (taken 0x10 → fresh 0x10 → snooped (.inv f m) 0x10 true)
    ∧ (taken 0x11 → fresh 0x11 → snooped (.snpS f m) 0x11 false)
    ∧ (taken 0x12 → fresh 0x12 → snooped (.fwdS f m) 0x12 false)
    ∧ (taken 0x13 → fresh 0x13 → snooped (.fwdE f m) 0x13 true)
    -- DATA and CMP for a transaction of this proxy: what they bring is kept, and the transaction ends once both it waits for are here
    ∧ (∀ p, u.proxyOf m = some p →
        let put := fun (q : ProxyTxn) => ({ u with home := { u.home with proxy := lupd (fun x => x == p) (fun _ => q) u.home.proxy } } : State)
        (taken 0x20 →
          let q := { p with gotData := some m.data, poison := m.poison, denied := m.denied, grant := m.grant, nc := m.f 95 1 == 1 }
          exec (.data f m) s = .next (if m.f 96 1 = 1 ∧ p.gotCmp = false then put q else (put q).proxyFinish q))
        ∧ (taken 0x21 → p.gotData = none →
            let q := { p with gotCmp := true, denied := m.denied, grant := m.grant }
            exec (.cmp f m) s = .next (if p.opc = 5 ∨ (p.opc = 4 ∧ (u.dirGet p.line).state ≠ 0) ∨ m.denied = true then (put q).proxyFinish q else put q))
        ∧ (taken 0x21 → p.gotData.isSome = true →
            exec (.cmp f m) s = .next ((put { p with gotCmp := true }).proxyFinish { p with gotCmp := true })))
    -- a peer answers a snoop of this home: the directory shows what it kept, what it brought is placed, the snoop is off the list
    ∧ (∀ a, taken 0x22 → u.home.act.find? (fun a => a.snoopKey == m.line && a.snoops.any (fun n => n.dest == .peer m.src)) = some a →
        let inv := a.snoops.any (fun n => n.dest == .peer m.src && n.inv)
        let gotS := decide (1 ≤ m.grant) && !inv
        let v := u.unsend (fun x => x.type == 3 && x.dst == m.src && bitsOf x.hdr.toNat 54 39 == m.line
          && (x.hdr.toNat % 64 == 0x10 || x.hdr.toNat % 64 == 0x11))
        let e := v.dirGet m.line
        let v := v.dirPut m.line (if gotS then e.share (.peer m.src) else e.drop (.peer m.src))
        let v := if gotS then v else v.count 5 2 1
        let v := match m.body with
          | some d => v.placeWriteback a.id m.line d m.poison
          | none => v
        let v := v.modAct a.id (fun a => { a with snoops := ldrop (fun n => n.dest == .peer m.src) a.snoops })
        exec (.snpRsp f m) s = .next (v.snoopsDone a.id).pump)
    -- FWD_ACK with STALE: counted, the owner leaves the directory, and the home answers from its own copy
    ∧ (∀ a, taken 0x23 → u.home.act.find? (fun a => a.phase == .fwd && a.req.line == m.line) = some a → m.f 97 1 = 1 →
        let v := (u.unsend (fun x => x.type == 3 && x.dst == m.src && bitsOf x.hdr.toNat 54 39 == m.line
          && (x.hdr.toNat % 64 == 0x12 || x.hdr.toNat % 64 == 0x13))).count 5 6 1
        let v := v.dirPut m.line ((v.dirGet m.line).drop (.peer m.src))
        exec (.fwdAck f m) s = .next (((v.modAct a.id (fun a => { a with phase := .snoop })).grantStage a.id).pump))
    -- the requester has taken its answer
    ∧ (∀ a, taken 0x24 →
        let v := u.modFabric (fun x => { x with sent := x.sent.filter (fun y => !(y.type == 3 && y.dst == m.src
          && (y.hdr.toNat % 64 == 0x20 || y.hdr.toNat % 64 == 0x21) && bitsOf y.hdr.toNat 42 12 == m.tid && bitsOf y.hdr.toNat 54 39 == m.line)) })
        v.home.act.find? (fun a => a.req.isPeer m.src m.tid m.line) = some a →
        exec (.ack f m) s = .next ((v.modAct a.id (fun a => { a with wantAck := false })).tryClose a.id).pump)

/-- The mirror side places, reads, discards and copies for its home. Rules: R123, R169, R274, R300, R301, R342. -/
def Obligations.MirrorMessagesTakeEffect : Prop :=
  ∀ (s u : State) (f : Frame) (m : MirMsg),
    let taken := fun (opc : Nat) => s.mirTake f m opc = (true, u)
    let lsn := m.line / 16384
    -- on the mirror side: a write of a copied line becomes a write of the copy's own line, in that line's order
    (∀ k e, taken 0x30 → u.mirKept m 0x31 = none → u.copyEntry m.src lsn = some (k, e) → u.mirOpen (.mirror m.src m.tid m.line) = false →
        let r : HReq := { src := .mirror m.src m.tid m.line, op := .wrI, line := m.line - e.homeLsn * 16384 + e.mirrorLsn * 16384,
                          data := m.data.line 0, mask := m.mask, poison := m.poison.getLsbD 0, at_ := u.ft }
        exec (.mwr f m) s = .next (u.submit r).pump)
    -- a read of a copied tile reads the copy's own tile on the medium; one the copy does not hold yet is answered DENIED
    ∧ (∀ k e, taken 0x32 → u.mirKept m 0x33 = none → u.copyEntry m.src lsn = some (k, e) →
        let ltn := m.line / 4 - e.homeLsn * 4096 + e.mirrorLsn * 4096
        let job := (m.src, ltn, 4 * m.tid + b2n (m.trailer.getLsbD 5))
        let v := u.modFabric (fun x => { x with serving := x.serving ++ [job] })
        (e.synced lsn = false → exec (.mrd f m) s = .next (u.mir 0x33 m.src m.tid m.line none 0 16))
        ∧ (e.synced lsn = true → u.fabric.serving.contains job = false → (v.tileNow ltn).2.1 ≠ 15 → (v.entry (ltnSeg ltn)).state ≠ stDiscarded →
            v.regOf (.logical (BitVec.ofNat 37 ltn)) = none → v.regsFree ≠ 0 →
            exec (.mrd f m) s = .next (v.addReg (mkReg (.logical (BitVec.ofNat 37 ltn)) .noFill v.ft))))
    -- a discard of a copied segment becomes a discard of the copy's own segment
    ∧ (∀ k e, taken 0x34 → u.mirKept m 0x35 = none → u.copyEntry m.src (m.line % 2 ^ 25) = some (k, e) →
        let own := m.line % 2 ^ 25 - e.homeLsn + e.mirrorLsn
        let job := (m.src, own, 4 * m.tid + 2)
        u.fabric.serving.contains job = false →
        exec (.mdisc f m) s = .next ((u.modFabric (fun x => { x with serving := x.serving ++ [job] })).discardNow
          .segments false [(own, 1)] none false (2 ^ 22 + own) 0))
    -- a copied tile: its four lines are written in the copy's own segment, and the entry is MIRRORED with the last of them
    ∧ (∀ k e, taken 0x36 → u.mirKept m 0x37 = none → u.copyEntry m.src lsn = some (k, e) → u.mirOpen (.resync m.src m.tid m.line) = false →
        let idx := m.line / 4 - e.homeLsn * 4096
        let v := u.modMirror k (fun e => { e with next := max e.next (idx + 1), state := if idx + 1 = e.count * 4096 then 2 else e.state })
        exec (.rsync f m) s = .next (([0, 1, 2, 3] : List Nat).foldl (fun (t : State) l => t.submit
          { src := .resync m.src m.tid m.line, op := .wrI, line := (e.mirrorLsn * 4096 + idx) * 4 + l, data := m.data.line l,
            mask := BitVec.allOnes 64, poison := m.poison.getLsbD l, at_ := t.ft }) v).pump)

/-- The answers of a mirror end what the home holds for it. Rules: R110, R123, R170, R274, R300, R301, R342, R365, R370, R373, R375, R459. -/
def Obligations.MirrorAnswersTakeEffect : Prop :=
  ∀ (s u : State) (f : Frame) (m : MirMsg),
    let taken := fun (opc : Nat) => s.mirTake f m opc = (true, u)
    -- MCMP: the copy holds the write; it ends here if its tile has been placed meanwhile
    (∀ a, let v := u.mirAnswered m 0x30
      taken 0x31 → v.home.act.find? (fun a => a.wantMirror && a.req.line == m.line && a.id % 4096 == m.tid) = some a →
        let v := (v.modAct a.id (fun a => { a with wantMirror := false })).count 11 7 1
        exec (.mcmp f m) s = .next (if a.phase = .placed then v.writeDone a.id (v.writeGrant a.req) else v).pump)
    -- MDATA: the bounded read of a region whose own copy failed ends with the mirror's tile; DENIED or UNRECOVERED leaves the region's
    -- own fields, and UNRECOVERED asks again without bound
    ∧ (∀ r, let v := (u.mirAnswered m 0x32).modReads (fun x => { x with mrds := x.mrds.erase (m.line / 4, true) })
      taken 0x33 → m.tid % 2 = 0 → (u.mirAnswered m 0x32).reads.mrds.contains (m.line / 4, true) = true →
        v.regOf (.logical (BitVec.ofNat 37 (m.line / 4))) = some r → r.phase = .mirror →
        (m.trailer.getLsbD 4 = false → m.trailer.getLsbD 5 = false →
          exec (.mdata f m) s = .next (v.fillEnd r (.mirror m.data m.poison)))
        ∧ (m.trailer.getLsbD 4 = true ∨ m.trailer.getLsbD 5 = true →
          exec (.mdata f m) s = .next (if m.trailer.getLsbD 5 then (v.readEnd r (.bad false r.fields)).sendMrd (m.line / 4) false
            else v.readEnd r (.bad false r.fields))))
    -- the read without bound writes the tile back, or programs it as lost where the mirror has it no more
    ∧ (let v := (u.mirAnswered m 0x32).modReads (fun x => { x with mrds := x.mrds.erase (m.line / 4, false) })
      taken 0x33 → m.tid % 2 = 1 → (u.mirAnswered m 0x32).reads.mrds.contains (m.line / 4, false) = true →
        exec (.mdata f m) s = .next (if m.trailer.getLsbD 4 || m.trailer.getLsbD 5 then v.lostProgram (m.line / 4)
          else (v.mirrorBack (m.line / 4) m.data m.poison).pump))
    -- MDACK: the mirror has discarded its copy of the segment, for which no discard waits any more
    ∧ (taken 0x35 → exec (.mdack f m) s = .next (((((u.mirAnswered m 0x34).modFabric (fun x => { x with
          mdiscs := x.mdiscs.filter (fun d => d != (m.src, m.line % 2 ^ 25)) })).modMap (fun x => { x with
          discards := x.discards.map (fun d => { d with mirror := d.mirror.filter (· != m.line % 2 ^ 25) }) })).discDone).pump))
    -- RSACK: the tile is copied; the entry is MIRRORED once every tile is
    ∧ (∀ k e, let v := u.mirAnswered m 0x36
      taken 0x37 → v.fabric.mirrors.find? (fun (_, e) => e.role == 0 && e.state == 1 && e.partner == m.src && e.out.contains (m.line / 4)) = some (k, e) →
        exec (.rsack f m) s = .next (v.modMirror k (fun e =>
          if (e.out.filter (· != m.line / 4)).isEmpty ∧ e.count * 4096 ≤ e.next
          then { e with out := e.out.filter (· != m.line / 4), state := 2, next := 0 }
          else { e with out := e.out.filter (· != m.line / 4) })))
    -- a resynchronisation's pacing lets the next tile be read, below all other reads; a tile of a discarded segment is sent as such at once
    ∧ (∀ (k : Fin 256) i, let e : MirrorEnt := mget {} s.fabric.mirrors k.val
      let ltn := e.homeLsn * 4096 + i
      let key : TileRef := .logical (BitVec.ofNat 37 ltn)
      let v := s.modMirror k.val (fun e => { e with next := i + 1, out := e.out ++ [ltn] })
      e.role = 0 → e.state = 1 → s.resyncNext e = some i →
        ((s.entry (ltnSeg ltn)).state = stDiscarded → exec (.resyncTick k) s = .next (v.rsyncRead ltn {}))
        ∧ ((s.entry (ltnSeg ltn)).state ≠ stDiscarded → s.regOf key = none → s.regsFree ≠ 0 → (s.tileProgs ltn).any (·.granted) = false →
            exec (.resyncTick k) s = .next (v.addReg { mkReg key .resync s.ft with
              phase := .issue, psn := (v.entry (ltnSeg ltn)).psn, job := k.val })))

/-- Handshake, HELLO, LSA, NULL and management frames take their effect on a link that accepts them. Rules: R222, R282, R284, R288, R299,
R302, R304, R305, R423. -/
def Obligations.FrameMessagesTakeEffect : Prop :=
  ∀ (s u : State) (f : Frame),
    let k := f.link.val
    -- OFFER of version 1: a handshake is under way at this link, and once both offers are known the device's proof is sent; another
    -- version ends it with ABORT 3
    (∀ b, s.hsTake f 9 b.bytes = (true, u) →
        let v := (if (u.link k).hs.isSome then u else u.startHs k ((u.link k).keyed)).modHs k (fun h => { h with peer := some b })
        (b.version = 1 → exec (.offer f b) s = .next (match (v.link k).hs.bind Handshake.transcript with
          | some t => v.sendProof k t
          | none => v))
        ∧ (b.version ≠ 1 → exec (.offer f b) s = .next (u.abortHs k 3)))
    -- a part of the peer's PROOF is kept; the last one lets the proof be checked, and a good one is confirmed with sequence numbers
    -- that start again, a bad one ends the handshake
    ∧ (∀ b h, let head : List Byte := [2#8, b.frag, b.count, BitVec.ofNat 8 (b.part.length / 256), BitVec.ofNat 8 b.part.length]
        s.hsTake f (1 + (b.part.length + 15) / 16) (head ++ List.replicate 11 0#8 ++ b.part) = (true, u) → (u.link k).hs = some h →
        h.confirmed = false → b.frag.toNat < b.count.toNat → b.count.toNat ≤ 32 → b.part.length ≤ 272 →
        let fr := (h.frags.filter (fun x => x.1 != b.frag.toNat)) ++ [(b.frag.toNat, b.part)]
        let v := u.modHs k (fun h => { h with frags := fr })
        let d := (List.range b.count.toNat).flatMap (fun i => ((fr.find? (fun x => x.1 == i)).map (·.2)).getD [])
        (fr.length < b.count.toNat → exec (.proof f b) s = .next v)
        ∧ (∀ t, b.count.toNat ≤ fr.length → h.transcript = some t →
            (Config.proofCheck d t = 0 →
              let w := ((v.modHs k (fun h => { h with confirmed := true })).modLink k (fun l => { l with txSeq := 0, frames := 0 })).sendHs k
                (3#8 :: List.replicate 15 0#8)
              exec (.proof f b) s = .next (if h.gotConfirm then
                  let x := w.modLink k (fun l => { l with keyed := true, hs := none, keySlots := 0 })
                  if h.renewal then x else x.sendHello k
                else w))
            ∧ (Config.proofCheck d t ≠ 0 → exec (.proof f b) s = .next (v.abortHs k (if Config.proofCheck d t = 1 then 1 else 2)))))
    -- the peer's CONFIRM under the new keys: with the device's own confirmation sent the link carries its new keys, and after a first
    -- handshake HELLO
    ∧ (∀ h, (s.link k).hs = some h → h.peer.isSome = true → f.hf 24 4 = 2 → f.hf 28 3 = 4 → f.hf 48 16 = 0 → f.tagOk = true →
        let v := (s.modLink k (fun l => { l with rxSeq := 1 })).count 11 1 48
        exec (.confirm f) s = .next (if h.confirmed then
            let x := v.modLink k (fun l => { l with keyed := true, hs := none, keySlots := 0 })
            if h.renewal then x else x.sendHello k
          else v.modHs k (fun h => { h with gotConfirm := true })))
    -- ABORT takes the link DOWN
    ∧ (∀ r, s.hsTake f 1 [4#8, r] = (true, u) → exec (.abort f r) s = .next (u.linkDown k))
    -- HELLO: what stands in it is the link's neighbour; the first one on a keyed link brings the link UP, and the device floods its own
    -- link state and sends what it knows of the others
    ∧ (∀ b, s.linkAccept f 0 [4] 1 (b.node.toNat + b.uid.toNat * 2 ^ 12 + b.view.toNat * 2 ^ 76 + b.ownLink.val * 2 ^ 108
          + b2n b.leaving * 2 ^ 111) = (true, u) →
        let st := u.getF (Reg.DF_LINK.STATE k)
        ¬ (st = 2 ∧ (u.link k).keyed = false) →
        let v := ((u.setF (Reg.DF_LINK.NEIGHBOUR k) b.node.toNat).setF (Reg.DF_LINK.NEIGH_LINK k) b.ownLink.val).modLink k
          (fun l => { l with neighUid := b.uid.toNat })
        let w := (v.setF (Reg.DF_LINK.STATE k) 3).floodLsa
        exec (.hello f b) s = .next (if b.uid ≠ Config.uid ∧ st = 2 then
            ((w.fabric.lsdb.foldl (fun (s : State) a => if a.uid = Config.uid then s else s.sendLink k 0xFFF 1 4 1 a.len a.bits) w).graphCheck).computeRoutes
          else v))
    -- NULL has no effect but its link's own
    ∧ (∀ v b, s.linkAccept f 8 [0, 1, 2, 3, 4] 0 0 = (b, v) → exec (.null f) s = .next v)
    -- a link state newer than the one held replaces it, goes on to the other links, and the routes are found anew; an older one has no
    -- effect
    ∧ (∀ b, s.linkAccept f 1 [4] b.len b.bits = (true, u) →
        let newer := ∀ a, u.fabric.lsdb.find? (fun a => a.uid == b.uid) = some a → 0 < (b.seq - a.seq).toNat ∧ (b.seq - a.seq).toNat < 2 ^ 31
        (b.uid ≠ Config.uid → newer →
          exec (.lsa f b) s = .next ((((u.storeLsa b).sendLsa b (some k)).graphCheck.computeRoutes).redirect.pump))
        ∧ (b.uid = Config.uid ∨ ¬ newer → exec (.lsa f b) s = .next u))
    -- a management packet of another component is kept for the supervisor
    ∧ (∀ p : List Byte, s.linkAccept f 7 [4] ((p.length + 15) / 16) (leNat p) = (true, u) → leAt p 0 1 ≠ 0 ∨ p.length ≠ 16 →
        exec (.mgmt f p) s = .next (u.modFabric (fun x => { x with mgmtIn := x.mgmtIn ++ [(f.src, p)] })))

/-- A Dorosh link trains, secures, renews its keys, replays and goes DOWN. Rules: R221, R222, R282, R287, R288. -/
def Obligations.LinkEventsTakeEffect : Prop :=
  ∀ (s : State) (k : LinkNo),
    let j := k.val
    -- a handshake not done in time ends with ABORT 4
    ((s.link j).hs.isSome = true → exec (.handshakeTimeout k) s = .next (s.abortHs j 4))
    -- the keys of an UP link are renewed after 2^32 frames or 2^26 slots
    ∧ (s.linkUp j = true → (s.link j).hs = none → 2 ^ 32 ≤ (s.link j).frames ∨ 2 ^ 26 ≤ (s.link j).keySlots →
        exec (.keyRenewalDue k) s = .next (s.startHs j true))
    -- sixteen tag failures in a slot take the link DOWN
    ∧ (16 ≤ (s.link j).tagFails → exec (.linkTagFailureLimit k) s = .next (s.linkDown j))
    -- a DOWN link that is enabled and sees a signal trains; trained, it starts a handshake; a failed training takes it DOWN
    ∧ (s.getF (Reg.DF_LINK.STATE j) = 0 → bitAt (s.getF Reg.DF_CONFIG.LINK_EN) j = true → s.host.mailbox = true →
        s.host.refAbsent.getLsbD 4 = false → s.keys.wiped = false →
        exec (.doroshSignalSeen k) s = .next (s.setF (Reg.DF_LINK.STATE j) 1))
    ∧ (s.getF (Reg.DF_LINK.STATE j) = 1 →
        exec (.linkTrained k true) s = .next (((s.setF (Reg.DF_LINK.STATE j) 2).modLink j (fun _ => {})).startHs j false)
        ∧ exec (.linkTrained k false) s = .next (s.linkDown j))
    -- four slots without HELLO take an UP link DOWN; frames not acknowledged in time are sent again
    ∧ (s.linkUp j = true → exec (.helloLoss k) s = .next (s.linkDown j))
    ∧ (s.linkUp j = true → (s.link j).kept ≠ [] → exec (.linkReplayTimeout k) s = .next (s.replay j))
    -- the device floods its own link state every 64 slots
    ∧ (64 ≤ s.fabric.lsaSlots → exec .lsaRefreshDue s = .next s.floodLsa)

/-- A settled view gives IDs and routes; a node declared failed loses its roles. Rules: R277, R289, R290, R302, R303, R340, R342, R547. -/
def Obligations.ViewsAndNodeFailuresTakeEffect : Prop :=
  ∀ (s : State),
    -- a view settles two slots after the last change: every node of it computes the same numbers from the unique numbers; the registers
    -- of the view show it; nodes that came back or left, redirects, routes and messages under way follow
    (s.fabric.settled = false → 2 ≤ s.fabric.quiet →
      let s0 := s.storeLsa s.ownLsa
      let ids := s0.assignIds
      let view := (ids.filter (fun x => x.2 != 0xFFF)).map (fun x => (x.2, BitVec.ofNat 64 x.1))
      let me := ((ids.find? (fun x => x.1 == Config.uid.toNat)).map (·.2)).getD 0xFFF
      let gone := (s0.fabric.view.filter (fun x => !view.contains x)).map (·.1)
      let alone := me == 0xFFF
      let prim := s0.isPrimary (view.map (·.1))
      let s1 := s0.setF Reg.DF_VIEW.VIEW ((s0.getF Reg.DF_VIEW.VIEW + 1) % 2 ^ 32)
      let s1 := (s1.setF Reg.DF_NODE.NODE_ID (if alone then s1.fabric.storedId else me)).setFlag Reg.DF_NODE.ID_VALID (!alone)
      let s1 := (s1.setF Reg.DF_NODE.NODES view.length).setFlag Reg.DF_NODE.PRIMARY prim
      let s1 := s1.modFabric (fun x => { x with
        view := view, settled := true, isolated := alone, storedId := if x.storedId = 0xFFF ∧ !alone then me else x.storedId,
        lastPrimary := if prim then view.map (·.1) else x.lastPrimary,
        absent := gone.foldl (fun m n => if mget 0 m n = 0 then mset 0 m n 1 else m) x.absent })
      let s2 := if alone then (s1.raise Reg.DF_NODE.ID_CONFLICT).event ((mkEv .critical 11 0 .fault).stat Reg.DF_NODE.ID_CONFLICT) none else s1
      let s2 := if s0.flag Reg.DF_NODE.PRIMARY && !prim then s2.event (mkEv .critical 11 0 .changed) none else s2
      let s3 := (s2.fabric.failed.filter (fun n => view.any (fun x => x.1 == n))).foldl (fun (t : State) n => t.nodeBack n) s2
      let s4 := s3.promotedAway.computeRoutes
      let s4 := if gone.isEmpty then s4 else s4.resendAll
      let s4 := s4.fabric.failed.foldl (fun (t : State) n => t.reissue n true) s4
      exec .viewSettle s = .next (if !s0.fabric.view.any (fun x => x.1 == me) && !alone
        then s4.floodLsa.modFabric (fun x => { x with settled := true }) else s4).pump)
    -- the primary part of the fabric declares a node that has been absent long enough, or is leaving, as failed: its frames are dropped
    -- and counted, its lines and copies are given up, mirrors take over, its requests are issued anew, its casks are BROKEN
    ∧ (∀ node : BitVec 12,
        let n := node.toNat
        let lim := if s.getF Reg.DF_CONFIG.NODE_FAIL_SLOTS = 0 ∨ 16 < s.getF Reg.DF_CONFIG.NODE_FAIL_SLOTS then 16
          else s.getF Reg.DF_CONFIG.NODE_FAIL_SLOTS
        s.fabric.failed.contains n = false → n ≠ s.nodeId → s.flag Reg.DF_NODE.PRIMARY = true →
        lim + 1 ≤ mget 0 s.fabric.absent n ∨ (∃ a ∈ s.fabric.lsdb, a.leaving = true ∧ s.uidNode a.uid.toNat = some n) →
        let s0 := s.modFabric (fun x => { x with failed := x.failed ++ [n], quiet := 0, settled := false })
        let s1 := s0.count 11 3 (s0.fabric.held.filter (fun h => h.link.isNone && h.frame.dst == n)).length
        let s1 := (s1.homeFail n).dropHome n
        let s2 := s1.mirrorFail n
        let s2 := if s1.fabric.promos.length < s2.fabric.promos.length then s2.floodLsa else s2
        let s3 := s2.reissue n false
        exec (.nodeFailDeclare node) s = .next (s3.cask.doms.foldl (fun (t : State) (i, d) =>
          if d.state ≠ 0 ∧ d.nodes.contains n then t.modDom i (fun d => { d with state := 4, commitOf := none }) else t) s3).pump)

/-- Windows, intervals, slots and stores end and take effect. Rules: R24, R62, R107, R309, R310, R311, R313, R316, R318, R329, R334, R339,
R340, R344, R353, R387, R393, R451, R477, R482, R483, R484, R486, R492, R499, R500. -/
def Obligations.TimersAndStoresTakeEffect : Prop :=
  ∀ (s : State),
    -- the sampling window ends at its next boundary, and the length asked for is in force after a boundary of that length
    (let past := s.tally.winEnd == s.ft
     let old := nextMultiple s.ft (s.tally.window * 1000000) past
     let new := nextMultiple s.ft (s.windowAsked * 1000000) past
     let u := if min old new = s.ft then s else s.passTo (min old new)
     let v := u.windowEnd u.tally.window
     exec .tallyWindowEnd s = .next (if new ≤ old then v.modTally (fun t => { t with window := v.windowAsked }) else v))
    -- the summary interval ends at its boundary
    ∧ (let at_ := nextMultiple s.ft (s.intervalS * 1000000000) (s.tally.interval.start == s.ft)
       exec .summaryIntervalEnd s = .next ((if at_ = s.ft then s else s.passTo at_).intervalEnd false))
    -- every hour the Power-On Hours advance, and the counters and the gravity tables are checkpointed
    ∧ exec .hourlyCheckpoint s = .next (({ s with weali := { s.weali with hours := (s.weali.hours + 1) % 2 ^ 32 } } : State).counterCheckpoint.gravCheckpoint)
    -- a page write that ends has stored its page; one failed verification is one more write, two are an error and a new page
    ∧ (∀ page : BitVec 17,
        let v := s.pageStored page.toNat
        exec (.wealiPageWriteEnd page false false) s = .next v
        ∧ exec (.wealiPageWriteEnd page false true) s = .next v
        ∧ (∀ b, ∃ w, exec (.wealiPageWriteEnd page true b) s = .next (if b then (w.pageRetire page.toNat).raise Reg.WEALI_STAT.WRITE_ERR else w)
            ∧ ∃ x, w = { (v.pageWrites 1) with weali := { (v.pageWrites 1).weali with writes := x } }))
    -- the store of a write to a persistent register ends, and the register holds what was written
    ∧ (∀ off x, s.regs.stores.find? (fun x => x.off == off.toNat && !x.ready) = some x → exec (.rwpStoreEnd off) s = .next (s.storeDone x))
    -- the sweep reads a page: good, it is not marginal any more; marginal, it is written again, and a second time retired; an
    -- uncorrectable page is retired and counted
    ∧ (∀ page : BitVec 17,
        let p := page.toNat
        let v := ({ s with weali := { s.weali with swept := p + 1 } } : State).setF Reg.WEALI_STAT.SWEEP_PCT (100 * (p + 1) / 131072)
        (∀ m, exec (.wealiSweepTick page m true) s = .next (((v.count 16 7 1).pageRetire p).ringLost (pageRecords p)))
        ∧ exec (.wealiSweepTick page true false) s = .next (if v.weali.differ.contains p then v.pageRetire p
            else (({ v with weali := { v.weali with
              differ := v.weali.differ ++ [p],
              writes := if 256 ≤ p ∧ p < 512 then mmod 0 v.weali.writes p (· + 1) else v.weali.writes } } : State).pageWrites 1).count 16 3 1)
        ∧ exec (.wealiSweepTick page false false) s = .next { v with weali := { v.weali with differ := v.weali.differ.filter (· != p) } })
    -- a slot boundary, the one FT has just reached or else the next: the gravity store falls due, the media are polled, time is sent and
    -- chosen, the cask's store and the thermal work are done, HELLO goes out on every link that is UP, and ages advance
    ∧ (let here := s.ft % 2 ^ 20 = 0 ∧ s.time.slotDone ≠ s.ft / 2 ^ 20
       let u := if here then s else s.passTo ((s.ft / 2 ^ 20 + 1) * 2 ^ 20)
       let u := u.modTime (fun t => { t with slotDone := u.ft / 2 ^ 20, ptmAge := min 17 (t.ptmAge + 1) })
       let u := u.gravDue.slotPolls.sendSyncs.timeChoose.lockStep.stalls.caskStore
       let u := if u.locked then u else (u.count 12 0 1).noteFlag 9
       let u := (u.thermalSlot.modPatrol (fun p => { p with slotRef := [] })).tellAgain.missesEnd.maintSlot
       let u := (List.range 8).foldl (fun (t : State) k => t.setF (Reg.DF_LINK.REPLAYS k) (t.link k).replays) u
       let u := u.upLinks.foldl (fun (t : State) k => t.sendHello k) u
       let u := u.modFabric (fun f => { f with
         quiet := f.quiet + 1, lsaSlots := f.lsaSlots + 1, absent := f.absent.map (fun (n, k) => (n, k + 1)),
         links := f.links.map (fun (k, l) => (k, { l with keySlots := l.keySlots + 1, tagFails := 0, replays := 0 })) })
       exec .slotBoundary s = .next (if u.flag Reg.TIME_CFG.SYNC_OUT_EN then u.emit .ftsyncOut else u))

/-- Sensors, caps, temperature limits and the emergency wipe take effect. Rules: R55, R61, R62, R220, R247, R370, R384, R385, R386, R388,
R391, R393. -/
def Obligations.ThermalEventsTakeEffect : Prop :=
  ∀ (s : State),
    -- an emergency wipe; its fill makes the record, and a lost charge makes the shutdown dirty
    (∀ c, exec (.emergencyWipeTrigger c) s = .next (s.wipe c))
    ∧ (s.keys.wiping = true →
        let v := s.wipeFill
        let v := ({ v with weali := { v.weali with wipe := some (v.getF Reg.CIPHER_STATUS.WIPE_CAUSE, s.charge) } } : State).pageWrites 1
        let v := if s.charge = 0 then v else v.dirtyShutdown
        let e := { mkEv .fatal 10 0 .lost with detail := [v.getF Reg.CIPHER_STATUS.WIPE_CAUSE, s.charge] }
        exec .wipeFillEnd s = .next (v.event (e.stat Reg.CIPHER_STATUS.WIPED) none))
    -- the on-die sensors: excluded ones do not count; outside −45 to 125 °C the keys are wiped; 110 °C three times is the thermal limit
    ∧ (∀ t, let read := (List.range 32).map (fun i => match t[i]? with | some x => x.toInt | none => s.therm.last.getD i 0)
        let v := s.modTherm (fun x => { x with last := read })
        (s.power.seq ≠ .on → exec (.onDieSensorSample t) s = .next v)
        ∧ (s.power.seq = .on →
            let v := v.deviations
            let q := v.validSensors.map (fun i => read.getD i 0)
            let v := (if ∃ x ∈ q, x < -180 ∨ 500 < x then v.wipe .temperature else v).junction
            let v := v.modTherm (fun x => { x with crit := if ∃ x ∈ q, 440 ≤ x then x.crit + 1 else 0 })
            exec (.onDieSensorSample t) s = .next (if 3 ≤ v.therm.crit then v.thermalLimit.pump else v.pump)))
    -- sensors whose self-check fails are excluded
    ∧ (∀ b : BitVec 32, exec (.sensorSelfCheck b) s =
        .next ((s.validSensors.filter (fun i => b.getLsbD i)).foldl (fun (t : State) i => t.excludeSensor i) s))
    -- a remote sensor: off or reserved, nothing; open, its thresholds are not reached; read, it shows the temperature and its thresholds,
    -- warns once, and its critical temperature three times running is the thermal limit where that is enabled
    ∧ (∀ (n : Fin 16) (t : BitVec 12),
        let k := n.val
        let mode := s.getF (Reg.TSNS_CFG.MODE k)
        (∀ o, mode = 0 ∨ mode = 3 → exec (.remoteSensorSample n t o) s = .next s)
        ∧ (mode ≠ 0 → mode ≠ 3 → exec (.remoteSensorSample n t true) s = .next
            ((((s.raise (Reg.TSNS_VAL.OPEN k)).setF (Reg.TSNS_VAL.AT_WARN k) 0).setF (Reg.TSNS_VAL.AT_CRIT k) 0).modTherm
              (fun x => { x with remote := mset 0 x.remote k 0 })))
        ∧ (mode ≠ 0 → mode ≠ 3 →
            let warn := decide (4 * (s.getF (Reg.TSNS_CFG.WARN k) : Int) ≤ t.toInt)
            let crit := decide (4 * (s.remoteCrit k : Int) ≤ t.toInt)
            let v := ((s.setF (Reg.TSNS_VAL.TEMP k) t.toNat).setF (Reg.TSNS_VAL.OPEN k) 0).setFlag (Reg.TSNS_VAL.AT_WARN k) warn
            let v := v.setFlag (Reg.TSNS_VAL.AT_CRIT k) crit
            let v := if warn && !v.therm.warnTold.contains k then
                ((v.modTherm (fun x => { x with warnTold := k :: x.warnTold })).count 15 3 1).event
                  (({ mkEv .warning 15 (32 + k) .limit with detail := [t.toNat] } : EvRec).stat (Reg.TSNS_VAL.AT_WARN k)) none
              else v
            let v := if crit then v.count 15 4 1 else v
            let v := v.modTherm (fun x => { x with remote := mset 0 x.remote k (if crit then mget 0 x.remote k + 1 else 0) })
            let j := mget 0 v.therm.remote k
            exec (.remoteSensorSample n t false) s = .next (
              if j < 3 then v
              else if v.flag Reg.THERM_CFG.REMOTE_CRIT_EN then v.thermalLimit.pump
              else if j = 3 then (v.raise Reg.THERM_STAT.REMOTE_ALERT).event
                (({ mkEv .critical 15 (32 + k) .limit with detail := [t.toNat] } : EvRec).stat Reg.THERM_STAT.REMOTE_ALERT) none
              else v.raise Reg.THERM_STAT.REMOTE_ALERT)))
    -- the time base is compensated by the first valid sensor of its four, the bandgap retrimmed by a valid sensor
    ∧ exec .timebaseCompensate s = .next (s.modTherm (fun x => { x with timebase := [0, 1, 2, 3].find? (fun i => !x.excluded.contains i) }))
    ∧ (s.validSensors = [] → exec .bandgapRetrim s = .next (s.modTherm (fun x => { x with bandgap := none })))
    ∧ (s.validSensors ≠ [] → ∃ i ∈ s.validSensors, ∃ v, exec .bandgapRetrim s = .next (v.count 15 7 1)
        ∧ v = { s with free := s.free + 1, therm := { s.therm with bandgap := some i } })
    -- the media's temperatures and identities, where the packet answers with good framing
    ∧ (∀ (ch : ChanNo) (pkg : Fin 2) (bits : BitVec 64) (u : State),
        s.responseCheck (32 * ch.val + 16 * pkg.val) 4 (responseOk bits.toNat 8) = (true, u) →
        let q : Int := max (BitVec.ofNat 16 (bitsOf bits.toNat 0 16)).toInt (BitVec.ofNat 16 (bitsOf bits.toNat 16 16)).toInt
        let v := u.modPatrol (fun p => { p with temps := mset 0 p.temps (2 * ch.val + pkg.val) (q + 65536).toNat })
        let v := ((List.range 3).foldl (fun (t : State) g => t.groupReading g) v).throttling
        exec (.tempResponse ch pkg bits) s = .next (if v.medHot && !v.therm.medNow then
            let w := v.modTherm (fun t => { t with medNow := true, medCrit := t.medCrit + 1 })
            if 2 ≤ w.therm.medCrit then w.thermalLimit.pump else w
          else v))
    ∧ (∀ (ch : ChanNo) (pkg : Fin 2) (bits : BitVec 128) (u : State),
        s.responseCheck (32 * ch.val + 16 * pkg.val) 5 (responseOk bits.toNat 16) = (true, u) →
        let v := u.modPatrol (fun p => { p with ident := mset false p.ident (2 * ch.val + pkg.val) (identGood bits.toNat) })
        exec (.identResponse ch pkg bits) s = .next (if v.getF Reg.START_STAT.STAGE = 3 ∧ v.identDone = true then v.setF Reg.START_STAT.STAGE 4 else v))

/-- A lost oscillator, PLL, plane or HBM stack is told once, and losing both halves is below the minimum configuration. Rules: R93, R508,
R510, R511, R512, R513, R514. -/
def Obligations.AvailabilityEventsTakeEffect : Prop :=
  ∀ (s : State),
    -- oscillators: one newly off is a warning and OSC_SINGLE, both are below the minimum configuration; found good at a start they count again
    (∀ a b : Bool,
        let now := BitVec.ofNat 2 (b2n a + 2 * b2n b)
        ((a || b) = true → now &&& ~~~s.avail.oscDown ≠ 0 →
          let v := ((s.modAvail (fun x => { x with oscDown := x.oscDown ||| now })).raise Reg.AVAIL_STAT.OSC_SINGLE).event
            (({ mkEv .warning 12 (b2n b) .fault with detail := [now.toNat] } : EvRec).stat Reg.AVAIL_STAT.OSC_SINGLE) none
          exec (.oscillatorCompare a b) s = .next (if v.avail.oscDown = 3 then v.belowMin else v))
        ∧ ((a || b) = true → now &&& ~~~s.avail.oscDown = 0 → exec (.oscillatorCompare a b) s = .next s)
        ∧ ((a || b) = false → s.power.seq = .on → s.host.memActive = false → s.inDrydown = false → s.power.resuming = false →
          exec (.oscillatorCompare a b) s = .next ((s.modAvail (fun x => { x with oscDown := 0 })).setF Reg.AVAIL_STAT.OSC_SINGLE 0)))
    -- a PLL that loses lock: the other takes over where it was in use; both lost are below the minimum; relocked they both count
    ∧ (∀ p : Fin 2, s.avail.pllDown.getLsbD p.val = false →
        let mine := s.avail.pll == p.val
        let v := (s.modAvail (fun x => { x with
          pllDown := x.pllDown ||| (1#2 <<< p.val), pll := if mine then 1 - x.pll else x.pll })).raise Reg.AVAIL_STAT.PLL_SINGLE
        let v := if mine then v.event (({ mkEv .warning 13 p.val .fault with detail := [p.val] } : EvRec).stat Reg.AVAIL_STAT.PLL_SINGLE) none else v
        exec (.pllLockLoss p) s = .next (if v.avail.pllDown = 3 then v.belowMin else v))
    ∧ (s.avail.pllDown ≠ 0 → s.avail.pllDown ≠ 3 →
        exec .pllRelockStable s = .next ((s.modAvail (fun x => { x with pllDown := 0 })).setF Reg.AVAIL_STAT.PLL_SINGLE 0))
    -- a supervisor plane that fails its self-check is out; both out are below the minimum
    ∧ (∀ p : Fin 2, s.avail.planeDown.getLsbD p.val = false →
        let v := ((s.modAvail (fun x => { x with planeDown := x.planeDown ||| BitVec.ofNat 2 (2 ^ p.val) })).raise Reg.AVAIL_STAT.PLANE_SINGLE).event
          (({ mkEv .warning 13 (2 + p.val) .fault with detail := [p.val] } : EvRec).stat Reg.AVAIL_STAT.PLANE_SINGLE) none
        exec (.planeSelfCheckFail p) s = .next (if v.avail.planeDown = 3 ∧ v.avail.below = false then v.belowMin else v))
    -- a stack that fails is taken out once; its half of the map comes back and what was lost with it is settled
    ∧ (∀ k : Fin 2, exec (.hbmStackFail k) s = .next (if s.avail.stackDown.getLsbD k.val then s else s.stackFail k.val))
    ∧ (s.avail.shareOut = true →
        let v := s.modAvail (fun x => { x with shareOut := false })
        exec .hbmShareRebuilt s = .next ((v.avail.lostLines.filter (fun (t, _) => v.avail.stackDown.getLsbD (ltnSeg t % 2))).foldl
          (fun (s : State) (t, _) => s.lostFix t) v).pump)

/-- Engines, movers, on-die memory tests, retention and patch rounds take their events. Rules: R14, R430, R431, R456, R457, R458, R459, R460,
R462, R464, R466, R469, R470. -/
def Obligations.EngineEventsTakeEffect : Prop :=
  ∀ (s : State),
    -- an engine silent at two checks has failed; of a lockstep pair a miss is a failure at once
    (∀ b : BitVec 64,
        let quiet := (List.range 64).filter (fun e => s.engState e == 0 && decide (s.engRole e < 5) && !b.getLsbD e)
        let v := s.modEng (fun x => { x with missed := quiet.filter (fun e => s.engRole e != 4) })
        let w := (quiet.filter (fun e => s.engRole e != 4 && s.eng.missed.contains e)).foldl (fun (t : State) e => t.engFails e 4) v
        exec (.heartbeatCheck b) s = .next (((quiet.filter (fun e => s.engRole e == 4)).take 1).foldl (fun (t : State) e => t.engFails e 5) w))
    ∧ (∀ e c, exec (.engineFail e c) s = .next (s.engFails e.val (engCode c)))
    -- a spare takes the failed engine's duty over, wakes its scratchpads and replays the ledger
    ∧ (∀ (e : EngineNo) h role duty, s.eng.moves.find? (fun m => m.1 == e.val) = some (h, role, duty) →
        let v := (s.modEng (fun x => { x with moves := x.moves.filter (fun m => m.1 != h) })).setEng h role duty 0
        let v := (v.macroWake (384 + 2 * h)).macroWake (385 + 2 * h)
        exec (.failoverTakeover e) s = .next (v.count 14 1 (v.ledger role duty).length).engSummary)
    -- a mover's descriptor that ends well frees it; one that ends badly counts a halt, and the third takes the mover out
    ∧ (∀ k : Fin 128,
        let v := s.setF (Reg.MOVER_STAT.BUSY k.val) 0
        exec (.moverDescriptorEnd k none) s = .next v
        ∧ (v.flag (Reg.MOVER_STAT.RETIRED k.val) = false → ∀ src,
            let n := v.getF (Reg.MOVER_STAT.HALTS k.val) + 1
            let w := (v.setF (Reg.MOVER_STAT.HALTS k.val) n).count 14 2 1
            let x := match src with
              | .tile ltn l => w.lineUncorrectable ltn.toNat l.val
              | .hostMemory => w.moverFails
              | .scratchpad => ((w.count 14 4 1).macroWord (384 + 2 * w.getF (Reg.MOVER_STAT.OWNER k.val)) 0).moverFails
            let x := x.setF (Reg.MOVER_STAT.HALT k.val) 0
            let y := x.raise (Reg.MOVER_STAT.RETIRED k.val)
            let left := ((List.range 128).filter (fun i => !y.flag (Reg.MOVER_STAT.RETIRED i))).length
            exec (.moverDescriptorEnd k (some src)) s = .next (if n < 3 then x
              else if left < 32 then y.event { mkEv .warning 14 0 .limit with detail := [left] } none else y)))
    -- the background test corrects what it finds in its region and goes on to the next
    ∧ (∀ bad : List (BitVec 14), s.flag Reg.BGT_CFG.BGT_EN = true →
        let m := s.getF Reg.BGT_STAT.MACRO
        let r := s.getF Reg.BGT_STAT.REGION
        let v := (s.eng.words.filter (fun (k, _) => k / 128 == 128 * m + r)).foldl (fun (t : State) (k, _) => t.wordRead m (k % 16384)) s
        let v := (bad.filter (fun w => w.toNat / 128 == r)).foldl (fun (t : State) w => t.macroWord m w.toNat) v
        exec (.bgtRegionTest bad) s = .next (((v.count 14 6 1).count 14 7 (v.getF (Reg.MEM_MACRO.RETAINED m))).bgtStep m r))
    -- an idle macro is retained, and a wake ends that
    ∧ (∀ m : Fin 640,
        (s.flag Reg.RET_CFG.RET_EN = true → s.flag (Reg.MEM_MACRO.OUT m.val) = false → s.mayRetain m.val = true →
          exec (.retentionIdleExpiry m) s = .next (s.raise (Reg.MEM_MACRO.RETAINED m.val)))
        ∧ exec (.macroWakeEnd m) s = .next (if s.flag (Reg.MEM_MACRO.RETAINED m.val) then
            (s.setF (Reg.MEM_MACRO.RETAINED m.val) 0).count 14 7 1 else s))
    -- a patch goes to the engines a round at a time, and ends with the last round
    ∧ (∀ c, s.maint.activating = some c →
        let v := if s.toMove.isEmpty then s else s.sparesLoad.patchRound
        exec .patchRoundEnd s = .next (if v.toMove.isEmpty then v.patchEnd c else v))

/-- The power sequence raises, retries and lowers the rails; cold reset and VIN act on it. Rules: R347, R348, R349, R353, R359, R360, R363,
R366, R369, R370, R379, R380, R390, R510. -/
def Obligations.PowerSequenceEventsTakeEffect : Prop :=
  ∀ (s : State),
    -- VIN good: the rails are raised, or a slave waits for its master; where nothing may start only the bank charges
    (s.mayPowerUp = false → exec .powerUpStart s = .next (s.modPower (fun p => { p with vin := 2 })).chargeNow)
    ∧ (s.mayPowerUp = true → s.seqRole ≠ 2 → exec .powerUpStart s = .next s.powerUp)
    ∧ (s.mayPowerUp = true → s.seqRole = 2 → exec .powerUpStart s =
        .next (s.modPower (fun p => { p with vin := 2, seq := .off, awaitStep1 := true, refAt := s.ft - 50000000 })).chargeNow)
    -- a step completes: its enabled rails are power-good, and the next one begins; a step that does not fails the attempt, and on a slave
    -- waits for the master
    ∧ (s.power.seq = .raising → s.power.stepFailed = false →
        let u := (s.stepRails s.power.step).foldl (fun (t : State) c => if t.flag (Reg.PWR_RAIL.EN c) then t.raise (Reg.PWR_RAIL.PG c) else t) s
        exec .stepComplete s = .next ((u.setF Reg.PWR_STAT.STEP s.power.step).modPower (fun p => { p with seq := .settled })).stepOn)
    ∧ (∀ c : RailNo, s.power.seq = .raising → s.power.stepFailed = false → s.railStep c.val = s.power.step →
        let u := (s.count 13 1 1).setF Reg.PWR_STAT.FAIL_CH c.val
        exec (.stepTimeout c) s = .next (if u.seqRole = 2 then u.modPower (fun p => { p with stepFailed := true }) else u.attemptFailed))
    -- the next attempt after a backoff begins at the first step again
    ∧ (s.power.seq = .backoff → s.seqRole ≠ 2 → s.power.coldLow = false →
        let u := ((s.setF Reg.PWR_STAT.ATTEMPT (s.getF Reg.PWR_STAT.ATTEMPT + 1)).setF Reg.PWR_STAT.STEP 0).count 13 0 1
        exec .retryBackoffExpiry s = .next (match u.nextStep 0 with
          | some k => u.beginStep k
          | none => u.seqComplete))
    -- a reset output is released once its stretch is over
    ∧ (∀ k : Fin 5, s.power.stretch.contains k.val = true →
        exec (.resetStretchExpiry k) s = .next ((s.modPower (fun p => { p with stretch := p.stretch.filter (· != k.val) })).resetOut k.val false))
    -- the rails go down a step at a time, in reverse order; after the last the sequence ends
    ∧ (s.power.seq = .lowering →
        exec .railsOffStep s = .next (if s.lowerTop.raised.isEmpty && s.lowerTop.power.after != .railsOff then s.lowerTop.lowered else s.lowerTop))
    -- after a drydown's last rail the core's state is lost, the record stands, and the device waits for its supply, or is held below its
    -- minimum configuration
    ∧ (∀ d, s.power.dry = some d → s.power.seq = .lowering → s.power.after = .railsOff → s.raised = [] →
        let wait := s.seqRole == 1 && !s.power.slaves.isEmpty
        let u := (((s.coreLost d.flushed).setF Reg.HU_STAT.HOLD 0).setF Reg.DRY_STAT.PHASE 0).setF Reg.START_STAT.STAGE 1
        let u := (u.modPower (fun p => { p with
          dry := none, pfwLow := false, seq := .off, why := if d.cause = 0 then 2 else 1, hot := p.hot || d.cause == 4,
          restart := false, dscDone := false, offWait := wait })).chargeNow
        let u := if wait then u.seqPoll u.seqSlaves else u.seqAll 4 0
        exec .railsOffEnd s = .next (if d.below then
          ((u.modPower (fun p => { p with seq := .held, fell := false })).raise Reg.AVAIL_STAT.BELOW_MIN).event
            ((mkEv .fatal 13 0 .limit).stat Reg.AVAIL_STAT.BELOW_MIN) none
          else u))
    -- COLD_RST_N low: an active device flushes first; the wiped state is cleared otherwise, and the rails go down
    ∧ (let u := s.modPower (fun p => { p with coldLow := true })
       let v := u.resetOut 4 true
       (u.inDrydown = true → exec .coldReset s = .next u)
       ∧ (u.inDrydown = false → v.power.seq = .on → v.host.memActive = true → v.keys.wiped = false →
            exec .coldReset s = .next (v.startDry 0 true false).dryCut)
       ∧ (u.inDrydown = false → ¬ (v.power.seq = .on ∧ v.host.memActive = true ∧ v.keys.wiped = false) →
            let w := (v.modPower (fun p => { p with why := 2, dscDone := false })).setF Reg.PWR_STAT.FAILED 0
            let w : State := { w with keys := { w.keys with wiped := false, wipeFilled := false, wiping := false } }
            exec .coldReset s = .next (if w.power.seq = .off ∨ w.power.seq = .held
              then ((w.modPower (fun p => { p with seq := .off })).resetsLow true).setF Reg.START_STAT.STAGE 1
              else w.lowerStart .idle true)))
    ∧ exec .coldResetRelease s = .next (s.modPower (fun p => { p with coldLow := false, why := if p.seq == .off then 2 else p.why }))
    -- VIN: its warning is a power failure unless a drydown is already under way, PFW_N is one of another board; good again, it charges the
    -- bank and counts for a resume, lost again it does not
    ∧ (let u := (s.modPower (fun p => { p with vin := 0, fell := p.fell || p.seq == .held })).chargeNow
       (u.power.dry = none → exec .vinWarning s = .next (if u.power.seq = .backoff
          then (u.modPower (fun p => { p with why := 1 })).lowerStart .idle true else u.powerFail 1))
       ∧ (∀ d, u.power.dry = some d →
          (u.getF Reg.DRY_STAT.PHASE = 4 → exec .vinWarning s = .next u.railsOff)
          ∧ (u.getF Reg.DRY_STAT.PHASE ≠ 4 → d.reset = false → exec .vinWarning s = .next u)
          ∧ (u.getF Reg.DRY_STAT.PHASE ≠ 4 → d.reset = true →
              let v := u.modDry (fun d => { d with cause := 1, reset := false, noWarm := true })
              let v := ((v.raise Reg.HU_STAT.HOLD).setF Reg.DRY_STAT.CAUSE 1).modPower (fun p => { p with pfwLow := true })
              exec .vinWarning s = .next ((v.count 13 5 1).modInterval (fun i => { i with drydowns := i.drydowns + 1, flags := i.flags ||| 2 })))))
    ∧ exec .pfwNAssert s = .next (s.powerFail 2)
    ∧ exec .vinGoodReturn s = .next (s.modPower (fun p => { p with vin := 2 })).chargeNow
    ∧ exec .vinGoodLoss s = .next (s.modPower (fun p => { p with vin := 1 })).chargeNow

/-- SEQ bus frames reach a slave, replies reach the master, and rail faults and warnings take effect. Rules: R347, R350, R352, R353, R359,
R364, R366. -/
def Obligations.SequencerMessagesTakeEffect : Prop :=
  ∀ (s u : State),
    -- on a slave a frame of the master that its CRC admits: STEP 1 starts a sequence, and another STEP is for a settled slave
    (∀ w : BitVec 40, s.seqTake w.toNat 1 = (true, u) → u.seqRole = 2 →
        let k := bitsOf w.toNat 8 16
        (k ≠ 1 → u.power.seq = .settled → u.power.step < k →
          let v := u.beginStep k
          exec (.step w) s = .next (if (v.stepRails k).isEmpty then (v.setF Reg.PWR_STAT.STEP k).modPower (fun p => { p with seq := .settled }) else v))
        ∧ (k = 1 → u.power.coldLow = false → u.inDrydown = false → u.keys.wiped = false →
            u.power.seq = .off ∨ u.power.seq = .backoff ∨ u.power.seq = .held →
          let again := u.power.seq == .backoff
          let v := if again then u.count 13 0 1 else u.powerInit
          let v := ((v.setF Reg.PWR_STAT.ATTEMPT (if again then u.getF Reg.PWR_STAT.ATTEMPT + 1 else 1)).modPower (fun p => { p with awaitStep1 := false })).beginStep 1
          exec (.step w) s = .next (if (v.stepRails 1).isEmpty then (v.setF Reg.PWR_STAT.STEP 1).modPower (fun p => { p with seq := .settled }) else v)))
    -- POLL is answered with the step reached and the status, and their CRC
    ∧ (∀ w : BitVec 40, s.seqTake w.toNat 2 = (true, u) → u.seqRole = 2 →
        exec (.poll w) s = .next (u.emit (.seqReply (BitVec.ofNat 24 (u.getF Reg.PWR_STAT.STEP * 2 ^ 16 + u.seqStatus * 2 ^ 8
          + crc8 [u.getF Reg.PWR_STAT.STEP, u.seqStatus])))))
    -- ABORT lowers what is raised, OFF holds the board's reset once nothing is, RELEASE completes the sequence, PFW is a power failure
    ∧ (∀ w : BitVec 40, s.seqTake w.toNat 3 = (true, u) → u.seqRole = 2 → u.power.seq = .raising ∨ u.power.seq = .settled →
        exec (.seqAbort w) s = .next (u.lowerStart .retry true))
    ∧ (∀ w : BitVec 40, s.seqTake w.toNat 4 = (true, u) → u.seqRole = 2 → u.raised = [] →
        exec (.off w) s = .next ((u.resetOut 4 true).modPower (fun p => { p with awaitStep1 := true })))
    ∧ (∀ w : BitVec 40, s.seqTake w.toNat 5 = (true, u) → u.seqRole = 2 → u.power.seq = .settled → exec (.seqRelease w) s = .next u.seqComplete)
    ∧ (∀ w : BitVec 40, s.seqTake w.toNat 6 = (true, u) → exec (.pfw w) s = .next (u.powerFail 2))
    -- a slave that has lost its master lowers its rails while a sequence runs, and only says so afterwards
    ∧ (s.seqRole = 2 → s.power.seq = .raising ∨ s.power.seq = .settled →
        exec .seqTimeout s = .next (((s.raise Reg.SEQ_STAT.SEQ_LOST).modPower (fun p => { p with awaitStep1 := true })).lowerStart .idle true))
    ∧ (s.seqRole = 2 → s.power.seq = .on → exec .seqTimeout s = .next (s.event (mkEv .warning 13 0 .protocol) none))
    -- on the master a slave's reply: a bad CRC is polled again; a good one is noted, its failure fails the attempt, and the next step
    -- begins once every board has reached this one
    ∧ (∀ (a : BitVec 6) (r : BitVec 24), s.seqRole = 1 →
        let st := bitsOf r.toNat 16 8
        let b := bitsOf r.toNat 8 8
        (crc8 [st, b] ≠ bitsOf r.toNat 0 8 → exec (.seqPollReply a r) s = .next ((s.raise Reg.SEQ_STAT.CRC_ERR).seqPoll [a.toNat]))
        ∧ (crc8 [st, b] = bitsOf r.toNat 0 8 →
          let v := s.modPower (fun p => { p with slaves := mset none p.slaves a.toNat (some (st, b)) })
          let v := v.setF Reg.SEQ_STAT.SLAVES v.power.slaves.length
          let up := v.power.seq == .raising || v.power.seq == .settled
          exec (.seqPollReply a r) s = .next (
            if up && bitAt b 1 then (v.count 13 1 1).attemptFailed
            else if up then
              (if v.power.step ≤ st ∧ bitAt b 0 = true then (if v.power.seq == .settled then v.stepOn else v) else v.seqPoll [a.toNat])
            else if v.power.offWait then (if v.slavesOff then v.sendOff else if bitAt b 3 then v else v.seqPoll [a.toNat])
            else v)))
    ∧ (s.power.offWait = true → exec .seqOffDeadline s = .next s.sendOff)
    -- a rail that fails on a running device: a drydown where one may start, and while one runs only what the rail carried is lost
    ∧ (∀ c : RailNo, s.power.seq = .on → s.flag (Reg.PWR_RAIL.EN c.val) = true →
        let v := ((s.raise (Reg.PWR_RAIL.FAULT c.val)).setF (Reg.PWR_RAIL.PG c.val) 0).count 13 2 1
        let v := v.event (({ mkEv .critical 13 c.val .fault with detail := [c.val] } : EvRec).stat (Reg.PWR_RAIL.FAULT c.val)) none
        exec (.railFault c) s = .next (if v.mayDry then ((v.startDry 3 false false).railLost c.val).pump
          else if v.inDrydown then (v.railLost c.val).pump else v.powerFail 3))
    ∧ (∀ k : Fin 16, s.power.seq = .on →
        exec (.railWarning k) s = .next (s.event { mkEv .warning 13 k.val .limit with detail := [k.val] } none))

/-- The hold-up bank is measured and tested, and a drydown cuts, flushes, quiesces and resumes. Rules: R26, R122, R153, R354, R355, R356,
R357, R358, R360, R362, R363, R364, R365, R375, R377, R379, R499, R510. -/
def Obligations.HoldUpAndDrydownEventsTakeEffect : Prop :=
  ∀ (s : State),
    -- every budget computation takes a sample of the bank's voltage and computes the budget
    (∀ c : BitVec 21,
        let v := s.huDiv * c.toNat
        let u := (s.modPower (fun p => { p with samples := (v :: p.samples).take 16 })).setF Reg.HU_STAT.VBANK (min 2047 (v / 10000))
        exec (.budgetCompute c) s = .next (u.modInterval (fun i => { i with
          vbankMin := some (match i.vbankMin with | none => v | some x => min x v) })).budgetNow)
    -- the capacitance test: it starts where none runs; settled, the load draws the bank down from V0; discharged, a fall too fast or too
    -- slow is a failure and any other gives the capacitance; the bank is charged again
    ∧ (s.power.test.phase = 0 → s.inDrydown = false → exec .capTestStart s = .next (s.testStart none))
    ∧ (s.power.test.phase = 1 →
        let v0 := s.power.samples.headD 0
        exec .capTestSettled s = .next (s.modPower (fun p => { p with
          capTestPin := true, test := { p.test with phase := 2, v0 := v0, lowered := some (v0 * (100 - s.huDrop) / 100) } })).chargeNow.budgetNow)
    ∧ (s.power.test.phase = 1 → exec .capTestNotCharged s = .next (s.testEnd 4 true))
    ∧ (∀ dt : BitVec 32, s.power.test.phase = 2 → exec (.capTestDischargeEnd dt) s = .next (
        if dt.toNat < 10000 then (s.storeCap 0).testEnd 1 false
        else if 60000000 < dt.toNat then (if 2 ≤ s.power.test.slow then (s.storeCap 0).testEnd 2 false else s.testEnd 2 true)
        else ((s.storeCap (s.capOf dt.toNat)).modPower (fun p => { p with capTestPin := false, test := { p.test with phase := 3, capWas := some (s.getF Reg.HU_CAP.CAP_MF) } })).chargeNow))
    ∧ (s.power.test.phase = 0 → 0 < s.power.test.slow → s.inDrydown = false → exec .capTestRetry s = .next (s.testStart none))
    ∧ (s.power.test.phase = 3 → exec .capRecharged s = .next (s.testEnd 0 false))
    -- a drydown: its cut, the end of its flush once no program is left, an empty bank, the end of its quiesce, a resume
    ∧ (s.getF Reg.DRY_STAT.PHASE = 1 → exec .drydownCut s = .next s.dryCut)
    ∧ (s.getF Reg.DRY_STAT.PHASE = 2 → s.power.dry.any (fun d => d.deadGroups.length == 4) = false → s.keys.wiped = false →
        (∀ p ∈ s.flushLeft, s.flushStuck p = true) → (s.unplaced = true → s.power.dry.all (fun d => d.deadGroups.isEmpty) = false) →
        let num := (s.map.ckpts.filter (·.valid)).foldl (fun a c => max a c.number) 0
        let u := s.modMap (fun m => { m with
          delta := if s.host.memActive || s.power.dry.any (·.below) then some (s.mapImage num m.jseq true) else m.delta })
        exec .flushEnd s = .next (u.quiesce.modDry (fun d => { d with flushed := true })))
    ∧ (s.getF Reg.DRY_STAT.PHASE = 1 ∨ s.getF Reg.DRY_STAT.PHASE = 2 →
        exec .bankLowInFlush s = .next ((s.modDry (fun d => { d with cause := 5, incomplete := true, noWarm := true })).setF Reg.DRY_STAT.CAUSE 5).quiesce)
    ∧ (∀ d, s.power.dry = some d → s.getF Reg.DRY_STAT.PHASE = 3 → d.checkpoint = false →
        (∀ p ∈ s.progs.list, p.phase = .wave → p.pend ≠ [] → d.deadGroups.length = 4) →
        let u := (s.storesEnd.quiesced d).aonPair
        exec .quiesceEnd s = .next (if (d.cause = 1 ∨ d.cause = 2) ∧ d.noWarm = false ∧ u.power.vin = 2 ∧ u.keys.wiped = false
          then u.setF Reg.DRY_STAT.PHASE 4 else u.railsOff))
    ∧ (s.getF Reg.DRY_STAT.PHASE = 4 → s.power.vin = 2 →
        let u := (s.dryRecord { s.power.record with outcome := 3 }).count 13 7 1
        let u := u.modPower (fun p => { p with
          dry := none, pfwLow := false, resuming := true, refAt := s.power.record.ft, dscDone := false,
          stretch := (List.range 4).filter (fun k => decide (50 < u.stretchMs k)) })
        let u := ((u.setF Reg.HU_STAT.HOLD 0).setF Reg.DRY_STAT.PHASE 0).chargeNow
        let u := ((List.range 4).filter (fun k => decide (u.stretchMs k ≤ 50))).foldl (fun (t : State) k => t.resetOut k false) u
        let u := (u.setF Reg.START_STAT.STAGE 4).setF Reg.START_STAT.CAUSE 3
        let u := (u.modFabric (fun f => { f with leaving := false })).modPatrol (fun p => { p with ident := [], trained := false })
        let u := (List.range 8).foldl (fun (t : State) h =>
          if t.headExists h && t.host.perst.getLsbD (h / 2) then t.headResetEnd h else t) u
        exec .resumeHoldExpiry s = .next (((List.range 32).flatMap (fun c => [32 * c, 32 * c + 16])).foldl
          (fun (t : State) d => t.sendPacket 5 d 0 0 0 none) u))

/-- The Kelric commands that read answer their data. Rules: R342, R419, R422, R424, R431. -/
def Obligations.KelricReadsAnswerTheirData : Prop :=
  ∀ (s : State) (c d : KCmd),
    let reads := fun (cmd : Instr) (opc : Nat) (check : KCmd → State → Nat) (eff : CmdSrc → State → State) =>
      s.kReady opc c check d → exec cmd s = .next (eff (s.kBegun opc d).1 (s.kBegun opc d).2)
    let always : KCmd → State → Nat := fun _ _ => kOk
    -- identity: the unique number, the node, the head's LDs, the LD's capacity and the media's geometry
    reads (.identifyK c) 0xC000 always (fun re u =>
      let head := match d.src with
        | .path (.mgmtFm h) => h.val
        | _ => (u.ldAsg (u.theLd d)).head
      let cap := match u.cmdLd d.src with | some ld => u.staticBlocks ld | none => 0
      u.doneData d re u.identifyResult (leBytes Config.uid.toNat 8 ++ leBytes u.nodeId 2 ++ leBytes (u.ldsOf head) 2 ++ leBytes cap 4
        ++ leBytes (u.regView 0x30000) 4 ++ leBytes 0 12))
    -- the cache's budget and charge and, for each LD the sender may see, its share
    ∧ reads (.cacheStatus c) 0xC013 always (fun re u =>
      let charge := u.regView 0x4000C
      let res := u.budget % 2 ^ 27 + u.charge % 2 ^ 27 * 2 ^ 27 + u.waysResult * 2 ^ 54 + bitsOf charge 28 1 * 2 ^ 56
        + bitsOf charge 27 1 * 2 ^ 57 + b2n (!u.cache.jobs.isEmpty) * 2 ^ 58
      let mine := fun n => if fromMgmt d.src || u.cmdLd d.src == some n then u.regView (0x40100 + 4 * n) else 0
      u.doneData d re res (([0x40008, 0x4000C, 0x40014, 0x40004, 0x40030] : List Nat).flatMap (fun o => leBytes (u.regView o) 4)
        ++ (List.range 64).flatMap (fun n => leBytes (mine n) 4)
        ++ ([2, 3, 4, 5] : List Nat).flatMap (fun k => leBytes (u.counter 4 k) 8) ++ leBytes 0 12))
    -- the discards under way and the segments they have still to leave
    ∧ reads (.discardStatus c) 0xC021 always (fun re u =>
      u.doneData d re (min 127 u.map.discards.length + u.map.residue.length % 2 ^ 23 * 2 ^ 7) ((u.map.discards.take 64).flatMap u.discRecord))
    -- a key index: valid, persistent, locked, rotating, its successor, its check value and how many segments name it
    ∧ reads (.keyStatus c) 0xC033 State.keyStatusCheck (fun re u =>
      let k := u.key (d.op 0 3)
      let info := b2n k.valid + 2 * b2n k.persist + 4 * b2n k.locked + 8 * b2n k.rotating + k.succ % 2 ^ 18 * 16
      u.doneData d re (info + k.kcv.toNat * 2 ^ 22)
        (leBytes (u.namesKey (d.op 0 3)).length 4 ++ u.image 0x90008 1 ++ u.image 0x90004 1 ++ leBytes 0 4))
    -- the patrol's place, its passes and drops, and each die's corrected bits
    ∧ reads (.patrolStatus c) 0xC041 always (fun re u =>
      u.doneData d re (bitsOf (u.regView 0x80004) 0 8 + bitsOf (u.regView 0x80004) 9 17 * 2 ^ 8)
        (u.image 0x80000 2 ++ leBytes u.patrol.passes 8 ++ leBytes u.patrol.drops 8
          ++ (List.range 1024).flatMap (fun k => leBytes (mget 0 u.patrol.bits k) 8)))
    -- the spares, the rebuilds and the dies
    ∧ reads (.spareStatus c) 0xC050 always (fun re u =>
      u.doneData d re (bitsOf (u.regView 0x80014) 0 20)
        (u.image 0x80010 2 ++ (List.range 96).flatMap (fun k => u.image (0x30100 + 64 * k) 10) ++ u.image 0x80400 96 ++ u.image 0x81000 1024))
    -- the wear, in the map's own terms and as a histogram
    ∧ reads (.wearReport c) 0xC052 always (fun re u =>
      u.doneData d re (u.getF Reg.MAP_WEAR.WEAR_MIN) (u.image 0x70010 8 ++ u.wearBuckets.flatMap (fun n => leBytes n 8)))
    -- the fabric's registers and the table asked for: nodes, mirrors, exports, imports, or routes
    ∧ reads (.fabricStatus c) 0xC061 (fun c _ => if 4 < c.op 0 1 then kField else kOk) (fun re u =>
      let nodes := sortBy (fun a b => decide (a.1 ≤ b.1)) u.fabric.view
      let all := List.range 256
      let table := match d.op 0 1 with
        | 0 => ((nodes.drop (d.op 4 2)).take 2048).flatMap (fun (n, q) => u.nodeRecord n q)
        | 1 => all.flatMap (fun k => leBytes (mget {} u.fabric.mirrors k : MirrorEnt).bits 16)
        | 2 => all.flatMap (fun k => leBytes (mget {} u.fabric.exports k : ExportEnt).bits 16)
        | 3 => all.flatMap (fun k => leBytes (mget {} u.fabric.imports k : ImportEnt).bits 16)
        | _ => u.image 0xB0200 64
      u.doneData d re (u.getF Reg.DF_NODE.NODES % 2 ^ 13 + u.getF Reg.DF_VIEW.VIEW * 2 ^ 13)
        (u.image 0xC0000 3 ++ u.image 0xC0010 8 ++ table))
    -- FT, its source and quality, and the actions that wait for their time
    ∧ reads (.timeStatus c) 0xC071 always (fun re u =>
      let st := u.regView 0xD0014
      let held := (u.time.actions.take 256).flatMap TimedAct.record
      u.doneData d re (st % 2 ^ 16 + bitsOf st 21 1 * 2 ^ 16 + bitsOf st 24 1 * 2 ^ 17)
        (leBytes u.ft 8 ++ u.image 0xD0008 1 ++ u.image 0xD0010 4 ++ u.image 0xD0200 1 ++ leBytes 0 8
          ++ held ++ leBytes 0 (4096 - held.length)))
    -- one cask domain; asked for all of them, sixteen records, of whose common state the specification says nothing
    ∧ reads (.caskStatus c) 0xC081 (fun c s => if c.op 4 4 ≠ 0 ∧ (s.domOf (c.op 4 4)).isNone then kRange else kOk) (fun re u =>
      let tail := u.image 0xD0380 2
      match u.domOf (d.op 4 4) with
      | some i => u.doneData d re (u.dom i).state ((u.dom i).record ++ tail)
      | none => u.draw.2.doneData d re (u.draw.1 % 16) ((List.range 16).flatMap (fun i => (u.draw.2.dom i).record) ++ tail))
    -- the bank, its charge and its last capacitance test
    ∧ reads (.holdupStatus c) 0xC090 always (fun re u =>
      u.doneData d re u.holdupResult (u.image 0xE0018 3 ++ u.image 0xE0034 3 ++ u.image 0x40008 1
        ++ leBytes (u.power.test.v0 / 10000) 4 ++ leBytes u.power.test.lastAt 8))
    -- the temperatures
    ∧ reads (.thermalStatus c) 0xC0A1 always (fun re u =>
      let st := u.regView 0x20004
      u.doneData d re (bitsOf st 0 16 + bitsOf st 17 6 * 2 ^ 16)
        (u.image 0x20000 2 ++ u.image 0x20010 3 ++ (List.range 32).flatMap u.sensorBytes ++ u.image 0x20100 32
          ++ leBytes u.therm.lastDry 8 ++ leBytes 0 4))
    -- a setting's value; the patch level and the staging
    ∧ reads (.settingRead c) 0xC0E0 State.settingReadCheck (fun re u => u.doneData d re 0 (u.settingValue (d.op 0 2) (d.op 2 2)))
    ∧ reads (.patchStatus c) 0xC0C2 always (fun re u => u.doneData d re u.patchResult [])

/-- The answer of a Kelric command reaches its own queue entry or its own path, with result and data after a success alone. Rules: R396, R403,
R404, R406. -/
def Obligations.KelricAnswersFreeTheirPlace : Prop :=
  ∀ (s : State) (c : KCmd) (re : CmdSrc) (status handle result : Nat) (data : List Byte),
    -- an answer on a queue marks its entry done, with its status, its handle and, after a success alone, its result and data: no other
    -- entry of the queue, no other queue and no other state is touched
    (∀ q cid, re = .queue q cid →
      let ok := status = kOk
      let fin := fun (f : Flight) => { f with
        ran := true, done := true, status := status, handle := handle, result := if ok then result else 0, data := if ok then data else [] }
      s.respond re status handle result data
        = s.modQueue q.val (fun k => { k with flights := lupd (fun f => f.cid == cid.toNat && !f.done) fin k.flights }))
    -- an answer on a path that carried a Kelric command is its mailbox's answer, whose payload holds the status, the handle and the result
    ∧ (∀ p, re = .path p → (mget {} s.host.mbox (pathNo p)).busy = true → 0xC000 ≤ (mget {} s.host.mbox (pathNo p)).opc →
        s.MboxAnswer (s.respond re status handle result data) p (mget {} s.host.mbox (pathNo p)).opc (rcOf status)
          (mboxPayload status handle (if status = kOk then result else 0) (if status = kOk then data else [])))
    -- data that a queue's buffer cannot hold is the status for that
    ∧ (∀ q cid, re = .queue q cid → c.dlen.toNat < data.length → s.doneData c re result data = s.respond re kData 0 0 [])
    ∧ (∀ q cid, re = .queue q cid → data.length ≤ c.dlen.toNat → s.doneData c re result data = s.respond re kOk 0 result data)

/-- The Kelric commands on the cache, discards, keys, the patrol, the schedule and the rebuilds take their effect. Rules: R86, R89, R208,
R211, R212, R274, R324, R419, R420, R421, R422. -/
def Obligations.KelricCacheKeyAndMediaCommandsTakeEffect : Prop :=
  ∀ (s : State) (c d : KCmd),
    let runs := fun (cmd : Instr) (opc : Nat) (check : KCmd → State → Nat) (eff : CmdSrc → State → State) =>
      s.kReady opc c check d → exec cmd s = .next (eff (s.kBegun opc d).1 (s.kBegun opc d).2)
    -- the cache: allocation and prefetch of an LD, the ways, the visitors
    runs (.cacheEnable c) 0xC010 State.cacheEnableCheck (fun re u => match d.op 0 1 with
      | 0 => u.cmdSet [(Reg.LC_LD_CTRL.ALLOC_EN (u.theLd d), 1), (Reg.LC_LD_CTRL.PREFETCH (u.theLd d), d.op 1 1)] re u.waysResult
      | 1 => (u.rwpWrite 0x40004 3 (d.op 1 1) none).wayStart (d.op 1 1) (some re)
      | _ => (u.raise Reg.LC_CONFIG.VISITOR_EN).done re u.waysResult [])
    ∧ runs (.cacheDisable c) 0xC011 State.cacheDisableCheck (fun re u => match d.op 0 1 with
      | 0 => if !u.flag (Reg.LC_LD_CTRL.ALLOC_EN (u.theLd d)) then u.done re u.waysResult []
        else (u.rwpWrite (0x40100 + 4 * u.theLd d) 1 0 none).disableStart (u.theLd d) (some re)
      | 1 => (u.rwpWrite 0x40004 3 (d.op 1 1) none).wayStart (d.op 1 1) (some re)
      | _ => u.visitorOut (some re))
    ∧ runs (.cacheRange c) 0xC012 State.cacheRangeCheck (fun re u =>
      let whole := d.op 1 1 == 1
      let tiles := if whole then [] else (u.rangeRuns (u.theLd d) (d.op 8 8) (d.op 16 8)).getD []
      u.rangeNow { op := rangeOp (d.op 0 1), scopeLd := whole, ld := u.theLd d, tiles := tiles, src := some re })
    -- discards of segments or tiles
    ∧ runs (.discard c) 0xC020 State.discardCheck (fun re u =>
      let tiles := d.op 1 1 == 1
      u.discardNow (if tiles then .tiles else .segments) (u.discSecure (d.op 0 1)) ((u.discRuns (u.theLd d) tiles (d.op 8 8) (d.op 16 4)).getD [])
        (some re) false 0 (d.op 8 8))
    -- keys: load, retire, bind to an LD and have its segments re-keyed
    ∧ runs (.keyLoad c) 0xC030 State.keyLoadCheck (fun re u =>
      match (u.keyLoadStatus (u.cmdLd d.src) (d.op 0 3) (d.op 4 4) (wrappedOf d.data) (keyFrom d)).2 with
      | some root => u.keyLoadGo (d.op 0 3) root (bitAt (d.op 3 1) 0) (keyFrom d) (some re)
      | none => u)
    ∧ runs (.keyRetire c) 0xC031 State.keyRetireCheck (fun re u => u.keyRetireGo (d.op 0 3) (some re))
    ∧ runs (.keyBind c) 0xC032 State.keyBindCheck (fun re u =>
      let v := u.setF (Reg.LD_KEY.KEYIDX (d.op 8 1)) (d.op 0 3)
      if bitAt (d.op 3 1) 0 then (v.rekeyLd (d.op 8 1) (d.op 0 3)).2.done re (v.rekeyLd (d.op 8 1) (d.op 0 3)).1 [] else v.done re 0 [])
    -- the patrol, the schedule of the maintenance map, and the rebuilds
    ∧ runs (.patrolSet c) 0xC040 State.patrolSetCheck (fun re u =>
      (if d.op 6 1 = 1 then u.accelStart else u).cmdSet (maskSet (d.op 0 1) (patrolItems d)) re)
    ∧ runs (.scheduleSet c) 0xC042 State.scheduleSetCheck (fun re u =>
      if d.op 0 1 = 0 then
        let v := (mapOf d.data).zipIdx.foldl (fun (t : State) (w, i) => t.rwpWrite (0xD0100 + 32 * d.op 1 1 + 4 * i) 0xFFFFFFFF w (some re)) u
        ((v.newMap (d.op 1 1) (mapOf d.data) v.nextFrame).mapsDue).cmdStored re 0 []
      else (u.cancelAction (d.op 2 2)).done re 0 [])
    ∧ runs (.rebuildControl c) 0xC051 State.rebuildControlCheck (fun re u => match d.op 0 1 with
      | 0 => u.cmdSet (maskSet (d.op 1 1) (rebuildItems d)) re
      | 1 =>
        let parts := u.patrol.rebuilds.partition (fun b => b.ds == d.op 2 1)
        let v : State := { u with patrol := { u.patrol with rebuilds := parts.1 ++ parts.2 } }
        (v.rebuildPump 96).done re 0 []
      | _ => (u.dieFail (32 * d.op 2 1 + d.op 3 1) 6).wavesEnd.done re 0 [])

/-- The Kelric commands on the fabric, time, casks, power, settings, logs, tests, patches and the lifecycle take their effect. Rules: R219,
R274, R299, R322, R328, R329, R330, R342, R355, R386, R422, R423, R424, R425, R426, R427, R429, R430, R432, R433, R434, R490, R491, R498,
R501, R502, R507. -/
def Obligations.KelricFabricAndSystemCommandsTakeEffect : Prop :=
  ∀ (s : State) (c d : KCmd),
    let runs := fun (cmd : Instr) (opc : Nat) (check : KCmd → State → Nat) (eff : CmdSrc → State → State) =>
      s.kReady opc c check d → exec cmd s = .next (eff (s.kBegun opc d).1 (s.kBegun opc d).2)
    -- the fabric: mirrors, routes, exports and imports, links; the time source; the casks
    runs (.mirrorSet c) 0xC060 State.mirrorSetCheck (fun re u =>
      if d.op 0 1 = 4 then u.cmdSet [(Reg.DF_CONFIG.RESYNC_RATE, d.op 18 2)] re (mget {} u.fabric.mirrors (d.op 1 1) : MirrorEnt).state
      else u.mirrorGo (d.op 0 1) (d.op 1 1) (d.op 4 4) (d.op 8 4) (d.op 12 4) (d.op 16 2) (some re))
    ∧ runs (.fabricRouteSet c) 0xC062 State.routeSetCheck (fun re u => match d.op 0 1 with
      | 0 => (u.pinRoute (d.op 2 2) (d.op 4 1) true).done re 0 []
      | 1 => (u.pinRoute (d.op 2 2) 0 false).done re 0 []
      | 2 => (u.exportAdd (d.op 1 1) (d.op 4 4) (d.op 8 4) (d.op 12 2) (bitAt (d.op 14 1) 0)).done re 0 []
      | 3 => u.exportDel (d.op 1 1) (some re)
      | 4 => (u.importAdd (d.op 1 1) (d.op 2 1) (d.op 3 1) (d.op 4 4) (d.op 8 4) (d.op 16 8)).done re 0 []
      | 5 => (u.importDel (d.op 1 1)).done re 0 []
      | n => u.cmdSet (u.linkEn (d.op 4 1) (n == 6)) re)
    ∧ runs (.timeSourceSet c) 0xC070 State.timeSourceCheck (fun re u =>
      if d.op 3 1 = 1 then u.restep.done re 0 [] else u.cmdSet (maskSet (d.op 0 1) (timeItems d)) re)
    ∧ runs (.caskConfig c) 0xC080 State.caskConfigCheck (fun re u => match d.op 0 1, u.domOf (d.op 4 4) with
      | 0, _ => u.caskCreate (d.op 4 4) (d.op 2 2) (d.op 8 8) (caskNodes d) (BitVec.ofNat 64 (d.op 16 8)) (some re)
      | 1, some i => (u.caskDelete i).done re 0 []
      | _, some i => (u.caskMark i ((d.op 8 8 + 2 ^ 20 - 1) / 2 ^ 20)).done re 0 []
      | _, none => u)
    ∧ runs (.caskRecover c) 0xC082 State.caskRecoverCheck (fun re u => match u.domOf (d.op 4 4) with
      | some i => u.recoverStart i (d.op 0 1 == 0) (some re)
      | none => u)
    -- the capacitance test; the throttling; the settings, the board's bytes among them
    ∧ runs (.holdupTest c) 0xC091 State.holdupTestCheck (fun re u => u.testStart (some re))
    ∧ runs (.throttleSet c) 0xC0A0 State.throttleSetCheck (fun re u => u.cmdSet (maskSet (d.op 0 1) (throttleItems d)) re)
    ∧ runs (.settingWrite c) 0xC0E1 State.settingWriteCheck (fun re u =>
      let id := d.op 0 2
      let n := d.op 2 2
      let v := settingVal d
      if 0x1000 ≤ id ∧ id < 0x1100 then (u.queueWords (id - 0x1000) v).done re 0 []
      else if id = 0x1401 then { u with weali := { u.weali with boardOps := u.weali.boardOps ++ [(4 * n, leBytes v 28, some re)] } }
      else match settingField id, settingReg id n with
        | some (f, _, _), _ => u.cmdSet [(f, v)] re
        | _, some (off, _) => (u.rwpWrite off (settableMask off) v (some re)).cmdStored re 0 []
        | _, _ => u)
    -- the log, the samples and the counters
    ∧ runs (.logSnapshot c) 0xC0F0 State.logSnapshotCheck (fun re u =>
      if d.op 0 1 = 0 then
        let l := (u.tally.sill.recs.filter (fun x => decide (d.op 4 4 ≤ x.1))).take (d.op 8 1)
        u.doneData d re l.length (l.flatMap (fun x => leBytes x.2 256))
      else ((u.sillClear (d.op 12 8)).getD u).done re 0 [])
    ∧ runs (.sampleConfig c) 0xC0F1 State.sampleConfigCheck (fun re u =>
      let v := if d.op 0 1 = 1 then u.sampleDrop
        else (((u.setF Reg.SAMPLE_CTRL.ENABLE (d.op 1 1)).setF Reg.SAMPLE_CTRL.RATE_LOG (d.op 2 1)).setF Reg.SAMPLE_CTRL.LD (d.op 3 1)).sampleEnable
          (u.flag Reg.SAMPLE_CTRL.ENABLE) (d.op 1 1 == 1)
      let n := match re with | .queue _ _ => d.dlen.toNat / 64 | _ => 0
      (v.sampleCopy n).2.done re ((v.sampleCopy n).1.length + (v.sampleCopy n).2.tally.sample.lost * 2 ^ 13)
        ((v.sampleCopy n).1.flatMap (fun r => leBytes r 64)))
    ∧ runs (.counterConfig c) 0xC0F2 State.counterConfigCheck (fun re u =>
      let v := u.setChain (d.op 0 1) (d.op 1 1 / 2) (bitAt (d.op 2 1) 0)
      (if bitAt (d.op 2 1) 1 then v.clearCounter (d.op 0 1) (d.op 1 1) else v).cmdSet (counterItems d) re (u.counter (d.op 0 1) (d.op 1 1)))
    -- self-tests, patches, the life cycle
    ∧ runs (.selfTest c) 0xC0B0 State.selfTestCheck (fun re u =>
      let v := d.op 0 1
      let id := u.maint.nextTest
      let t : SelfTest := { id := id, variant := v, cap := if d.op 1 1 = 0 then 5 else d.op 1 1, scope := if v = 6 then 64 else d.op 4 4,
                            key := u.testKey d.src, state := 1, ft := u.ft, runs := if v = 7 then u.ldRuns (d.op 4 4) (fun b => b.kind == 1) else [] }
      let w := u.modMaint (fun m => { m with tests := m.tests.filter (fun x => x.id != id) ++ [t], nextTest := id % 255 + 1 })
      (if v = 7 then w.testDiscard id (d.op 4 4) false else if v = 4 then w.calStart else w).done re id [])
    ∧ runs (.selfTestStatus c) 0xC0B1 (fun _ _ => kOk) (fun re u => match u.maint.tests.find? (fun t => t.id == d.op 0 1) with
      | none => u.doneData d re 0 []
      | some t0 =>
        let v := if bitAt (d.op 1 1) 0 then u.testAbort t0 else u
        let t := (v.maint.tests.find? (fun t => t.id == d.op 0 1)).getD t0
        let pct := if t.state = 2 then 100 else v.draw.1 % 101
        v.draw.2.doneData d re (t.state + pct * 2 ^ 4 + min t.errors.length (2 ^ 32 - 1) * 2 ^ 11) ((t.errors.take 16).flatMap (testRecord t)))
    ∧ runs (.patchStage c) 0xC0C0 State.patchStageCheck (fun re u => (u.stagePart (d.op 0 1) d.data).2.respond re (u.stagePart (d.op 0 1) d.data).1 0 0 [])
    ∧ runs (.patchActivate c) 0xC0C1 (fun _ s => s.activateStatus) (fun re u => u.activateGo (bitAt (d.op 0 1) 0) re)
    ∧ runs (.lifecycleSet c) 0xC0D0 State.lifecycleSetCheck (fun re u =>
      ({ u with keys := { u.keys with lcWait := some (d.op 0 1, re) } } : State).lcAdvance)

/-- A running self-test ends with its errors, and the earliest timed action is taken at its time. Rules: R325, R326, R327, R342, R425, R427. -/
def Obligations.SelfTestsAndTimedActionsEnd : Prop :=
  ∀ (s : State),
    -- a running self-test ends: its errors and its time are kept, the faults it found are taken out, and the pattern test discards what it covered
    (∀ (id : BitVec 8) errors t, s.maint.tests.find? (fun t => t.id == id.toNat && t.state == 1) = some t →
        let t := { t with errors := t.errors ++ s.loopback t ++ errors, ft := s.ft }
        exec (.selfTestEnd id errors) s = .next (if t.variant = 7 then
          let v := s.modTest t.id (fun _ => { t with disc := some s.map.discNext })
          v.testDiscard t.id t.scope (v.flag Reg.MAP_CONFIG.SECURE_DEFAULT)
        else (s.modTest t.id (fun _ => { t with state := t.final })).testFaults t))
    -- the earliest timed action is taken at its time, or at once where its time is past
    ∧ (∀ a, s.nextAction = some a → s.host.memActive = true →
        exec .timedActionDue s = .next ((if s.ft < a.at_ then s.passTo a.at_ else s).actionRun a))

/-- Queue doorbells, fetches, completions, vectors and bus mastership act on their own queue. Rules: R342, R400, R401, R402, R404, R405, R409,
R434, R436. -/
def Obligations.KelricQueueEventsTakeEffect : Prop :=
  ∀ (s : State),
    -- a doorbell of the queue's own LD: the tail moves on over the entries that wait; a value outside the queue, or one that moves it
    -- back, is the queue's error; it completes nothing else
    (∀ (ld : LdNo) (q : QNo) (val : BitVec 32), s.doorbellOf ld.val q.val = true → (s.queue q.val).state ≠ 3 → val.toNat < 4096 →
        (val.toNat < s.sqSize q.val → s.sqAhead q.val (s.queue q.val).tail ≤ s.sqAhead q.val val.toNat →
          exec (.sqTail ld q val) s = .next (s.modQueue q.val (fun k => { k with tail := val.toNat })))
        ∧ (¬ (val.toNat < s.sqSize q.val ∧ s.sqAhead q.val (s.queue q.val).tail ≤ s.sqAhead q.val val.toNat) →
          exec (.sqTail ld q val) s = .next (s.queueError q.val 1))
        ∧ (val.toNat < s.cqSize q.val →
          let u := s.modQueue q.val (fun k => { k with cqHead := val.toNat })
          exec (.cqHead ld q val) s = .next (u.postHeld q.val (u.queue q.val).flights.length))
        ∧ (s.cqSize q.val ≤ val.toNat → exec (.cqHead ld q val) s = .next (s.queueError q.val 1)))
    -- an LD's doorbell of a queue that is not its own, or that is in error, does nothing
    ∧ (∀ (ld : LdNo) (q : QNo) (val : BitVec 32), s.doorbellOf ld.val q.val = false ∨ (s.queue q.val).state = 3 →
        exec (.sqTail ld q val) s = .next s ∧ exec (.cqHead ld q val) s = .next s)
    -- the queue whose turn it is fetches its next entry, in order; an entry that cannot be read is the queue's error
    ∧ (∀ (q : QNo) left, s.inflight < 1024 → s.keys.lcWait = none → s.fetchTurn = some (q.val, left) →
        let u : State := { s with kelric := { s.kelric with turn := q.val, left := left - 1 } }
        exec (.queueEntryFetch q none) s = .next (u.queueError q.val 2)
        ∧ (∀ e : BitVec 512,
            let st := entryStatus (u.queue q.val) e.toNat
            let f : Flight := { opc := bitsOf e.toNat 0 16, cid := bitsOf e.toNat 16 16, ops := BitVec.ofNat 256 (e.toNat / 2 ^ 256),
                                dptr := bitsOf e.toNat 128 64, dlen := bitsOf e.toNat 192 32,
                                timed := if bitsOf e.toNat 32 1 = 1 then some (bitsOf e.toNat 64 64) else none,
                                fence := bitsOf e.toNat 33 1 == 1, ran := st != kOk, done := st != kOk, status := st }
            exec (.queueEntryFetch q (some e)) s = .next (u.modQueue q.val (fun k => { k with
              head := (k.head + 1) % u.sqSize q.val, flights := k.flights ++ [f] }))))
    -- a command that has ended is posted where its completion queue has room, and waits otherwise; a completion that cannot be written is
    -- the queue's error; a queue in error posts nothing
    ∧ (∀ (q : QNo) (cid : BitVec 16) (ok : Bool) f, (s.queue q.val).flights.find? (fun f => f.done && !f.held && f.cid == cid.toNat) = some f →
        exec (.kelricCommandComplete q cid ok) s = .next (
          if (s.queue q.val).state = 3 then (s.unposted q.val f).lcAdvance
          else if (s.queue q.val).state = 2 ∨ s.cqRoom q.val = false then
            s.modQueue q.val (fun k => { k with flights := lupd (fun g => g == f) (fun g => { g with held := true }) k.flights })
          else if ok then (s.post q.val f).lcAdvance
          else ((s.queueError q.val 3).unposted q.val f).lcAdvance))
    -- a vector signals again after its hold-off where a completion came meanwhile
    ∧ (∀ (ld : LdNo) (v : Fin 64),
        let k := 64 * ld.val + v.val
        let put := fun (x : Bool × Bool) => ({ s with kelric := { s.kelric with vecs := mset (false, false) s.kelric.vecs k x } } : State)
        (mget (false, false) s.kelric.vecs k = (true, true) → exec (.vectorSignalHoldoffEnd ld v) s =
          .next (if mget false s.host.msixMasked ld.val then put (true, false) else (put (true, false)).emit (.msix ld.val v.val)))
        ∧ (mget (false, false) s.kelric.vecs k ≠ (true, true) → exec (.vectorSignalHoldoffEnd ld v) s = .next (put (false, false))))
    -- an LD that loses its bus mastership has its queues paused; with it back they go on and post what they held
    ∧ (∀ ld : LdNo,
        let u := s.modHost (fun x => { x with busMaster := mset false x.busMaster ld.val false })
        exec (.busMasterDisable ld) s = .next ((u.queuesOf ld.val).foldl (fun (t : State) q =>
          t.modQueue q (fun k => { k with state := if k.state = 1 then 2 else k.state })) u))
    ∧ (∀ ld : LdNo,
        let u := s.modHost (fun x => { x with busMaster := mset false x.busMaster ld.val true })
        exec (.busMasterEnable ld) s = .next ((u.queuesOf ld.val).foldl (fun (t : State) q =>
          (t.modQueue q (fun k => { k with state := if k.state = 2 then 1 else k.state })).postHeld q
            ((t.modQueue q (fun k => { k with state := if k.state = 2 then 1 else k.state })).queue q).flights.length) u))

/-- A write of a GO bit with its OP starts exactly the action of that OP. Rules: R86, R87, R169, R172, R174, R185, R208, R212, R224, R294,
R295, R299, R301, R304, R306, R329, R330, R342, R343, R355, R371, R423, R449, R471, R476, R486. -/
def Obligations.GoBitsStartTheirAction : Prop :=
  ∀ (s : State) (req : Requester) (val : BitVec 32),
    -- the word is written with the row's own fields in it, the requester's arming ends, and what GO starts is started
    let go := fun (c : Instr) (off mask set : Nat) (eff : State → State) =>
      let w := setMask val.toNat mask set
      s.mayStore req off w = true →
        w &&& mask = set
        ∧ exec c s = .next (eff ((s.useArm (reqNo req)).2.wordPlain off w 0xFFFFFFFF (s.useArm (reqNo req)).1))
    -- the line cache: clean, invalidate or flush a range
    go (.lcRangeClean req val) 0x40030 0x203 0x201 State.rangeGo
    ∧ go (.lcRangeInvalidate req val) 0x40030 0x203 0x202 State.rangeGo
    ∧ go (.lcRangeFlush req val) 0x40030 0x203 0x203 State.rangeGo
    -- discards of segments and of tiles
    ∧ go (.discSegmentGo req val) 0x7006C 0xC 8 State.discGo
    ∧ go (.discTileGo req val) 0x7006C 0xC 0xC State.discGo
    -- an accelerated patrol pass, unless one runs
    ∧ go (.accelGo req val) 0x80000 0x200000 0x200000 (fun u => if s.patrol.accelOn then u else u.accelStart)
    -- a key loaded, retired, or retired with its segments discarded
    ∧ go (.keyCmdLoad req val) 0x90230 0x700000 0x500000 (fun u => u.keyGo req)
    ∧ go (.keyCmdRetire req val) 0x90230 0x700000 0x600000 (fun u => u.keyGo req)
    ∧ go (.keyCmdRetireErase req val) 0x90230 0x700000 0x700000 (fun u => u.keyGo req)
    -- a mirror paired, unpaired, copied again, or exchanged
    ∧ go (.dfMirrorPair req val) 0xC010C 0x38000000 0x20000000 State.mirrorReg
    ∧ go (.dfMirrorUnpair req val) 0xC010C 0x38000000 0x28000000 State.mirrorReg
    ∧ go (.dfMirrorResync req val) 0xC010C 0x38000000 0x30000000 State.mirrorReg
    ∧ go (.dfMirrorSwap req val) 0xC010C 0x38000000 0x38000000 State.mirrorReg
    -- blocks exported and imported, or no more
    ∧ go (.dfExportAdd req val) 0xC0208 0x30000 0x20000 State.exportReg
    ∧ go (.dfExportDel req val) 0xC0208 0x30000 0x30000 State.exportReg
    ∧ go (.dfImportAdd req val) 0xC030C 0x180 0x100 State.importReg
    ∧ go (.dfImportDel req val) 0xC030C 0x180 0x180 State.importReg
    -- a cask made, deleted, marked, or recovered to its latest or its committed boundary
    ∧ go (.caskCfgCreate req val) 0xD0414 0x78 0x40 State.caskReg
    ∧ go (.caskCfgDelete req val) 0xD0414 0x78 0x48 State.caskReg
    ∧ go (.caskCfgMark req val) 0xD0414 0x78 0x50 State.caskReg
    ∧ go (.caskCfgRecoverLatest req val) 0xD0414 0x78 0x58 State.caskReg
    ∧ go (.caskCfgRecoverCommitted req val) 0xD0414 0x78 0x60 State.caskReg
    -- the capacitance test, unless one runs
    ∧ go (.huTestGo req val) 0xE0020 1 1 (fun u => if u.flag Reg.HU_TEST.BUSY then u else u.testStart none)
    -- one word of an on-die memory written raw, read raw, or read and checked
    ∧ go (.memtestRawWrite req val) 0x14E34 7 5 State.memtestGo
    ∧ go (.memtestRawRead req val) 0x14E34 7 6 State.memtestGo
    ∧ go (.memtestCheckedRead req val) 0x14E34 7 7 State.memtestGo
    -- the board's bytes written and read
    ∧ go (.wealiBoardWrite req val) 0x118 0x380 0x280 (fun u => u.boardGo (u.getF Reg.WEALI_BOARD_CMD.OP))
    ∧ go (.wealiBoardRead req val) 0x118 0x380 0x300 (fun u => u.boardGo (u.getF Reg.WEALI_BOARD_CMD.OP))

/-- Writes with an effect of their own take it: cache allocation and ways, keys, counters, samples, queues, UPDATE. Rules: R65, R88, R90, R91,
R94, R95, R117, R211, R224, R325, R413, R447, R450, R490, R491, R497, R498, R501, R507. -/
def Obligations.SettingWritesTakeEffect : Prop :=
  ∀ (s : State) (req : Requester) (val : BitVec 32),
    let w := val.toNat
    -- the requester's arming ends with the write, and frees a locked field for it
    let u := (s.useArm (reqNo req)).2
    let free := (s.useArm (reqNo req)).1
    -- the cache: an LD's allocation, refused while its lines are being removed; the ways, of which 11b is no setting, nor 00b with a stack lost
    (∀ ld : LdNo, s.mayStore req (0x40100 + 4 * ld.val) w = true →
      exec (.allocEnWrite req ld val) s = .next (if bitAt w 0 = true ∧ u.flag (Reg.LC_LD_CTRL.INV_DONE ld.val) = false
        then u.raise (Reg.LC_LD_CTRL.REFUSED ld.val) else u.wordPlain (0x40100 + 4 * ld.val) w 0xFFFFFFFF free))
    ∧ (s.mayStore req 0x40004 w = true →
        let e := setMask (u.storedWord 0x40004) 0xFFFFFFFF w % 4
        exec (.waysReqWrite req val) s = .next (if e = 3 ∨ (e = 0 ∧ u.avail.stackDown ≠ 0) then u else u.wordPlain 0x40004 w 0xFFFFFFFF free))
    -- gravity tables to be reset, group by group; a link-error injection, not from DEPLOYED on
    ∧ (s.mayStore req 0x5000C w = true → exec (.gravResetGroup req val) s =
        .next (u.modReads (fun r => { r with gravReset := (r.gravReset ++ ([0, 1, 2] : List Nat).filter (fun b => bitAt w b)).eraseDups })))
    ∧ (let x := setMask w 0x40 0x40
       s.mayStore req 0x30010 x = true → exec (.crcInjectArm req val) s = .next (if 2 ≤ u.keys.lifecycle then u else u.wordPlain 0x30010 x 0xFFFFFFFF free))
    -- an LD's key: bound as KEY_BIND binds it, where the key is valid and the word not locked; REKEY queues its segments
    ∧ (∀ ld : LdNo, s.mayStore req (0x90100 + 4 * ld.val) w = true →
      exec (.ldKeyKeyidxWrite req ld val) s = .next (u.ldKeyWrite ld.val w 0xFFFFFFFF free))
    ∧ (∀ ld : LdNo, let x := setMask w 0x40000 0x40000
      s.mayStore req (0x90100 + 4 * ld.val) x = true → exec (.ldKeyRekey req ld val) s = .next (u.ldKeyWrite ld.val x 0xFFFFFFFF free))
    -- a block's counters: the chain of each pair as written, then each counter of CLEAR set to zero
    ∧ (∀ b : Fin 18, s.mayStore req (0x1100 + 4 * b.val) w = true →
      let v := (List.range 4).foldl (fun (t : State) k => if bitAt 0xFFFFFFFF k then t.setChain b.val k (bitAt w k) else t) u
      exec (.cntClear req b val) s = .next ((List.range 8).foldl (fun (t : State) c => if bitAt w (4 + c) then t.clearCounter b.val c else t) v))
    -- the samples: enabled or not, the bank in use closed, the record in front dropped
    ∧ (let sample := fun (x : Nat) =>
         let v := u.wordPlain 0x3800 x 0xFFFFFFFF free
         let v := v.sampleEnable (u.flag Reg.SAMPLE_CTRL.ENABLE) (v.flag Reg.SAMPLE_CTRL.ENABLE)
         let v := if bitAt x 13 then v.sampleShut else v
         if bitAt x 14 then v.sampleDrop else v
       (s.mayStore req 0x3800 w = true → exec (.sampleEnableWrite req val) s = .next (sample w))
       ∧ (s.mayStore req 0x3800 (setMask w 0x2000 0x2000) = true → exec (.sampleClose req val) s = .next (sample (setMask w 0x2000 0x2000)))
       ∧ (s.mayStore req 0x3800 (setMask w 0x4000 0x4000) = true → exec (.dropRest req val) s = .next (sample (setMask w 0x4000 0x4000))))
    -- the sillage up to a record it holds is cleared; of another record the write is an access error
    ∧ (s.mayStore req 0x3024 w = true →
        (∀ t, u.sillClear w = some t → exec (.sillClear req val) s = .next t)
        ∧ (u.sillClear w = none → exec (.sillClear req val) s = .next (u.raise Reg.REG_STATUS.ACCESS_ERR)))
    -- a queue pair is created with what its words hold, and deleted as its FLUSH bit says; any other change waits for its deletion
    ∧ (∀ q : QNo, s.mayStore req (0x10010 + 32 * q.val) (setMask w 0x1000000 0x1000000) = true →
      exec (.kqCreate req q val) s = .next (u.queueWord (0x10010 + 32 * q.val) (setMask w 0x1000000 0x1000000) 0xFFFFFFFF))
    ∧ (∀ q : QNo, s.mayStore req (0x10010 + 32 * q.val) (setMask w 0x1000000 0) = true →
      exec (.kqDelete req q val) s = .next (u.queueWord (0x10010 + 32 * q.val) (setMask w 0x1000000 0) 0xFFFFFFFF))
    -- KEY_LOCK is set for good
    ∧ (let x := setMask (mget 0 s.rsv 0x8) 2 2
       s.mayStore req 0x8 x = true → exec (.keyLockSet req) s = .next (u.wordPlain 0x8 x 0xFFFFFFFF free))
    -- UPDATE: what is staged in the blocks of its mask takes effect now, or at the time in UPDATE_AT, or is dropped
    ∧ (∀ c m x, (c, m, x) ∈ [(Instr.updateApply req val, 0x30000, 0), (.updateTimed req val, 0x30000, 0x10000), (.updateDrop req val, 0x20000, 0x20000)] →
        s.mayStore req 0x20 (setMask w m x) = true →
        let mask := bitsOf (setMask w m x) 0 16
        exec c s = .next (
          if bitAt (setMask w m x) 17 then u.dropStaged mask
          else if (u.stagedIn mask).isEmpty then u
          else if bitAt (setMask w m x) 16 then
            (if u.actionsFull then u.raise Reg.TA_STAT.TA_REFUSED
            else
              let a := u.addAction (u.getF Reg.UPDATE_AT.AT) (.update (u.stagedIn mask))
              (a.2.dropStaged mask).setF Reg.UPDATE_STAT.LAST_HANDLE a.1)
          else (u.dropStaged mask).applyStaged (u.stagedIn mask) false))

/-- BAR2 reads and writes follow size, alignment, requester, alias, latch and snapshot. Rules: R9, R174, R306, R343, R439, R443, R444, R445,
R498. -/
def Obligations.RegisterAccessesTakeEffect : Prop :=
  ∀ (s : State) (req : Requester),
    let n := reqNo req
    -- a whole word written by a requester that may, whose block is served and whose reserved bits stay: the write takes effect
    (∀ (off : BitVec 26) (val : BitVec 64), off.toNat % 4 = 0 → off.toNat < 0x100000 → (regDef off.toNat).isSome = true →
        let w := bitsOf val.toNat 0 32
        s.mayStore req off.toNat w = true →
        exec (.registerWrite req off 4 val) s = .next (s.wordTake req off.toNat w 0xFFFFFFFF))
    -- eight bytes are two such writes, the low word's first
    ∧ (∀ (off : BitVec 26) (val : BitVec 64) t, off.toNat % 8 = 0 → rwpReg (off.toNat + 4) ≠ off.toNat → s.write4 req off.toNat (bitsOf val.toNat 0 32) = some t →
        exec (.registerWrite req off 8 val) s = regRes (t.write4 req (off.toNat + 4) (bitsOf val.toNat 32 32)))
    -- but one store of a persistent register of 64 bits, held whole
    ∧ (∀ (off : BitVec 26) (val : BitVec 64), rwpReg (off.toNat + 4) = off.toNat → s.served off.toNat = true → s.mayWrite req off.toNat = true →
        exec (.registerWrite req off 8 val) s = .next ((s.useArm n).2.rwpWrite off.toNat (2 ^ 64 - 1) val.toNat none))
    -- a write of another size, or not aligned to it, stores nothing and sets ACCESS_ERR
    ∧ (∀ (off : BitVec 26) (size : BitVec 4) (val : BitVec 64), (size ≠ 4 ∧ size ≠ 8) ∨ (size = 4 ∧ off.toNat % 4 ≠ 0) ∨ (size = 8 ∧ off.toNat % 8 ≠ 0) →
        exec (.registerWrite req off size val) s = .next (s.raise Reg.REG_STATUS.ACCESS_ERR))
    -- a write to a word its requester may not write stores nothing and sets WR_DENIED
    ∧ (∀ (off : BitVec 26) (val : BitVec 64), off.toNat % 4 = 0 → off.toNat < 0x100000 → s.served off.toNat = true → s.mayWrite req off.toNat = false →
        exec (.registerWrite req off 4 val) s = .next (s.raise Reg.REG_STATUS.WR_DENIED))
    -- one bit written through its alias: that bit alone
    ∧ (∀ (off : BitVec 26) (val : BitVec 32), 0x2000000 ≤ off.toNat → off.toNat % 4 = 0 →
        let w := (off.toNat - 0x2000000) / 128 * 4
        let bit := (off.toNat - 0x2000000) % 128 / 4
        s.served w = true → s.mayWrite req w = true → (regDef w).isSome = true →
        exec (.bitAliasWrite req off val) s = .next (s.wordTake req w (val.toNat % 2 * 2 ^ bit) (2 ^ bit)))
    -- a read of a word answers it: from the latch of this requester where a read of its low word left it there, and only once
    ∧ (∀ (off : BitVec 26), off.toNat % 4 = 0 → off.toNat < 0x100000 → s.served off.toNat = true → s.hidden req off.toNat = false →
        let held := mget [] s.regs.latch n
        (∀ v, held.find? (fun x => x.1 == off.toNat) = some (off.toNat, v) → exec (.lowWordLatchRead req off) s =
          .next ((s.modRegs (fun r => { r with latch := mset [] r.latch n (held.filter (fun x => x.1 != off.toNat)) })).emit (.regRead n off.toNat 4 v)))
        ∧ (held.find? (fun x => x.1 == off.toNat) = none → off.toNat ≠ 0x380C →
          let u := s.snapshot off.toNat
          exec (.lowWordLatchRead req off) s = .next ((u.takeLatch n off.toNat).emit (.regRead n off.toNat 4 (u.regView off.toNat)))))
    -- a read of the first word of a table's window takes the snapshot of the entry selected
    ∧ (∀ c o, (c, o) ∈ [(Instr.mapWinSnapshot req, 0x70044), (.caskDomSnapshot req, 0xD0304), (.dfWindowSnapshot req .mirror, 0xC0104),
          (.dfWindowSnapshot req .exports, 0xC0204), (.dfWindowSnapshot req .imports, 0xC0304)] →
        s.served o = true → s.hidden req o = false → mget [] s.regs.latch n = [] →
        exec c s = .next (((s.snapshot o).takeLatch n o).emit (.regRead n o 4 ((s.snapshot o).regView o))))
    -- a read of SAMPLE_DATA takes the next word of the record in front
    ∧ (s.served 0x380C = true → s.hidden req 0x380C = false → (mget [] s.regs.latch n).find? (fun x => x.1 == 0x380C) = none →
        exec (.sampleDataRead req) s = .next (s.sampleWord.2.emit (.regRead n 0x380C 4 s.sampleWord.1)))

/-- UNLOCK arms its requester, an arming expires, and the management bus reads and writes BAR2. Rules: R2, R299, R305, R423, R439, R442, R448. -/
def Obligations.UnlockingAndSidebandAccessesTakeEffect : Prop :=
  ∀ (s : State),
    (∀ (req : Requester) (val : BitVec 32),
      -- UNLOCK: the right value arms its requester; a wrong one is counted and disarms it; after sixteen wrong ones nothing arms
      let rest := s.regs.armed.filter (· != reqNo req)
      let key := bitsOf val.toNat 0 16
      (s.mayStore req 0x10 val.toNat = true →
        exec (.unlock req val) s = .next (
          if 16 ≤ s.regs.unlockBad then s
          else if key = 0x7A5E then s.modRegs (fun r => { r with armed := rest ++ [reqNo req] })
          else (s.modRegs (fun r => { r with armed := rest, unlockBad := r.unlockBad + 1 })).raise Reg.REG_STATUS.UNLOCK_BAD))
      -- an arming not used in time is no more
      ∧ exec (.unlockArmExpiry req) s = .next (s.modRegs (fun r => { r with armed := r.armed.filter (· != reqNo req) })))
    -- over the management bus: a read answers the word, a write stores it, and what is neither or lies outside is refused
    ∧ (∀ (op : BitVec 8) (ld : LdNo) (off val : BitVec 32),
      let o := off.toNat
      (2 ^ 26 ≤ o ∨ o % 4 ≠ 0 ∨ (op ≠ 1 ∧ op ≠ 2) →
        exec (.mctpBar2Access op ld off val) s = .next ((s.raise Reg.REG_STATUS.ACCESS_ERR).emit (.mctp 1 none)))
      ∧ (o < 2 ^ 26 → o % 4 = 0 → op = 1 →
        exec (.mctpBar2Access op ld off val) s = .next ((s.read4 .mgmt o).2.emit (.mctp 0 (some (s.read4 .mgmt o).1))))
      ∧ (o < 0x100000 → o % 4 = 0 → op = 2 → (regDef o).isSome = true → s.mayStore .mgmt o val.toNat = true →
        exec (.mctpBar2Access op ld off val) s = .next ((s.wordTake .mgmt o val.toNat 0xFFFFFFFF).emit (.mctp 0 none))))

/-- The start goes from the always-on domain through straps, fill, media, keys and map to the active device. Rules: R55, R63, R90, R138, R146,
R154, R161, R166, R185, R206, R208, R213, R310, R327, R351, R353, R365, R369, R370, R373, R375, R376, R377, R381, R459, R532, R546. -/
def Obligations.StartEventsTakeEffect : Prop :=
  ∀ (s : State),
    -- the always-on domain comes up: what is not stored is lost, FT goes on from what was recorded, and no source is known
    (let down := s.power.seq == .off || s.power.seq == .held || s.power.seq == .backoff
     let u := s.coreLost (down || s.power.dry.any (·.flushed))
     let power : PowerSt := { record := s.power.record, coldLow := s.power.coldLow, failRec := s.power.failRec,
                              hot := s.power.record.cause == 4 && s.power.record.outcome != 2 }
     let v : State := { u with words := aonWords u.words, power := power, therm := {}, avail := {}, ft := u.time.resumed, frac := 0 }
     exec .aonPowerOn s = .next ((v.storesCut s.regs.stores).raise Reg.TIME_STAT.UNTRACEABLE))
    -- the straps give the device's role and slot; a reserved role, or slot 63, is a device alone
    ∧ (∀ (role : BitVec 2) (slot : BitVec 6),
        let u := (s.setF Reg.SEQ_STAT.ROLE (if role = 3 ∨ slot = 63 then 0 else role.toNat)).setF Reg.SEQ_STAT.SLOT slot.toNat
        exec (.strapSample role slot) s = .next (if role = 3
          then u.event { mkEv .warning 13 0 .fault with detail := [3, slot.toNat] } none else u))
    -- the fill ends: engines and units are brought in; with its minimum configuration the device opens its mailboxes and heads and asks
    -- the media who they are
    ∧ (∀ (a : BitVec 2) (b : BitVec 64), s.power.seq = .on → s.getF Reg.START_STAT.STAGE = 2 →
        let u := (((s.setF Reg.START_STAT.STAGE 3).engStart b).unitsAtStart a).budgetAtStart
        (u.avail.below = true → exec (.fillEnd a b) s = .next u)
        ∧ (u.avail.below = false →
          let v := (if u.power.record.outcome = 2 then u.dirtyShutdown else u).modHost (fun h => { h with mailbox := true })
          let v := ((List.range 8).filter (fun h => v.headExists h && v.host.perst.getLsbD (h / 2))).foldl (fun (t : State) h => t.headResetEnd h) v
          let v := v.modPatrol (fun p => { p with ident := [], trained := false })
          exec (.fillEnd a b) s = .next (((List.range 32).flatMap (fun c => [32 * c, 32 * c + 16])).foldl
            (fun (t : State) d => t.sendPacket 5 d 0 0 0 none) v)))
    -- the media are trained: a device without a population takes the one it sees, where that is one of the populations; another fails the
    -- dies that are absent, and a resume ends
    ∧ (∀ (tr : BitVec 32) (again : Bool), s.power.seq = .on → s.inDrydown = false → s.patrol.trained = false →
        s.getF Reg.START_STAT.STAGE = 3 ∨ s.getF Reg.START_STAT.STAGE = 4 → s.host.memActive = false →
        let u := if again then s.raise Reg.START_STAT.MEDIA_RETRY else s
        (∀ k, u.patrol.pop = 0 → u.popSeen = some k → exec (.mediaTrainingDone tr again) s =
          .next ((((u.membersValid k tr).setGeom k).setF Reg.START_STAT.STAGE 4).modPatrol (fun p => { p with trained := true })))
        ∧ (u.patrol.pop = 0 → u.popSeen = none →
          let seen := (List.range 64).foldl (fun a i => if mget false u.patrol.ident i then a + 2 ^ i else a) 0
          exec (.mediaTrainingDone tr again) s = .next ((u.raise Reg.START_STAT.POP_REFUSED).emit (.population (BitVec.ofNat 64 seen))))
        ∧ (u.patrol.pop ≠ 0 →
          let v := ((u.modPatrol (fun p => { p with trained := true })).membersValid u.patrol.pop tr).absentFail tr
          let v := (v.setGeom v.patrol.pop).setF Reg.START_STAT.STAGE 4
          exec (.mediaTrainingDone tr again) s = .next (if v.power.resuming then v.resumeEnd else v)))
    -- the keys are set up; a device that has not been formatted begins its first format outside MANUFACTURE
    ∧ (s.power.seq = .on → s.inDrydown = false → s.patrol.trained = true → s.getF Reg.START_STAT.STAGE = 4 → s.power.resuming = false →
        let u := (s.setF Reg.START_STAT.STAGE 5).keysRestore
        (u.patrol.pop ≠ 0 ∨ u.keys.lifecycle = 0 ∨ u.keys.fuse = true → exec .keySetupEnd s = .next u)
        ∧ (u.patrol.pop = 0 → u.keys.lifecycle ≠ 0 → u.keys.fuse = false →
          let v := u.modPatrol (fun p => { p with pop := u.getF Reg.MEDIA_GEOM.PKG_PER_CH })
          let v := (v.pageWrites 1).modPower (fun p => { p with formatting := true })
          exec .keySetupEnd s = .next ((v.setF Reg.START_STAT.STAGE 6).setF Reg.START_STAT.CAUSE 4)))
    -- the map is loaded and the device is active: copies undone, re-keys and a recovery taken up, the cache's marks set, and actions whose
    -- time has passed are taken
    ∧ (s.power.seq = .on → s.inDrydown = false → s.getF Reg.START_STAT.STAGE = 5 → s.patrol.pop ≠ 0 → s.keys.fuse = false →
        let u := s.mapRead.1.1.foldl (fun (t : State) c => t.undoCopy c) s.mapRead.2
        let u := (u.rekeysBack s.mapRead.1.2).storedRecovery
        let u := u.map.spill.foldl (fun (t : State) x => t.spillBack x) u
        let u := u.modMap (fun m => { m with ckptLast := u.ft / 2 ^ 20 })
        let u := (List.range 64).foldl (fun (t : State) k => t.raise (Reg.LC_LD_CTRL.INV_DONE k)) u
        let u := ((u.setF Reg.START_STAT.STAGE 6).wearCompute.upkeepStart).activate
        let u := if s.power.record.outcome = 1 ∨ s.power.record.outcome = 2 then u.accelStart else u
        exec .mapLoadEnd s = .next (u.lateActions u.time.actions.length))
    -- the first format: every persistent register at its first value, the first checkpoint, and the device is active
    ∧ (s.power.seq = .on → s.inDrydown = false → s.power.formatting = true →
        let u : State := { s with words := formatWords s.words, host := { s.host with archived := [] }, weali := { s.weali with rings := [] } }
        let u := u.modReads (fun r => { r with gravStored := [], gravNext := [], cal := [] })
        let first : MapImage := { number := 1, valid := true }
        let u := u.modMap (fun m => { formats := m.formats + 1, ckpts := [first], loaded := true })
        exec .firstFormatEnd s = .next (((List.range 64).foldl (fun (t : State) k => t.raise (Reg.LC_LD_CTRL.INV_DONE k)) u).wearCompute.activate))

/-- A write credit is granted to a head only while charge and credits leave room for it in the budget. Rules: R84, R139. -/
def Obligations.CreditIsGrantedWithinTheBudget : Prop :=
  ∀ (s t : State) (h : HeadNo), exec (.writeCreditGrant (.head h)) s = .next t → s.keys.wipeFilled = false →
    (mget {} t.host.heads h.val).rwdOut ≠ (mget {} s.host.heads h.val).rwdOut →
    (mget {} t.host.heads h.val).rwdOut = (mget {} s.host.heads h.val).rwdOut + 1
    ∧ (s.writeThrough = true → s.wtPending + s.creditsOut + 1 ≤ s.wtInflight)
    ∧ (s.writeThrough = false → s.charge + s.creditsOut + s.linkCredits + s.openWrites + 1 ≤ s.budget)

/-- Each bit of a register word follows its access type: RW stores, RW1C clears by 1, RW1S sets by 1, any other stays. Rules: R9. -/
def Obligations.WordBitsFollowTheirAccess : Prop :=
  ∀ (s : State) (off val : Nat) (free : Bool) (a : Access) (i : Nat),
    -- a word that is not buffered and has no persistent and no locked field, and a bit of one access type of it
    bufferedWord off = false → (∀ j, (accMask off (· == .rwp)).testBit j = false) → (∀ j, (accMask off (· == .rwl)).testBit j = false) →
    i < 32 → (∀ b : Access, (accMask off (· == b)).testBit i = (b == a)) →
    ((s.wordWrite off val 0xFFFFFFFF free).word off).testBit i = match a with
      | .rw => val.testBit i
      | .rw1c => (s.word off).testBit i && !val.testBit i
      | .rw1s => (s.word off).testBit i || val.testBit i
      | _ => (s.word off).testBit i

/-- A register field reads back what was set in it, and a field of other words is untouched. Rules: R9, R438. -/
def Obligations.FieldsReadBackAsWritten : Prop :=
  ∀ (s : State) (f g : Field) (v : Nat),
    (s.setF f v).getF f = v % 2 ^ f.width
    -- a field of another register reads as before
    ∧ (g.off + 4 * g.words ≤ f.off ∨ f.off + 4 * f.words ≤ g.off → (s.setF f v).getF g = s.getF g)

/-- A word that no chapter defines reads 0 and ignores writes, as do the offsets 0x0010_0000 to 0x01FF_FFFF. Rules: R438. -/
def Obligations.UndefinedWordsReadZeroAndIgnoreWrites : Prop :=
  ∀ (s : State) (req : Requester) (off : BitVec 26),
    off.toNat % 4 = 0 → (off.toNat < 0x100000 ∧ regDef off.toNat = none ∧ s.served off.toNat = true)
      ∨ (0x100000 ≤ off.toNat ∧ off.toNat < 0x2000000) →
    (mget [] s.regs.latch (reqNo req)).find? (fun x => x.1 == off.toNat) = none →
    exec (.lowWordLatchRead req off) s = .next (s.emit (.regRead (reqNo req) off.toNat 4 0))
    ∧ (∀ val, s.mayWrite req off.toNat = true → exec (.registerWrite req off 4 val) s = .next s)

/-- Frame boundaries, FTSYNC and FTCODE, PTM, SYNC, forward steps, PROOF and KEY_LOAD complete. Rules: R149, R161, R187, R208, R222, R311,
R312, R313, R314, R316, R318, R320, R321, R324, R347, R353, R419, R421, R460, R464. -/
def Obligations.TimeProofAndKeyCommandsComplete : Prop :=
  ∀ (s u : State),
    -- the frame boundary is done in every state, whatever falls due with it
    (∃ t, exec .frameBoundary s = .next t)
    -- an edge is taken whether a held word names it or not
    ∧ (∃ t, exec .ftsyncEdge s = .next t)
    -- a sound word whose SEQ follows is held for its edge
    ∧ (∀ word : BitVec 98,
        let d := bitsOf word.toNat 1 96
        word.getLsbD 0 = false → word.getLsbD 97 = true → bitsOf d 73 7 = 0 → bitsOf d 80 16 = codeCrc d →
        s.time.lastSeq.all (fun p => bitsOf d 64 8 == (p + 1) % 256) = true →
        ∃ t, exec (.ftcodeWord word) s = .next t ∧ t.time.code = some (bitsOf d 0 64, bitsOf d 64 8, bitAt d 72) ∧ t.time.lastSeq = some (bitsOf d 64 8))
    -- FTCODE_OUT sends one word while SYNC_OUT_EN is set
    ∧ (s.flag Reg.TIME_CFG.SYNC_OUT_EN = true → ∃ (t : State) (w : BitVec 98), exec .ftcodeOutSend s = .next t ∧ t = s.emit (.ftcode w) ∧ bitsOf w.toNat 1 64 = (s.ft / 2 ^ 20 + 1) * 2 ^ 20 % 2 ^ 64)
    -- a PTM response is taken while PTM_EN is set
    ∧ (∀ (ok : Bool) (root : BitVec 64), s.flag Reg.TIME_CFG.PTM_EN = true → ∃ t, exec (.ptmResponse ok root) s = .next t)
    -- a well formed SYNC frame that its link accepts is taken
    ∧ (∀ (f : Frame) (body : BitVec 256), s.linkAccept f 5 [3] 2 body.toNat = (true, u) → bitsOf body.toNat 0 4 = 1 → bitsOf body.toNat 216 40 = 0 →
        ∃ t, exec (.sync f body) s = .next t)
    -- a forward step that is due is made
    ∧ (∀ to', s.time.step = some to' → s.ft < to' → ∃ t, exec .ftStepForward s = .next t)
    -- a part of a PROOF that the handshake takes is kept or, the last one, answered by CONFIRM or ABORT
    ∧ (∀ (f : Frame) (b : ProofBody) h,
        let head : List Byte := [2#8, b.frag, b.count, BitVec.ofNat 8 (b.part.length / 256), BitVec.ofNat 8 b.part.length]
        s.hsTake f (1 + (b.part.length + 15) / 16) (head ++ List.replicate 11 0#8 ++ b.part) = (true, u) → (u.link f.link.val).hs = some h →
        h.confirmed = false → b.frag.toNat < b.count.toNat → b.count.toNat ≤ 32 → b.part.length ≤ 272 →
        ∃ t, exec (.proof f b) s = .next t)
    -- a KEY_LOAD that its checks admit stores the key's record
    ∧ (∀ c d : KCmd, s.kReady 0xC030 c State.keyLoadCheck d → ∃ t, exec (.keyLoad c) s = .next t)

/-- Data chunk k carries tile bytes 32k to 32k+31, bit by bit, and line L is in chunks 2L and 2L+1. Rules: R34. -/
def Obligations.ChunksCarryTheTileInOrder : Prop :=
  ∀ (t : Tile) (f : BitVec 128) (g k : Nat), k < 8 →
    -- chunk bit 8j + i holds bit i of the chunk's byte j, and the chunk's bytes are the tile's from 32k on
    (∀ j i, j < 32 → i < 8 → (chunkOf (dataMessage t f k) g).getLsbD (8 * j + i) = t.getLsbD (8 * (32 * k + j) + i))
    -- line L is carried by chunks 2L and 2L + 1
    ∧ (∀ L b, L < 4 → b < 512 → (t.line L).getLsbD b = (chunkOf (dataMessage t f (2 * L + b / 256)) g).getLsbD (b % 256))

/-- Chunk k is stored on member (k + r) mod 10 with r = (s + t) mod 10, so parity rotates over all ten members. Rules: R53. -/
def Obligations.ChunksRotateOverTheMembers : Prop :=
  ∀ s t : Nat,
    -- chunk k of the tile is stored on member (k + r) mod 10, where r = (s + t) mod 10: one chunk on each of the ten members
    (∀ k, chunkMember s t k = (k + (s + t) % 10) % 10)
    ∧ (∀ m, m < 10 → ∃ k, k < 10 ∧ chunkMember s t k = m ∧ ∀ j, j < 10 → chunkMember s t j = m → j = k)
    -- over ten tiles in a row each member holds eight data chunks, and each of the two parity chunks once
    ∧ (∀ m, m < 10 →
        ((List.range 10).flatMap (fun i => (List.range 8).filter (fun k => chunkMember s (t + i) k == m))).length = 8
        ∧ (∀ k, k = 8 ∨ k = 9 → ((List.range 10).filter (fun i => chunkMember s (t + i) k == m)).length = 1))

/-- During a drydown four commands are answered and every other command returns DRYDOWN, on either path. Rules: R410. -/
def Obligations.DrydownLeavesFourCommands : Prop :=
  ∀ (s : State) (c : Instr), s.host.mailbox = true → s.inDrydown = true →
    -- standard commands: all but Get Health Info are answered with the code for DRYDOWN, and that one as ever
    (∀ path opc, stdOpcode c = some (path, opc) → s.pathBusy (pathNo path) opc = false →
      (opc ≠ 0x4200 → ∃ t, exec c s = .next t ∧ s.MboxAnswer t path opc (rcOf kDrydown) [])
      ∧ (opc = 0x4200 → ∃ t, exec c s = .next t ∧ s.MboxAnswer t path opc .success
          (leBytes s.mediaStatus 1 ++ leBytes (s.getF Reg.DSC.COUNT) 4 ++ Config.stdPayload 0x4200 0)))
    -- Kelric commands: all but IDENTIFY_K, HOLDUP_STATUS and THERMAL_STATUS end with DRYDOWN; the gate of those three lets them pass
    ∧ (∀ k path opc, kelricOpcode c = some (k, opc) → k.src = .path path → s.pathBusy (pathNo path) opc = false →
      (opc ≠ 0xC000 → opc ≠ 0xC090 → opc ≠ 0xC0A1 →
        exec c s = .next ((s.kMark (.path path) opc).respond (.path path) kDrydown 0 0 []))
      ∧ (opc = 0xC000 ∨ opc = 0xC090 ∨ opc = 0xC0A1 → (s.kMark (.path path) opc).kGate opc k ≠ kDrydown))

end
end

