-- ==== Sys2Proof/Laws/Kept.lean ====
section
/-!
SUPPORT. What hardly any command changes, kept by the operations of the cache, the home, the map and the registers: one lemma for each of them (R10, R219, R395, R479).
-/

namespace Sys2Proof.Machine

/-- What hardly any command changes: the waiting commands, the RSV bits, the label storage areas, the shutdown states, the board area,
the lifecycle and the fuse. -/
def State.kept (s : State) : List Instr × SMap Nat × SMap Memory × SMap Nat × Memory × Nat × Bool :=
  (s.pending, s.rsv, s.host.lsa, s.host.shutdown, s.weali.board, s.keys.lifecycle, s.keys.fuse)

theorem State.kept_ext {s t : State} (h1 : t.pending = s.pending) (h2 : t.rsv = s.rsv) (h3 : t.host.lsa = s.host.lsa)
    (h4 : t.host.shutdown = s.host.shutdown) (h5 : t.weali.board = s.weali.board) (h6 : t.keys.lifecycle = s.keys.lifecycle)
    (h7 : t.keys.fuse = s.keys.fuse) : t.kept = s.kept := by
  simp [State.kept, *]

@[simp] theorem State.kept_ite (c : Prop) [Decidable c] (s t : State) : (if c then s else t).kept = if c then s.kept else t.kept :=
  apply_ite ..

/-- An outcome whose next state, if there is one, keeps it. -/
def Res.keeps (r : Res) (s : State) : Prop := ∀ t, r = .next t → t.kept = s.kept

@[simp] theorem Res.next_keeps (t s : State) : Res.keeps (.next t) s ↔ t.kept = s.kept := by simp [Res.keeps]
@[simp] theorem Res.fault_keeps (f : Fault) (s : State) : Res.keeps (.fault f) s := by simp [Res.keeps]
@[simp] theorem Res.ite_keeps (c : Prop) [Decidable c] (a b : Res) (s : State) :
    Res.keeps (if c then a else b) s ↔ if c then Res.keeps a s else Res.keeps b s := by split <;> rfl

/-- A state that may be there, and keeps it if it is. -/
def optKeeps (o : Option State) (s : State) : Prop := ∀ t, o = some t → t.kept = s.kept

@[simp] theorem optKeeps_some (t s : State) : optKeeps (some t) s ↔ t.kept = s.kept := by simp [optKeeps]
@[simp] theorem optKeeps_none (s : State) : optKeeps none s := by simp [optKeeps]

theorem pair_kept {α : Type} {p : α × State} {x : α} {s t : State} (h : p = (x, t)) (hk : p.2.kept = s.kept) : t.kept = s.kept := by
  subst h; exact hk

theorem opt_kept {o : Option State} {s t : State} (h : o = some t) (hk : optKeeps o s) : t.kept = s.kept := hk t h

@[simp] theorem optKeeps_getD (o : Option State) (s : State) (h : optKeeps o s) : (o.getD s).kept = s.kept := by
  cases o with
  | none => rfl
  | some x => exact h x rfl

theorem optKeeps_bind (o : Option State) (f : State → Option State) (s : State) (h : optKeeps o s) (h2 : ∀ t, optKeeps (f t) t) :
    optKeeps (o.bind f) s := by
  cases o with
  | none => simp
  | some x => intro t ht; exact (h2 x t ht).trans (h x rfl)

/-- A fold of steps that keep it keeps it. -/
@[simp] theorem State.foldl_kept {α : Type} (f : State → α → State) (h : ∀ s a, (f s a).kept = s.kept) (l : List α) (s : State) :
    (l.foldl f s).kept = s.kept := by
  induction l generalizing s with
  | nil => rfl
  | cons a r ih => simp only [List.foldl_cons, ih, h]

@[simp] theorem State.foldr_kept {α : Type} (f : α → State → State) (h : ∀ a s, (f a s).kept = s.kept) (l : List α) (s : State) :
    (l.foldr f s).kept = s.kept := by
  induction l with
  | nil => rfl
  | cons a r ih => simp only [List.foldr_cons, ih, h]

/-- The same of a fold that carries something beside the state. -/
@[simp] theorem State.foldl_kept_snd {α β : Type} (f : β × State → α → β × State) (h : ∀ x a, (f x a).2.kept = x.2.kept) (l : List α)
    (x : β × State) : (l.foldl f x).2.kept = x.2.kept := by
  induction l generalizing x with
  | nil => rfl
  | cons a r ih => simp only [List.foldl_cons, ih, h]

@[simp] theorem State.kept_out (s : State) (x) : ({ s with out := x } : State).kept = s.kept := rfl
@[simp] theorem State.kept_free (s : State) (x) : ({ s with free := x } : State).kept = s.kept := rfl
@[simp] theorem State.kept_ft (s : State) (x) : ({ s with ft := x } : State).kept = s.kept := rfl
@[simp] theorem State.kept_frac (s : State) (x) : ({ s with frac := x } : State).kept = s.kept := rfl
@[simp] theorem State.kept_words (s : State) (x) : ({ s with words := x } : State).kept = s.kept := rfl
@[simp] theorem State.kept_tally (s : State) (x) : ({ s with tally := x } : State).kept = s.kept := rfl
@[simp] theorem State.kept_home (s : State) (x) : ({ s with home := x } : State).kept = s.kept := rfl
@[simp] theorem State.kept_cache (s : State) (x) : ({ s with cache := x } : State).kept = s.kept := rfl
@[simp] theorem State.kept_reads (s : State) (x) : ({ s with reads := x } : State).kept = s.kept := rfl
@[simp] theorem State.kept_progs (s : State) (x) : ({ s with progs := x } : State).kept = s.kept := rfl
@[simp] theorem State.kept_map (s : State) (x) : ({ s with map := x } : State).kept = s.kept := rfl
@[simp] theorem State.kept_patrol (s : State) (x) : ({ s with patrol := x } : State).kept = s.kept := rfl
@[simp] theorem State.kept_fabric (s : State) (x) : ({ s with fabric := x } : State).kept = s.kept := rfl
@[simp] theorem State.kept_power (s : State) (x) : ({ s with power := x } : State).kept = s.kept := rfl
@[simp] theorem State.kept_avail (s : State) (x) : ({ s with avail := x } : State).kept = s.kept := rfl
@[simp] theorem State.kept_cask (s : State) (x) : ({ s with cask := x } : State).kept = s.kept := rfl
@[simp] theorem State.kept_time (s : State) (x) : ({ s with time := x } : State).kept = s.kept := rfl
@[simp] theorem State.kept_kelric (s : State) (x) : ({ s with kelric := x } : State).kept = s.kept := rfl
@[simp] theorem State.kept_regs (s : State) (x) : ({ s with regs := x } : State).kept = s.kept := rfl
@[simp] theorem State.kept_therm (s : State) (x) : ({ s with therm := x } : State).kept = s.kept := rfl
@[simp] theorem State.kept_eng (s : State) (x) : ({ s with eng := x } : State).kept = s.kept := rfl
@[simp] theorem State.kept_maint (s : State) (x) : ({ s with maint := x } : State).kept = s.kept := rfl
@[simp] theorem State.kept_host (s : State) (x : HostSt) (h : x.lsa = s.host.lsa) (h2 : x.shutdown = s.host.shutdown) :
    ({ s with host := x } : State).kept = s.kept := by simp [State.kept, h, h2]
@[simp] theorem State.kept_weali (s : State) (x : WealiSt) (h : x.board = s.weali.board) :
    ({ s with weali := x } : State).kept = s.kept := by simp [State.kept, h]
@[simp] theorem State.kept_keys (s : State) (x : Keys) (h : x.lifecycle = s.keys.lifecycle) (h2 : x.fuse = s.keys.fuse) :
    ({ s with keys := x } : State).kept = s.kept := by simp [State.kept, h, h2]

/-! ### Machine/Ops.lean -/

@[simp] theorem State.setWord_kept (s : State) (off v : Nat) : (State.setWord s off v).kept = s.kept := by simp [State.setWord]
@[simp] theorem State.setWide_kept (s : State) (off v : Nat) (x0 : Nat) : (State.setWide s off v x0).kept = s.kept := by
  fun_induction State.setWide s off v x0 <;> first | rfl | exact Eq.trans (by assumption) (by simp +zetaDelta) | (simp +zetaDelta ; done)
@[simp] theorem State.setF_kept (s : State) (f : Field) (v : Nat) : (State.setF s f v).kept = s.kept := by simp [State.setF]
@[simp] theorem State.raise_kept (s : State) (f : Field) : (State.raise s f).kept = s.kept := by simp [State.raise]
@[simp] theorem State.setFlag_kept (s : State) (f : Field) (b : Bool) : (State.setFlag s f b).kept = s.kept := by
  simp [State.setFlag]
@[simp] theorem State.emit_kept (s : State) (o : Out) : (State.emit s o).kept = s.kept := by simp [State.emit]
@[simp] theorem State.emits_kept (s : State) (l : List Out) : (State.emits s l).kept = s.kept := by simp [State.emits]
@[simp] theorem State.draw_kept (s : State) : (State.draw s).2.kept = s.kept := by simp [State.draw]
@[simp] theorem State.setCounter_kept (s : State) (b c v : Nat) : (State.setCounter s b c v).kept = s.kept := by
  simp [State.setCounter]
@[simp] theorem State.count_kept (s : State) (b c n : Nat) : (State.count s b c n).kept = s.kept := by simp [State.count]
@[simp] theorem State.event_kept (s : State) (e : EvRec) (ld : Option Nat) : (State.event s e ld).kept = s.kept := by
  unfold State.event
  exact State.kept_ext rfl rfl rfl rfl rfl rfl rfl
@[simp] theorem State.tileEvent_kept (s : State) (e : EvRec) (ltn : Nat) : (State.tileEvent s e ltn).kept = s.kept := by
  simp [State.tileEvent]
@[simp] theorem State.planeOut_kept (s : State) (p : Nat) :
    (State.planeOut s p).kept = s.kept := by
  unfold State.planeOut
  repeat' first | simp | split
@[simp] theorem State.missOf_kept (s : State) (k : Nat) :
    (State.missOf s k).kept = s.kept := by
  unfold State.missOf
  repeat' first | simp | split
@[simp] theorem State.planeMiss_kept (s : State) :
    (State.planeMiss s).kept = s.kept := by
  unfold State.planeMiss
  repeat' first | simp | split
@[simp] theorem State.unitMiss_kept (s : State) :
    (State.unitMiss s).kept = s.kept := by
  unfold State.unitMiss
  repeat' first | simp | split
@[simp] theorem State.crcPass_kept (s : State) (block point unit : Nat) (t : Tile) (ltn : Nat) :
    (State.crcPass s block point unit t ltn).2.kept = s.kept := by
  unfold State.crcPass
  repeat' first | simp | split
@[simp] theorem State.when_kept (s : State) (c : Bool) (f : State → State) (h : (f s).kept = s.kept) : (s.when c f).kept = s.kept := by
  unfold State.when; split <;> simp [*]
@[simp] theorem State.pageWrites_kept (s : State) (n : Nat) : (State.pageWrites s n).kept = s.kept := by simp [State.pageWrites]

/-! ### Machine/TallyOps.lean -/

@[simp] theorem State.modTally_kept (s : State) (f : TallySt → TallySt) : (State.modTally s f).kept = s.kept := by
  simp [State.modTally]
@[simp] theorem State.modInterval_kept (s : State) (f : Interval → Interval) : (State.modInterval s f).kept = s.kept := by
  simp [State.modInterval]
@[simp] theorem State.noteFlag_kept (s : State) (b : Nat) : (State.noteFlag s b).kept = s.kept := by simp [State.noteFlag]
@[simp] theorem State.modLd_kept (s : State) (ld : Nat) (f : LdCounts → LdCounts) : (State.modLd s ld f).kept = s.kept := by
  simp [State.modLd]
@[simp] theorem State.histogram_kept (s : State) (head kind ns : Nat) : (State.histogram s head kind ns).kept = s.kept := by
  simp [State.histogram]
@[simp] theorem State.sampleDraw_kept (s : State) (ld : Nat) : (State.sampleDraw s ld).2.kept = s.kept := by
  unfold State.sampleDraw
  repeat' first | simp | split
@[simp] theorem State.sampleWrite_kept (s : State) (rec : Nat) : (State.sampleWrite s rec).kept = s.kept := by
  simp [State.sampleWrite]
@[simp] theorem State.countRead_kept (s : State) (head ld bytes : Nat) (poison : Bool) :
    (State.countRead s head ld bytes poison).kept = s.kept := by simp [State.countRead]
@[simp] theorem State.countWrite_kept (s : State) (head ld bytes : Nat) : (State.countWrite s head ld bytes).kept = s.kept := by
  simp [State.countWrite]
@[simp] theorem State.noteLatency_kept (s : State) (ld ns : Nat) (write : Bool) : (State.noteLatency s ld ns write).kept = s.kept := by
  simp [State.noteLatency]

/-! ### Machine/MapOps.lean -/

@[simp] theorem State.addProg_kept (s : State) (p : Prog) : (State.addProg s p).kept = s.kept := by simp [State.addProg]
@[simp] theorem State.addProgs_kept (s : State) (l : List Prog) :
    (State.addProgs s l).kept = s.kept := by
  unfold State.addProgs
  repeat' first | simp | split
@[simp] theorem State.reservePlace_kept (s : State) : (State.reservePlace s).2.kept = s.kept := by simp [State.reservePlace]
@[simp] theorem State.reserveProg_kept (s : State) (why : PgWhy) (cls : Nat) (data : Tile) (job : Nat) :
    (State.reserveProg s why cls data job).2.kept = s.kept := by simp [State.reserveProg]
@[simp] theorem State.journalFlush_kept (s : State) : (State.journalFlush s).kept = s.kept := by simp [State.journalFlush]
@[simp] theorem State.journal_kept (s : State) (lsn kind body : Nat) (why : CopyWhy := .patrol) :
    (State.journal s lsn kind body why).kept = s.kept := by
  unfold State.journal
  repeat' first | simp | split
@[simp] theorem State.setEntry_kept (s : State) (lsn : Nat) (e : MapEntry) : (State.setEntry s lsn e).kept = s.kept := by
  simp [State.setEntry]
@[simp] theorem State.setEntryQuiet_kept (s : State) (lsn : Nat) (e : MapEntry) : (State.setEntryQuiet s lsn e).kept = s.kept := by
  simp [State.setEntryQuiet]
@[simp] theorem State.retire_kept (s : State) (psn : Nat) : (State.retire s psn).kept = s.kept := by simp [State.retire]
@[simp] theorem State.poisonAdd_kept (s : State) (ltn : Nat) (mask : BitVec 4) : (State.poisonAdd s ltn mask).kept = s.kept := by
  simp [State.poisonAdd]
@[simp] theorem State.rewritten_kept (s : State) (ltn : Nat) :
    (State.rewritten s ltn).kept = s.kept := by
  unfold State.rewritten
  repeat' first | simp | split
@[simp] theorem State.poisonDrop_kept (s : State) (ltn : Nat) : (State.poisonDrop s ltn).kept = s.kept := by simp [State.poisonDrop]
@[simp] theorem State.modMap_kept (s : State) (f : MapSt → MapSt) : (State.modMap s f).kept = s.kept := by simp [State.modMap]
@[simp] theorem State.dropProgs_kept (s : State) (p : Prog → Bool) : (State.dropProgs s p).kept = s.kept := by simp [State.dropProgs]
@[simp] theorem State.releaseSlot_kept (s : State) (psn lsn : Nat) (retire scrub keeps : Bool) :
    (State.releaseSlot s psn lsn retire scrub keeps).kept = s.kept := by simp [State.releaseSlot]
@[simp] theorem State.queueCopy_kept (s : State) (lsn : Nat) (why : CopyWhy) : (State.queueCopy s lsn why).kept = s.kept := by
  simp [State.queueCopy]
@[simp] theorem State.copyDrop_kept (s : State) (c : Copy) (retire : Bool) : (State.copyDrop s c retire).kept = s.kept := by
  simp [State.copyDrop]
@[simp] theorem State.copyAbandon_kept (s : State) (lsn : Nat) (failed : Bool) : (State.copyAbandon s lsn failed).kept = s.kept := by
  unfold State.copyAbandon; split <;> simp
@[simp] theorem State.changeEntry_kept (s : State) (lsn : Nat) (f : MapEntry → MapEntry) :
    (State.changeEntry s lsn f).kept = s.kept := by
  unfold State.changeEntry
  repeat' first | simp | split
@[simp] theorem State.setMirror_kept (s : State) (first n node : Nat) : (State.setMirror s first n node).kept = s.kept := by
  simp [State.setMirror]
@[simp] theorem State.journalSpill_kept (s : State) (ltn : Nat) (add : Bool) :
    (State.journalSpill s ltn add).kept = s.kept := by
  unfold State.journalSpill
  repeat' first | simp | split
@[simp] theorem State.spillRemove_kept (s : State) (ltn : Nat) :
    (State.spillRemove s ltn).kept = s.kept := by
  unfold State.spillRemove
  repeat' first | simp | split
@[simp] theorem State.countProgram_kept (s : State) (psn : Nat) : (State.countProgram s psn).kept = s.kept := by
  simp [State.countProgram]
@[simp] theorem State.pickSlot_kept (s : State) (ds : Nat) (most : Bool) :
    (State.pickSlot s ds most).2.kept = s.kept := by
  unfold State.pickSlot
  repeat' first | simp | split
@[simp] theorem State.pickFrom_kept (s : State) (most : Bool) (x0 : List Nat) : (State.pickFrom s most x0).2.kept = s.kept := by
  fun_induction State.pickFrom s most x0 with
  | case1 => rfl
  | case2 ds r p s1 h => exact pair_kept h (by simp)
  | case3 ds r s1 h ih => exact ih
@[simp] theorem State.slotForMapping_kept (s : State) (note : Nat) :
    (State.slotForMapping s note).2.kept = s.kept := by
  unfold State.slotForMapping
  repeat' first | simp | split
@[simp] theorem State.slotForCopy_kept (s : State) (source note : Nat) :
    (State.slotForCopy s source note).2.kept = s.kept := by
  unfold State.slotForCopy
  repeat' first | simp | split
@[simp] theorem State.slotForRack_kept (s : State) (source note : Nat) :
    (State.slotForRack s source note).2.kept = s.kept := by
  unfold State.slotForRack
  repeat' first | simp | split
@[simp] theorem State.setKey_kept (s : State) (i : Nat) (k : KeyCtx) : (State.setKey s i k).kept = s.kept := by simp [State.setKey]
@[simp] theorem State.derive_kept (s : State) (idx ver : Nat) : (State.derive s idx ver).kept = s.kept := by simp [State.derive]
@[simp] theorem State.keyAbsent_kept (s : State) (idx : Nat) : (State.keyAbsent s idx).kept = s.kept := by simp [State.keyAbsent]
@[simp] theorem State.poolEvents_kept (s : State) (before : Nat) : (State.poolEvents s before).kept = s.kept := by
  simp [State.poolEvents]
@[simp] theorem State.queueRekey_kept (s : State) (lsn cls : Nat) (idx : Option Nat) :
    (State.queueRekey s lsn cls idx).kept = s.kept := by simp [State.queueRekey]
@[simp] theorem State.versionExhausted_kept (s : State) (idx : Nat) : (State.versionExhausted s idx).kept = s.kept := by
  simp [State.versionExhausted]
@[simp] theorem State.keyverWarn_kept (s : State) (idx ver : Nat) : (State.keyverWarn s idx ver).kept = s.kept := by
  simp [State.keyverWarn]
@[simp] theorem State.newMapping_kept (s : State) (lsn ld : Nat) (cask : Bool) : (State.newMapping s lsn ld cask).kept = s.kept := by
  unfold State.newMapping
  repeat' first | simp | split | refine (State.foldl_kept _ (fun _ _ => ?_) _ _).trans ?_ | refine pair_kept (by assumption) ?_ | intro _
@[simp] theorem State.mapAfresh_kept (s : State) (lsn ld : Nat) :
    (State.mapAfresh s lsn ld).kept = s.kept := by
  unfold State.mapAfresh
  repeat' first | simp | split

/-! ### Machine/CacheOps.lean -/

@[simp] theorem State.modTagSet_kept (s : State) (key : Nat) (f : CacheSet → CacheSet) :
    (State.modTagSet s key f).kept = s.kept := by
  unfold State.modTagSet
  repeat' first | simp | split
@[simp] theorem State.tagEnter_kept (s : State) (k : Nat) :
    (State.tagEnter s k).kept = s.kept := by
  unfold State.tagEnter
  repeat' first | simp | split
@[simp] theorem State.tagMacroOut_kept (s : State) (m : Nat) :
    (State.tagMacroOut s m).kept = s.kept := by
  unfold State.tagMacroOut
  repeat' first | simp | split
@[simp] theorem State.setCset_kept (s : State) (node ltn : Nat) (c : CacheSet) : (State.setCset s node ltn c).kept = s.kept := by
  simp [State.setCset]
@[simp] theorem State.modWay_kept (s : State) (node ltn w : Nat) (f : Way → Way) : (State.modWay s node ltn w f).kept = s.kept := by
  simp [State.modWay]
@[simp] theorem State.touch_kept (s : State) (node ltn w : Nat) : (State.touch s node ltn w).kept = s.kept := by simp [State.touch]
@[simp] theorem State.addReg_kept (s : State) (r : Reg) : (State.addReg s r).kept = s.kept := by simp [State.addReg]
@[simp] theorem State.modReg_kept (s : State) (k : TileRef) (f : Reg → Reg) : (State.modReg s k f).kept = s.kept := by
  simp [State.modReg]
@[simp] theorem State.modProg_kept (s : State) (id : Nat) (f : Prog → Prog) : (State.modProg s id f).kept = s.kept := by
  simp [State.modProg]
@[simp] theorem State.feedProg_kept (s : State) (p : Prog) : (State.feedProg s p).kept = s.kept := by simp [State.feedProg]
@[simp] theorem State.feedProgs_kept (s : State) : (State.feedProgs s).kept = s.kept := by simp [State.feedProgs]
@[simp] theorem State.doubleLossCopy_kept (s : State) (p : Prog) :
    (State.doubleLossCopy s p).kept = s.kept := by
  unfold State.doubleLossCopy
  repeat' first | simp | split
@[simp] theorem State.sendProg_kept (s : State) (why : PgWhy) (cls ltn ld : Nat) (data : Tile) (valid dirty poison : BitVec 4) (charged : Bool) (job : Nat) :
    (State.sendProg s why cls ltn ld data valid dirty poison charged job).kept = s.kept := by simp [State.sendProg]
@[simp] theorem State.evictWay_kept (s : State) (node ltn w : Nat) : (State.evictWay s node ltn w).kept = s.kept := by
  simp [State.evictWay]
theorem State.takeWay_kept {s : State} {node ltn ld w : Nat} {t : State} (h : s.takeWay node ltn ld = some (w, t)) :
    t.kept = s.kept := by
  unfold State.takeWay at h
  dsimp only at h
  split at h
  · exact absurd h (by simp)
  · cases h
    simp
@[simp] theorem State.cleanWay_kept (s : State) (ltn w : Nat) (cls : Nat) : (State.cleanWay s ltn w cls).kept = s.kept := by
  simp [State.cleanWay]
@[simp] theorem State.trackWrite_kept (s : State) (ld ltn l : Nat) : (State.trackWrite s ld ltn l).2.kept = s.kept := by
  unfold State.trackWrite
  repeat' first | simp | split
@[simp] theorem State.spillMash_kept (s : State) (m : Mash) : optKeeps (State.spillMash s m) s := by
  unfold State.spillMash
  dsimp only
  split
  · simp
  · rename_i h
    rw [optKeeps_some]
    split at h
    · cases h
    · have k := (State.takeWay_kept h).trans (rfl : _ = s.kept)
      split <;> simp [k]
theorem State.spillMash_some {s : State} {m : Mash} {t : State} (h : State.spillMash s m = some t) :
    t.kept = s.kept := opt_kept h (State.spillMash_kept s m)
@[simp] theorem State.mashRoom_kept (s : State) : optKeeps (State.mashRoom s) s := by
  unfold State.mashRoom
  split
  · simp
  · split
    · exact State.spillMash_kept s _
    · simp
theorem State.mashRoom_ite {c : Prop} [Decidable c] {s t : State} (h : (if c then s.mashRoom else none) = some t) : t.kept = s.kept := by
  split at h
  · exact opt_kept h (State.mashRoom_kept s)
  · cases h
@[simp] theorem State.mashWrite_kept (s : State) (ld ltn l : Nat) (d : Line) (poison : Bool) :
    (State.mashWrite s ld ltn l d poison).kept = s.kept := by simp [State.mashWrite]
@[simp] theorem State.dropTile_kept (s : State) (ltn : Nat) : (State.dropTile s ltn).kept = s.kept := by
  unfold State.dropTile
  dsimp only
  split
  · exact (State.kept_ext rfl rfl rfl rfl rfl rfl rfl).trans (State.modWay_kept s ..)
  · rfl

/-! ### Machine/KelricOps.lean -/

@[simp] theorem State.modQueue_kept (s : State) (q : Nat) (f : KQueue → KQueue) : (State.modQueue s q f).kept = s.kept := by
  simp [State.modQueue]
@[simp] theorem State.signalVec_kept (s : State) (ld vec : Nat) : (State.signalVec s ld vec).kept = s.kept := by
  simp [State.signalVec]
@[simp] theorem State.post_kept (s : State) (q : Nat) (f : Flight) : (State.post s q f).kept = s.kept := by simp [State.post]
@[simp] theorem State.postHeld_kept (s : State) (q : Nat) (x0 : Nat) : (State.postHeld s q x0).kept = s.kept := by
  fun_induction State.postHeld s q x0 <;> first | rfl | exact Eq.trans (by assumption) (by simp +zetaDelta) | (simp +zetaDelta ; done)
@[simp] theorem State.queueError_kept (s : State) (q cause : Nat) : (State.queueError s q cause).kept = s.kept := by
  simp [State.queueError]
@[simp] theorem State.dropQueues_kept (s : State) (p : Nat → Bool) : (State.dropQueues s p).kept = s.kept := by
  simp [State.dropQueues]
@[simp] theorem State.endPath_kept (s : State) (p : Nat) (rc : Rc) (payload : List Byte) :
    (State.endPath s p rc payload).kept = s.kept := by simp [State.endPath]
@[simp] theorem State.endBg_kept (s : State) (p : Nat) (rc : Rc) (payload : List Byte) :
    (State.endBg s p rc payload).kept = s.kept := by simp [State.endBg]
@[simp] theorem State.respond_kept (s : State) (src : CmdSrc) (status handle result : Nat) (data : List Byte) :
    (State.respond s src status handle result data).kept = s.kept := by unfold State.respond; split <;> simp
@[simp] theorem State.fail_kept (s : State) (re : CmdSrc) (status : Nat) : (State.fail s re status).kept = s.kept := by
  simp [State.fail]
@[simp] theorem State.done_kept (s : State) (re : CmdSrc) (result : Nat) (data : List Byte) :
    (State.done s re result data).kept = s.kept := by simp [State.done]
@[simp] theorem State.respondTo_kept (s : State) (src : Option CmdSrc) (status result : Nat) (data : List Byte) :
    (State.respondTo s src status result data).kept = s.kept := by unfold State.respondTo; split <;> simp
@[simp] theorem State.kMark_kept (s : State) (src : CmdSrc) (opc : Nat) : (State.kMark s src opc).kept = s.kept := by
  unfold State.kMark; split <;> simp
@[simp] theorem State.startBg_kept (s : State) (p opc : Nat) : (State.startBg s p opc).kept = s.kept := by simp [State.startBg]
@[simp] theorem State.addAction_kept (s : State) (at_ : Nat) (w : TimedWhat) : (State.addAction s at_ w).2.kept = s.kept := by
  simp [State.addAction]
@[simp] theorem State.kRun_kept (s : State) (opc : Nat) (c : KCmd) (check : KCmd → State → Nat) (act : KCmd → CmdSrc → State → State) (hold : KCmd → State → State) (h : ∀ c re s, (act c re s).kept = s.kept) (h2 : ∀ c s, (hold c s).kept = s.kept) :
    (s.kRun opc c check act hold).kept = s.kept := by
  unfold State.kRun
  repeat' first | simp [h, h2] | split
@[simp] theorem State.doneData_kept (s : State) (c : KCmd) (re : CmdSrc) (result : Nat) (data : List Byte) :
    (State.doneData s c re result data).kept = s.kept := by unfold State.doneData; split <;> simp

/-! ### Machine/CaskOps.lean -/

@[simp] theorem State.modDom_kept (s : State) (i : Nat) (f : CaskDom → CaskDom) : (State.modDom s i f).kept = s.kept := by
  simp [State.modDom]
@[simp] theorem State.caskMake_kept (s : State) (d : CaskDom) (src : Option CmdSrc) : (State.caskMake s d src).kept = s.kept := by
  unfold State.caskMake; split <;> simp
@[simp] theorem State.createCheck_kept (s : State) : (State.createCheck s).kept = s.kept := by simp [State.createCheck]
@[simp] theorem State.undoSave_kept (s : State) (ltn stamp : Nat) (got : Option (Tile × BitVec 4)) :
    (State.undoSave s ltn stamp got).kept = s.kept := by unfold State.undoSave; split <;> simp
@[simp] theorem State.undoFull_kept (s : State) (ltn : Nat) : (State.undoFull s ltn).kept = s.kept := by
  unfold State.undoFull; split <;> simp

/-! ### Machine/LinkOps.lean -/

@[simp] theorem State.modFabric_kept (s : State) (f : FabricSt → FabricSt) : (State.modFabric s f).kept = s.kept := by
  simp [State.modFabric]
@[simp] theorem State.modLink_kept (s : State) (k : Nat) (f : LinkSt → LinkSt) : (State.modLink s k f).kept = s.kept := by
  simp [State.modLink]
@[simp] theorem State.putLink_kept (s : State) (k : Nat) (f : SentFrame) : (State.putLink s k f).kept = s.kept := by
  simp [State.putLink]
@[simp] theorem State.sendOn_kept (s : State) (k : Nat) (f : SentFrame) (held : HeldFrame) :
    (State.sendOn s k f held).kept = s.kept := by simp [State.sendOn]
@[simp] theorem State.sendLink_kept (s : State) (k dst type vc hops len body : Nat) :
    (State.sendLink s k dst type vc hops len body).kept = s.kept := by simp [State.sendLink]
@[simp] theorem State.route_kept (s : State) (f : SentFrame) : (State.route s f).kept = s.kept := by
  unfold State.route; split <;> simp
@[simp] theorem State.sendFrame_kept (s : State) (dst type vc hops len body : Nat) :
    (State.sendFrame s dst type vc hops len body).kept = s.kept := by simp [State.sendFrame]
@[simp] theorem State.releaseHeld_kept (s : State) : (State.releaseHeld s).kept = s.kept := by
  unfold State.releaseHeld
  repeat' first | simp | split | refine (State.foldl_kept _ (fun _ _ => ?_) _ _).trans ?_
@[simp] theorem State.sendNull_kept (s : State) (k : Nat) : (State.sendNull s k).kept = s.kept := by simp [State.sendNull]
@[simp] theorem State.sendMsg_kept (s : State) (type dst : Nat) (hdr : BitVec 128) (data : Option Tile) (mask : BitVec 64) (trailer : Nat) (answer : Bool) :
    (State.sendMsg s type dst hdr data mask trailer answer).kept = s.kept := by simp [State.sendMsg]
@[simp] theorem State.resendMsg_kept (s : State) (m : SentMsg) : (State.resendMsg s m).kept = s.kept := by simp [State.resendMsg]
@[simp] theorem State.mirTell_kept (s : State) (dst kind status homeLsn mirrorLsn count : Nat) :
    (State.mirTell s dst kind status homeLsn mirrorLsn count).kept = s.kept := by simp [State.mirTell]

/-! ### Machine/HomeOps.lean -/

@[simp] theorem State.setDir_kept (s : State) (k w : Nat) (e : DirEntry) : (State.setDir s k w e).kept = s.kept := by
  simp [State.setDir]
@[simp] theorem State.dirPut_kept (s : State) (k : Nat) (e : DirEntry) : (State.dirPut s k e).kept = s.kept := by
  unfold State.dirPut; split <;> simp
@[simp] theorem State.dirLookup_kept (s : State) (k : Nat) : (State.dirLookup s k).kept = s.kept := by
  unfold State.dirLookup
  repeat' first | simp | split
@[simp] theorem State.recordPeer_kept (s : State) (node : Nat) : (State.recordPeer s node).kept = s.kept := by
  unfold State.recordPeer; (repeat' split) <;> simp
@[simp] theorem State.modAct_kept (s : State) (id : Nat) (f : Act → Act) : (State.modAct s id f).kept = s.kept := by
  simp [State.modAct]
@[simp] theorem State.coh_kept (s : State) (opc dst aux tid line grant : Nat) (nc dirty stale : Bool) (data : Option Line) (mask : BitVec 64) (trailer : Nat) :
    (State.coh s opc dst aux tid line grant nc dirty stale data mask trailer).kept = s.kept := by simp [State.coh]
@[simp] theorem State.mir_kept (s : State) (opc dst tid line : Nat) (data : Option Tile) (mask : BitVec 64) (trailer : Nat) :
    (State.mir s opc dst tid line data mask trailer).kept = s.kept := by simp [State.mir]
@[simp] theorem State.unsend_kept (s : State) (p : SentMsg → Bool) : (State.unsend s p).kept = s.kept := by simp [State.unsend]
@[simp] theorem State.sendSnoop_kept (s : State) (k : Nat) (n : Snoop) : (State.sendSnoop s k n).2.kept = s.kept := by
  unfold State.sendSnoop
  repeat' first | simp | split
@[simp] theorem State.snoopAll_kept (s : State) (id k : Nat) (dest : List SnoopTo) (inv : Bool) :
    (State.snoopAll s id k dest inv).kept = s.kept := by simp [State.snoopAll]
@[simp] theorem State.sendWaiting_kept (s : State) : (State.sendWaiting s).kept = s.kept := by simp [State.sendWaiting]
@[simp] theorem State.conflictAcks_kept (s : State) (ld k : Nat) : (State.conflictAcks s ld k).kept = s.kept := by
  simp [State.conflictAcks]
@[simp] theorem State.notePoison_kept (s : State) (line : Nat) (scan : Bool) : (State.notePoison s line scan).kept = s.kept := by
  simp [State.notePoison]
@[simp] theorem State.dropPoison_kept (s : State) (r : HReq) : (State.dropPoison s r).kept = s.kept := by simp [State.dropPoison]
@[simp] theorem State.finishTally_kept (s : State) (a : Act) (poison : Bool) : (State.finishTally s a poison).kept = s.kept := by
  unfold State.finishTally
  repeat' first | simp | split
@[simp] theorem State.egressCheck_kept (s : State) (h ltn l : Nat) (d : Line) :
    (State.egressCheck s h ltn l d).2.kept = s.kept := by
  unfold State.egressCheck
  repeat' first | simp | split
@[simp] theorem State.answerRead_kept (s : State) (a : Act) (d : Line) (poison : Bool) (grant : Nat) :
    (State.answerRead s a d poison grant).kept = s.kept := by
  unfold State.answerRead
  repeat' first | simp | split
@[simp] theorem State.answerCmp_kept (s : State) (a : Act) (grant : Nat) : (State.answerCmp s a grant).kept = s.kept := by
  unfold State.answerCmp
  repeat' first | simp | split
@[simp] theorem State.tryClose_kept (s : State) (id : Nat) : (State.tryClose s id).kept = s.kept := by
  unfold State.tryClose; split <;> simp
@[simp] theorem State.tagLook_kept (s : State) (a : Act) (node ltn : Nat) :
    (State.tagLook s a node ltn).2.kept = s.kept := by
  unfold State.tagLook
  repeat' first | simp | split
@[simp] theorem State.tallyAccess_kept (s : State) (a : Act) (hit : Bool) :
    (State.tallyAccess s a hit).kept = s.kept := by
  unfold State.tallyAccess
  repeat' first | simp | split
@[simp] theorem State.missEnqueue_kept (s : State) (id ltn head : Nat) :
    (State.missEnqueue s id ltn head).kept = s.kept := by
  unfold State.missEnqueue
  repeat' first | simp | split
@[simp] theorem State.missJoin_kept (s : State) (id key : Nat) (why : RdWhy) (head ld : Nat) :
    (State.missJoin s id key why head ld).kept = s.kept := by
  unfold State.missJoin
  repeat' first | simp | split | refine (State.takeWay_kept (by assumption)).trans ?_ | intro _
@[simp] theorem State.accessRead_kept (s : State) (a : Act) (got : Option (Tile × BitVec 4)) :
    (State.accessRead s a got).2.kept = s.kept := by
  unfold State.accessRead
  repeat' first | simp | split | refine (State.spillMash_some (by assumption)).trans ?_
@[simp] theorem State.pinEvents_kept (s : State) (ltn cause : Nat) (first : Bool) :
    (State.pinEvents s ltn cause first).kept = s.kept := by simp [State.pinEvents]
@[simp] theorem State.wornLoss_kept (s : State) (ltn l : Nat) : (State.wornLoss s ltn l).kept = s.kept := by simp [State.wornLoss]
@[simp] theorem State.spillPin_kept (s : State) (ltn w cls : Nat) : (State.spillPin s ltn w cls).kept = s.kept := by
  simp [State.spillPin]
@[simp] theorem State.throughNow_kept (s : State) (ltn w : Nat) : (State.throughNow s ltn w).kept = s.kept := by
  simp [State.throughNow]
@[simp] theorem State.afterPlace_kept (s : State) (ltn w : Nat) (thru : Bool) :
    (State.afterPlace s ltn w thru).kept = s.kept := by
  unfold State.afterPlace
  repeat' first | simp | split
@[simp] theorem State.placeInWay_kept (s : State) (r : HReq) (w : Nat) (pin : Option Nat) :
    (State.placeInWay s r w pin).kept = s.kept := by unfold State.placeInWay; split <;> simp
@[simp] theorem State.mergeStaged_kept (s : State) (p : Prog) (r : HReq) : (State.mergeStaged s p r).kept = s.kept := by
  simp [State.mergeStaged]
@[simp] theorem State.dropRefresh_kept (s : State) (ltn : Nat) : (State.dropRefresh s ltn).kept = s.kept := by
  simp [State.dropRefresh]
@[simp] theorem State.placeFound_kept (s : State) (r : HReq) (w : Nat) (thru : Bool) :
    (State.placeFound s r w thru).2.kept = s.kept := by
  unfold State.placeFound
  repeat' first | simp | split | refine (State.takeWay_kept (by assumption)).trans ?_
@[simp] theorem State.placeMash_kept (s : State) (r : HReq) (m : Mash) (got : Option (Tile × BitVec 4)) (thru : Bool) :
    (State.placeMash s r m got thru).2.kept = s.kept := by
  unfold State.placeMash
  repeat' first | simp | split | refine (State.spillMash_some (by assumption)).trans ?_
@[simp] theorem State.placeThrough_kept (s : State) (r : HReq) (got : Option (Tile × BitVec 4)) :
    (State.placeThrough s r got).2.kept = s.kept := by
  unfold State.placeThrough
  repeat' first | simp | split
@[simp] theorem State.placeMiss_kept (s : State) (r : HReq) (got : Option (Tile × BitVec 4)) (thru : Bool) :
    (State.placeMiss s r got thru).2.kept = s.kept := by
  unfold State.placeMiss
  repeat' first | simp | split | refine (State.takeWay_kept (by assumption)).trans ?_
@[simp] theorem State.placeNew_kept (s : State) (r : HReq) (got : Option (Tile × BitVec 4)) (off streams thru : Bool) :
    (State.placeNew s r got off streams thru).2.kept = s.kept := by
  unfold State.placeNew
  repeat' first | simp | split | refine (State.mashRoom_ite (by assumption)).trans ?_
@[simp] theorem State.trackOnce_kept (s : State) (a : Act) :
    (State.trackOnce s a).2.kept = s.kept := by
  unfold State.trackOnce
  repeat' first | simp | split
@[simp] theorem State.placeHome_kept (s : State) (a : Act) (got : Option (Tile × BitVec 4)) :
    (State.placeHome s a got).2.kept = s.kept := by
  unfold State.placeHome
  repeat' first | simp | split
@[simp] theorem State.accessWrite_kept (s : State) (a : Act) (got : Option (Tile × BitVec 4)) :
    (State.accessWrite s a got).2.kept = s.kept := by
  unfold State.accessWrite
  repeat' first | simp | split
@[simp] theorem State.actWait_kept (s : State) (a : Act) (p : ActPhase) : (State.actWait s a p).kept = s.kept := by
  unfold State.actWait
  repeat' first | simp | split
@[simp] theorem State.sendMwr_kept (s : State) (a : Act) : (State.sendMwr s a).kept = s.kept := by simp [State.sendMwr]
@[simp] theorem State.cmpOwed_kept (s : State) (k : Nat) : (State.cmpOwed s k).kept = s.kept := by
  unfold State.cmpOwed; (repeat' split) <;> simp
@[simp] theorem State.writeDone_kept (s : State) (id : Nat) (grant : Nat) : (State.writeDone s id grant).kept = s.kept := by
  unfold State.writeDone; split <;> simp
@[simp] theorem State.grantDir_kept (s : State) (r : HReq) : (State.grantDir s r).kept = s.kept := by
  unfold State.grantDir
  repeat' first | simp | split
@[simp] theorem State.peerServed_kept (s : State) (id : Nat) : (State.peerServed s id).kept = s.kept := by
  unfold State.peerServed; (repeat' split) <;> simp
@[simp] theorem State.serve_kept (s : State) (id : Nat) (got : Option (Tile × BitVec 4)) : (State.serve s id got).kept = s.kept := by
  unfold State.serve
  repeat' first | simp | split
@[simp] theorem State.dropVisitor_kept (s : State) (k : Nat) : (State.dropVisitor s k).kept = s.kept := by
  unfold State.dropVisitor; split <;> simp
@[simp] theorem State.fillVisitor_kept (s : State) (k : Nat) (d : Line) (poison : Bool) :
    (State.fillVisitor s k d poison).kept = s.kept := by
  unfold State.fillVisitor
  repeat' first | simp | split | refine (State.takeWay_kept (by assumption)).trans ?_
@[simp] theorem State.askHome_kept (s : State) (a : Act) (opc wish : Nat) : (State.askHome s a opc wish).kept = s.kept := by
  unfold State.askHome
  repeat' first | simp | split
@[simp] theorem State.proxyGrant_kept (s : State) (r : HReq) : (State.proxyGrant s r).kept = s.kept := by
  unfold State.proxyGrant; split <;> simp
@[simp] theorem State.proxyGo_kept (s : State) (id : Nat) : (State.proxyGo s id).kept = s.kept := by
  unfold State.proxyGo
  repeat' first | simp | split
@[simp] theorem State.grantStage_kept (s : State) (id : Nat) : (State.grantStage s id).kept = s.kept := by
  unfold State.grantStage
  repeat' first | simp | split
@[simp] theorem State.snoopStage_kept (s : State) (id : Nat) : (State.snoopStage s id).kept = s.kept := by
  unfold State.snoopStage
  repeat' first | simp | split
@[simp] theorem State.dirStage_kept (s : State) (id : Nat) : (State.dirStage s id).kept = s.kept := by
  unfold State.dirStage
  repeat' first | simp | split
@[simp] theorem State.snoopsDone_kept (s : State) (id : Nat) : (State.snoopsDone s id).kept = s.kept := by
  unfold State.snoopsDone; (repeat' split) <;> simp
@[simp] theorem State.newAct_kept (s : State) (r : HReq) (wb : Bool) : (State.newAct s r wb).2.kept = s.kept := by
  simp [State.newAct]
@[simp] theorem State.start_kept (s : State) (r : HReq) : (State.start s r).kept = s.kept := by simp [State.start]
@[simp] theorem State.retryHeld_kept (s : State) : (State.retryHeld s).kept = s.kept := by simp [State.retryHeld]
@[simp] theorem unstall_kept (s : State) (x0 : List HReq) : (unstall s x0).kept = s.kept := by
  fun_induction unstall s x0 <;> first | rfl | exact Eq.trans (by assumption) (by simp +zetaDelta) | (simp +zetaDelta ; done)
@[simp] theorem State.pumpN_kept (x0 : Nat) (x1 : State) : (State.pumpN x0 x1).kept = x1.kept := by
  induction x0 generalizing x1 with
  | zero => rfl
  | succ n ih =>
    unfold State.pumpN
    dsimp only
    split
    · rw [ih]; simp
    · simp
@[simp] theorem State.gpfCheck_kept (s : State) : (State.gpfCheck s).kept = s.kept := by simp [State.gpfCheck]
@[simp] theorem State.noteCharge_kept (s : State) : (State.noteCharge s).kept = s.kept := by simp [State.noteCharge]
@[simp] theorem State.ownEnd_kept (s : State) (w : OwnWait) : (State.ownEnd s w).kept = s.kept := by
  unfold State.ownEnd
  repeat' first | simp | split
@[simp] theorem State.ownCheck_kept (s : State) : (State.ownCheck s).kept = s.kept := by simp [State.ownCheck]
@[simp] theorem State.pump_kept (s : State) : (State.pump s).kept = s.kept := by simp [State.pump]
@[simp] theorem State.takeWriteback_kept (s : State) (r : HReq) (slot : Nat) : (State.takeWriteback s r slot).kept = s.kept := by
  unfold State.takeWriteback
  repeat' first | simp | split
@[simp] theorem State.submit_kept (s : State) (r : HReq) : (State.submit s r).kept = s.kept := by simp [State.submit]
@[simp] theorem State.finishOwed_kept (s : State) (o : Owed) : (State.finishOwed s o).kept = s.kept := by
  unfold State.finishOwed
  repeat' first | simp | split
@[simp] theorem State.snoopAnswered_kept (s : State) (dest : SnoopTo) (isIt : Snoop → Bool) (gotS : Bool) :
    (State.snoopAnswered s dest isIt gotS).kept = s.kept := by unfold State.snoopAnswered; (repeat' split) <;> simp
@[simp] theorem State.unmapped_kept (s : State) (h ld hpa : Nat) : (State.unmapped s h ld hpa).kept = s.kept := by
  simp [State.unmapped]
@[simp] theorem State.hostRequest_kept (s : State) (h ldId tag hpa : Nat) (op : ReqOp) (kind : Nat) (meta_ : MetaValue) (data : Line) (mask : BitVec 64) (poison : Bool) :
    (State.hostRequest s h ldId tag hpa op kind meta_ data mask poison).kept = s.kept := by
  unfold State.hostRequest
  repeat' first | simp | split

/-! ### Machine/Home.lean -/

@[simp] theorem execMemrd_kept (h : HeadNo) (q : M2SReq) (s : State) : Res.keeps (execMemrd h q s) s := by simp [execMemrd]
@[simp] theorem execMeminv_kept (h : HeadNo) (q : M2SReq) (s : State) : Res.keeps (execMeminv h q s) s := by simp [execMeminv]
@[simp] theorem execMemwr_kept (h : HeadNo) (w : M2SRwD) (s : State) : Res.keeps (execMemwr h w s) s := by simp [execMemwr]
@[simp] theorem execMemwrptl_kept (h : HeadNo) (w : M2SRwD) (mask : BitVec 64) (s : State) :
    Res.keeps (execMemwrptl h w mask s) s := by simp [execMemwrptl]
@[simp] theorem execBirsp_kept (h : HeadNo) (biTag : Fin 64) (rsp : BiRsp) (s : State) : Res.keeps (execBirsp h biTag rsp s) s := by
  unfold execBirsp; split <;> simp
@[simp] theorem execBiconflict_kept (h : HeadNo) (ldId : Fin 16) (line : BitVec 39) (s : State) :
    Res.keeps (execBiconflict h ldId line s) s := by unfold execBiconflict; split <;> simp
@[simp] theorem State.takeSlot_kept (s : State) (ld : Nat) : (State.takeSlot s ld).kept = s.kept := by
  unfold State.takeSlot; split <;> simp
@[simp] theorem State.purgeDir_kept (s : State) (i : Nat) : (State.purgeDir s i).kept = s.kept := by
  unfold State.purgeDir
  repeat' first | simp | split
@[simp] theorem State.dirSlotFree_kept (s : State) (i : Nat) : (State.dirSlotFree s i).kept = s.kept := by
  unfold State.dirSlotFree
  repeat' first | simp | split
@[simp] theorem State.dirSlotNext_kept (s : State) : (State.dirSlotNext s).kept = s.kept := by
  unfold State.dirSlotNext
  repeat' first | simp | split
@[simp] theorem execSlotPurgeEnd_kept (slot : Fin 32) (s : State) : Res.keeps (execSlotPurgeEnd slot s) s := by
  unfold execSlotPurgeEnd
  repeat' first | simp | split
@[simp] theorem execWriteCreditGrant_kept (port : CreditPort) (s : State) : Res.keeps (execWriteCreditGrant port s) s := by
  unfold execWriteCreditGrant; split <;> simp

/-! ### Machine/RegOps.lean -/

@[simp] theorem State.modRegs_kept (s : State) (f : RegsSt → RegsSt) : (State.modRegs s f).kept = s.kept := by simp [State.modRegs]
@[simp] theorem State.rwpWrite_kept (s : State) (off mask val : Nat) (src : Option CmdSrc) (res : Nat := 0) (more : List (Nat × Nat × Nat) := []) :
    (State.rwpWrite s off mask val src res more).kept = s.kept := by
  unfold State.rwpWrite
  repeat' first | simp | split
@[simp] theorem State.ringPut_kept (s : State) (x : RwpStore) :
    (State.ringPut s x).kept = s.kept := by
  unfold State.ringPut
  repeat' first | simp | split
@[simp] theorem State.ringTake_kept (s : State) (off : Nat) :
    (State.ringTake s off).kept = s.kept := by
  unfold State.ringTake
  repeat' first | simp | split
@[simp] theorem State.ringLost_kept (s : State) (keys : List Nat) :
    (State.ringLost s keys).kept = s.kept := by
  unfold State.ringLost
  repeat' first | simp | split
@[simp] theorem State.storesCut_kept (s : State) (l : List RwpStore) :
    (State.storesCut s l).kept = s.kept := by
  unfold State.storesCut
  repeat' first | simp | split
@[simp] theorem State.useArm_kept (s : State) (req : Nat) : (State.useArm s req).2.kept = s.kept := by simp [State.useArm]
@[simp] theorem State.wordWrite_kept (s : State) (off val bits : Nat) (free : Bool) :
    (State.wordWrite s off val bits free).kept = s.kept := by simp [State.wordWrite]
@[simp] theorem State.dropStaged_kept (s : State) (mask : Nat) : (State.dropStaged s mask).kept = s.kept := by
  simp [State.dropStaged]
@[simp] theorem State.cmdStored_kept (s : State) (src : CmdSrc) (result : Nat) (data : List Byte) :
    (State.cmdStored s src result data).kept = s.kept := by simp [State.cmdStored]

/-! ### Machine/CacheJobs.lean -/

@[simp] theorem State.modCache_kept (s : State) (f : Cache → Cache) : (State.modCache s f).kept = s.kept := by simp [State.modCache]
@[simp] theorem State.settleWrites_kept (s : State) (ltn : Nat) : (State.settleWrites s ltn).kept = s.kept := by
  simp [State.settleWrites]
@[simp] theorem State.cleanSet_kept (s : State) (ltn cls : Nat) (x0 : Nat) : (State.cleanSet s ltn cls x0).kept = s.kept := by
  fun_induction State.cleanSet s ltn cls x0 <;> first | rfl | exact Eq.trans (by assumption) (by simp +zetaDelta) | (simp +zetaDelta ; done)
@[simp] theorem State.cleanWalk_kept (s : State) : (State.cleanWalk s).kept = s.kept := by simp [State.cleanWalk]
@[simp] theorem State.throughStart_kept (s : State) :
    (State.throughStart s).kept = s.kept := by
  unfold State.throughStart
  repeat' first | simp | split | refine (State.spillMash_some (by assumption)).trans ?_
@[simp] theorem State.cleanTile_kept (s : State) (ltn : Nat) : (State.cleanTile s ltn).kept = s.kept := by
  unfold State.cleanTile
  repeat' first | simp | split
@[simp] theorem State.modJob_kept (s : State) (f : RangeJob → RangeJob) : (State.modJob s f).kept = s.kept := by simp [State.modJob]
@[simp] theorem State.rangeTreat_kept (s : State) (j : RangeJob) (ltn : Nat) : (State.rangeTreat s j ltn).kept = s.kept := by
  unfold State.rangeTreat; (repeat' split) <;> simp
@[simp] theorem State.rangeStart_kept (s : State) : (State.rangeStart s).kept = s.kept := by unfold State.rangeStart; split <;> simp
@[simp] theorem State.rangeQueue_kept (s : State) (j : RangeJob) : (State.rangeQueue s j).kept = s.kept := by simp [State.rangeQueue]
@[simp] theorem State.rangeSeen_kept (s : State) (ltn : Nat) : (State.rangeSeen s ltn).kept = s.kept := by
  unfold State.rangeSeen; split <;> simp
@[simp] theorem State.rangeEnd_kept (s : State) : (State.rangeEnd s).kept = s.kept := by unfold State.rangeEnd; split <;> simp
@[simp] theorem State.cleanLd_kept (s : State) (ld : Nat) : (State.cleanLd s ld).2.kept = s.kept := by simp [State.cleanLd]
@[simp] theorem State.disableStart_kept (s : State) (ld : Nat) (src : Option CmdSrc) :
    (State.disableStart s ld src).kept = s.kept := by simp [State.disableStart]
@[simp] theorem State.disableStep_kept (s : State) (ld : Nat) : (State.disableStep s ld).kept = s.kept := by
  unfold State.disableStep
  repeat' first | simp | split
@[simp] theorem State.enableLd_kept (s : State) (ld : Nat) : (State.enableLd s ld).kept = s.kept := by simp [State.enableLd]
@[simp] theorem State.wayTreat_kept (s : State) (ltn w : Nat) : (State.wayTreat s ltn w).kept = s.kept := by
  unfold State.wayTreat
  repeat' first | simp | split | refine (State.takeWay_kept (by assumption)).trans ?_ | intro _
@[simp] theorem State.wayWalk_kept (s : State) : (State.wayWalk s).kept = s.kept := by simp [State.wayWalk]
@[simp] theorem State.wayStart_kept (s : State) (enc : Nat) (src : Option CmdSrc) : (State.wayStart s enc src).kept = s.kept := by
  simp [State.wayStart]
@[simp] theorem State.wayWant_kept (s : State) : (State.wayWant s).kept = s.kept := by simp [State.wayWant]
@[simp] theorem State.wayFinish_kept (s : State) : (State.wayFinish s).kept = s.kept := by unfold State.wayFinish; split <;> simp
@[simp] theorem State.waySeen_kept (s : State) (ltn : Nat) : (State.waySeen s ltn).kept = s.kept := by simp [State.waySeen]
@[simp] theorem State.visitorOut_kept (s : State) (src : Option CmdSrc) : (State.visitorOut s src).kept = s.kept := by
  simp [State.visitorOut]

end Sys2Proof.Machine
end

