-- ==== Sys2Proof/Laws/KeptMedia.lean ====
section
/-!
SUPPORT. What hardly any command changes, kept by the operations of the media chapters: one lemma for each of them (R10, R219, R395, R479).
-/

namespace Sys2Proof.Machine

/-! ### Machine/MapWork.lean -/

@[simp] theorem State.mapProgs_kept (s : State) (f : Prog → Prog) : (State.mapProgs s f).kept = s.kept := by simp [State.mapProgs]
@[simp] theorem State.modMark_kept (s : State) (psn : Nat) (f : Marking → Marking) : (State.modMark s psn f).kept = s.kept := by
  simp [State.modMark]
@[simp] theorem State.markFeed_kept (s : State) (psn : Nat) :
    (State.markFeed s psn).kept = s.kept := by
  unfold State.markFeed
  repeat' first | simp | split
@[simp] theorem State.markProgDone_kept (s : State) (p : Prog) : (State.markProgDone s p).kept = s.kept := by
  simp [State.markProgDone]
@[simp] theorem State.unblockWith_kept (s : State) (ltn : Nat) (prev : Option Prog) :
    (State.unblockWith s ltn prev).kept = s.kept := by
  unfold State.unblockWith
  repeat' first | simp | split
@[simp] theorem State.unblock_kept (s : State) (ltn : Nat) : (State.unblock s ltn).kept = s.kept := by simp [State.unblock]
@[simp] theorem State.modCopy_kept (s : State) (lsn : Nat) (f : Copy → Copy) : (State.modCopy s lsn f).kept = s.kept := by
  simp [State.modCopy]
@[simp] theorem State.copyBegin_kept (s : State) (lsn : Nat) (why : CopyWhy) : (State.copyBegin s lsn why).kept = s.kept := by
  unfold State.copyBegin
  repeat' first | simp | split | refine pair_kept (by assumption) ?_
@[simp] theorem State.copyTileDone_kept (s : State) (lsn t : Nat) : (State.copyTileDone s lsn t).kept = s.kept := by
  simp [State.copyTileDone]
@[simp] theorem State.copyRedo_kept (s : State) (lsn t psn : Nat) : (State.copyRedo s lsn t psn).kept = s.kept := by
  simp [State.copyRedo]
@[simp] theorem State.unpin_kept (s : State) (p : Nat → Nat → Bool) : (State.unpin s p).kept = s.kept := by simp [State.unpin]
@[simp] theorem State.listedOut_kept (s : State) (ltn cls : Nat) (mask : BitVec 4) :
    (State.listedOut s ltn cls mask).kept = s.kept := by unfold State.listedOut; split <;> simp
@[simp] theorem State.mapWorn_kept (s : State) (lsn : Nat) : (State.mapWorn s lsn).kept = s.kept := by
  unfold State.mapWorn
  repeat' first | simp | split | refine pair_kept (by assumption) ?_
@[simp] theorem State.poolGain_kept (s : State) : (State.poolGain s).kept = s.kept := by
  unfold State.poolGain
  repeat' first | simp | split
@[simp] theorem State.poolGains_kept (s : State) (before : Nat) :
    (State.poolGains s before).kept = s.kept := by
  unfold State.poolGains
  repeat' first | simp | split
@[simp] theorem State.rackFeed_kept (s : State) (x0 : Nat) :
    (State.rackFeed s x0).kept = s.kept := by
  fun_induction State.rackFeed s x0 <;> simp_all
@[simp] theorem State.becomeWorn_kept (s : State) (lsn : Nat) : (State.becomeWorn s lsn).kept = s.kept := by simp [State.becomeWorn]
@[simp] theorem State.scrubbed_kept (s : State) (psn : Nat) :
    (State.scrubbed s psn).kept = s.kept := by
  unfold State.scrubbed
  repeat' first | simp | split
@[simp] theorem State.residueFeed_kept (s : State) (x0 : Nat) :
    (State.residueFeed s x0).kept = s.kept := by
  fun_induction State.residueFeed s x0 <;> simp_all
@[simp] theorem State.markEnd_kept (s : State) (psn : Nat) : (State.markEnd s psn).kept = s.kept := by
  unfold State.markEnd; split <;> simp
@[simp] theorem State.scrubSlot_kept (s : State) (lsn psn : Nat) : (State.scrubSlot s lsn psn).kept = s.kept := by
  unfold State.scrubSlot
  repeat' first | simp | split
@[simp] theorem State.residueAdd_kept (s : State) (lsn psn : Nat) : (State.residueAdd s lsn psn).kept = s.kept := by
  unfold State.residueAdd
  split
  · rfl
  · dsimp only
    split
    · rw [State.scrubSlot_kept, State.modMap_kept]
    · rw [State.residueFeed_kept, State.modMap_kept]
@[simp] theorem State.copySwitch_kept (s : State) (c : Copy) : (State.copySwitch s c).kept = s.kept := by simp [State.copySwitch]
@[simp] theorem State.copyPassEnd_kept (s : State) (lsn : Nat) : (State.copyPassEnd s lsn).kept = s.kept := by
  unfold State.copyPassEnd; split <;> simp
@[simp] theorem State.modRun_kept (s : State) (lsn : Nat) (f : RekeyRun → RekeyRun) : (State.modRun s lsn f).kept = s.kept := by
  simp [State.modRun]
@[simp] theorem State.rekeyFeed_kept (s : State) (lsn : Nat) (x0 : Nat) : (State.rekeyFeed s lsn x0).kept = s.kept := by
  fun_induction State.rekeyFeed s lsn x0 <;> first | rfl | exact Eq.trans (by assumption) (by simp +zetaDelta) | (simp +zetaDelta ; done)
@[simp] theorem State.rekeyLdDone_kept (s : State) : (State.rekeyLdDone s).kept = s.kept := by simp [State.rekeyLdDone]
@[simp] theorem State.keyDelete_kept (s : State) (idx : Nat) : (State.keyDelete s idx).kept = s.kept := by simp [State.keyDelete]
@[simp] theorem State.rotationRetire_kept (s : State) : (State.rotationRetire s).kept = s.kept := by simp [State.rotationRetire]
@[simp] theorem State.rekeyBegin_kept (s : State) (r : Rekey) : (State.rekeyBegin s r).kept = s.kept := by simp [State.rekeyBegin]
@[simp] theorem State.rekeyEnd_kept (s : State) (lsn : Nat) : (State.rekeyEnd s lsn).kept = s.kept := by
  unfold State.rekeyEnd; split <;> simp
@[simp] theorem State.rekeyStop_kept (s : State) (lsn : Nat) : (State.rekeyStop s lsn).kept = s.kept := by simp [State.rekeyStop]
@[simp] theorem State.modDisc_kept (s : State) (id : Nat) (f : Discard → Discard) : (State.modDisc s id f).kept = s.kept := by
  simp [State.modDisc]
@[simp] theorem State.discFeed_kept (s : State) (x0 : Nat) : (State.discFeed s x0).kept = s.kept := by
  fun_induction State.discFeed s x0 <;> first | rfl | exact Eq.trans (by assumption) (by simp +zetaDelta) | (simp +zetaDelta ; done)
@[simp] theorem State.discAfter_kept (s : State) (d : Discard) : (State.discAfter s d).kept = s.kept := by
  unfold State.discAfter
  repeat' first | simp | split
@[simp] theorem State.discDone_kept (s : State) : (State.discDone s).kept = s.kept := by simp [State.discDone]
@[simp] theorem State.dropSegment_kept (s : State) (lsn : Nat) : (State.dropSegment s lsn).kept = s.kept := by
  simp [State.dropSegment]
@[simp] theorem State.discSegment_kept (s : State) (lsn : Nat) (secure : Bool) (advance : Bool := false) :
    (State.discSegment s lsn secure advance).kept = s.kept := by
  unfold State.discSegment
  repeat' first | simp | split
@[simp] theorem State.discDrained_kept (s : State) (lsn : Nat) : (State.discDrained s lsn).kept = s.kept := by
  simp [State.discDrained]
@[simp] theorem State.discTile_kept (s : State) (id ltn : Nat) : (State.discTile s id ltn).kept = s.kept := by simp [State.discTile]
@[simp] theorem State.discTileDone_kept (s : State) (ltn : Nat) : (State.discTileDone s ltn).kept = s.kept := by
  simp [State.discTileDone]
@[simp] theorem State.discStart_kept (s : State) (scope : DiscScope) (secure : Bool) (runs : List (Nat × Nat)) (src : Option CmdSrc) (fromReg : Bool) (why dpa : Nat) :
    (State.discStart s scope secure runs src fromReg why dpa).kept = s.kept := by simp [State.discStart]

/-! ### Machine/MediaOps.lean -/

@[simp] theorem State.sendPacket_kept (s : State) (op die part cidx arg : Nat) (data : Option Chunk) :
    (State.sendPacket s op die part cidx arg data).kept = s.kept := by simp [State.sendPacket]
@[simp] theorem State.sendRead_kept (s : State) (r : Reg) (k : Nat) (off : Int) : (State.sendRead s r k off).kept = s.kept := by
  simp [State.sendRead]
@[simp] theorem State.sendRound_kept (s : State) (r : Reg) (k : Nat) (o : Int) :
    (State.sendRound s r k o).kept = s.kept := by
  unfold State.sendRound
  repeat' first | simp | split
@[simp] theorem State.patrolMore_kept (s : State) :
    (State.patrolMore s).kept = s.kept := by
  unfold State.patrolMore
  repeat' first | simp | split
@[simp] theorem State.sendReads_kept (s : State) (r : Reg) (l : List (Nat × Int)) : (State.sendReads s r l).kept = s.kept := by
  simp [State.sendReads]
@[simp] theorem State.latchReg_kept (s : State) (r : Reg) : (State.latchReg s r).kept = s.kept := by simp [State.latchReg]
@[simp] theorem State.sendChunk_kept (s : State) (id k : Nat) : (State.sendChunk s id k).kept = s.kept := by
  unfold State.sendChunk; split <;> simp
@[simp] theorem State.releaseHolds_kept (s : State) : (State.releaseHolds s).kept = s.kept := by simp [State.releaseHolds]
@[simp] theorem State.waveFrom_kept (s : State) (p : Prog) (w : Nat) : optKeeps (State.waveFrom s p w) s := by
  unfold State.waveFrom
  repeat' first | simp | split
theorem State.waveFrom_some {s : State} {p : Prog} {w : Nat} {t : State} (h : State.waveFrom s p w = some t) :
    t.kept = s.kept := opt_kept h (State.waveFrom_kept s p w)
@[simp] theorem State.resumePaused_kept (s : State) : (State.resumePaused s).kept = s.kept := by
  unfold State.resumePaused
  repeat' first | simp | split
@[simp] theorem State.retrainGo_kept (s : State) :
    (State.retrainGo s).kept = s.kept := by
  unfold State.retrainGo
  repeat' first | simp | split

/-! ### Machine/SpareOps.lean -/

@[simp] theorem State.modPatrol_kept (s : State) (f : Patrol → Patrol) : (State.modPatrol s f).kept = s.kept := by
  simp [State.modPatrol]
@[simp] theorem State.tallyTile_kept (s : State) (lsn : Nat) : (State.tallyTile s lsn).kept = s.kept := by simp [State.tallyTile]
@[simp] theorem State.refreshAdd_kept (s : State) (psn t lsn : Nat) (cipher : Tile) (f : FieldBlock) :
    (State.refreshAdd s psn t lsn cipher f).kept = s.kept := by simp [State.refreshAdd]
@[simp] theorem State.abandonInto_kept (s : State) (ds : Nat) : (State.abandonInto s ds).kept = s.kept := by simp [State.abandonInto]
@[simp] theorem State.doubleSweep_kept (s : State) : (State.doubleSweep s).kept = s.kept := by simp [State.doubleSweep]
@[simp] theorem State.lossUpdate_kept (s : State) (ds : Nat) : (State.lossUpdate s ds).kept = s.kept := by simp [State.lossUpdate]
@[simp] theorem State.spareIn_kept (s : State) (ds m die : Nat) : (State.spareIn s ds m die).kept = s.kept := by simp [State.spareIn]
@[simp] theorem State.noSpareFor_kept (s : State) (ds m : Nat) :
    (State.noSpareFor s ds m).kept = s.kept := by
  unfold State.noSpareFor
  repeat' first | simp | split
@[simp] theorem State.memberLost_kept (s : State) (ds m : Nat) : (State.memberLost s ds m).kept = s.kept := by
  simp [State.memberLost]
@[simp] theorem State.spareOne_kept (s : State) (ds m d : Nat) : (State.spareOne s ds m d).kept = s.kept := by
  unfold State.spareOne; split <;> simp
@[simp] theorem State.markFailed_kept (s : State) (die cause : Nat) : (State.markFailed s die cause).kept = s.kept := by
  simp [State.markFailed]
@[simp] theorem State.chanFail_kept (s : State) (ch : Nat) : (State.chanFail s ch).kept = s.kept := by
  unfold State.chanFail
  repeat' first | simp | split
@[simp] theorem State.diesFail_kept (s : State) (dies : List Nat) (cause : Nat) :
    (State.diesFail s dies cause).kept = s.kept := by
  unfold State.diesFail
  repeat' first | simp | split
@[simp] theorem State.dieFail_kept (s : State) (die cause : Nat) : (State.dieFail s die cause).kept = s.kept := by
  unfold State.dieFail
  repeat' first | simp | split
@[simp] theorem State.dieCount_kept (s : State) (die : Nat) : (State.dieCount s die).kept = s.kept := by simp [State.dieCount]
@[simp] theorem State.modRebuild_kept (s : State) (ds m : Nat) (f : Rebuild → Rebuild) :
    (State.modRebuild s ds m f).kept = s.kept := by simp [State.modRebuild]
@[simp] theorem State.rebuildPump_kept (s : State) (x0 : Nat) : (State.rebuildPump s x0).kept = s.kept := by
  fun_induction State.rebuildPump s x0 <;> first | rfl | exact Eq.trans (by assumption) (by simp +zetaDelta) | (simp +zetaDelta ; done)
@[simp] theorem State.rebuildNext_kept (s : State) (ds m : Nat) : (State.rebuildNext s ds m).kept = s.kept := by
  unfold State.rebuildNext; split <;> simp
@[simp] theorem State.rebuildIssued_kept (s : State) (psn t : Nat) :
    (State.rebuildIssued s psn t).kept = s.kept := by
  unfold State.rebuildIssued
  repeat' first | simp | split
@[simp] theorem State.rebuildChunk_kept (s : State) (m psn t : Nat) (cipher : Tile) (f : FieldBlock) :
    (State.rebuildChunk s m psn t cipher f).kept = s.kept := by
  unfold State.rebuildChunk
  repeat' first | simp | split
@[simp] theorem State.rebuildGo_kept (s : State) : (State.rebuildGo s).kept = s.kept := by
  unfold State.rebuildGo
  refine State.foldl_kept _ (fun s p => ?_) _ _
  repeat' first | (dsimp only) | split | simp
@[simp] theorem State.rebuildEnd_kept (s : State) (ds m : Nat) : (State.rebuildEnd s ds m).kept = s.kept := by
  unfold State.rebuildEnd
  repeat' first | simp | split
@[simp] theorem State.rebuildTile_kept (s : State) (b : Rebuild) : (State.rebuildTile s b).kept = s.kept := by
  simp [State.rebuildTile]
@[simp] theorem State.rebuildStep_kept (s : State) (ds : Nat) : (State.rebuildStep s ds).kept = s.kept := by
  unfold State.rebuildStep
  repeat' first | simp | split
@[simp] theorem State.patrolWrap_kept (s : State) (ds : Nat) : (State.patrolWrap s ds).kept = s.kept := by simp [State.patrolWrap]
@[simp] theorem State.patrolTile_kept (s : State) (ds : Nat) : (State.patrolTile s ds).kept = s.kept := by
  unfold State.patrolTile
  repeat' first | simp | split

/-! ### Machine/ReadOps.lean -/

@[simp] theorem State.tallyOpen_kept (s : State) (r : Reg) (x : Found × Option FieldBlock) :
    (State.tallyOpen s r x).kept = s.kept := by
  unfold State.tallyOpen
  repeat' first | simp | split
@[simp] theorem State.modReads_kept (s : State) (f : Reads → Reads) : (State.modReads s f).kept = s.kept := by simp [State.modReads]
@[simp] theorem State.learnTrims_kept (s : State) (r : Reg) : (State.learnTrims s r).kept = s.kept := by simp [State.learnTrims]
@[simp] theorem State.countBad_kept (s : State) (r : Reg) : (State.countBad s r).kept = s.kept := by simp [State.countBad]
@[simp] theorem State.addBits_kept (s : State) (r : Reg) : (State.addBits s r).kept = s.kept := by
  unfold State.addBits
  repeat' first | simp | split | refine (State.foldl_kept _ (fun _ _ => ?_) _ _).trans ?_
@[simp] theorem State.earlyCount_kept (s : State) (p : Prog) (w : Nat) : (State.earlyCount s p w).kept = s.kept := by
  simp [State.earlyCount]
theorem State.pinInWay_kept {s : State} {p : Prog} {here : Option Nat} {cause : Nat} {dirty : BitVec 4} {w : Nat} {t : State} (h : s.pinInWay p here cause dirty = some (w, t)) :
    t.kept = s.kept := by
  unfold State.pinInWay at h
  dsimp only at h
  split at h
  · cases h; simp
  · obtain ⟨⟨v, u⟩, hu, hx⟩ := Option.map_eq_some_iff.mp h
    cases hx
    simp [State.takeWay_kept hu]
@[simp] theorem State.pinProg_kept (s : State) (p : Prog) (cause : Nat) : (State.pinProg s p cause).kept = s.kept := by
  unfold State.pinProg
  repeat' first | simp | split | refine (State.pinInWay_kept (by assumption)).trans ?_ | intro _
@[simp] theorem State.counterUnknown_kept (s : State) (p : Prog) : (State.counterUnknown s p).kept = s.kept := by
  simp [State.counterUnknown]
@[simp] theorem State.progReady_kept (s : State) (p : Prog) : (State.progReady s p).kept = s.kept := by simp [State.progReady]
@[simp] theorem State.sendWith_kept (s : State) (why : PgWhy) (cls ltn : Nat) (data : Tile) (poison : BitVec 4) (f : Option FieldBlock) :
    (State.sendWith s why cls ltn data poison f).kept = s.kept := by unfold State.sendWith; split <;> simp
@[simp] theorem State.dropReg_kept (s : State) (k : TileRef) : (State.dropReg s k).kept = s.kept := by simp [State.dropReg]
@[simp] theorem State.giveProg_kept (s : State) (p : Prog) (g : Got) : (State.giveProg s p g).kept = s.kept := by
  unfold State.giveProg; (repeat' split) <;> simp
@[simp] theorem State.missPump_kept (s : State) (x0 : Nat) : (State.missPump s x0).kept = s.kept := by
  fun_induction State.missPump s x0 <;> first | rfl | exact Eq.trans (by assumption) (by simp +zetaDelta) | (simp +zetaDelta ; done)
@[simp] theorem State.afterReg_kept (s : State) (ltn : Nat) : (State.afterReg s ltn).kept = s.kept := by simp [State.afterReg]
@[simp] theorem State.deliver_kept (s : State) (r : Reg) (g : Got) : (State.deliver s r g).kept = s.kept := by
  unfold State.deliver
  repeat' first | simp | split | refine (State.takeWay_kept (by assumption)).trans ?_
@[simp] theorem State.retryWays_kept (s : State) : (State.retryWays s).kept = s.kept := by simp [State.retryWays]
@[simp] theorem State.fillDirty_kept (s : State) (ltn : Nat) (t : Tile) (poison : BitVec 4) (cls : Nat) :
    (State.fillDirty s ltn t poison cls).kept = s.kept := by
  unfold State.fillDirty
  repeat' first | simp | split | refine (State.takeWay_kept (by assumption)).trans ?_
@[simp] theorem State.sendMrd_kept (s : State) (ltn : Nat) (bounded : Bool) : (State.sendMrd s ltn bounded).kept = s.kept := by
  simp [State.sendMrd]
@[simp] theorem State.answerMrds_kept (s : State) (ltn : Nat) (got : Option (Tile × BitVec 4)) (p : Nat → Bool) :
    (State.answerMrds s ltn got p).kept = s.kept := by
  unfold State.answerMrds
  repeat' first | simp | split | refine (State.foldl_kept _ (fun _ _ => ?_) _ _).trans ?_
@[simp] theorem State.mirrorFix_kept (s : State) (ltn : Nat) (t : Tile) (poison bad : BitVec 4) :
    (State.mirrorFix s ltn t poison bad).kept = s.kept := by
  unfold State.mirrorFix
  repeat' first | simp | split | refine (State.takeWay_kept (by assumption)).trans ?_ | intro _
@[simp] theorem State.mirrorBack_kept (s : State) (ltn : Nat) (t : Tile) (poison : BitVec 4) :
    (State.mirrorBack s ltn t poison).kept = s.kept := by simp [State.mirrorBack]
@[simp] theorem State.lostProgram_kept (s : State) (ltn : Nat) : (State.lostProgram s ltn).kept = s.kept := by
  simp [State.lostProgram]
@[simp] theorem State.lostFix_kept (s : State) (ltn : Nat) : (State.lostFix s ltn).kept = s.kept := by simp [State.lostFix]
@[simp] theorem State.applyFixes_kept (s : State) (ltn : Nat) (bad : BitVec 4) : (State.applyFixes s ltn bad).kept = s.kept := by
  simp [State.applyFixes]
@[simp] theorem State.noteEnd_kept (s : State) (r : Reg) (ltn : Nat) (e : ReadEnd) : (State.noteEnd s r ltn e).kept = s.kept := by
  unfold State.noteEnd
  repeat' first | simp | split
@[simp] theorem State.copyRead_kept (s : State) (lsn t : Nat) (e : ReadEnd) : (State.copyRead s lsn t e).kept = s.kept := by
  unfold State.copyRead; (repeat' split) <;> simp
@[simp] theorem State.noteLines_kept (s : State) (ltn : Nat) (m : BitVec 4) : (State.noteLines s ltn m).kept = s.kept := by
  simp [State.noteLines]
@[simp] theorem State.patrolRead_kept (s : State) (r : Reg) (e : ReadEnd) : (State.patrolRead s r e).kept = s.kept := by
  unfold State.patrolRead; (repeat' split) <;> simp
@[simp] theorem State.rebuildRead_kept (s : State) (r : Reg) (e : ReadEnd) : (State.rebuildRead s r e).kept = s.kept := by
  unfold State.rebuildRead; (repeat' split) <;> simp
@[simp] theorem State.rekeyRead_kept (s : State) (lsn t : Nat) (e : ReadEnd) : (State.rekeyRead s lsn t e).kept = s.kept := by
  unfold State.rekeyRead; split <;> simp
@[simp] theorem State.patternRead_kept (s : State) (ltn : Nat) (g : Got) :
    (State.patternRead s ltn g).kept = s.kept := by
  unfold State.patternRead
  repeat' first | simp | split
@[simp] theorem State.scanRead_kept (s : State) (ltn : Nat) (g : Got) : (State.scanRead s ltn g).kept = s.kept := by
  simp [State.scanRead]
@[simp] theorem State.rsyncRead_kept (s : State) (ltn : Nat) (g : Got) : (State.rsyncRead s ltn g).kept = s.kept := by
  simp [State.rsyncRead]
@[simp] theorem State.readEnd_kept (s : State) (r : Reg) (e : ReadEnd) : (State.readEnd s r e).kept = s.kept := by
  unfold State.readEnd; (repeat' split) <;> simp
@[simp] theorem State.fillEnd_kept (s : State) (r : Reg) (e : ReadEnd) :
    (State.fillEnd s r e).kept = s.kept := by
  unfold State.fillEnd
  repeat' first | simp | split
@[simp] theorem State.discardNow_kept (s : State) (scope : DiscScope) (secure : Bool) (runs : List (Nat × Nat)) (src : Option CmdSrc) (fromReg : Bool) (why dpa : Nat) :
    (State.discardNow s scope secure runs src fromReg why dpa).kept = s.kept := by
  unfold State.discardNow
  repeat' first | simp | split
@[simp] theorem State.rangeNow_kept (s : State) (j : RangeJob) :
    (State.rangeNow s j).kept = s.kept := by
  unfold State.rangeNow
  repeat' first | simp | split
@[simp] theorem State.mirrorAsk_kept (s : State) (r : Reg) (torn : Bool) :
    optKeeps (State.mirrorAsk s r torn) s := by
  unfold State.mirrorAsk
  repeat' first | simp | split
theorem State.mirrorAsk_some {s : State} {r : Reg} {torn : Bool} {t : State} (h : State.mirrorAsk s r torn = some t) :
    t.kept = s.kept := opt_kept h (State.mirrorAsk_kept s r torn)
theorem State.mirrorAsk_ite {c : Prop} [Decidable c] {s : State} {r : Reg} {torn : Bool} {t : State}
    (h : (if c then s.mirrorAsk r torn else none) = some t) : t.kept = s.kept := by
  split at h
  · exact State.mirrorAsk_some h
  · cases h
@[simp] theorem State.lastRow_kept (s : State) (r : Reg) (f : Option FieldBlock) : (State.lastRow s r f).kept = s.kept := by
  unfold State.lastRow
  repeat' first | simp | split | refine (State.mirrorAsk_ite (by assumption)).trans ?_ | intro _

/-! ### Machine/Cache.lean -/

@[simp] theorem execTagCacheMissReturn_kept (set : BitVec 24) (visitor : Bool) (s : State) :
    Res.keeps (execTagCacheMissReturn set visitor s) s := by simp [execTagCacheMissReturn]
@[simp] theorem execMashIdleTimeout_kept (ltn : BitVec 37) (s : State) : Res.keeps (execMashIdleTimeout ltn s) s := by
  unfold execMashIdleTimeout
  split
  · split <;> simp
  · simp
@[simp] theorem execStreamTrackerTimeout_kept (i : Fin 64) (s : State) : Res.keeps (execStreamTrackerTimeout i s) s := by
  simp [execStreamTrackerTimeout]
@[simp] theorem execCleanerStart_kept (s : State) : Res.keeps (execCleanerStart s) s := by simp [execCleanerStart]
@[simp] theorem execCleanerStop_kept (s : State) : Res.keeps (execCleanerStop s) s := by simp [execCleanerStop]
@[simp] theorem execDisableCleanDone_kept (ld : LdNo) (s : State) : Res.keeps (execDisableCleanDone ld s) s := by
  simp [execDisableCleanDone]
@[simp] theorem execWayChangeEnd_kept (s : State) : Res.keeps (execWayChangeEnd s) s := by simp [execWayChangeEnd]
@[simp] theorem execHbmWayWakeEnd_kept (s : State) : Res.keeps (execHbmWayWakeEnd s) s := by simp [execHbmWayWakeEnd]
@[simp] theorem execRangeJobEnd_kept (s : State) : Res.keeps (execRangeJobEnd s) s := by simp [execRangeJobEnd]

/-! ### Machine/Map.lean -/

@[simp] theorem State.checkpointStart_kept (s : State) : (State.checkpointStart s).kept = s.kept := by simp [State.checkpointStart]
@[simp] theorem execCheckpointDue_kept (s : State) : Res.keeps (execCheckpointDue s) s := by simp [execCheckpointDue]
@[simp] theorem execCheckpointEnd_kept (s : State) : Res.keeps (execCheckpointEnd s) s := by simp [execCheckpointEnd]
@[simp] theorem execCopyStart_kept (lsn : BitVec 25) (s : State) : Res.keeps (execCopyStart lsn s) s := by
  unfold execCopyStart
  repeat' first | simp | split
@[simp] theorem execCopyPassEnd_kept (lsn : BitVec 25) (s : State) : Res.keeps (execCopyPassEnd lsn s) s := by simp [execCopyPassEnd]
@[simp] theorem execReleaseMarkStart_kept (psn : BitVec 26) (s : State) : Res.keeps (execReleaseMarkStart psn s) s := by
  unfold execReleaseMarkStart
  repeat' first | simp | split
@[simp] theorem execReleaseMarkEnd_kept (psn : BitVec 26) (s : State) : Res.keeps (execReleaseMarkEnd psn s) s := by
  simp [execReleaseMarkEnd]
@[simp] theorem execEndureReached_kept (lsn : BitVec 25) (s : State) : Res.keeps (execEndureReached lsn s) s := by
  unfold execEndureReached
  repeat' first | simp | split
@[simp] theorem execDiscardHoldDrained_kept (lsn : BitVec 25) (s : State) : Res.keeps (execDiscardHoldDrained lsn s) s := by
  simp [execDiscardHoldDrained]
@[simp] theorem execRekeyStart_kept (g : GroupNo) (s : State) : Res.keeps (execRekeyStart g s) s := by
  unfold execRekeyStart; split <;> simp
@[simp] theorem execRekeyEnd_kept (lsn : BitVec 25) (s : State) : Res.keeps (execRekeyEnd lsn s) s := by simp [execRekeyEnd]

/-! ### Machine/ReadPath.lean -/

@[simp] theorem State.prefetch_kept (s : State) (r : Reg) (ltn : Nat) : (State.prefetch s r ltn).kept = s.kept := by
  unfold State.prefetch
  dsimp only
  split
  · rfl
  · refine State.foldl_kept _ (fun s t => ?_) _ _
    split
    · rename_i h
      have h2 := (Option.ite_none_right_eq_some.mp h).2
      simp [State.takeWay_kept h2]
    · simp
@[simp] theorem execMapEntryReturn_kept (ltn : BitVec 37) (s : State) : Res.keeps (execMapEntryReturn ltn s) s := by
  unfold execMapEntryReturn; split <;> simp
@[simp] theorem State.copyUnread_kept (s : State) (ltn : Nat) :
    (State.copyUnread s ltn).kept = s.kept := by
  unfold State.copyUnread
  repeat' first | simp | split
theorem State.scanReg_kept {s : State} {k : TileRef} {r : Reg} {t : State} (h : s.scanReg k = some (r, t)) : t.kept = s.kept := by
  unfold State.scanReg at h
  dsimp only at h
  repeat' split at h
  all_goals first | cases h; rfl | cases h
@[simp] theorem State.workTaken_kept (s : State) (r : Reg) : (State.workTaken s r).kept = s.kept := by
  unfold State.workTaken; (repeat' split) <;> simp
@[simp] theorem State.scanAdmit_kept (s : State) (k : TileRef) (why : ReadWhy) : (State.scanAdmit s k why).2.kept = s.kept := by
  unfold State.scanAdmit
  split
  · rename_i h
    split at h
    · cases h
    · simp [State.scanReg_kept h]
  · rfl
@[simp] theorem execTileReadAdmit_kept (k : TileRef) (why : ReadWhy) (s0 : State) :
    Res.keeps (execTileReadAdmit k why s0) s0 := by
  unfold execTileReadAdmit
  repeat' first | simp | split
@[simp] theorem State.sweepEnd_kept (s : State) (k : TileRef) :
    (State.sweepEnd s k).kept = s.kept := by
  unfold State.sweepEnd
  repeat' first | simp | split
@[simp] theorem execChunkReadData_kept (ch : ChanNo) (pos : DiePos) (part : Fin 16) (cidx : BitVec 27) (bits : BitVec 320) (s : State) :
    Res.keeps (execChunkReadData ch pos part cidx bits s) s := by
  unfold execChunkReadData
  repeat' first | simp | split
@[simp] theorem execTileAttempt_kept (k : TileRef) (s : State) : Res.keeps (execTileAttempt k s) s := by
  unfold execTileAttempt
  repeat' first | simp | split | refine (State.mirrorAsk_some (by assumption)).trans ?_ | intro _
@[simp] theorem execCrcResendArrival_kept (ltn : BitVec 37) (tile : Tile) (crc : BitVec 32) (s : State) :
    Res.keeps (execCrcResendArrival ltn tile crc s) s := by unfold execCrcResendArrival; split <;> simp
@[simp] theorem State.sweepGo_kept (s : State) : (State.sweepGo s).kept = s.kept := by
  unfold State.sweepGo
  repeat' first | simp | split | refine (State.foldl_kept _ (fun _ _ => ?_) _ _).trans ?_
@[simp] theorem execDeepRecoveryStart_kept (k : TileRef) (s : State) : Res.keeps (execDeepRecoveryStart k s) s := by
  unfold execDeepRecoveryStart; split <;> simp
@[simp] theorem execLaneHoldExpiry_kept (ds : DieSet) (lane : Fin 16) (s : State) : Res.keeps (execLaneHoldExpiry ds lane s) s := by
  simp [execLaneHoldExpiry]
@[simp] theorem execDeepRecoveryEnd_kept (k : TileRef) (s : State) : Res.keeps (execDeepRecoveryEnd k s) s := by
  unfold execDeepRecoveryEnd
  repeat' first | simp | split | refine (State.mirrorAsk_some (by assumption)).trans ?_ | intro _
@[simp] theorem execCounterReadReturn_kept (k : TileRef) (s : State) : Res.keeps (execCounterReadReturn k s) s := by
  unfold execCounterReadReturn
  repeat' first | simp | split

/-! ### Machine/ProgOps.lean -/

@[simp] theorem State.dropStale_kept (s : State) (ds lane : Nat) : (State.dropStale s ds lane).kept = s.kept := by
  simp [State.dropStale]
@[simp] theorem State.takeSource_kept (s : State) (p : Prog) : (State.takeSource s p).2.kept = s.kept := by
  unfold State.takeSource
  repeat' first | simp | split
@[simp] theorem State.hostProgram_kept (s : State) (p : Prog) : (State.hostProgram s p).kept = s.kept := by simp [State.hostProgram]
@[simp] theorem State.cleanDone_kept (s : State) (p : Prog) : (State.cleanDone s p).kept = s.kept := by
  unfold State.cleanDone; split <;> simp
@[simp] theorem State.mashDone_kept (s : State) (p : Prog) : (State.mashDone s p).kept = s.kept := by
  unfold State.mashDone; split <;> simp
@[simp] theorem State.spillGone_kept (s : State) (ltn : Nat) : (State.spillGone s ltn).kept = s.kept := by simp [State.spillGone]
@[simp] theorem State.spillDone_kept (s : State) (p : Prog) : (State.spillDone s p).kept = s.kept := by
  unfold State.spillDone
  repeat' first | simp | split
@[simp] theorem State.userDone_kept (s : State) (p : Prog) : (State.userDone s p).kept = s.kept := by
  unfold State.userDone; (repeat' split) <;> simp
@[simp] theorem State.journalDone_kept (s : State) (p : Prog) : (State.journalDone s p).kept = s.kept := by
  unfold State.journalDone; split <;> simp
@[simp] theorem State.rotateKey_kept (s : State) (old new : Nat) : (State.rotateKey s old new).kept = s.kept := by
  simp [State.rotateKey]
@[simp] theorem State.keyTableDone_kept (s : State) (idx : Nat) : (State.keyTableDone s idx).kept = s.kept := by
  unfold State.keyTableDone; (repeat' split) <;> simp
@[simp] theorem State.copyDone_kept (s : State) (p : Prog) :
    (State.copyDone s p).kept = s.kept := by
  unfold State.copyDone
  repeat' first | simp | split
@[simp] theorem State.afterProg_kept (s : State) : (State.afterProg s).kept = s.kept := by simp [State.afterProg]
@[simp] theorem State.calDone_kept (s : State) (p : Prog) :
    (State.calDone s p).kept = s.kept := by
  unfold State.calDone
  repeat' first | simp | split
@[simp] theorem State.patternDone_kept (s : State) (p : Prog) :
    (State.patternDone s p).kept = s.kept := by
  unfold State.patternDone
  repeat' first | simp | split
@[simp] theorem State.checkpointDone_kept (s : State) (p : Prog) :
    (State.checkpointDone s p).kept = s.kept := by
  unfold State.checkpointDone
  repeat' first | simp | split
@[simp] theorem State.chunksMissed_kept (s : State) (p : Prog) (gone : Nat) :
    (State.chunksMissed s p gone).kept = s.kept := by
  unfold State.chunksMissed
  repeat' first | simp | split
@[simp] theorem State.progServed_kept (s : State) (p : Prog) :
    (State.progServed s p).kept = s.kept := by
  unfold State.progServed
  repeat' first | simp | split
@[simp] theorem State.programDone_kept (s : State) (p : Prog) : (State.programDone s p).kept = s.kept := by
  unfold State.programDone
  repeat' first | simp | split
@[simp] theorem State.waveEnd_kept (s : State) (id : Nat) : (State.waveEnd s id).kept = s.kept := by
  unfold State.waveEnd
  repeat' first | simp | split | refine (State.waveFrom_some (by assumption)).trans ?_ | intro _
@[simp] theorem State.wavesEnd_kept (s : State) :
    (State.wavesEnd s).kept = s.kept := by
  unfold State.wavesEnd
  repeat' first | simp | split
@[simp] theorem State.chunkFailed_kept (s : State) (id k die : Nat) : (State.chunkFailed s id k die).kept = s.kept := by
  unfold State.chunkFailed; split <;> simp
@[simp] theorem State.chunkStatus_kept (s : State) (die : Nat) (bits : Nat) (c : Nat × Nat × Nat) :
    (State.chunkStatus s die bits c).kept = s.kept := by simp [State.chunkStatus]
@[simp] theorem State.retrainCheck_kept (s : State) (ch : Nat) : (State.retrainCheck s ch).kept = s.kept := by
  simp [State.retrainCheck]
@[simp] theorem State.refusals_kept (s : State) (die n : Nat) (refused : Bool) : (State.refusals s die n refused).kept = s.kept := by
  simp [State.refusals]
@[simp] theorem State.unansweredBy_kept (s : State) (die op : Nat) :
    (State.unansweredBy s die op).kept = s.kept := by
  unfold State.unansweredBy
  repeat' first | simp | split
@[simp] theorem State.unanswered_kept (s : State) (die : Nat) : (State.unanswered s die).kept = s.kept := by simp [State.unanswered]
@[simp] theorem State.responseCheck_kept (s : State) (die op : Nat) (ok : Bool) :
    (State.responseCheck s die op ok).2.kept = s.kept := by
  unfold State.responseCheck
  repeat' first | simp | split

/-! ### Machine/WritePath.lean -/

@[simp] theorem execLaneGrant_kept (ds : DieSet) (lane : Fin 16) (s : State) : Res.keeps (execLaneGrant ds lane s) s := by
  unfold execLaneGrant
  repeat' first | simp | split | refine (State.waveFrom_some (by assumption)).trans ?_ | intro _
@[simp] theorem execStatusPoll_kept (ch : ChanNo) (pkg : Fin 2) (die : Fin 16) (s : State) :
    Res.keeps (execStatusPoll ch pkg die s) s := by simp [execStatusPoll]
@[simp] theorem execStatusResponse_kept (ch : ChanNo) (pkg : Fin 2) (die : Fin 16) (bits : BitVec 64) (s : State) :
    Res.keeps (execStatusResponse ch pkg die bits s) s := by simp [execStatusResponse]
@[simp] theorem execPartitionBusyTimeout_kept (ch : ChanNo) (pos : DiePos) (part : Fin 16) (s : State) :
    Res.keeps (execPartitionBusyTimeout ch pos part s) s := by
  unfold execPartitionBusyTimeout
  repeat' first | simp | split

/-! ### Machine/Patrol.lean -/

@[simp] theorem execMediaAlert_kept (ch : ChanNo) (s : State) : Res.keeps (execMediaAlert ch s) s := by simp [execMediaAlert]
@[simp] theorem execAlertStuckTimeout_kept (ch : ChanNo) (s : State) : Res.keeps (execAlertStuckTimeout ch s) s := by
  simp [execAlertStuckTimeout]
@[simp] theorem execMediaNoAnswerTimeout_kept (ch : ChanNo) (pos : DiePos) (s : State) :
    Res.keeps (execMediaNoAnswerTimeout ch pos s) s := by simp [execMediaNoAnswerTimeout]
@[simp] theorem execChannelRetrainEnd_kept (ch : ChanNo) (ok : Bool) (s : State) : Res.keeps (execChannelRetrainEnd ch ok s) s := by
  simp [execChannelRetrainEnd]
@[simp] theorem execRebuildTick_kept (ds : DieSet) (s : State) : Res.keeps (execRebuildTick ds s) s := by simp [execRebuildTick]
@[simp] theorem execPatrolAdvance_kept (ds : DieSet) (s : State) : Res.keeps (execPatrolAdvance ds s) s := by
  simp [execPatrolAdvance]
@[simp] theorem execAccelPassEnd_kept (s : State) : Res.keeps (execAccelPassEnd s) s := by simp [execAccelPassEnd]
@[simp] theorem execCalibrationPass_kept (sums : List CalSum) (s : State) : Res.keeps (execCalibrationPass sums s) s := by
  simp [execCalibrationPass]
@[simp] theorem State.calWrite_kept (s : State) (g : Nat) :
    (State.calWrite s g).kept = s.kept := by
  unfold State.calWrite
  repeat' first | simp | split
@[simp] theorem State.calStart_kept (s : State) :
    (State.calStart s).kept = s.kept := by
  unfold State.calStart
  repeat' first | simp | split
@[simp] theorem State.archiveLogs_kept (s : State) (cls : Nat) :
    (State.archiveLogs s cls).kept = s.kept := by
  unfold State.archiveLogs
  repeat' first | simp | split
@[simp] theorem State.patternFeed_kept (s : State) (id : Nat) (x0 : Nat) : (State.patternFeed s id x0).kept = s.kept := by
  induction x0 generalizing s with
  | zero => rfl
  | succ n ih =>
    unfold State.patternFeed
    repeat' first | rw [ih] | simp | split
@[simp] theorem State.maintSlot_kept (s : State) :
    (State.maintSlot s).kept = s.kept := by
  unfold State.maintSlot
  repeat' first | simp | split

end Sys2Proof.Machine
end

