-- ==== Sys2Proof/Laws/KeptFabric.lean ====
section
/-!
SUPPORT. What hardly any command changes, kept by the operations of fabric, casks, heads and observation: one lemma for each of them (R10, R219, R395, R479).
-/

namespace Sys2Proof.Machine

/-! ### Machine/FrameOps.lean -/

@[simp] theorem State.replay_kept (s : State) (k : Nat) : (State.replay s k).kept = s.kept := by simp [State.replay]
@[simp] theorem State.sendHello_kept (s : State) (k : Nat) : (State.sendHello s k).kept = s.kept := by simp [State.sendHello]
@[simp] theorem State.linkFields_kept (s : State) (f : Frame) (len : Nat) : (State.linkFields s f len).kept = s.kept := by
  simp [State.linkFields]
@[simp] theorem State.linkAccept_kept (s : State) (f : Frame) (type : Nat) (vcs : List Nat) (len body : Nat) :
    (State.linkAccept s f type vcs len body).2.kept = s.kept := by
  unfold State.linkAccept
  repeat' first | simp | split

/-! ### Machine/TimeOps.lean -/

@[simp] theorem State.modTime_kept (s : State) (f : TimeSt → TimeSt) : (State.modTime s f).kept = s.kept := by simp [State.modTime]
@[simp] theorem State.timeChoose_kept (s : State) : (State.timeChoose s).kept = s.kept := by
  unfold State.timeChoose
  repeat' first | simp | split
@[simp] theorem State.applyOffset_kept (s : State) (theta : Int) : (State.applyOffset s theta).kept = s.kept := by
  simp [State.applyOffset]
@[simp] theorem State.lockStep_kept (s : State) : (State.lockStep s).kept = s.kept := by unfold State.lockStep; split <;> simp
@[simp] theorem State.domPass_kept (s : State) (i a b : Nat) : (State.domPass s i a b).kept = s.kept := by simp [State.domPass]
@[simp] theorem State.passTo_kept (s : State) (ft : Nat) : (State.passTo s ft).kept = s.kept := by
  unfold State.passTo
  dsimp only
  split
  · rfl
  · exact (State.foldl_kept _ (fun s a => State.domPass_kept ..) _ _).trans rfl
@[simp] theorem State.mapsDue_kept (s : State) : (State.mapsDue s).kept = s.kept := by simp [State.mapsDue]
@[simp] theorem State.newMap_kept (s : State) (g : Nat) (ws : List Nat) (at_ : Nat) : (State.newMap s g ws at_).kept = s.kept := by
  simp [State.newMap]

/-! ### Machine/Time.lean -/

@[simp] theorem State.sendSyncs_kept (s : State) : (State.sendSyncs s).kept = s.kept := by simp [State.sendSyncs]
@[simp] theorem State.gravDue_kept (s : State) : (State.gravDue s).kept = s.kept := by simp [State.gravDue]
@[simp] theorem State.slotPolls_kept (s : State) : (State.slotPolls s).kept = s.kept := by simp [State.slotPolls]
@[simp] theorem State.stalls_kept (s : State) : (State.stalls s).kept = s.kept := by simp [State.stalls]
@[simp] theorem State.caskStore_kept (s : State) : (State.caskStore s).kept = s.kept := by simp [State.caskStore]
@[simp] theorem State.wearCompute_kept (s : State) : (State.wearCompute s).kept = s.kept := by
  unfold State.wearCompute
  repeat' first | simp | split
@[simp] theorem State.heatWalk_kept (s : State) : (State.heatWalk s).kept = s.kept := by simp [State.heatWalk]
@[simp] theorem execFrameBoundary_kept (s : State) : Res.keeps (execFrameBoundary s) s := by simp [execFrameBoundary]
@[simp] theorem State.sourceOffset_kept (s : State) (cls : Nat) (ns : Int) : (State.sourceOffset s cls ns).kept = s.kept := by
  simp [State.sourceOffset]
@[simp] theorem execFtsyncEdge_kept (s : State) : Res.keeps (execFtsyncEdge s) s := by unfold execFtsyncEdge; split <;> simp
@[simp] theorem execFtcodeWord_kept (word : BitVec 98) (s : State) : Res.keeps (execFtcodeWord word s) s := by simp [execFtcodeWord]
@[simp] theorem execFtcodeOutSend_kept (s : State) : Res.keeps (execFtcodeOutSend s) s := by simp [execFtcodeOutSend]
@[simp] theorem execPtmResponse_kept (ok : Bool) (root : BitVec 64) (s : State) : Res.keeps (execPtmResponse ok root s) s := by
  simp [execPtmResponse]
@[simp] theorem execSync_kept (f : Frame) (body : BitVec 256) (s : State) : Res.keeps (execSync f body s) s := by
  unfold execSync
  repeat' first | simp | split
@[simp] theorem execFtStepForward_kept (s : State) : Res.keeps (execFtStepForward s) s := by unfold execFtStepForward; split <;> simp

/-! ### Machine/Cask.lean -/

@[simp] theorem State.caskSend_kept (s : State) (dst kind i epoch slot result released : Nat) :
    (State.caskSend s dst kind i epoch slot result released).kept = s.kept := by simp [State.caskSend]
@[simp] theorem State.caskSendAll_kept (s : State) (kind i epoch slot : Nat) :
    (State.caskSendAll s kind i epoch slot).kept = s.kept := by simp [State.caskSendAll]
@[simp] theorem State.caskTake_kept (s : State) (f : Frame) (body : BitVec 256) (kind : Nat) :
    (State.caskTake s f body kind).2.kept = s.kept := by
  unfold State.caskTake
  repeat' first | simp | split
@[simp] theorem State.freeRecords_kept (s : State) (p : UndoRec → Bool) : (State.freeRecords s p).kept = s.kept := by
  simp [State.freeRecords]
@[simp] theorem State.releaseAt_kept (s : State) (i e : Nat) : (State.releaseAt s i e).kept = s.kept := by simp [State.releaseAt]
@[simp] theorem State.ackAt_kept (s : State) (i node e : Nat) : (State.ackAt s i node e).kept = s.kept := by simp [State.ackAt]
@[simp] theorem State.commitAt_kept (s : State) (i e : Nat) : (State.commitAt s i e).kept = s.kept := by simp [State.commitAt]
@[simp] theorem State.readyAt_kept (s : State) (i node e : Nat) : (State.readyAt s i node e).kept = s.kept := by
  unfold State.readyAt
  repeat' first | simp | split
@[simp] theorem execCaskReadySend_kept (dom : Fin 16) (s : State) : Res.keeps (execCaskReadySend dom s) s := by
  simp [execCaskReadySend]
@[simp] theorem execReady_kept (f : Frame) (body : BitVec 256) (s : State) : Res.keeps (execReady f body s) s := by
  unfold execReady
  repeat' first | simp | split | refine pair_kept (by assumption) ?_
@[simp] theorem execCommit_kept (f : Frame) (body : BitVec 256) (s : State) : Res.keeps (execCommit f body s) s := by
  unfold execCommit
  repeat' first | simp | split | refine pair_kept (by assumption) ?_
@[simp] theorem execCaskAck_kept (f : Frame) (body : BitVec 256) (s : State) : Res.keeps (execCaskAck f body s) s := by
  unfold execCaskAck
  repeat' first | simp | split | refine pair_kept (by assumption) ?_
@[simp] theorem execRelease_kept (f : Frame) (body : BitVec 256) (s : State) : Res.keeps (execRelease f body s) s := by
  unfold execRelease
  repeat' first | simp | split | refine pair_kept (by assumption) ?_
@[simp] theorem execCaskBoundary_kept (dom : Fin 16) (s : State) : Res.keeps (execCaskBoundary dom s) s := by simp [execCaskBoundary]
@[simp] theorem execUndoSpill_kept (s : State) : Res.keeps (execUndoSpill s) s := by simp [execUndoSpill]
@[simp] theorem execUndoIndexWalk_kept (s : State) : Res.keeps (execUndoIndexWalk s) s := by simp [execUndoIndexWalk]
@[simp] theorem State.earlyAsk_kept (s : State) (i : Nat) : (State.earlyAsk s i).kept = s.kept := by
  unfold State.earlyAsk; split <;> simp
@[simp] theorem execEarlyThreshold_kept (dom : Fin 16) (s : State) : Res.keeps (execEarlyThreshold dom s) s := by
  simp [execEarlyThreshold]
@[simp] theorem execEarlyReq_kept (f : Frame) (body : BitVec 256) (s : State) : Res.keeps (execEarlyReq f body s) s := by
  unfold execEarlyReq
  repeat' first | simp | split | refine pair_kept (by assumption) ?_
@[simp] theorem execEarly_kept (f : Frame) (body : BitVec 256) (s : State) : Res.keeps (execEarly f body s) s := by
  unfold execEarly
  repeat' first | simp | split | refine pair_kept (by assumption) ?_
@[simp] theorem State.modRecov_kept (s : State) (i : Nat) (f : CaskRecov → CaskRecov) : (State.modRecov s i f).kept = s.kept := by
  simp [State.modRecov]
@[simp] theorem State.recovEnd_kept (s : State) (i : Nat) (partially : Bool) : (State.recovEnd s i partially).kept = s.kept := by
  unfold State.recovEnd; split <;> simp
@[simp] theorem State.recovDoneAt_kept (s : State) (i node result : Nat) : (State.recovDoneAt s i node result).kept = s.kept := by
  unfold State.recovDoneAt; split <;> simp
@[simp] theorem State.recoverAt_kept (s : State) (i t : Nat) (askedBy : Option Nat) :
    (State.recoverAt s i t askedBy).kept = s.kept := by simp [State.recoverAt]
@[simp] theorem State.stateAt_kept (s : State) (i node committed released : Nat) :
    (State.stateAt s i node committed released).kept = s.kept := by unfold State.stateAt; split <;> simp
@[simp] theorem State.recoverStart_kept (s : State) (i : Nat) (latest : Bool) (src : Option CmdSrc) :
    (State.recoverStart s i latest src).kept = s.kept := by simp [State.recoverStart]
@[simp] theorem State.writeTile_kept (s : State) (ltn : Nat) (t : Tile) (poison : BitVec 4) :
    (State.writeTile s ltn t poison).kept = s.kept := by
  unfold State.writeTile
  repeat' first | simp | split | refine (State.takeWay_kept (by assumption)).trans ?_
@[simp] theorem execQuery_kept (f : Frame) (body : BitVec 256) (s : State) : Res.keeps (execQuery f body s) s := by
  unfold execQuery
  repeat' first | simp | split | refine pair_kept (by assumption) ?_
@[simp] theorem execState_kept (f : Frame) (body : BitVec 256) (s : State) : Res.keeps (execState f body s) s := by
  unfold execState
  repeat' first | simp | split | refine pair_kept (by assumption) ?_
@[simp] theorem execRecover_kept (f : Frame) (body : BitVec 256) (s : State) : Res.keeps (execRecover f body s) s := by
  unfold execRecover
  repeat' first | simp | split | refine pair_kept (by assumption) ?_
@[simp] theorem execCaskWritebackEnd_kept (dom : Fin 16) (s : State) : Res.keeps (execCaskWritebackEnd dom s) s := by
  unfold execCaskWritebackEnd
  repeat' first | simp | split
@[simp] theorem execRecoverDone_kept (f : Frame) (body : BitVec 256) (s : State) : Res.keeps (execRecoverDone f body s) s := by
  unfold execRecoverDone
  repeat' first | simp | split | refine pair_kept (by assumption) ?_
@[simp] theorem execCaskRecoverTimeout_kept (dom : Fin 16) (s : State) : Res.keeps (execCaskRecoverTimeout dom s) s := by
  unfold execCaskRecoverTimeout
  repeat' first | simp | split

/-! ### Machine/HeadOps.lean -/

@[simp] theorem State.modHost_kept (s : State) (f : HostSt → HostSt) (h : ∀ x, (f x).lsa = x.lsa ∧ (f x).shutdown = x.shutdown) :
    (s.modHost f).kept = s.kept := by
  unfold State.modHost
  exact State.kept_host _ _ (h _).1 (h _).2
@[simp] theorem State.modHead_kept (s : State) (h : Nat) (f : HeadSt → HeadSt) : (State.modHead s h f).kept = s.kept := by
  simp [State.modHead]
@[simp] theorem State.endSessions_kept (s : State) (p : Session → Bool) : (State.endSessions s p).kept = s.kept := by
  simp [State.endSessions]
@[simp] theorem State.fnReset_kept (s : State) (ld : Nat) : (State.fnReset s ld).kept = s.kept := by simp [State.fnReset]
@[simp] theorem State.dropDecoders_kept (s : State) (ld : Nat) : (State.dropDecoders s ld).kept = s.kept := by
  simp [State.dropDecoders]
@[simp] theorem State.dropHostReqs_kept (s : State) (h : Nat) : (State.dropHostReqs s h).kept = s.kept := by
  simp [State.dropHostReqs]
@[simp] theorem State.snoopsGone_kept (s : State) (i : Nat) : (State.snoopsGone s i).kept = s.kept := by simp [State.snoopsGone]
@[simp] theorem State.slotPurge_kept (s : State) (i : Nat) : (State.slotPurge s i).kept = s.kept := by simp [State.slotPurge]
@[simp] theorem State.ldSlotsPurge_kept (s : State) (ld : Nat) : (State.ldSlotsPurge s ld).kept = s.kept := by
  unfold State.ldSlotsPurge
  repeat' first | simp | split
@[simp] theorem State.ldSlotTake_kept (s : State) (ld : Nat) : (State.ldSlotTake s ld).kept = s.kept := by simp [State.ldSlotTake]
@[simp] theorem State.headReset_kept (s : State) (h : Nat) : (State.headReset s h).kept = s.kept := by simp [State.headReset]
@[simp] theorem State.ldApply_kept (s : State) (n : Nat) : (State.ldApply s n).kept = s.kept := by simp [State.ldApply]
@[simp] theorem State.headResetEnd_kept (s : State) (h : Nat) : (State.headResetEnd s h).kept = s.kept := by
  simp [State.headResetEnd]
@[simp] theorem State.portApply_kept (s : State) (p : Nat) : (State.portApply s p).kept = s.kept := by simp [State.portApply]

/-! ### Machine/Heads.lean -/

@[simp] theorem execBisnpTimeout_kept (h : HeadNo) (biTag : Fin 64) (s : State) : Res.keeps (execBisnpTimeout h biTag s) s := by
  unfold execBisnpTimeout; split <;> simp
@[simp] theorem execPerstNAssert_kept (p : PortNo) (s : State) : Res.keeps (execPerstNAssert p s) s := by simp [execPerstNAssert]
@[simp] theorem execPerstNRelease_kept (p : PortNo) (s : State) : Res.keeps (execPerstNRelease p s) s := by simp [execPerstNRelease]
@[simp] theorem execHotReset_kept (h : HeadNo) (s : State) : Res.keeps (execHotReset h s) s := by simp [execHotReset]
@[simp] theorem execHeadLinkUp_kept (h : HeadNo) (width : BitVec 5) (rate : BitVec 3) (flit256 : Bool) (s : State) :
    Res.keeps (execHeadLinkUp h width rate flit256 s) s := by simp [execHeadLinkUp]
@[simp] theorem execRefclkReturn_kept (w : RefClk) (s : State) : Res.keeps (execRefclkReturn w s) s := by simp [execRefclkReturn]
@[simp] theorem execCxlReset_kept (ld : LdNo) (memClear : Bool) (s : State) : Res.keeps (execCxlReset ld memClear s) s := by
  simp [execCxlReset]
@[simp] theorem execFunctionLevelReset_kept (ld : LdNo) (s : State) : Res.keeps (execFunctionLevelReset ld s) s := by
  simp [execFunctionLevelReset]
@[simp] theorem execIdeIntegrityFailure_kept (h : HeadNo) (s : State) : Res.keeps (execIdeIntegrityFailure h s) s := by
  simp [execIdeIntegrityFailure]
@[simp] theorem execGpfPhase2_kept (h : HeadNo) (s : State) : Res.keeps (execGpfPhase2 h s) s := by simp [execGpfPhase2]
@[simp] theorem execSpdmKeyExchange_kept (at_ : DoeOn) (session : BitVec 32) (withMutual : Bool) (secret : BitVec 256) (s : State) :
    Res.keeps (execSpdmKeyExchange at_ session withMutual secret s) s := by simp [execSpdmKeyExchange]
@[simp] theorem execSpdmSessionEnd_kept (session : BitVec 32) (s : State) : Res.keeps (execSpdmSessionEnd session s) s := by
  simp [execSpdmSessionEnd]
@[simp] theorem execIdeKmKeyProg_kept (session : BitVec 32) (h : HeadNo) (key : BitVec 256) (s : State) :
    Res.keeps (execIdeKmKeyProg session h key s) s := by simp [execIdeKmKeyProg]
@[simp] theorem execDoeDiscovery_kept (ld : LdNo) (index : BitVec 8) (s : State) : Res.keeps (execDoeDiscovery ld index s) s := by
  simp [execDoeDiscovery]
@[simp] theorem execCdatRead_kept (ld : LdNo) (s : State) : Res.keeps (execCdatRead ld s) s := by simp [execCdatRead]
@[simp] theorem State.releaseBlock_kept (s : State) (b : Nat) : (State.releaseBlock s b).kept = s.kept := by
  simp [State.releaseBlock]
@[simp] theorem execFmLdAllocate_kept (ld : LdNo) (blocks : BitVec 18) (s : State) : Res.keeps (execFmLdAllocate ld blocks s) s := by
  simp [execFmLdAllocate]
@[simp] theorem execFmAddDc_kept (ld : LdNo) (region : Fin 2) (extents : List DcExtent) (s : State) :
    Res.keeps (execFmAddDc ld region extents s) s := by simp [execFmAddDc]
@[simp] theorem execHdmDecoderCommit_kept (ld : LdNo) (d : Fin 4) (c : DecoderCfg) (s : State) :
    Res.keeps (execHdmDecoderCommit ld d c s) s := by simp [execHdmDecoderCommit]

/-! ### Machine/Peer.lean -/

@[simp] theorem State.cohTake_kept (s : State) (f : Frame) (m : CohMsg) (opc : Nat) : (State.cohTake s f m opc).2.kept = s.kept := by
  unfold State.cohTake
  repeat' first | simp | split
@[simp] theorem State.deny_kept (s : State) (node tid line : Nat) (read : Bool) : (State.deny s node tid line read).kept = s.kept := by
  simp [State.deny]
@[simp] theorem State.peerDup_kept (s : State) (node tid line : Nat) : optKeeps (State.peerDup s node tid line) s := by
  unfold State.peerDup
  repeat' first | simp | split
theorem State.peerDup_some {s : State} {node tid line : Nat} {t : State} (h : State.peerDup s node tid line = some t) :
    t.kept = s.kept := opt_kept h (State.peerDup_kept s node tid line)
@[simp] theorem State.peerRequest_kept (s : State) (f : Frame) (m : CohMsg) (opc : Nat) (op : ReqOp) (kind : Nat) :
    (State.peerRequest s f m opc op kind).kept = s.kept := by
  unfold State.peerRequest
  split
  · exact pair_kept (by assumption) (by simp)
  · have h : ∀ t, s.cohTake f m opc = (true, t) → t.kept = s.kept := fun t h => pair_kept h (by simp)
    rename_i t ht
    have ht := h t ht
    dsimp only
    split
    · rename_i u hu
      exact (State.peerDup_some hu).trans ht
    · split
      · exact ht
      · split
        · exact (State.deny_kept ..).trans ht
        · rw [State.pump_kept, State.submit_kept, State.sampleDraw_kept, State.count_kept, ht]
@[simp] theorem execRdS_kept (f : Frame) (m : CohMsg) (s : State) : Res.keeps (execRdS f m s) s := by simp [execRdS]
@[simp] theorem execRdE_kept (f : Frame) (m : CohMsg) (s : State) : Res.keeps (execRdE f m s) s := by simp [execRdE]
@[simp] theorem execRdNc_kept (f : Frame) (m : CohMsg) (s : State) : Res.keeps (execRdNc f m s) s := by simp [execRdNc]
@[simp] theorem execUpg_kept (f : Frame) (m : CohMsg) (s : State) : Res.keeps (execUpg f m s) s := by simp [execUpg]
@[simp] theorem execWr_kept (f : Frame) (m : CohMsg) (s : State) : Res.keeps (execWr f m s) s := by simp [execWr]
@[simp] theorem State.peerSnoop_kept (s : State) (f : Frame) (m : CohMsg) (opc : Nat) : (State.peerSnoop s f m opc).kept = s.kept := by
  unfold State.peerSnoop
  repeat' first | simp | split | refine pair_kept (by assumption) ?_
@[simp] theorem execInv_kept (f : Frame) (m : CohMsg) (s : State) : Res.keeps (execInv f m s) s := by simp [execInv]
@[simp] theorem execSnpS_kept (f : Frame) (m : CohMsg) (s : State) : Res.keeps (execSnpS f m s) s := by simp [execSnpS]
@[simp] theorem execFwdS_kept (f : Frame) (m : CohMsg) (s : State) : Res.keeps (execFwdS f m s) s := by simp [execFwdS]
@[simp] theorem execFwdE_kept (f : Frame) (m : CohMsg) (s : State) : Res.keeps (execFwdE f m s) s := by simp [execFwdE]
@[simp] theorem State.dirMake_kept (s : State) (k : Nat) (e : DirEntry) : (State.dirMake s k e).2.kept = s.kept := by
  unfold State.dirMake; (repeat' split) <;> simp
@[simp] theorem State.dirForget_kept (s : State) (k : Nat) : (State.dirForget s k).kept = s.kept := by
  unfold State.dirForget; (repeat' split) <;> simp
@[simp] theorem State.proxyDenied_kept (s : State) (a : Act) : (State.proxyDenied s a).kept = s.kept := by
  unfold State.proxyDenied; split <;> simp
@[simp] theorem State.proxyWritten_kept (s : State) (a : Act) (g : Nat) : (State.proxyWritten s a g).kept = s.kept := by
  unfold State.proxyWritten
  repeat' first | simp | split
@[simp] theorem State.proxyRead_kept (s : State) (a : Act) (d : Line) (poison nc : Bool) (g : Nat) :
    (State.proxyRead s a d poison nc g).kept = s.kept := by unfold State.proxyRead; split <;> simp
@[simp] theorem State.proxyUpgraded_kept (s : State) (a : Act) : (State.proxyUpgraded s a).kept = s.kept := by
  unfold State.proxyUpgraded
  repeat' first | simp | split
@[simp] theorem State.proxyFinish_kept (s : State) (p : ProxyTxn) : (State.proxyFinish s p).kept = s.kept := by
  unfold State.proxyFinish
  repeat' first | simp | split
@[simp] theorem State.ackAgain_kept (s : State) (m : CohMsg) : (State.ackAgain s m).kept = s.kept := by
  unfold State.ackAgain; split <;> simp
@[simp] theorem execData_kept (f : Frame) (m : CohMsg) (s : State) : Res.keeps (execData f m s) s := by
  unfold execData
  repeat' first | simp | split | refine pair_kept (by assumption) ?_
@[simp] theorem execCmp_kept (f : Frame) (m : CohMsg) (s : State) : Res.keeps (execCmp f m s) s := by
  unfold execCmp
  repeat' first | simp | split | refine pair_kept (by assumption) ?_
@[simp] theorem State.placeWriteback_kept (s : State) (id line : Nat) (d : Line) (poison : Bool) :
    (State.placeWriteback s id line d poison).kept = s.kept := by
  unfold State.placeWriteback
  repeat' first | simp | split
@[simp] theorem execSnpRsp_kept (f : Frame) (m : CohMsg) (s : State) : Res.keeps (execSnpRsp f m s) s := by
  unfold execSnpRsp
  repeat' first | simp | split | refine pair_kept (by assumption) ?_
@[simp] theorem execFwdAck_kept (f : Frame) (m : CohMsg) (s : State) : Res.keeps (execFwdAck f m s) s := by
  unfold execFwdAck
  repeat' first | simp | split | refine pair_kept (by assumption) ?_
@[simp] theorem execAck_kept (f : Frame) (m : CohMsg) (s : State) : Res.keeps (execAck f m s) s := by
  unfold execAck
  repeat' first | simp | split | refine pair_kept (by assumption) ?_

/-! ### Machine/Mirror.lean -/

@[simp] theorem State.mirTake_kept (s : State) (f : Frame) (m : MirMsg) (opc : Nat) : (State.mirTake s f m opc).2.kept = s.kept := by
  unfold State.mirTake
  repeat' first | simp | split
@[simp] theorem State.modMirror_kept (s : State) (k : Nat) (f : MirrorEnt → MirrorEnt) : (State.modMirror s k f).kept = s.kept := by
  simp [State.modMirror]
@[simp] theorem State.mirAnswered_kept (s : State) (m : MirMsg) (opc : Nat) : (State.mirAnswered s m opc).kept = s.kept := by
  simp [State.mirAnswered]
@[simp] theorem execMwr_kept (f : Frame) (m : MirMsg) (s : State) : Res.keeps (execMwr f m s) s := by
  unfold execMwr
  repeat' first | simp | split | refine pair_kept (by assumption) ?_
@[simp] theorem execMcmp_kept (f : Frame) (m : MirMsg) (s : State) : Res.keeps (execMcmp f m s) s := by
  unfold execMcmp
  repeat' first | simp | split | refine pair_kept (by assumption) ?_
@[simp] theorem execMrd_kept (f : Frame) (m : MirMsg) (s : State) : Res.keeps (execMrd f m s) s := by
  unfold execMrd
  repeat' first | simp | split | refine pair_kept (by assumption) ?_
@[simp] theorem execMdata_kept (f : Frame) (m : MirMsg) (s : State) : Res.keeps (execMdata f m s) s := by
  unfold execMdata
  repeat' first | simp | split | refine pair_kept (by assumption) ?_
@[simp] theorem execMdisc_kept (f : Frame) (m : MirMsg) (s : State) : Res.keeps (execMdisc f m s) s := by
  unfold execMdisc
  repeat' first | simp | split | refine pair_kept (by assumption) ?_
@[simp] theorem execMdack_kept (f : Frame) (m : MirMsg) (s : State) : Res.keeps (execMdack f m s) s := by
  unfold execMdack
  repeat' first | simp | split | refine pair_kept (by assumption) ?_
@[simp] theorem execRsync_kept (f : Frame) (m : MirMsg) (s : State) : Res.keeps (execRsync f m s) s := by
  unfold execRsync
  repeat' first | simp | split | refine pair_kept (by assumption) ?_
@[simp] theorem execRsack_kept (f : Frame) (m : MirMsg) (s : State) : Res.keeps (execRsack f m s) s := by
  unfold execRsack
  repeat' first | simp | split | refine pair_kept (by assumption) ?_
@[simp] theorem execResyncTick_kept (entry : Fin 256) (s : State) : Res.keeps (execResyncTick entry s) s := by
  unfold execResyncTick
  repeat' first | simp | split

/-! ### Machine/Fabric.lean -/

@[simp] theorem State.storeLsa_kept (s : State) (b : LsaBody) : (State.storeLsa s b).kept = s.kept := by simp [State.storeLsa]
@[simp] theorem State.sendLsa_kept (s : State) (b : LsaBody) (except : Option Nat) : (State.sendLsa s b except).kept = s.kept := by
  simp [State.sendLsa]
@[simp] theorem State.floodLsa_kept (s : State) : (State.floodLsa s).kept = s.kept := by simp [State.floodLsa]
@[simp] theorem State.graphCheck_kept (s : State) : (State.graphCheck s).kept = s.kept := by simp [State.graphCheck]
@[simp] theorem State.computeRoutes_kept (s : State) : (State.computeRoutes s).kept = s.kept := by simp [State.computeRoutes]
@[simp] theorem State.linkDown_kept (s : State) (k : Nat) : (State.linkDown s k).kept = s.kept := by simp [State.linkDown]
@[simp] theorem State.sendHs_kept (s : State) (k : Nat) (bytes : List Byte) : (State.sendHs s k bytes).kept = s.kept := by
  simp [State.sendHs]
@[simp] theorem State.modHs_kept (s : State) (k : Nat) (f : Handshake → Handshake) : (State.modHs s k f).kept = s.kept := by
  simp [State.modHs]
@[simp] theorem State.startHs_kept (s : State) (k : Nat) (renewal : Bool) : (State.startHs s k renewal).kept = s.kept := by
  simp [State.startHs]
@[simp] theorem State.abortHs_kept (s : State) (k reason : Nat) : (State.abortHs s k reason).kept = s.kept := by simp [State.abortHs]
@[simp] theorem State.sendProof_kept (s : State) (k : Nat) (t : BitVec 384) : (State.sendProof s k t).kept = s.kept := by
  simp [State.sendProof]
@[simp] theorem State.hsTake_kept (s : State) (f : Frame) (len : Nat) (bytes : List Byte) :
    (State.hsTake s f len bytes).2.kept = s.kept := by
  unfold State.hsTake
  repeat' first | simp | split
@[simp] theorem execOffer_kept (f : Frame) (b : OfferBody) (s : State) : Res.keeps (execOffer f b s) s := by
  unfold execOffer
  repeat' first | simp | split | refine pair_kept (by assumption) ?_
@[simp] theorem execProof_kept (f : Frame) (b : ProofBody) (s : State) : Res.keeps (execProof f b s) s := by
  unfold execProof
  repeat' first | simp | split | refine pair_kept (by assumption) ?_
@[simp] theorem execConfirm_kept (f : Frame) (s : State) : Res.keeps (execConfirm f s) s := by
  unfold execConfirm
  repeat' first | simp | split
@[simp] theorem execAbort_kept (f : Frame) (reason : BitVec 8) (s : State) : Res.keeps (execAbort f reason s) s := by
  unfold execAbort
  repeat' first | simp | split | refine pair_kept (by assumption) ?_
@[simp] theorem execHandshakeTimeout_kept (k : LinkNo) (s : State) : Res.keeps (execHandshakeTimeout k s) s := by
  simp [execHandshakeTimeout]
@[simp] theorem execKeyRenewalDue_kept (k : LinkNo) (s : State) : Res.keeps (execKeyRenewalDue k s) s := by simp [execKeyRenewalDue]
@[simp] theorem execLinkTagFailureLimit_kept (k : LinkNo) (s : State) : Res.keeps (execLinkTagFailureLimit k s) s := by
  simp [execLinkTagFailureLimit]
@[simp] theorem execDoroshSignalSeen_kept (k : LinkNo) (s : State) : Res.keeps (execDoroshSignalSeen k s) s := by
  simp [execDoroshSignalSeen]
@[simp] theorem execLinkTrained_kept (k : LinkNo) (ok : Bool) (s : State) : Res.keeps (execLinkTrained k ok s) s := by
  simp [execLinkTrained]
@[simp] theorem execHelloLoss_kept (k : LinkNo) (s : State) : Res.keeps (execHelloLoss k s) s := by simp [execHelloLoss]
@[simp] theorem execLinkReplayTimeout_kept (k : LinkNo) (s : State) : Res.keeps (execLinkReplayTimeout k s) s := by
  simp [execLinkReplayTimeout]
@[simp] theorem execHello_kept (f : Frame) (b : HelloBody) (s : State) : Res.keeps (execHello f b s) s := by
  unfold execHello
  repeat' first | simp | split | refine pair_kept (by assumption) ?_
@[simp] theorem execLsaRefreshDue_kept (s : State) : Res.keeps (execLsaRefreshDue s) s := by simp [execLsaRefreshDue]
@[simp] theorem execNull_kept (f : Frame) (s : State) : Res.keeps (execNull f s) s := by simp [execNull]
@[simp] theorem State.resendAll_kept (s : State) : (State.resendAll s).kept = s.kept := by simp [State.resendAll]
@[simp] theorem State.reissue_kept (s : State) (n : Nat) (final : Bool) : (State.reissue s n final).kept = s.kept := by
  unfold State.reissue
  repeat' first | simp | split | refine (State.foldl_kept _ (fun _ _ => ?_) _ _).trans ?_
@[simp] theorem State.nodeBack_kept (s : State) (n : Nat) : (State.nodeBack s n).kept = s.kept := by simp [State.nodeBack]
@[simp] theorem State.promotedAway_kept (s : State) : (State.promotedAway s).kept = s.kept := by
  unfold State.promotedAway
  repeat' first | simp | split | refine (State.foldl_kept _ (fun _ _ => ?_) _ _).trans ?_
@[simp] theorem execViewSettle_kept (s : State) : Res.keeps (execViewSettle s) s := by simp [execViewSettle]
@[simp] theorem State.homeFail_kept (s : State) (n : Nat) : (State.homeFail s n).kept = s.kept := by
  unfold State.homeFail
  repeat' first | simp | split
@[simp] theorem State.dropLines_kept (s : State) (p : Nat → Bool) : (State.dropLines s p).kept = s.kept := by simp [State.dropLines]
@[simp] theorem State.dropHome_kept (s : State) (n : Nat) : (State.dropHome s n).kept = s.kept := by simp [State.dropHome]
@[simp] theorem State.mirrorless_kept (s : State) (n : Nat) : (State.mirrorless s n).kept = s.kept := by
  unfold State.mirrorless
  repeat' first | simp | split | refine (State.foldl_kept _ (fun _ _ => ?_) _ _).trans ?_
@[simp] theorem State.mirrorEnd_kept (s : State) (k st : Nat) : (State.mirrorEnd s k st).kept = s.kept := by
  unfold State.mirrorEnd
  repeat' first | simp | split
@[simp] theorem State.mirrorFail_kept (s : State) (n : Nat) : (State.mirrorFail s n).kept = s.kept := by simp [State.mirrorFail]
@[simp] theorem execNodeFailDeclare_kept (node : BitVec 12) (s : State) : Res.keeps (execNodeFailDeclare node s) s := by
  simp [execNodeFailDeclare]

/-! ### Machine/Pair.lean -/

@[simp] theorem State.mirrorGo_kept (s : State) (op k homeLsn mirrorLsn count partner : Nat) (src : Option CmdSrc) :
    (State.mirrorGo s op k homeLsn mirrorLsn count partner src).kept = s.kept := by simp [State.mirrorGo]
@[simp] theorem State.redirect_kept (s : State) : (State.redirect s).kept = s.kept := by simp [State.redirect]
@[simp] theorem execLsa_kept (f : Frame) (b : LsaBody) (s : State) : Res.keeps (execLsa f b s) s := by
  unfold execLsa
  repeat' first | simp | split | refine pair_kept (by assumption) ?_
@[simp] theorem State.mirAsked_kept (s : State) (node kind homeLsn mirrorLsn count : Nat) :
    (State.mirAsked s node kind homeLsn mirrorLsn count).2.kept = s.kept := by
  unfold State.mirAsked
  repeat' first | simp | split
@[simp] theorem State.mirAnswer_kept (s : State) (node kind st homeLsn mirrorLsn count : Nat) :
    (State.mirAnswer s node kind st homeLsn mirrorLsn count).kept = s.kept := by unfold State.mirAnswer; (repeat' split) <;> simp
@[simp] theorem execMgmt_kept (f : Frame) (packet : List Byte) (s : State) : Res.keeps (execMgmt f packet s) s := by
  unfold execMgmt
  repeat' first | simp | split | refine pair_kept (by assumption) ?_

/-! ### Machine/RegEffects.lean -/

@[simp] theorem State.linkEnable_kept (s : State) (old new : Nat) : (State.linkEnable s old new).kept = s.kept := by
  simp [State.linkEnable]
@[simp] theorem State.forceThrough_kept (s : State) (old new : Nat) : (State.forceThrough s old new).kept = s.kept := by
  simp [State.forceThrough]
@[simp] theorem State.allocForce_kept (s : State) (ld old new : Nat) : (State.allocForce s ld old new).kept = s.kept := by
  simp [State.allocForce]
@[simp] theorem State.ldForce_kept (s : State) (n new : Nat) : (State.ldForce s n new).kept = s.kept := by simp [State.ldForce]
@[simp] theorem State.regEffect_kept (s : State) (off old : Nat) : (State.regEffect s off old).kept = s.kept := by
  simp [State.regEffect]
@[simp] theorem State.wordForce_kept (s : State) (off mask val : Nat) : (State.wordForce s off mask val).kept = s.kept := by
  simp [State.wordForce]
@[simp] theorem State.storeForce_kept (s : State) (x : RwpStore) :
    (State.storeForce s x).kept = s.kept := by
  unfold State.storeForce
  repeat' first | simp | split
@[simp] theorem State.storeDone_kept (s : State) (x : RwpStore) : (State.storeDone s x).kept = s.kept := by
  unfold State.storeDone; (repeat' split) <;> simp
@[simp] theorem State.mapForce_kept (s : State) (ws : List (Nat × Nat)) (g : Nat) : (State.mapForce s ws g).kept = s.kept := by
  simp [State.mapForce]
@[simp] theorem State.applyStaged_kept (s : State) (ws : List (Nat × Nat)) (timed : Bool) :
    (State.applyStaged s ws timed).kept = s.kept := by simp [State.applyStaged]
@[simp] theorem State.cmdSet_kept (s : State) (l : List (Field × Nat)) (src : CmdSrc) (res : Nat := 0) :
    (State.cmdSet s l src res).kept = s.kept := by
  unfold State.cmdSet
  dsimp only
  split <;> simp

/-! ### Machine/Tally.lean -/

@[simp] theorem State.capturePair_kept (s : State) (b k : Nat) : (State.capturePair s b k).kept = s.kept := by
  simp [State.capturePair]
@[simp] theorem State.zeroCounter_kept (s : State) (b c : Nat) : (State.zeroCounter s b c).kept = s.kept := by
  simp [State.zeroCounter]
@[simp] theorem State.clearCounter_kept (s : State) (b c : Nat) : (State.clearCounter s b c).kept = s.kept := by
  simp [State.clearCounter]
@[simp] theorem State.setChain_kept (s : State) (b k : Nat) (v : Bool) : (State.setChain s b k v).kept = s.kept := by
  simp [State.setChain]
@[simp] theorem State.windowEnd_kept (s : State) (ms : Nat) : (State.windowEnd s ms).kept = s.kept := by simp [State.windowEnd]
@[simp] theorem execTallyWindowEnd_kept (s : State) : Res.keeps (execTallyWindowEnd s) s := by simp [execTallyWindowEnd]
@[simp] theorem State.orFree_kept (s : State) (o : Option Nat) : (State.orFree s o).2.kept = s.kept := by
  unfold State.orFree; split <;> simp
@[simp] theorem State.sillRecord_kept (s : State) (cut : Bool) : (State.sillRecord s cut).2.kept = s.kept := by
  simp [State.sillRecord]
@[simp] theorem State.modSill_kept (s : State) (f : Sillage → Sillage) : (State.modSill s f).kept = s.kept := by simp [State.modSill]
@[simp] theorem State.sillAppend_kept (s : State) (r : Nat) : (State.sillAppend s r).kept = s.kept := by simp [State.sillAppend]
@[simp] theorem State.intervalEnd_kept (s : State) (cut : Bool) : (State.intervalEnd s cut).kept = s.kept := by
  unfold State.intervalEnd
  repeat' first | simp | split
@[simp] theorem execSummaryIntervalEnd_kept (s : State) : Res.keeps (execSummaryIntervalEnd s) s := by simp [execSummaryIntervalEnd]
@[simp] theorem State.sillClear_kept (s : State) (q : Nat) : optKeeps (State.sillClear s q) s := by
  unfold State.sillClear
  repeat' first | simp | split
theorem State.sillClear_some {s : State} {q : Nat} {t : State} (h : State.sillClear s q = some t) :
    t.kept = s.kept := opt_kept h (State.sillClear_kept s q)
@[simp] theorem State.sampleWord_kept (s : State) : (State.sampleWord s).2.kept = s.kept := by
  unfold State.sampleWord
  repeat' first | simp | split
@[simp] theorem State.sampleDrop_kept (s : State) : (State.sampleDrop s).kept = s.kept := by simp [State.sampleDrop]
@[simp] theorem State.sampleShut_kept (s : State) : (State.sampleShut s).kept = s.kept := by simp [State.sampleShut]
@[simp] theorem State.sampleEnable_kept (s : State) (old new : Bool) : (State.sampleEnable s old new).kept = s.kept := by
  simp [State.sampleEnable]
@[simp] theorem State.sampleCopy_kept (s : State) (x0 : Nat) : (State.sampleCopy s x0).2.kept = s.kept := by
  fun_induction State.sampleCopy s x0
  · rfl
  · rfl
  · rename_i h ih
    exact pair_kept h (ih.trans (by simp))
@[simp] theorem State.counterCheckpoint_kept (s : State) : (State.counterCheckpoint s).kept = s.kept := by
  simp [State.counterCheckpoint]
@[simp] theorem State.gravCheckpoint_kept (s : State) : (State.gravCheckpoint s).kept = s.kept := by simp [State.gravCheckpoint]
@[simp] theorem execHourlyCheckpoint_kept (s : State) : Res.keeps (execHourlyCheckpoint s) s := by simp [execHourlyCheckpoint]

end Sys2Proof.Machine
end

