-- ==== Sys2Proof/Laws/KeptSystem.lean ====
section
/-!
SUPPORT. What hardly any command changes, kept by the operations of power, temperature, engines, Weali and the queues: one lemma for each of them (R10, R219, R395, R479).
-/

namespace Sys2Proof.Machine

/-! ### Machine/PowerOps.lean -/

@[simp] theorem State.modPower_kept (s : State) (f : PowerSt → PowerSt) : (State.modPower s f).kept = s.kept := by
  simp [State.modPower]
@[simp] theorem State.modDry_kept (s : State) (f : Dry → Dry) : (State.modDry s f).kept = s.kept := by simp [State.modDry]
@[simp] theorem State.modAvail_kept (s : State) (f : AvailSt → AvailSt) : (State.modAvail s f).kept = s.kept := by
  simp [State.modAvail]
@[simp] theorem State.lowerRail_kept (s : State) (c : Nat) : (State.lowerRail s c).kept = s.kept := by simp [State.lowerRail]
@[simp] theorem State.lowerTop_kept (s : State) : (State.lowerTop s).kept = s.kept := by simp [State.lowerTop]
@[simp] theorem State.resetOut_kept (s : State) (k : Nat) (low : Bool) : (State.resetOut s k low).kept = s.kept := by
  simp [State.resetOut]
@[simp] theorem State.resetsLow_kept (s : State) (brd : Bool) : (State.resetsLow s brd).kept = s.kept := by simp [State.resetsLow]
@[simp] theorem State.railsInForce_kept (s : State) : (State.railsInForce s).kept = s.kept := by
  unfold State.railsInForce
  repeat' first | simp | split | refine (State.foldl_kept _ (fun _ _ => ?_) _ _).trans ?_
@[simp] theorem State.seqTake_kept (s : State) (w cmd : Nat) : (State.seqTake s w cmd).2.kept = s.kept := by
  unfold State.seqTake; split <;> simp
@[simp] theorem State.seqAll_kept (s : State) (cmd arg : Nat) : (State.seqAll s cmd arg).kept = s.kept := by simp [State.seqAll]
@[simp] theorem State.seqPoll_kept (s : State) (l : List Nat) : (State.seqPoll s l).kept = s.kept := by simp [State.seqPoll]
@[simp] theorem State.coreLost_kept (s : State) (flushed : Bool) : (State.coreLost s flushed).kept = s.kept := by
  unfold State.coreLost
  simp only [State.modTally_kept, State.setF_kept]
  refine (State.foldl_kept _ (fun s x => State.setWord_kept ..) _ _).trans ?_
  refine (State.foldl_kept _ (fun s x => State.setWord_kept ..) _ _).trans rfl
@[simp] theorem State.budgetNow_kept (s : State) : (State.budgetNow s).kept = s.kept := by simp [State.budgetNow]
@[simp] theorem State.chargeNow_kept (s : State) : (State.chargeNow s).kept = s.kept := by simp [State.chargeNow]
@[simp] theorem State.testStart_kept (s : State) (src : Option CmdSrc) : (State.testStart s src).kept = s.kept := by
  simp [State.testStart]
@[simp] theorem State.testEnd_kept (s : State) (result : Nat) (keep : Bool) : (State.testEnd s result keep).kept = s.kept := by
  simp [State.testEnd]
@[simp] theorem State.storeCap_kept (s : State) (mf : Nat) : (State.storeCap s mf).kept = s.kept := by simp [State.storeCap]
@[simp] theorem State.dirtyShutdown_kept (s : State) : (State.dirtyShutdown s).kept = s.kept := by simp [State.dirtyShutdown]
@[simp] theorem State.dryRecord_kept (s : State) (r : DryRec) : (State.dryRecord s r).kept = s.kept := by simp [State.dryRecord]
@[simp] theorem State.lowered_kept (s : State) : (State.lowered s).kept = s.kept := by
  unfold State.lowered
  repeat' first | simp | split
@[simp] theorem State.macroWake_kept (s : State) (m : Nat) :
    (State.macroWake s m).kept = s.kept := by
  unfold State.macroWake
  repeat' first | simp | split
@[simp] theorem State.aonSwap_kept (s : State) (e h : Nat) :
    (State.aonSwap s e h).kept = s.kept := by
  unfold State.aonSwap
  repeat' first | simp | split
@[simp] theorem State.aonPair_kept (s : State) :
    (State.aonPair s).kept = s.kept := by
  unfold State.aonPair
  repeat' first | simp | split
@[simp] theorem State.lowerStart_kept (s : State) (after : AfterLower) (brd : Bool) :
    (State.lowerStart s after brd).kept = s.kept := by simp [State.lowerStart]
@[simp] theorem State.flushClass_kept (s : State) : (State.flushClass s).kept = s.kept := by simp [State.flushClass]
@[simp] theorem State.abortMaint_kept (s : State) : (State.abortMaint s).kept = s.kept := by simp [State.abortMaint]
@[simp] theorem State.startDry_kept (s : State) (cause : Nat) (reset below : Bool) :
    (State.startDry s cause reset below).kept = s.kept := by simp [State.startDry]
@[simp] theorem State.deltaTiles_kept (s : State) :
    (State.deltaTiles s).kept = s.kept := by
  unfold State.deltaTiles
  repeat' first | simp | split
@[simp] theorem State.undoFlush_kept (s : State) :
    (State.undoFlush s).kept = s.kept := by
  unfold State.undoFlush
  repeat' first | simp | split
@[simp] theorem State.dryCut_kept (s : State) : (State.dryCut s).kept = s.kept := by
  unfold State.dryCut
  dsimp only
  rw [State.pump_kept, State.undoFlush_kept, State.deltaTiles_kept, State.archiveLogs_kept, State.journalFlush_kept]
  refine (State.foldl_kept _ (fun s g => ?_) _ _).trans ((State.cleanWalk_kept ..).trans ((State.foldl_kept _ (fun s g => ?_) _ _).trans ?_))
  · simp
  · simp
  · simp
@[simp] theorem State.railLost_kept (s : State) (ch : Nat) : (State.railLost s ch).kept = s.kept := by simp [State.railLost]

/-! ### Machine/Power.lean -/

@[simp] theorem State.beginStep_kept (s : State) (k : Nat) : (State.beginStep s k).kept = s.kept := by simp [State.beginStep]
@[simp] theorem State.seqComplete_kept (s : State) : (State.seqComplete s).kept = s.kept := by simp [State.seqComplete]
@[simp] theorem State.stepOn_kept (s : State) : (State.stepOn s).kept = s.kept := by unfold State.stepOn; (repeat' split) <;> simp
@[simp] theorem State.powerInit_kept (s : State) : (State.powerInit s).kept = s.kept := by simp [State.powerInit]
@[simp] theorem State.powerUp_kept (s : State) : (State.powerUp s).kept = s.kept := by
  unfold State.powerUp
  repeat' first | simp | split
@[simp] theorem execPowerUpStart_kept (s : State) : Res.keeps (execPowerUpStart s) s := by simp [execPowerUpStart]
@[simp] theorem execStepComplete_kept (s : State) : Res.keeps (execStepComplete s) s := by simp [execStepComplete]
@[simp] theorem State.attemptFailed_kept (s : State) : (State.attemptFailed s).kept = s.kept := by simp [State.attemptFailed]
@[simp] theorem execStepTimeout_kept (ch : RailNo) (s : State) : Res.keeps (execStepTimeout ch s) s := by simp [execStepTimeout]
@[simp] theorem execRetryBackoffExpiry_kept (s : State) : Res.keeps (execRetryBackoffExpiry s) s := by
  unfold execRetryBackoffExpiry
  repeat' first | simp | split
@[simp] theorem execResetStretchExpiry_kept (k : Fin 5) (s : State) : Res.keeps (execResetStretchExpiry k s) s := by
  simp [execResetStretchExpiry]
@[simp] theorem execRailsOffStep_kept (s : State) : Res.keeps (execRailsOffStep s) s := by simp [execRailsOffStep]
@[simp] theorem execStep_kept (w : BitVec 40) (s : State) : Res.keeps (execStep w s) s := by simp [execStep]
@[simp] theorem execPoll_kept (w : BitVec 40) (s : State) : Res.keeps (execPoll w s) s := by simp [execPoll]
@[simp] theorem execSeqAbort_kept (w : BitVec 40) (s : State) : Res.keeps (execSeqAbort w s) s := by simp [execSeqAbort]
@[simp] theorem execOff_kept (w : BitVec 40) (s : State) : Res.keeps (execOff w s) s := by simp [execOff]
@[simp] theorem execSeqRelease_kept (w : BitVec 40) (s : State) : Res.keeps (execSeqRelease w s) s := by simp [execSeqRelease]
@[simp] theorem State.powerFail_kept (s : State) (cause : Nat) : (State.powerFail s cause).kept = s.kept := by simp [State.powerFail]
@[simp] theorem execPfw_kept (w : BitVec 40) (s : State) : Res.keeps (execPfw w s) s := by simp [execPfw]
@[simp] theorem execSeqTimeout_kept (s : State) : Res.keeps (execSeqTimeout s) s := by simp [execSeqTimeout]
@[simp] theorem State.sendOff_kept (s : State) : (State.sendOff s).kept = s.kept := by simp [State.sendOff]
@[simp] theorem execSeqPollReply_kept (slave : BitVec 6) (reply : BitVec 24) (s : State) :
    Res.keeps (execSeqPollReply slave reply s) s := by simp [execSeqPollReply]
@[simp] theorem execSeqOffDeadline_kept (s : State) : Res.keeps (execSeqOffDeadline s) s := by simp [execSeqOffDeadline]
@[simp] theorem execRailFault_kept (ch : RailNo) (s : State) : Res.keeps (execRailFault ch s) s := by simp [execRailFault]
@[simp] theorem execRailWarning_kept (sense : Fin 16) (s : State) : Res.keeps (execRailWarning sense s) s := by
  simp [execRailWarning]
@[simp] theorem execBudgetCompute_kept (capUv : BitVec 21) (s : State) : Res.keeps (execBudgetCompute capUv s) s := by
  simp [execBudgetCompute]
@[simp] theorem execCapTestStart_kept (s : State) : Res.keeps (execCapTestStart s) s := by simp [execCapTestStart]
@[simp] theorem execCapTestSettled_kept (s : State) : Res.keeps (execCapTestSettled s) s := by simp [execCapTestSettled]
@[simp] theorem execCapTestNotCharged_kept (s : State) : Res.keeps (execCapTestNotCharged s) s := by simp [execCapTestNotCharged]
@[simp] theorem execCapTestDischargeEnd_kept (dtUs : BitVec 32) (s : State) : Res.keeps (execCapTestDischargeEnd dtUs s) s := by
  simp [execCapTestDischargeEnd]
@[simp] theorem execCapTestRetry_kept (s : State) : Res.keeps (execCapTestRetry s) s := by simp [execCapTestRetry]
@[simp] theorem execCapRecharged_kept (s : State) : Res.keeps (execCapRecharged s) s := by simp [execCapRecharged]
@[simp] theorem State.railsOff_kept (s : State) : (State.railsOff s).kept = s.kept := by simp [State.railsOff]
@[simp] theorem execVinWarning_kept (s : State) : Res.keeps (execVinWarning s) s := by
  unfold execVinWarning
  repeat' first | simp | split
@[simp] theorem execPfwNAssert_kept (s : State) : Res.keeps (execPfwNAssert s) s := by simp [execPfwNAssert]
@[simp] theorem execDrydownCut_kept (s : State) : Res.keeps (execDrydownCut s) s := by simp [execDrydownCut]
@[simp] theorem State.quiesce_kept (s : State) : (State.quiesce s).kept = s.kept := by simp [State.quiesce]
@[simp] theorem execFlushEnd_kept (s : State) : Res.keeps (execFlushEnd s) s := by simp [execFlushEnd]
@[simp] theorem execBankLowInFlush_kept (s : State) : Res.keeps (execBankLowInFlush s) s := by simp [execBankLowInFlush]
@[simp] theorem State.fabricQuiet_kept (s : State) : (State.fabricQuiet s).kept = s.kept := by simp [State.fabricQuiet]
@[simp] theorem State.hostQuiet_kept (s : State) : (State.hostQuiet s).kept = s.kept := by simp [State.hostQuiet]
@[simp] theorem State.noteDry_kept (s : State) : (State.noteDry s).kept = s.kept := by unfold State.noteDry; split <;> simp
@[simp] theorem State.quiesced_kept (s : State) (d : Dry) : (State.quiesced s d).kept = s.kept := by
  unfold State.quiesced
  repeat' first | simp | split
@[simp] theorem execRailsOffEnd_kept (s : State) : Res.keeps (execRailsOffEnd s) s := by unfold execRailsOffEnd; split <;> simp
@[simp] theorem execVinGoodReturn_kept (s : State) : Res.keeps (execVinGoodReturn s) s := by simp [execVinGoodReturn]
@[simp] theorem execVinGoodLoss_kept (s : State) : Res.keeps (execVinGoodLoss s) s := by simp [execVinGoodLoss]
@[simp] theorem execResumeHoldExpiry_kept (s : State) : Res.keeps (execResumeHoldExpiry s) s := by simp [execResumeHoldExpiry]
@[simp] theorem execColdReset_kept (s : State) : Res.keeps (execColdReset s) s := by simp [execColdReset]
@[simp] theorem execColdResetRelease_kept (s : State) : Res.keeps (execColdResetRelease s) s := by simp [execColdResetRelease]

/-! ### Machine/Thermal.lean -/

@[simp] theorem State.wipeNow_kept (s : State) (cause : Nat) : (State.wipeNow s cause).kept = s.kept := by
  unfold State.wipeNow
  simp only [State.pump_kept]
  refine (State.foldl_kept _ (fun s a => State.serve_kept ..) _ _).trans ?_
  rw [State.modCache_kept]
  refine (State.foldl_kept _ (fun s g => ?_) _ _).trans ?_
  · split <;> simp
  rw [State.modReads_kept]
  refine (State.foldl_kept _ (fun s g => ?_) _ _).trans ?_
  · split <;> simp
  refine (State.foldl_kept _ (fun s g => ?_) _ _).trans ?_
  · simp
  refine (State.foldl_kept _ (fun s g => ?_) _ _).trans ?_
  · simp
  split <;> simp
@[simp] theorem State.wipe_kept (s : State) (c : WipeCause) : (State.wipe s c).kept = s.kept := by simp [State.wipe]
@[simp] theorem execEmergencyWipeTrigger_kept (cause : WipeCause) (s : State) : Res.keeps (execEmergencyWipeTrigger cause s) s := by
  simp [execEmergencyWipeTrigger]
@[simp] theorem State.wipeFill_kept (s : State) : (State.wipeFill s).kept = s.kept := by
  unfold State.wipeFill
  rw [State.setF_kept]
  rfl
@[simp] theorem execWipeFillEnd_kept (s : State) : Res.keeps (execWipeFillEnd s) s := by simp [execWipeFillEnd]
@[simp] theorem State.modTherm_kept (s : State) (f : ThermSt → ThermSt) : (State.modTherm s f).kept = s.kept := by
  simp [State.modTherm]
@[simp] theorem State.throttling_kept (s : State) : (State.throttling s).kept = s.kept := by simp [State.throttling]
@[simp] theorem State.thermalLimit_kept (s : State) : (State.thermalLimit s).kept = s.kept := by simp [State.thermalLimit]
@[simp] theorem State.excludeSensor_kept (s : State) (i : Nat) : (State.excludeSensor s i).kept = s.kept := by
  simp [State.excludeSensor]
@[simp] theorem State.deviations_kept (s : State) : (State.deviations s).kept = s.kept := by simp [State.deviations]
@[simp] theorem State.junction_kept (s : State) : (State.junction s).kept = s.kept := by
  unfold State.junction
  repeat' first | simp | split
@[simp] theorem execOnDieSensorSample_kept (t : List (BitVec 12)) (s : State) : Res.keeps (execOnDieSensorSample t s) s := by
  simp [execOnDieSensorSample]
@[simp] theorem execSensorSelfCheck_kept (failing : BitVec 32) (s : State) : Res.keeps (execSensorSelfCheck failing s) s := by
  simp [execSensorSelfCheck]
@[simp] theorem execRemoteSensorSample_kept (n : Fin 16) (t : BitVec 12) (open_ : Bool) (s : State) :
    Res.keeps (execRemoteSensorSample n t open_ s) s := by simp [execRemoteSensorSample]
@[simp] theorem execTimebaseCompensate_kept (s : State) : Res.keeps (execTimebaseCompensate s) s := by simp [execTimebaseCompensate]
@[simp] theorem execBandgapRetrim_kept (s : State) : Res.keeps (execBandgapRetrim s) s := by simp [execBandgapRetrim]
@[simp] theorem State.groupReading_kept (s : State) (g : Nat) : (State.groupReading s g).kept = s.kept := by
  unfold State.groupReading; split <;> simp
@[simp] theorem execTempResponse_kept (ch : ChanNo) (pkg : Fin 2) (bits : BitVec 64) (s : State) :
    Res.keeps (execTempResponse ch pkg bits s) s := by simp [execTempResponse]
@[simp] theorem State.thermalSlot_kept (s : State) : (State.thermalSlot s).kept = s.kept := by simp [State.thermalSlot]
@[simp] theorem State.belowMin_kept (s : State) : (State.belowMin s).kept = s.kept := by simp [State.belowMin]
@[simp] theorem State.planesGone_kept (s : State) :
    (State.planesGone s).kept = s.kept := by
  unfold State.planesGone
  repeat' first | simp | split
@[simp] theorem State.missesEnd_kept (s : State) :
    (State.missesEnd s).kept = s.kept := by
  unfold State.missesEnd
  repeat' first | simp | split
@[simp] theorem execIdentResponse_kept (ch : ChanNo) (pkg : Fin 2) (bits : BitVec 128) (s : State) :
    Res.keeps (execIdentResponse ch pkg bits s) s := by simp [execIdentResponse]

/-! ### Machine/Slots.lean -/

@[simp] theorem State.tellAgain_kept (s : State) : (State.tellAgain s).kept = s.kept := by rfl
@[simp] theorem execSlotBoundary_kept (s : State) : Res.keeps (execSlotBoundary s) s := by
  unfold execSlotBoundary
  repeat' first | simp | split

/-! ### Machine/Avail.lean -/

@[simp] theorem execOscillatorCompare_kept (off0 : Bool) (off1 : Bool) (s : State) :
    Res.keeps (execOscillatorCompare off0 off1 s) s := by simp [execOscillatorCompare]
@[simp] theorem execPllLockLoss_kept (pll : Fin 2) (s : State) : Res.keeps (execPllLockLoss pll s) s := by simp [execPllLockLoss]
@[simp] theorem execPllRelockStable_kept (s : State) : Res.keeps (execPllRelockStable s) s := by simp [execPllRelockStable]
@[simp] theorem execPlaneSelfCheckFail_kept (plane : Fin 2) (s : State) : Res.keeps (execPlaneSelfCheckFail plane s) s := by
  simp [execPlaneSelfCheckFail]
@[simp] theorem State.stackWays_kept (s : State) (k : Nat) : (State.stackWays s k).kept = s.kept := by simp [State.stackWays]
@[simp] theorem State.stackShare_kept (s : State) : (State.stackShare s).kept = s.kept := by simp [State.stackShare]
@[simp] theorem State.stackFail_kept (s : State) (k : Nat) : (State.stackFail s k).kept = s.kept := by simp [State.stackFail]
@[simp] theorem execHbmStackFail_kept (stack : Fin 2) (s : State) : Res.keeps (execHbmStackFail stack s) s := by
  simp [execHbmStackFail]
@[simp] theorem execHbmShareRebuilt_kept (s : State) : Res.keeps (execHbmShareRebuilt s) s := by simp [execHbmShareRebuilt]

/-! ### Machine/EngOps.lean -/

@[simp] theorem State.modEng_kept (s : State) (f : EngSt → EngSt) : (State.modEng s f).kept = s.kept := by simp [State.modEng]
@[simp] theorem State.setEng_kept (s : State) (e role duty st : Nat) : (State.setEng s e role duty st).kept = s.kept := by
  simp [State.setEng]
@[simp] theorem State.engSummary_kept (s : State) : (State.engSummary s).kept = s.kept := by simp [State.engSummary]
@[simp] theorem State.roleMoves_kept (s : State) (role duty : Nat) (now : Bool) : (State.roleMoves s role duty now).kept = s.kept := by
  unfold State.roleMoves; split <;> simp
@[simp] theorem State.engOut_kept (s : State) (e cause : Nat) : (State.engOut s e cause).kept = s.kept := by simp [State.engOut]
@[simp] theorem State.engFails_kept (s : State) (e : Nat) (cause : Nat) : (State.engFails s e cause).kept = s.kept := by
  simp [State.engFails]
@[simp] theorem State.engBack_kept (s : State) (e : Nat) : (State.engBack s e).kept = s.kept := by simp [State.engBack]
@[simp] theorem State.engStart_kept (s : State) (ok : BitVec 64) : (State.engStart s ok).kept = s.kept := by simp [State.engStart]
@[simp] theorem State.modMaint_kept (s : State) (f : MaintSt → MaintSt) : (State.modMaint s f).kept = s.kept := by
  simp [State.modMaint]
@[simp] theorem State.sparesLoad_kept (s : State) : (State.sparesLoad s).kept = s.kept := by simp [State.sparesLoad]
@[simp] theorem State.roundMove_kept (s : State) (e h : Nat) : (State.roundMove s e h).kept = s.kept := by simp [State.roundMove]
@[simp] theorem State.patchRound_kept (s : State) : (State.patchRound s).kept = s.kept := by simp [State.patchRound]
@[simp] theorem State.patchEnd_kept (s : State) (commit : Bool) : (State.patchEnd s commit).kept = s.kept := by simp [State.patchEnd]
@[simp] theorem State.remapUsed_kept (s : State) (m : Nat) : (State.remapUsed s m).kept = s.kept := by simp [State.remapUsed]
@[simp] theorem State.macroWord_kept (s : State) (m w : Nat) : (State.macroWord s m w).kept = s.kept := by simp [State.macroWord]
@[simp] theorem State.hbmRow_kept (s : State) (k : Nat) : (State.hbmRow s k).kept = s.kept := by simp [State.hbmRow]
@[simp] theorem State.sectorLost_kept (s : State) (k : Nat) :
    (State.sectorLost s k).kept = s.kept := by
  unfold State.sectorLost
  repeat' first | simp | split
@[simp] theorem State.progLost_kept (s : State) (p : Prog) (l : Nat) :
    (State.progLost s p l).kept = s.kept := by
  unfold State.progLost
  repeat' first | simp | split
@[simp] theorem State.mashLost_kept (s : State) (m : Mash) (l : Nat) :
    (State.mashLost s m l).kept = s.kept := by
  unfold State.mashLost
  repeat' first | simp | split | refine (State.spillMash_some (by assumption)).trans ?_
@[simp] theorem State.contextLost_kept (s : State) (idx : Nat) :
    (State.contextLost s idx).kept = s.kept := by
  unfold State.contextLost
  repeat' first | simp | split
@[simp] theorem State.wordLost_kept (s : State) (m w : Nat) :
    (State.wordLost s m w).kept = s.kept := by
  unfold State.wordLost
  repeat' first | simp | split
@[simp] theorem State.wordRead_kept (s : State) (m w : Nat) : (State.wordRead s m w).kept = s.kept := by
  unfold State.wordRead
  repeat' first | simp | split
@[simp] theorem State.lineUncorrectable_kept (s : State) (ltn l : Nat) : (State.lineUncorrectable s ltn l).kept = s.kept := by
  unfold State.lineUncorrectable
  repeat' first | simp | split
@[simp] theorem State.moverFails_kept (s : State) : (State.moverFails s).kept = s.kept := by
  unfold State.moverFails
  repeat' first | simp | split

/-! ### Machine/Engines.lean -/

@[simp] theorem execHeartbeatCheck_kept (beat : BitVec 64) (s : State) : Res.keeps (execHeartbeatCheck beat s) s := by
  simp [execHeartbeatCheck]
@[simp] theorem execEngineFail_kept (e : EngineNo) (cause : EngCause) (s : State) : Res.keeps (execEngineFail e cause s) s := by
  simp [execEngineFail]
@[simp] theorem execFailoverTakeover_kept (e : EngineNo) (s : State) : Res.keeps (execFailoverTakeover e s) s := by
  unfold execFailoverTakeover; split <;> simp
@[simp] theorem execMoverDescriptorEnd_kept (k : Fin 128) (bad : Option MoverSource) (s : State) :
    Res.keeps (execMoverDescriptorEnd k bad s) s := by unfold execMoverDescriptorEnd; (repeat' split) <;> simp
@[simp] theorem State.bgtStep_kept (s : State) (m r : Nat) : (State.bgtStep s m r).kept = s.kept := by
  unfold State.bgtStep
  repeat' first | simp | split
@[simp] theorem execBgtRegionTest_kept (bad : List (BitVec 14)) (s : State) : Res.keeps (execBgtRegionTest bad s) s := by
  simp [execBgtRegionTest]
@[simp] theorem execRetentionIdleExpiry_kept (m : Fin 640) (s : State) : Res.keeps (execRetentionIdleExpiry m s) s := by
  simp [execRetentionIdleExpiry]
@[simp] theorem execMacroWakeEnd_kept (m : Fin 640) (s : State) : Res.keeps (execMacroWakeEnd m s) s := by simp [execMacroWakeEnd]
@[simp] theorem execPatchRoundEnd_kept (s : State) : Res.keeps (execPatchRoundEnd s) s := by unfold execPatchRoundEnd; split <;> simp

/-! ### Machine/Weali.lean -/

@[simp] theorem State.pageRetire_kept (s : State) (page : Nat) : (State.pageRetire s page).kept = s.kept := by
  simp [State.pageRetire]
@[simp] theorem execRwpStoreEnd_kept (off : BitVec 20) (s : State) : Res.keeps (execRwpStoreEnd off s) s := by
  unfold execRwpStoreEnd; split <;> simp
@[simp] theorem execWealiSweepTick_kept (page : BitVec 17) (margin : Bool) (uncorr : Bool) (s : State) :
    Res.keeps (execWealiSweepTick page margin uncorr s) s := by simp [execWealiSweepTick]
@[simp] theorem State.boardGo_kept (s : State) (op : Nat) : (State.boardGo s op).kept = s.kept := by simp [State.boardGo]

/-! ### Machine/Queues.lean -/

@[simp] theorem State.queueCreate_kept (s : State) (q : Nat) : (State.queueCreate s q).kept = s.kept := by simp [State.queueCreate]
@[simp] theorem State.queueDelete_kept (s : State) (q : Nat) (force : Bool) : (State.queueDelete s q force).kept = s.kept := by
  simp [State.queueDelete]
@[simp] theorem execSqTail_kept (ld : LdNo) (q : QNo) (val : BitVec 32) (s : State) : Res.keeps (execSqTail ld q val s) s := by
  simp [execSqTail]
@[simp] theorem execCqHead_kept (ld : LdNo) (q : QNo) (val : BitVec 32) (s : State) : Res.keeps (execCqHead ld q val s) s := by
  simp [execCqHead]
@[simp] theorem execQueueEntryFetch_kept (q : QNo) (entry : Option (BitVec 512)) (s : State) :
    Res.keeps (execQueueEntryFetch q entry s) s := by unfold execQueueEntryFetch; (repeat' split) <;> simp
@[simp] theorem State.unposted_kept (s : State) (q : Nat) (f : Flight) : (State.unposted s q f).kept = s.kept := by
  simp [State.unposted]
@[simp] theorem State.lcAdvance_kept (s : State) : (State.lcAdvance s).kept = s.kept := by simp [State.lcAdvance]
@[simp] theorem execKelricCommandComplete_kept (q : QNo) (cid : BitVec 16) (writeOk : Bool) (s : State) :
    Res.keeps (execKelricCommandComplete q cid writeOk s) s := by
  unfold execKelricCommandComplete
  repeat' first | simp | split
@[simp] theorem execVectorSignalHoldoffEnd_kept (ld : LdNo) (vec : Fin 64) (s : State) :
    Res.keeps (execVectorSignalHoldoffEnd ld vec s) s := by
  unfold execVectorSignalHoldoffEnd
  repeat' first | simp | split
@[simp] theorem execBusMasterDisable_kept (ld : LdNo) (s : State) : Res.keeps (execBusMasterDisable ld s) s := by
  simp [execBusMasterDisable]
@[simp] theorem execBusMasterEnable_kept (ld : LdNo) (s : State) : Res.keeps (execBusMasterEnable ld s) s := by
  simp [execBusMasterEnable]

/-! ### Machine/RegView.lean -/

end Sys2Proof.Machine
end

