-- ==== Sys2Proof/Laws/KeptCommands.lean ====
section
/-!
SUPPORT. What hardly any command changes, kept by the Kelric and mailbox commands, the register rows and the start: one lemma for each of them (R10, R219, R395, R479).
-/

namespace Sys2Proof.Machine

/-! ### Machine/KelricCache.lean -/

@[simp] theorem State.identifyAct_kept (c : KCmd) (re : CmdSrc) (s : State) : (State.identifyAct c re s).kept = s.kept := by
  simp [State.identifyAct]
@[simp] theorem execIdentifyK_kept (c : KCmd) (s : State) : Res.keeps (execIdentifyK c s) s := by simp [execIdentifyK]
@[simp] theorem State.cacheEnableAct_kept (c : KCmd) (re : CmdSrc) (s : State) : (State.cacheEnableAct c re s).kept = s.kept := by
  unfold State.cacheEnableAct; split <;> simp
@[simp] theorem execCacheEnable_kept (c : KCmd) (s : State) : Res.keeps (execCacheEnable c s) s := by simp [execCacheEnable]
@[simp] theorem State.cacheDisableAct_kept (c : KCmd) (re : CmdSrc) (s : State) : (State.cacheDisableAct c re s).kept = s.kept := by
  unfold State.cacheDisableAct; split <;> simp
@[simp] theorem execCacheDisable_kept (c : KCmd) (s : State) : Res.keeps (execCacheDisable c s) s := by simp [execCacheDisable]
@[simp] theorem State.cacheRangeAct_kept (c : KCmd) (re : CmdSrc) (s : State) : (State.cacheRangeAct c re s).kept = s.kept := by
  simp [State.cacheRangeAct]
@[simp] theorem execCacheRange_kept (c : KCmd) (s : State) : Res.keeps (execCacheRange c s) s := by simp [execCacheRange]
@[simp] theorem State.cacheStatusAct_kept (c : KCmd) (re : CmdSrc) (s : State) : (State.cacheStatusAct c re s).kept = s.kept := by
  simp [State.cacheStatusAct]
@[simp] theorem execCacheStatus_kept (c : KCmd) (s : State) : Res.keeps (execCacheStatus c s) s := by simp [execCacheStatus]
@[simp] theorem State.discardAct_kept (c : KCmd) (re : CmdSrc) (s : State) : (State.discardAct c re s).kept = s.kept := by
  simp [State.discardAct]
@[simp] theorem execDiscard_kept (c : KCmd) (s : State) : Res.keeps (execDiscard c s) s := by simp [execDiscard]
@[simp] theorem State.discardStatusAct_kept (c : KCmd) (re : CmdSrc) (s : State) : (State.discardStatusAct c re s).kept = s.kept := by
  simp [State.discardStatusAct]
@[simp] theorem execDiscardStatus_kept (c : KCmd) (s : State) : Res.keeps (execDiscardStatus c s) s := by simp [execDiscardStatus]

/-! ### Machine/KelricKeys.lean -/

@[simp] theorem State.keyLoadGo_kept (s : State) (idx : Nat) (root : BitVec 256) (persist : Bool) (from_ : Option Nat) (src : Option CmdSrc) :
    (State.keyLoadGo s idx root persist from_ src).kept = s.kept := by simp [State.keyLoadGo]
@[simp] theorem State.keyLoadAct_kept (c : KCmd) (re : CmdSrc) (s : State) : (State.keyLoadAct c re s).kept = s.kept := by
  unfold State.keyLoadAct; split <;> simp
@[simp] theorem State.keyLoadHold_kept (c : KCmd) (s : State) : (State.keyLoadHold c s).kept = s.kept := by
  unfold State.keyLoadHold; split <;> simp
@[simp] theorem State.unreserve_kept (s : State) (idx : Nat) : (State.unreserve s idx).kept = s.kept := by simp [State.unreserve]
@[simp] theorem State.keyLoadLate_kept (s : State) (c : KCmd) (re : CmdSrc) : (State.keyLoadLate s c re).kept = s.kept := by
  unfold State.keyLoadLate
  repeat' first | simp | split
@[simp] theorem execKeyLoad_kept (c : KCmd) (s : State) : Res.keeps (execKeyLoad c s) s := by simp [execKeyLoad]
@[simp] theorem State.keyRetireGo_kept (s : State) (idx : Nat) (src : Option CmdSrc) :
    (State.keyRetireGo s idx src).kept = s.kept := by simp [State.keyRetireGo]
@[simp] theorem State.keyRetireAct_kept (c : KCmd) (re : CmdSrc) (s : State) : (State.keyRetireAct c re s).kept = s.kept := by
  simp [State.keyRetireAct]
@[simp] theorem execKeyRetire_kept (c : KCmd) (s : State) : Res.keeps (execKeyRetire c s) s := by simp [execKeyRetire]
@[simp] theorem State.rekeyLd_kept (s : State) (ld idx : Nat) : (State.rekeyLd s ld idx).2.kept = s.kept := by
  unfold State.rekeyLd
  repeat' first | simp | split
@[simp] theorem State.keyBindAct_kept (c : KCmd) (re : CmdSrc) (s : State) : (State.keyBindAct c re s).kept = s.kept := by
  unfold State.keyBindAct; split <;> simp
@[simp] theorem execKeyBind_kept (c : KCmd) (s : State) : Res.keeps (execKeyBind c s) s := by simp [execKeyBind]
@[simp] theorem State.keyStatusAct_kept (c : KCmd) (re : CmdSrc) (s : State) : (State.keyStatusAct c re s).kept = s.kept := by
  simp [State.keyStatusAct]
@[simp] theorem execKeyStatus_kept (c : KCmd) (s : State) : Res.keeps (execKeyStatus c s) s := by simp [execKeyStatus]

/-! ### Machine/KelricMedia.lean -/

@[simp] theorem State.accelStart_kept (s : State) : (State.accelStart s).kept = s.kept := by simp [State.accelStart]
@[simp] theorem State.patrolSetAct_kept (c : KCmd) (re : CmdSrc) (s : State) : (State.patrolSetAct c re s).kept = s.kept := by
  simp [State.patrolSetAct]
@[simp] theorem execPatrolSet_kept (c : KCmd) (s : State) : Res.keeps (execPatrolSet c s) s := by simp [execPatrolSet]
@[simp] theorem State.patrolStatusAct_kept (c : KCmd) (re : CmdSrc) (s : State) : (State.patrolStatusAct c re s).kept = s.kept := by
  simp [State.patrolStatusAct]
@[simp] theorem execPatrolStatus_kept (c : KCmd) (s : State) : Res.keeps (execPatrolStatus c s) s := by simp [execPatrolStatus]
@[simp] theorem State.cancelAction_kept (s : State) (h : Nat) : (State.cancelAction s h).kept = s.kept := by
  unfold State.cancelAction; split <;> simp
@[simp] theorem State.scheduleSetAct_kept (c : KCmd) (re : CmdSrc) (s : State) : (State.scheduleSetAct c re s).kept = s.kept := by
  simp [State.scheduleSetAct]
@[simp] theorem execScheduleSet_kept (c : KCmd) (s : State) : Res.keeps (execScheduleSet c s) s := by simp [execScheduleSet]
@[simp] theorem State.spareStatusAct_kept (c : KCmd) (re : CmdSrc) (s : State) : (State.spareStatusAct c re s).kept = s.kept := by
  simp [State.spareStatusAct]
@[simp] theorem execSpareStatus_kept (c : KCmd) (s : State) : Res.keeps (execSpareStatus c s) s := by simp [execSpareStatus]
@[simp] theorem State.rebuildControlAct_kept (c : KCmd) (re : CmdSrc) (s : State) :
    (State.rebuildControlAct c re s).kept = s.kept := by unfold State.rebuildControlAct; split <;> simp
@[simp] theorem execRebuildControl_kept (c : KCmd) (s : State) : Res.keeps (execRebuildControl c s) s := by simp [execRebuildControl]
@[simp] theorem State.wearReportAct_kept (c : KCmd) (re : CmdSrc) (s : State) : (State.wearReportAct c re s).kept = s.kept := by
  simp [State.wearReportAct]
@[simp] theorem execWearReport_kept (c : KCmd) (s : State) : Res.keeps (execWearReport c s) s := by simp [execWearReport]

/-! ### Machine/KelricFabric.lean -/

@[simp] theorem State.mirrorSetAct_kept (c : KCmd) (re : CmdSrc) (s : State) : (State.mirrorSetAct c re s).kept = s.kept := by
  simp [State.mirrorSetAct]
@[simp] theorem execMirrorSet_kept (c : KCmd) (s : State) : Res.keeps (execMirrorSet c s) s := by simp [execMirrorSet]
@[simp] theorem State.fabricStatusAct_kept (c : KCmd) (re : CmdSrc) (s : State) : (State.fabricStatusAct c re s).kept = s.kept := by
  simp [State.fabricStatusAct]
@[simp] theorem execFabricStatus_kept (c : KCmd) (s : State) : Res.keeps (execFabricStatus c s) s := by simp [execFabricStatus]
@[simp] theorem State.exportAdd_kept (s : State) (k first count node : Nat) (write : Bool) :
    (State.exportAdd s k first count node write).kept = s.kept := by simp [State.exportAdd]
@[simp] theorem State.exportDel_kept (s : State) (k : Nat) (src : Option CmdSrc) : (State.exportDel s k src).kept = s.kept := by
  simp [State.exportDel]
@[simp] theorem State.importAdd_kept (s : State) (k ld region first count pool : Nat) :
    (State.importAdd s k ld region first count pool).kept = s.kept := by simp [State.importAdd]
@[simp] theorem State.dropPool_kept (s : State) (pool count : Nat) : (State.dropPool s pool count).kept = s.kept := by
  simp [State.dropPool]
@[simp] theorem State.importDel_kept (s : State) (k : Nat) : (State.importDel s k).kept = s.kept := by simp [State.importDel]
@[simp] theorem State.pinRoute_kept (s : State) (node link : Nat) (pin : Bool) : (State.pinRoute s node link pin).kept = s.kept := by
  simp [State.pinRoute]
@[simp] theorem State.routeSetAct_kept (c : KCmd) (re : CmdSrc) (s : State) : (State.routeSetAct c re s).kept = s.kept := by
  unfold State.routeSetAct; split <;> simp
@[simp] theorem execFabricRouteSet_kept (c : KCmd) (s : State) : Res.keeps (execFabricRouteSet c s) s := by simp [execFabricRouteSet]
@[simp] theorem State.restep_kept (s : State) : (State.restep s).kept = s.kept := by
  unfold State.restep
  split
  · rfl
  · rw [State.timeChoose_kept, State.event_kept, State.setF_kept, State.modTime_kept]
    refine (State.foldl_kept _ (fun s x => State.setEntryQuiet_kept ..) _ _).trans ?_
    split
    · exact State.passTo_kept ..
    · rfl
@[simp] theorem State.timeSourceAct_kept (c : KCmd) (re : CmdSrc) (s : State) : (State.timeSourceAct c re s).kept = s.kept := by
  simp [State.timeSourceAct]
@[simp] theorem execTimeSourceSet_kept (c : KCmd) (s : State) : Res.keeps (execTimeSourceSet c s) s := by simp [execTimeSourceSet]
@[simp] theorem State.timeStatusAct_kept (c : KCmd) (re : CmdSrc) (s : State) : (State.timeStatusAct c re s).kept = s.kept := by
  simp [State.timeStatusAct]
@[simp] theorem execTimeStatus_kept (c : KCmd) (s : State) : Res.keeps (execTimeStatus c s) s := by simp [execTimeStatus]
@[simp] theorem State.caskCreate_kept (s : State) (id period start : Nat) (nodes : List Nat) (mask : BitVec 64) (src : Option CmdSrc) :
    (State.caskCreate s id period start nodes mask src).kept = s.kept := by simp [State.caskCreate]
@[simp] theorem State.caskDelete_kept (s : State) (i : Nat) : (State.caskDelete s i).kept = s.kept := by
  unfold State.caskDelete
  repeat' first | simp | split
@[simp] theorem State.caskMark_kept (s : State) (i slot : Nat) : (State.caskMark s i slot).kept = s.kept := by simp [State.caskMark]
@[simp] theorem State.caskConfigAct_kept (c : KCmd) (re : CmdSrc) (s : State) : (State.caskConfigAct c re s).kept = s.kept := by
  unfold State.caskConfigAct
  dsimp only
  split
  · exact State.caskCreate_kept ..
  · exact (State.done_kept ..).trans (State.caskDelete_kept ..)
  · exact (State.done_kept ..).trans (State.caskMark_kept ..)
  · rfl
@[simp] theorem execCaskConfig_kept (c : KCmd) (s : State) : Res.keeps (execCaskConfig c s) s := by simp [execCaskConfig]
@[simp] theorem State.caskStatusAct_kept (c : KCmd) (re : CmdSrc) (s : State) : (State.caskStatusAct c re s).kept = s.kept := by
  unfold State.caskStatusAct; split <;> simp
@[simp] theorem execCaskStatus_kept (c : KCmd) (s : State) : Res.keeps (execCaskStatus c s) s := by simp [execCaskStatus]
@[simp] theorem State.caskRecoverAct_kept (c : KCmd) (re : CmdSrc) (s : State) : (State.caskRecoverAct c re s).kept = s.kept := by
  unfold State.caskRecoverAct; split <;> simp
@[simp] theorem execCaskRecover_kept (c : KCmd) (s : State) : Res.keeps (execCaskRecover c s) s := by simp [execCaskRecover]

/-! ### Machine/KelricSystem.lean -/

@[simp] theorem State.holdupStatusAct_kept (c : KCmd) (re : CmdSrc) (s : State) : (State.holdupStatusAct c re s).kept = s.kept := by
  simp [State.holdupStatusAct]
@[simp] theorem execHoldupStatus_kept (c : KCmd) (s : State) : Res.keeps (execHoldupStatus c s) s := by simp [execHoldupStatus]
@[simp] theorem execHoldupTest_kept (c : KCmd) (s : State) : Res.keeps (execHoldupTest c s) s := by simp [execHoldupTest]
@[simp] theorem State.throttleSetAct_kept (c : KCmd) (re : CmdSrc) (s : State) : (State.throttleSetAct c re s).kept = s.kept := by
  simp [State.throttleSetAct]
@[simp] theorem execThrottleSet_kept (c : KCmd) (s : State) : Res.keeps (execThrottleSet c s) s := by simp [execThrottleSet]
@[simp] theorem State.thermalStatusAct_kept (c : KCmd) (re : CmdSrc) (s : State) : (State.thermalStatusAct c re s).kept = s.kept := by
  simp [State.thermalStatusAct]
@[simp] theorem execThermalStatus_kept (c : KCmd) (s : State) : Res.keeps (execThermalStatus c s) s := by simp [execThermalStatus]
@[simp] theorem execSettingRead_kept (c : KCmd) (s : State) : Res.keeps (execSettingRead c s) s := by simp [execSettingRead]
@[simp] theorem State.queueWords_kept (s : State) (q : Nat) (v : Nat) : (State.queueWords s q v).kept = s.kept := by
  simp [State.queueWords]
@[simp] theorem State.settingWriteAct_kept (c : KCmd) (re : CmdSrc) (s : State) : (State.settingWriteAct c re s).kept = s.kept := by
  unfold State.settingWriteAct
  repeat' first | simp | split
@[simp] theorem execSettingWrite_kept (c : KCmd) (s : State) : Res.keeps (execSettingWrite c s) s := by simp [execSettingWrite]
@[simp] theorem State.logSnapshotAct_kept (c : KCmd) (re : CmdSrc) (s : State) : (State.logSnapshotAct c re s).kept = s.kept := by
  unfold State.logSnapshotAct
  repeat' first | simp | split
@[simp] theorem execLogSnapshot_kept (c : KCmd) (s : State) : Res.keeps (execLogSnapshot c s) s := by simp [execLogSnapshot]
@[simp] theorem State.sampleConfigAct_kept (c : KCmd) (re : CmdSrc) (s : State) : (State.sampleConfigAct c re s).kept = s.kept := by
  simp [State.sampleConfigAct]
@[simp] theorem execSampleConfig_kept (c : KCmd) (s : State) : Res.keeps (execSampleConfig c s) s := by simp [execSampleConfig]
@[simp] theorem State.counterConfigAct_kept (c : KCmd) (re : CmdSrc) (s : State) : (State.counterConfigAct c re s).kept = s.kept := by
  simp [State.counterConfigAct]
@[simp] theorem execCounterConfig_kept (c : KCmd) (s : State) : Res.keeps (execCounterConfig c s) s := by simp [execCounterConfig]

/-! ### Machine/KelricMaint.lean -/

@[simp] theorem State.testDiscard_kept (s : State) (id ld : Nat) (secure : Bool) :
    (State.testDiscard s id ld secure).kept = s.kept := by simp [State.testDiscard]
@[simp] theorem State.selfTestAct_kept (c : KCmd) (re : CmdSrc) (s : State) : (State.selfTestAct c re s).kept = s.kept := by
  simp [State.selfTestAct]
@[simp] theorem execSelfTest_kept (c : KCmd) (s : State) : Res.keeps (execSelfTest c s) s := by simp [execSelfTest]
@[simp] theorem State.modTest_kept (s : State) (id : Nat) (f : SelfTest → SelfTest) : (State.modTest s id f).kept = s.kept := by
  simp [State.modTest]
@[simp] theorem State.testFaults_kept (s : State) (t : SelfTest) : (State.testFaults s t).kept = s.kept := by
  unfold State.testFaults; split <;> simp
@[simp] theorem execSelfTestEnd_kept (id : BitVec 8) (errors : List TestError) (s : State) :
    Res.keeps (execSelfTestEnd id errors s) s := by unfold execSelfTestEnd; split <;> simp
@[simp] theorem State.testAbort_kept (s : State) (t : SelfTest) : (State.testAbort s t).kept = s.kept := by simp [State.testAbort]
@[simp] theorem State.selfTestStatusAct_kept (c : KCmd) (re : CmdSrc) (s : State) :
    (State.selfTestStatusAct c re s).kept = s.kept := by unfold State.selfTestStatusAct; split <;> simp
@[simp] theorem execSelfTestStatus_kept (c : KCmd) (s : State) : Res.keeps (execSelfTestStatus c s) s := by simp [execSelfTestStatus]
@[simp] theorem State.stagedClear_kept (s : State) : (State.stagedClear s).kept = s.kept := by simp [State.stagedClear]
@[simp] theorem State.stageCheck_kept (s : State) (l : List Byte) : (State.stageCheck s l).2.kept = s.kept := by
  simp [State.stageCheck]
@[simp] theorem State.stagePart_kept (s : State) (action : Nat) (data : List Byte) :
    (State.stagePart s action data).2.kept = s.kept := by unfold State.stagePart; (repeat' split) <;> simp
@[simp] theorem State.patchStageAct_kept (c : KCmd) (re : CmdSrc) (s : State) : (State.patchStageAct c re s).kept = s.kept := by
  simp [State.patchStageAct]
@[simp] theorem execPatchStage_kept (c : KCmd) (s : State) : Res.keeps (execPatchStage c s) s := by simp [execPatchStage]
@[simp] theorem State.activateGo_kept (s : State) (commit : Bool) (src : CmdSrc) : (State.activateGo s commit src).kept = s.kept := by
  simp [State.activateGo]
@[simp] theorem execPatchActivate_kept (c : KCmd) (s : State) : Res.keeps (execPatchActivate c s) s := by simp [execPatchActivate]
@[simp] theorem execPatchStatus_kept (c : KCmd) (s : State) : Res.keeps (execPatchStatus c s) s := by simp [execPatchStatus]
@[simp] theorem execLifecycleSet_kept (c : KCmd) (s : State) : Res.keeps (execLifecycleSet c s) s := by simp [execLifecycleSet]
@[simp] theorem State.keysRestore_kept (s : State) : (State.keysRestore s).kept = s.kept := by simp [State.keysRestore]
@[simp] theorem State.keysWipe_kept (s : State) : (State.keysWipe s).kept = s.kept := by simp [State.keysWipe]
@[simp] theorem State.genAdvance_kept (s : State) : (State.genAdvance s).kept = s.kept := by simp [State.genAdvance]
@[simp] theorem State.restartNow_kept (s : State) : (State.restartNow s).kept = s.kept := by simp [State.restartNow]
@[simp] theorem State.timedRun_kept (s : State) (opc : Nat) (c : KCmd) (src : CmdSrc) (check : KCmd → State → Nat) (act : KCmd → CmdSrc → State → State) (h : ∀ c re s, (act c re s).kept = s.kept) :
    (s.timedRun opc c src check act).kept = s.kept := by
  unfold State.timedRun
  repeat' first | simp [h] | split
@[simp] theorem State.runTimed_kept (s : State) (opc : Nat) (c : KCmd) (h : Nat) : (State.runTimed s opc c h).kept = s.kept := by
  unfold State.runTimed; split <;> simp
@[simp] theorem State.actionRun_kept (s : State) (a : TimedAct) : (State.actionRun s a).kept = s.kept := by
  unfold State.actionRun; (repeat' split) <;> simp
@[simp] theorem execTimedActionDue_kept (s : State) : Res.keeps (execTimedActionDue s) s := by
  unfold execTimedActionDue; split <;> simp

/-! ### Machine/Mailbox.lean -/

@[simp] theorem execMailboxDoorbell_kept (path : MboxPath) (opc : BitVec 16) (len : BitVec 21) (s : State) :
    Res.keeps (execMailboxDoorbell path opc len s) s := by simp [execMailboxDoorbell]
@[simp] theorem State.stdRun_kept (s : State) (path : MboxPath) (opc : Nat) (f : Nat → State → State) (h : ∀ p s, (f p s).kept = s.kept) :
    (s.stdRun path opc f).kept = s.kept := by unfold State.stdRun; split <;> simp [*]
@[simp] theorem State.ldRun_kept (s : State) (path : MboxPath) (opc : Nat) (f : Nat → Nat → State → State) (h : ∀ p l s, (f p l s).kept = s.kept) :
    (s.ldRun path opc f).kept = s.kept := by unfold State.ldRun; split <;> simp [*]
@[simp] theorem State.bgRun_kept (s : State) (p opc : Nat) (f : State → State) (h : ∀ s, (f s).kept = s.kept) :
    (s.bgRun p opc f).kept = s.kept := by unfold State.bgRun; split <;> simp [*]
@[simp] theorem execIdentify_kept (path : MboxPath) (s : State) : Res.keeps (execIdentify path s) s := by simp [execIdentify]
@[simp] theorem execBackgroundOperationStatus_kept (path : MboxPath) (s : State) :
    Res.keeps (execBackgroundOperationStatus path s) s := by simp [execBackgroundOperationStatus]
@[simp] theorem execGetResponseMessageLimit_kept (path : MboxPath) (s : State) : Res.keeps (execGetResponseMessageLimit path s) s := by
  simp [execGetResponseMessageLimit]
@[simp] theorem execSetResponseMessageLimit_kept (path : MboxPath) (log2 : BitVec 8) (s : State) :
    Res.keeps (execSetResponseMessageLimit path log2 s) s := by simp [execSetResponseMessageLimit]
@[simp] theorem State.scanStop_kept (s : State) (ld : Nat) : (State.scanStop s ld).kept = s.kept := by simp [State.scanStop]
@[simp] theorem execRequestAbortBackgroundOp_kept (path : MboxPath) (s : State) :
    Res.keeps (execRequestAbortBackgroundOp path s) s := by simp [execRequestAbortBackgroundOp]
@[simp] theorem execGetEventRecords_kept (path : MboxPath) (log : LogNo) (s : State) :
    Res.keeps (execGetEventRecords path log s) s := by simp [execGetEventRecords]
@[simp] theorem execClearEventRecords_kept (path : MboxPath) (log : LogNo) (all : Bool) (handles : List (BitVec 16)) (s : State) :
    Res.keeps (execClearEventRecords path log all handles s) s := by simp [execClearEventRecords]
@[simp] theorem execGetEventInterruptPolicy_kept (path : MboxPath) (s : State) : Res.keeps (execGetEventInterruptPolicy path s) s := by
  simp [execGetEventInterruptPolicy]
@[simp] theorem execSetEventInterruptPolicy_kept (path : MboxPath) (policy : BitVec 40) (s : State) :
    Res.keeps (execSetEventInterruptPolicy path policy s) s := by simp [execSetEventInterruptPolicy]
@[simp] theorem execGetFwInfo_kept (path : MboxPath) (s : State) : Res.keeps (execGetFwInfo path s) s := by simp [execGetFwInfo]
@[simp] theorem execTransferFw_kept (path : MboxPath) (action : BitVec 8) (slot : BitVec 8) (off : BitVec 32) (data : List Byte) (s : State) :
    Res.keeps (execTransferFw path action slot off data s) s := by simp [execTransferFw]
@[simp] theorem execActivateFw_kept (path : MboxPath) (action : BitVec 8) (slot : BitVec 8) (s : State) :
    Res.keeps (execActivateFw path action slot s) s := by simp [execActivateFw]
@[simp] theorem execGetTimestamp_kept (path : MboxPath) (s : State) : Res.keeps (execGetTimestamp path s) s := by
  simp [execGetTimestamp]
@[simp] theorem execSetTimestamp_kept (path : MboxPath) (t : BitVec 64) (s : State) : Res.keeps (execSetTimestamp path t s) s := by
  simp [execSetTimestamp]
@[simp] theorem execGetSupportedLogs_kept (path : MboxPath) (s : State) : Res.keeps (execGetSupportedLogs path s) s := by
  simp [execGetSupportedLogs]
@[simp] theorem execGetLog_kept (path : MboxPath) (log : StdLog) (off : BitVec 32) (len : BitVec 32) (s : State) :
    Res.keeps (execGetLog path log off len s) s := by unfold execGetLog; split <;> simp
@[simp] theorem execIdentifyMemoryDevice_kept (path : MboxPath) (s : State) : Res.keeps (execIdentifyMemoryDevice path s) s := by
  simp [execIdentifyMemoryDevice]
@[simp] theorem execGetPartitionInfo_kept (path : MboxPath) (s : State) : Res.keeps (execGetPartitionInfo path s) s := by
  simp [execGetPartitionInfo]
@[simp] theorem execSetPartitionInfo_kept (path : MboxPath) (volatileCap : BitVec 64) (s : State) :
    Res.keeps (execSetPartitionInfo path volatileCap s) s := by simp [execSetPartitionInfo]
@[simp] theorem execGetLsa_kept (path : MboxPath) (off : BitVec 32) (len : BitVec 32) (s : State) :
    Res.keeps (execGetLsa path off len s) s := by simp [execGetLsa]
@[simp] theorem execGetHealthInfo_kept (path : MboxPath) (s : State) : Res.keeps (execGetHealthInfo path s) s := by
  simp [execGetHealthInfo]
@[simp] theorem execGetAlertConfiguration_kept (path : MboxPath) (s : State) : Res.keeps (execGetAlertConfiguration path s) s := by
  simp [execGetAlertConfiguration]
@[simp] theorem execSetAlertConfiguration_kept (path : MboxPath) (cfg : BitVec 96) (s : State) :
    Res.keeps (execSetAlertConfiguration path cfg s) s := by simp [execSetAlertConfiguration]
@[simp] theorem execGetShutdownState_kept (path : MboxPath) (s : State) : Res.keeps (execGetShutdownState path s) s := by
  simp [execGetShutdownState]
@[simp] theorem execGetPoisonList_kept (path : MboxPath) (dpa : BitVec 64) (len : BitVec 64) (s : State) :
    Res.keeps (execGetPoisonList path dpa len s) s := by simp [execGetPoisonList]
@[simp] theorem State.ownWrite_kept (s : State) (p ld dpa : Nat) (data : Line) (poison : Bool) :
    (State.ownWrite s p ld dpa data poison).kept = s.kept := by unfold State.ownWrite; (repeat' split) <;> simp
@[simp] theorem execInjectPoison_kept (path : MboxPath) (dpa : BitVec 64) (s : State) : Res.keeps (execInjectPoison path dpa s) s := by
  simp [execInjectPoison]
@[simp] theorem execClearPoison_kept (path : MboxPath) (dpa : BitVec 64) (data : BitVec 512) (s : State) :
    Res.keeps (execClearPoison path dpa data s) s := by simp [execClearPoison]
@[simp] theorem execGetScanMediaCapabilities_kept (path : MboxPath) (dpa : BitVec 64) (len : BitVec 64) (s : State) :
    Res.keeps (execGetScanMediaCapabilities path dpa len s) s := by simp [execGetScanMediaCapabilities]
@[simp] theorem execScanMedia_kept (path : MboxPath) (dpa : BitVec 64) (len : BitVec 64) (s : State) :
    Res.keeps (execScanMedia path dpa len s) s := by
  unfold execScanMedia
  rw [Res.next_keeps]
  refine State.ldRun_kept _ _ _ _ (fun p l s => ?_)
  dsimp only
  split
  · simp
  · split
    · simp
    · refine State.bgRun_kept _ _ _ _ (fun s => ?_)
      exact State.modHost_kept _ _ (fun x => ⟨rfl, rfl⟩)
@[simp] theorem execGetScanMediaResults_kept (path : MboxPath) (s : State) : Res.keeps (execGetScanMediaResults path s) s := by
  simp [execGetScanMediaResults]
@[simp] theorem State.eraseLd_kept (s : State) (p ld opc : Nat) (secure advance : Bool) :
    (State.eraseLd s p ld opc secure advance).kept = s.kept := by simp [State.eraseLd]
@[simp] theorem execSanitize_kept (path : MboxPath) (s : State) : Res.keeps (execSanitize path s) s := by simp [execSanitize]
@[simp] theorem execSecureErase_kept (path : MboxPath) (s : State) : Res.keeps (execSecureErase path s) s := by
  simp [execSecureErase]
@[simp] theorem execGetDcConfiguration_kept (path : MboxPath) (s : State) : Res.keeps (execGetDcConfiguration path s) s := by
  simp [execGetDcConfiguration]
@[simp] theorem execGetDcExtentList_kept (path : MboxPath) (s : State) : Res.keeps (execGetDcExtentList path s) s := by
  simp [execGetDcExtentList]
@[simp] theorem execAddDcResponse_kept (path : MboxPath) (extents : List DcExtent) (s : State) :
    Res.keeps (execAddDcResponse path extents s) s := by
  unfold execAddDcResponse
  rw [Res.next_keeps]
  refine State.ldRun_kept _ _ _ _ (fun p l s => ?_)
  dsimp only
  split
  · simp
  · split
    · simp
    · exact (State.endPath_kept ..).trans (State.modHost_kept _ _ (fun x => ⟨rfl, rfl⟩))
@[simp] theorem execReleaseDc_kept (path : MboxPath) (extents : List DcExtent) (s : State) :
    Res.keeps (execReleaseDc path extents s) s := by simp [execReleaseDc]

/-! ### Machine/Registers.lean -/

@[simp] theorem State.tableWindow_kept (s : State) (off bits keep : Nat) : (State.tableWindow s off bits keep).kept = s.kept := by
  simp [State.tableWindow]
@[simp] theorem State.snapshot_kept (s : State) (off : Nat) : (State.snapshot s off).kept = s.kept := by simp [State.snapshot]
@[simp] theorem State.takeLatch_kept (s : State) (req off : Nat) : (State.takeLatch s req off).kept = s.kept := by
  simp [State.takeLatch]
@[simp] theorem State.read4_kept (s : State) (req : Requester) (off : Nat) : (State.read4 s req off).2.kept = s.kept := by
  unfold State.read4
  repeat' first | simp | split
@[simp] theorem State.busRead_kept (s : State) (req : Requester) (off : Nat) : (State.busRead s req off).kept = s.kept := by
  simp [State.busRead]
@[simp] theorem State.unlockTake_kept (s : State) (req key : Nat) : (State.unlockTake s req key).kept = s.kept := by
  simp [State.unlockTake]
@[simp] theorem State.updateGo_kept (s : State) (val : Nat) : (State.updateGo s val).kept = s.kept := by simp [State.updateGo]
@[simp] theorem State.rangeGo_kept (s : State) : (State.rangeGo s).kept = s.kept := by simp [State.rangeGo]
@[simp] theorem State.discGo_kept (s : State) : (State.discGo s).kept = s.kept := by simp [State.discGo]
@[simp] theorem State.keyGo_kept (s : State) (req : Requester) : (State.keyGo s req).kept = s.kept := by
  unfold State.keyGo
  repeat' first | simp | split
@[simp] theorem State.ldKeyWrite_kept (s : State) (ld val bits : Nat) (free : Bool) :
    (State.ldKeyWrite s ld val bits free).kept = s.kept := by simp [State.ldKeyWrite]
@[simp] theorem State.wordPlain_kept (s : State) (off val bits : Nat) (free : Bool) :
    (State.wordPlain s off val bits free).kept = s.kept := by simp [State.wordPlain]
@[simp] theorem State.allocWrite_kept (s : State) (ld val bits : Nat) (free : Bool) :
    (State.allocWrite s ld val bits free).kept = s.kept := by simp [State.allocWrite]
@[simp] theorem State.waysWrite_kept (s : State) (val bits : Nat) (free : Bool) : (State.waysWrite s val bits free).kept = s.kept := by
  simp [State.waysWrite]
@[simp] theorem State.ldCfgWrite_kept (s : State) (n val bits : Nat) (free : Bool) :
    (State.ldCfgWrite s n val bits free).kept = s.kept := by simp [State.ldCfgWrite]
@[simp] theorem State.queueWord_kept (s : State) (off val bits : Nat) : (State.queueWord s off val bits).kept = s.kept := by
  simp [State.queueWord]
@[simp] theorem State.rawWord_kept (s : State) (m w : Nat) : (State.rawWord s m w).2.kept = s.kept := by
  unfold State.rawWord; split <;> simp
@[simp] theorem State.memtestGo_kept (s : State) : (State.memtestGo s).kept = s.kept := by
  unfold State.memtestGo
  repeat' first | simp | split
@[simp] theorem State.mirrorReg_kept (s : State) : (State.mirrorReg s).kept = s.kept := by simp [State.mirrorReg]
@[simp] theorem State.exportReg_kept (s : State) : (State.exportReg s).kept = s.kept := by simp [State.exportReg]
@[simp] theorem State.importReg_kept (s : State) : (State.importReg s).kept = s.kept := by simp [State.importReg]
@[simp] theorem State.caskReg_kept (s : State) : (State.caskReg s).kept = s.kept := by
  unfold State.caskReg
  repeat' first | simp | split
@[simp] theorem State.cntWrite_kept (s : State) (b val bits : Nat) : (State.cntWrite s b val bits).kept = s.kept := by
  simp [State.cntWrite]
@[simp] theorem State.sampleWrite4_kept (s : State) (val bits : Nat) (free : Bool) :
    (State.sampleWrite4 s val bits free).kept = s.kept := by simp [State.sampleWrite4]
@[simp] theorem State.caskDomWrite_kept (s : State) (val bits : Nat) (free : Bool) :
    (State.caskDomWrite s val bits free).kept = s.kept := by simp [State.caskDomWrite]
@[simp] theorem State.wordAct_kept (s : State) (req : Requester) (off val bits : Nat) (free : Bool) :
    (State.wordAct s req off val bits free).kept = s.kept := by
  unfold State.wordAct
  repeat' first | simp | split | refine (State.sillClear_some (by assumption)).trans ?_ | intro _
@[simp] theorem State.wordTake_kept (s : State) (req : Requester) (off val bits : Nat) :
    (State.wordTake s req off val bits).kept = s.kept := by simp [State.wordTake]
@[simp] theorem State.write4_kept (s : State) (req : Requester) (off val : Nat) : optKeeps (State.write4 s req off val) s := by
  unfold State.write4
  repeat' first | simp | split
theorem State.write4_some {s : State} {req : Requester} {off val : Nat} {t : State} (h : State.write4 s req off val = some t) :
    t.kept = s.kept := opt_kept h (State.write4_kept s req off val)
@[simp] theorem State.writeLong_kept (s : State) (req : Requester) (off val : Nat) :
    (State.writeLong s req off val).kept = s.kept := by
  unfold State.writeLong
  repeat' first | simp | split
@[simp] theorem State.writeSized_kept (s : State) (req : Requester) (off size val : Nat) :
    optKeeps (State.writeSized s req off size val) s := by
  unfold State.writeSized
  repeat' split
  · simp
  · simp
  · exact optKeeps_bind _ _ _ (by simp) (fun t => by simp)
  · simp
@[simp] theorem regRes_keeps (o : Option State) (s : State) (h : optKeeps o s) : Res.keeps (regRes o) s := by
  cases o with
  | none => simp [regRes]
  | some x => simpa [regRes] using h
@[simp] theorem State.forced_kept (s : State) (req : Requester) (off val mask set : Nat) :
    Res.keeps (State.forced s req off val mask set) s := by
  unfold State.forced
  repeat' first | simp | split
@[simp] theorem execRegisterWrite_kept (req : Requester) (off : BitVec 26) (size : BitVec 4) (val : BitVec 64) (s : State) :
    Res.keeps (execRegisterWrite req off size val s) s := by
  unfold execRegisterWrite
  repeat' first | simp | split
@[simp] theorem execLowWordLatchRead_kept (req : Requester) (off : BitVec 26) (s : State) :
    Res.keeps (execLowWordLatchRead req off s) s := by simp [execLowWordLatchRead]
@[simp] theorem execBitAliasWrite_kept (req : Requester) (off : BitVec 26) (val : BitVec 32) (s : State) :
    Res.keeps (execBitAliasWrite req off val s) s := by unfold execBitAliasWrite; split <;> simp [*]
@[simp] theorem execUpdateApply_kept (req : Requester) (val : BitVec 32) (s : State) : Res.keeps (execUpdateApply req val s) s := by
  simp [execUpdateApply]
@[simp] theorem execUpdateTimed_kept (req : Requester) (val : BitVec 32) (s : State) : Res.keeps (execUpdateTimed req val s) s := by
  simp [execUpdateTimed]
@[simp] theorem execUpdateDrop_kept (req : Requester) (val : BitVec 32) (s : State) : Res.keeps (execUpdateDrop req val s) s := by
  simp [execUpdateDrop]
@[simp] theorem execUnlock_kept (req : Requester) (val : BitVec 32) (s : State) : Res.keeps (execUnlock req val s) s := by
  unfold execUnlock
  repeat' first | simp | split
@[simp] theorem execUnlockArmExpiry_kept (req : Requester) (s : State) : Res.keeps (execUnlockArmExpiry req s) s := by
  simp [execUnlockArmExpiry]
@[simp] theorem execKeyLockSet_kept (req : Requester) (s : State) : Res.keeps (execKeyLockSet req s) s := by simp [execKeyLockSet]
@[simp] theorem execMapWinSnapshot_kept (req : Requester) (s : State) : Res.keeps (execMapWinSnapshot req s) s := by
  simp [execMapWinSnapshot]
@[simp] theorem execCaskDomSnapshot_kept (req : Requester) (s : State) : Res.keeps (execCaskDomSnapshot req s) s := by
  simp [execCaskDomSnapshot]
@[simp] theorem execDfWindowSnapshot_kept (req : Requester) (w : DfWindow) (s : State) :
    Res.keeps (execDfWindowSnapshot req w s) s := by simp [execDfWindowSnapshot]
@[simp] theorem execLcRangeClean_kept (req : Requester) (val : BitVec 32) (s : State) : Res.keeps (execLcRangeClean req val s) s := by
  simp [execLcRangeClean]
@[simp] theorem execLcRangeInvalidate_kept (req : Requester) (val : BitVec 32) (s : State) :
    Res.keeps (execLcRangeInvalidate req val s) s := by simp [execLcRangeInvalidate]
@[simp] theorem execLcRangeFlush_kept (req : Requester) (val : BitVec 32) (s : State) : Res.keeps (execLcRangeFlush req val s) s := by
  simp [execLcRangeFlush]
@[simp] theorem execAllocEnWrite_kept (req : Requester) (ld : LdNo) (val : BitVec 32) (s : State) :
    Res.keeps (execAllocEnWrite req ld val s) s := by
  unfold execAllocEnWrite
  repeat' first | simp | split
@[simp] theorem execWaysReqWrite_kept (req : Requester) (val : BitVec 32) (s : State) : Res.keeps (execWaysReqWrite req val s) s := by
  unfold execWaysReqWrite
  repeat' first | simp | split
@[simp] theorem execGravResetGroup_kept (req : Requester) (val : BitVec 32) (s : State) :
    Res.keeps (execGravResetGroup req val s) s := by
  unfold execGravResetGroup
  repeat' first | simp | split
@[simp] theorem execCrcInjectArm_kept (req : Requester) (val : BitVec 32) (s : State) : Res.keeps (execCrcInjectArm req val s) s := by
  simp [execCrcInjectArm]
@[simp] theorem execDiscSegmentGo_kept (req : Requester) (val : BitVec 32) (s : State) :
    Res.keeps (execDiscSegmentGo req val s) s := by simp [execDiscSegmentGo]
@[simp] theorem execDiscTileGo_kept (req : Requester) (val : BitVec 32) (s : State) : Res.keeps (execDiscTileGo req val s) s := by
  simp [execDiscTileGo]
@[simp] theorem execAccelGo_kept (req : Requester) (val : BitVec 32) (s : State) : Res.keeps (execAccelGo req val s) s := by
  simp [execAccelGo]
@[simp] theorem execKeyCmdLoad_kept (req : Requester) (val : BitVec 32) (s : State) : Res.keeps (execKeyCmdLoad req val s) s := by
  simp [execKeyCmdLoad]
@[simp] theorem execKeyCmdRetire_kept (req : Requester) (val : BitVec 32) (s : State) : Res.keeps (execKeyCmdRetire req val s) s := by
  simp [execKeyCmdRetire]
@[simp] theorem execKeyCmdRetireErase_kept (req : Requester) (val : BitVec 32) (s : State) :
    Res.keeps (execKeyCmdRetireErase req val s) s := by simp [execKeyCmdRetireErase]
@[simp] theorem execLdKeyRekey_kept (req : Requester) (ld : LdNo) (val : BitVec 32) (s : State) :
    Res.keeps (execLdKeyRekey req ld val s) s := by simp [execLdKeyRekey]
@[simp] theorem execLdKeyKeyidxWrite_kept (req : Requester) (ld : LdNo) (val : BitVec 32) (s : State) :
    Res.keeps (execLdKeyKeyidxWrite req ld val s) s := by
  unfold execLdKeyKeyidxWrite
  repeat' first | simp | split
@[simp] theorem execDfMirrorPair_kept (req : Requester) (val : BitVec 32) (s : State) : Res.keeps (execDfMirrorPair req val s) s := by
  simp [execDfMirrorPair]
@[simp] theorem execDfMirrorUnpair_kept (req : Requester) (val : BitVec 32) (s : State) :
    Res.keeps (execDfMirrorUnpair req val s) s := by simp [execDfMirrorUnpair]
@[simp] theorem execDfMirrorResync_kept (req : Requester) (val : BitVec 32) (s : State) :
    Res.keeps (execDfMirrorResync req val s) s := by simp [execDfMirrorResync]
@[simp] theorem execDfMirrorSwap_kept (req : Requester) (val : BitVec 32) (s : State) : Res.keeps (execDfMirrorSwap req val s) s := by
  simp [execDfMirrorSwap]
@[simp] theorem execDfExportAdd_kept (req : Requester) (val : BitVec 32) (s : State) : Res.keeps (execDfExportAdd req val s) s := by
  simp [execDfExportAdd]
@[simp] theorem execDfExportDel_kept (req : Requester) (val : BitVec 32) (s : State) : Res.keeps (execDfExportDel req val s) s := by
  simp [execDfExportDel]
@[simp] theorem execDfImportAdd_kept (req : Requester) (val : BitVec 32) (s : State) : Res.keeps (execDfImportAdd req val s) s := by
  simp [execDfImportAdd]
@[simp] theorem execDfImportDel_kept (req : Requester) (val : BitVec 32) (s : State) : Res.keeps (execDfImportDel req val s) s := by
  simp [execDfImportDel]
@[simp] theorem execCaskCfgCreate_kept (req : Requester) (val : BitVec 32) (s : State) :
    Res.keeps (execCaskCfgCreate req val s) s := by simp [execCaskCfgCreate]
@[simp] theorem execCaskCfgDelete_kept (req : Requester) (val : BitVec 32) (s : State) :
    Res.keeps (execCaskCfgDelete req val s) s := by simp [execCaskCfgDelete]
@[simp] theorem execCaskCfgMark_kept (req : Requester) (val : BitVec 32) (s : State) : Res.keeps (execCaskCfgMark req val s) s := by
  simp [execCaskCfgMark]
@[simp] theorem execCaskCfgRecoverLatest_kept (req : Requester) (val : BitVec 32) (s : State) :
    Res.keeps (execCaskCfgRecoverLatest req val s) s := by simp [execCaskCfgRecoverLatest]
@[simp] theorem execCaskCfgRecoverCommitted_kept (req : Requester) (val : BitVec 32) (s : State) :
    Res.keeps (execCaskCfgRecoverCommitted req val s) s := by simp [execCaskCfgRecoverCommitted]
@[simp] theorem execHuTestGo_kept (req : Requester) (val : BitVec 32) (s : State) : Res.keeps (execHuTestGo req val s) s := by
  simp [execHuTestGo]
@[simp] theorem execKqCreate_kept (req : Requester) (q : QNo) (val : BitVec 32) (s : State) :
    Res.keeps (execKqCreate req q val s) s := by simp [execKqCreate]
@[simp] theorem execKqDelete_kept (req : Requester) (q : QNo) (val : BitVec 32) (s : State) :
    Res.keeps (execKqDelete req q val s) s := by simp [execKqDelete]
@[simp] theorem execMemtestRawWrite_kept (req : Requester) (val : BitVec 32) (s : State) :
    Res.keeps (execMemtestRawWrite req val s) s := by simp [execMemtestRawWrite]
@[simp] theorem execMemtestRawRead_kept (req : Requester) (val : BitVec 32) (s : State) :
    Res.keeps (execMemtestRawRead req val s) s := by simp [execMemtestRawRead]
@[simp] theorem execMemtestCheckedRead_kept (req : Requester) (val : BitVec 32) (s : State) :
    Res.keeps (execMemtestCheckedRead req val s) s := by simp [execMemtestCheckedRead]
@[simp] theorem execWealiBoardWrite_kept (req : Requester) (val : BitVec 32) (s : State) :
    Res.keeps (execWealiBoardWrite req val s) s := by simp [execWealiBoardWrite]
@[simp] theorem execWealiBoardRead_kept (req : Requester) (val : BitVec 32) (s : State) :
    Res.keeps (execWealiBoardRead req val s) s := by simp [execWealiBoardRead]
@[simp] theorem execCntClear_kept (req : Requester) (b : Fin 18) (val : BitVec 32) (s : State) :
    Res.keeps (execCntClear req b val s) s := by
  unfold execCntClear
  repeat' first | simp | split
@[simp] theorem execSampleEnableWrite_kept (req : Requester) (val : BitVec 32) (s : State) :
    Res.keeps (execSampleEnableWrite req val s) s := by
  unfold execSampleEnableWrite
  repeat' first | simp | split
@[simp] theorem execSampleClose_kept (req : Requester) (val : BitVec 32) (s : State) : Res.keeps (execSampleClose req val s) s := by
  simp [execSampleClose]
@[simp] theorem execDropRest_kept (req : Requester) (val : BitVec 32) (s : State) : Res.keeps (execDropRest req val s) s := by
  simp [execDropRest]
@[simp] theorem execSampleDataRead_kept (req : Requester) (s : State) : Res.keeps (execSampleDataRead req s) s := by
  simp [execSampleDataRead]
@[simp] theorem execSillClear_kept (req : Requester) (val : BitVec 32) (s : State) : Res.keeps (execSillClear req val s) s := by
  unfold execSillClear
  repeat' first | simp | split
@[simp] theorem execMctpBar2Access_kept (op : BitVec 8) (ld : LdNo) (off val : BitVec 32) (s : State) :
    Res.keeps (execMctpBar2Access op ld off val s) s := by
  unfold execMctpBar2Access
  repeat' first | simp | split | refine (State.write4_some (by assumption)).trans ?_ | intro _

/-! ### Machine/Start.lean -/

@[simp] theorem execAonPowerOn_kept (s : State) : Res.keeps (execAonPowerOn s) s := by
  unfold execAonPowerOn
  rw [Res.next_keeps, State.raise_kept, State.storesCut_kept]
  exact (State.kept_ext rfl rfl rfl rfl rfl rfl rfl).trans (State.coreLost_kept ..)
@[simp] theorem execStrapSample_kept (role : BitVec 2) (slotId : BitVec 6) (s : State) :
    Res.keeps (execStrapSample role slotId s) s := by simp [execStrapSample]
@[simp] theorem State.unitsAtStart_kept (s : State) (stackOk : BitVec 2) : (State.unitsAtStart s stackOk).kept = s.kept := by
  simp [State.unitsAtStart]
@[simp] theorem State.budgetAtStart_kept (s : State) : (State.budgetAtStart s).kept = s.kept := by simp [State.budgetAtStart]
@[simp] theorem execFillEnd_kept (stackOk : BitVec 2) (engineOk : BitVec 64) (s : State) :
    Res.keeps (execFillEnd stackOk engineOk s) s := by simp [execFillEnd]
@[simp] theorem State.activate_kept (s : State) : (State.activate s).kept = s.kept := by simp [State.activate]
@[simp] theorem State.lateActions_kept (s : State) (x0 : Nat) : (State.lateActions s x0).kept = s.kept := by
  fun_induction State.lateActions s x0 <;> first | rfl | exact Eq.trans (by assumption) (by simp +zetaDelta) | (simp +zetaDelta ; done)
@[simp] theorem State.resumeEnd_kept (s : State) : (State.resumeEnd s).kept = s.kept := by simp [State.resumeEnd]
@[simp] theorem State.setGeom_kept (s : State) (n : Nat) : (State.setGeom s n).kept = s.kept := by simp [State.setGeom]
@[simp] theorem State.absentFail_kept (s : State) (trained : BitVec 32) : (State.absentFail s trained).kept = s.kept := by
  simp [State.absentFail]
@[simp] theorem State.membersValid_kept (s : State) (n : Nat) (trained : BitVec 32) :
    (State.membersValid s n trained).kept = s.kept := by
  unfold State.membersValid
  repeat' first | simp | split
@[simp] theorem execMediaTrainingDone_kept (trained : BitVec 32) (retried : Bool) (s : State) :
    Res.keeps (execMediaTrainingDone trained retried s) s := by
  unfold execMediaTrainingDone
  repeat' first | simp | split
@[simp] theorem execKeySetupEnd_kept (s : State) : Res.keeps (execKeySetupEnd s) s := by simp [execKeySetupEnd]
@[simp] theorem State.mapRead_kept (s : State) : (State.mapRead s).2.kept = s.kept := by simp [State.mapRead]
@[simp] theorem State.undoCopy_kept (s : State) (c : CopyRec) :
    (State.undoCopy s c).kept = s.kept := by
  unfold State.undoCopy
  repeat' first | simp | split
@[simp] theorem State.spillBack_kept (s : State) (x : PinSpill) : (State.spillBack s x).kept = s.kept := by
  unfold State.spillBack
  repeat' first | simp | split | refine (State.takeWay_kept (by assumption)).trans ?_
@[simp] theorem State.rekeysBack_kept (s : State) (delta : Bool) : (State.rekeysBack s delta).kept = s.kept := by
  simp [State.rekeysBack]
@[simp] theorem State.upkeepStart_kept (s : State) : (State.upkeepStart s).kept = s.kept := by simp [State.upkeepStart]
@[simp] theorem State.storedRecovery_kept (s : State) : (State.storedRecovery s).kept = s.kept := by
  unfold State.storedRecovery
  repeat' first | simp | split | refine (State.foldl_kept _ (fun _ _ => ?_) _ _).trans ?_
@[simp] theorem execMapLoadEnd_kept (s : State) : Res.keeps (execMapLoadEnd s) s := by simp [execMapLoadEnd]
@[simp] theorem execFirstFormatEnd_kept (s : State) : Res.keeps (execFirstFormatEnd s) s := by
  unfold execFirstFormatEnd
  split
  · simp
  · rw [Res.next_keeps, State.activate_kept, State.wearCompute_kept]
    refine (State.foldl_kept _ (fun s x => State.raise_kept ..) _ _).trans ?_
    exact (State.modMap_kept ..).trans rfl

end Sys2Proof.Machine
end

