-- ==== Sys2Proof/Laws/Commands.lean ====
section
/-!
SUPPORT. Over all commands: which of them keep what `State.kept` names, from the law of each command.
-/

namespace Sys2Proof.Machine

/-- The commands that leave all of what `State.kept` names alone; the five others may change something of it. -/
def keepsAll (c : Instr) : Bool :=
  match c with
  | .wealiPageWriteEnd _ _ _ | .quiesceEnd | .backgroundOpEnd _ _ | .setLsa _ _ _ | .setShutdownState _ _ => false
  | _ => true

/-- They do leave it alone. -/
theorem exec_keeps (c : Instr) (s : State) (hc : keepsAll c = true) : Res.keeps (exec c s) s := by
  cases c with
  | memrd h q => exact execMemrd_kept h q s
  | meminv h q => exact execMeminv_kept h q s
  | memwr h w => exact execMemwr_kept h w s
  | memwrptl h w mask => exact execMemwrptl_kept h w mask s
  | birsp h biTag rsp => exact execBirsp_kept h biTag rsp s
  | biconflict h ldId line => exact execBiconflict_kept h ldId line s
  | bisnpTimeout h biTag => exact execBisnpTimeout_kept h biTag s
  | slotPurgeEnd slot => exact execSlotPurgeEnd_kept slot s
  | mapEntryReturn ltn => exact execMapEntryReturn_kept ltn s
  | tileReadAdmit k why => exact execTileReadAdmit_kept k why s
  | chunkReadData ch pos part cidx bits => exact execChunkReadData_kept ch pos part cidx bits s
  | tileAttempt k => exact execTileAttempt_kept k s
  | crcResendArrival ltn tile crc => exact execCrcResendArrival_kept ltn tile crc s
  | deepRecoveryStart k => exact execDeepRecoveryStart_kept k s
  | laneHoldExpiry ds lane => exact execLaneHoldExpiry_kept ds lane s
  | deepRecoveryEnd k => exact execDeepRecoveryEnd_kept k s
  | tagCacheMissReturn set visitor => exact execTagCacheMissReturn_kept set visitor s
  | writeCreditGrant port => exact execWriteCreditGrant_kept port s
  | mashIdleTimeout ltn => exact execMashIdleTimeout_kept ltn s
  | streamTrackerTimeout i_ => exact execStreamTrackerTimeout_kept i_ s
  | cleanerStart => exact execCleanerStart_kept s
  | cleanerStop => exact execCleanerStop_kept s
  | counterReadReturn k => exact execCounterReadReturn_kept k s
  | laneGrant ds lane => exact execLaneGrant_kept ds lane s
  | statusPoll ch pkg die => exact execStatusPoll_kept ch pkg die s
  | statusResponse ch pkg die bits => exact execStatusResponse_kept ch pkg die bits s
  | partitionBusyTimeout ch pos part => exact execPartitionBusyTimeout_kept ch pos part s
  | tempResponse ch pkg bits => exact execTempResponse_kept ch pkg bits s
  | identResponse ch pkg bits => exact execIdentResponse_kept ch pkg bits s
  | mediaAlert ch => exact execMediaAlert_kept ch s
  | alertStuckTimeout ch => exact execAlertStuckTimeout_kept ch s
  | mediaNoAnswerTimeout ch pos => exact execMediaNoAnswerTimeout_kept ch pos s
  | channelRetrainEnd ch ok => exact execChannelRetrainEnd_kept ch ok s
  | rebuildTick ds => exact execRebuildTick_kept ds s
  | patrolAdvance ds => exact execPatrolAdvance_kept ds s
  | accelPassEnd => exact execAccelPassEnd_kept s
  | checkpointDue => exact execCheckpointDue_kept s
  | checkpointEnd => exact execCheckpointEnd_kept s
  | copyStart lsn => exact execCopyStart_kept lsn s
  | copyPassEnd lsn => exact execCopyPassEnd_kept lsn s
  | releaseMarkStart psn => exact execReleaseMarkStart_kept psn s
  | releaseMarkEnd psn => exact execReleaseMarkEnd_kept psn s
  | endureReached lsn => exact execEndureReached_kept lsn s
  | discardHoldDrained lsn => exact execDiscardHoldDrained_kept lsn s
  | rekeyStart g => exact execRekeyStart_kept g s
  | rekeyEnd lsn => exact execRekeyEnd_kept lsn s
  | calibrationPass sums => exact execCalibrationPass_kept sums s
  | slotBoundary => exact execSlotBoundary_kept s
  | frameBoundary => exact execFrameBoundary_kept s
  | hourlyCheckpoint => exact execHourlyCheckpoint_kept s
  | ftsyncEdge => exact execFtsyncEdge_kept s
  | ftcodeWord word => exact execFtcodeWord_kept word s
  | ftcodeOutSend => exact execFtcodeOutSend_kept s
  | ptmResponse ok root => exact execPtmResponse_kept ok root s
  | sync f body => exact execSync_kept f body s
  | ftStepForward => exact execFtStepForward_kept s
  | timedActionDue => exact execTimedActionDue_kept s
  | caskBoundary dom => exact execCaskBoundary_kept dom s
  | undoSpill => exact execUndoSpill_kept s
  | undoIndexWalk => exact execUndoIndexWalk_kept s
  | caskReadySend dom => exact execCaskReadySend_kept dom s
  | earlyThreshold dom => exact execEarlyThreshold_kept dom s
  | ready f body => exact execReady_kept f body s
  | commit f body => exact execCommit_kept f body s
  | caskAck f body => exact execCaskAck_kept f body s
  | release f body => exact execRelease_kept f body s
  | earlyReq f body => exact execEarlyReq_kept f body s
  | early f body => exact execEarly_kept f body s
  | query f body => exact execQuery_kept f body s
  | state f body => exact execState_kept f body s
  | recover f body => exact execRecover_kept f body s
  | caskWritebackEnd dom => exact execCaskWritebackEnd_kept dom s
  | recoverDone f body => exact execRecoverDone_kept f body s
  | caskRecoverTimeout dom => exact execCaskRecoverTimeout_kept dom s
  | rdS f m => exact execRdS_kept f m s
  | rdE f m => exact execRdE_kept f m s
  | rdNc f m => exact execRdNc_kept f m s
  | upg f m => exact execUpg_kept f m s
  | wr f m => exact execWr_kept f m s
  | inv f m => exact execInv_kept f m s
  | snpS f m => exact execSnpS_kept f m s
  | fwdS f m => exact execFwdS_kept f m s
  | fwdE f m => exact execFwdE_kept f m s
  | data f m => exact execData_kept f m s
  | cmp f m => exact execCmp_kept f m s
  | snpRsp f m => exact execSnpRsp_kept f m s
  | fwdAck f m => exact execFwdAck_kept f m s
  | ack f m => exact execAck_kept f m s
  | mwr f m => exact execMwr_kept f m s
  | mcmp f m => exact execMcmp_kept f m s
  | mrd f m => exact execMrd_kept f m s
  | mdata f m => exact execMdata_kept f m s
  | mdisc f m => exact execMdisc_kept f m s
  | mdack f m => exact execMdack_kept f m s
  | rsync f m => exact execRsync_kept f m s
  | rsack f m => exact execRsack_kept f m s
  | resyncTick entry => exact execResyncTick_kept entry s
  | hello f b => exact execHello_kept f b s
  | lsa f b => exact execLsa_kept f b s
  | lsaRefreshDue => exact execLsaRefreshDue_kept s
  | offer f b => exact execOffer_kept f b s
  | proof f b => exact execProof_kept f b s
  | confirm f => exact execConfirm_kept f s
  | abort f reason => exact execAbort_kept f reason s
  | handshakeTimeout k => exact execHandshakeTimeout_kept k s
  | keyRenewalDue k => exact execKeyRenewalDue_kept k s
  | linkTagFailureLimit k => exact execLinkTagFailureLimit_kept k s
  | mgmt f packet => exact execMgmt_kept f packet s
  | null f => exact execNull_kept f s
  | linkReplayTimeout k => exact execLinkReplayTimeout_kept k s
  | linkTrained k ok => exact execLinkTrained_kept k ok s
  | helloLoss k => exact execHelloLoss_kept k s
  | viewSettle => exact execViewSettle_kept s
  | nodeFailDeclare node => exact execNodeFailDeclare_kept node s
  | aonPowerOn => exact execAonPowerOn_kept s
  | strapSample role slotId => exact execStrapSample_kept role slotId s
  | powerUpStart => exact execPowerUpStart_kept s
  | stepComplete => exact execStepComplete_kept s
  | stepTimeout ch => exact execStepTimeout_kept ch s
  | retryBackoffExpiry => exact execRetryBackoffExpiry_kept s
  | resetStretchExpiry k => exact execResetStretchExpiry_kept k s
  | step w => exact execStep_kept w s
  | poll w => exact execPoll_kept w s
  | seqAbort w => exact execSeqAbort_kept w s
  | off w => exact execOff_kept w s
  | seqRelease w => exact execSeqRelease_kept w s
  | pfw w => exact execPfw_kept w s
  | seqTimeout => exact execSeqTimeout_kept s
  | railFault ch => exact execRailFault_kept ch s
  | railWarning sense => exact execRailWarning_kept sense s
  | budgetCompute capUv => exact execBudgetCompute_kept capUv s
  | capTestStart => exact execCapTestStart_kept s
  | capTestSettled => exact execCapTestSettled_kept s
  | capTestNotCharged => exact execCapTestNotCharged_kept s
  | capTestDischargeEnd dtUs => exact execCapTestDischargeEnd_kept dtUs s
  | capTestRetry => exact execCapTestRetry_kept s
  | capRecharged => exact execCapRecharged_kept s
  | vinWarning => exact execVinWarning_kept s
  | pfwNAssert => exact execPfwNAssert_kept s
  | drydownCut => exact execDrydownCut_kept s
  | flushEnd => exact execFlushEnd_kept s
  | bankLowInFlush => exact execBankLowInFlush_kept s
  | quiesceEnd => cases hc
  | railsOffEnd => exact execRailsOffEnd_kept s
  | vinGoodReturn => exact execVinGoodReturn_kept s
  | resumeHoldExpiry => exact execResumeHoldExpiry_kept s
  | coldReset => exact execColdReset_kept s
  | coldResetRelease => exact execColdResetRelease_kept s
  | emergencyWipeTrigger cause => exact execEmergencyWipeTrigger_kept cause s
  | wipeFillEnd => exact execWipeFillEnd_kept s
  | fillEnd stackOk engineOk => exact execFillEnd_kept stackOk engineOk s
  | mediaTrainingDone trained retried => exact execMediaTrainingDone_kept trained retried s
  | keySetupEnd => exact execKeySetupEnd_kept s
  | mapLoadEnd => exact execMapLoadEnd_kept s
  | firstFormatEnd => exact execFirstFormatEnd_kept s
  | onDieSensorSample t => exact execOnDieSensorSample_kept t s
  | remoteSensorSample n t open_ => exact execRemoteSensorSample_kept n t open_ s
  | sensorSelfCheck failing => exact execSensorSelfCheck_kept failing s
  | timebaseCompensate => exact execTimebaseCompensate_kept s
  | bandgapRetrim => exact execBandgapRetrim_kept s
  | oscillatorCompare off0 off1 => exact execOscillatorCompare_kept off0 off1 s
  | pllLockLoss pll => exact execPllLockLoss_kept pll s
  | pllRelockStable => exact execPllRelockStable_kept s
  | hbmStackFail stack => exact execHbmStackFail_kept stack s
  | hbmShareRebuilt => exact execHbmShareRebuilt_kept s
  | heartbeatCheck beat => exact execHeartbeatCheck_kept beat s
  | engineFail e cause => exact execEngineFail_kept e cause s
  | failoverTakeover e => exact execFailoverTakeover_kept e s
  | moverDescriptorEnd k bad => exact execMoverDescriptorEnd_kept k bad s
  | bgtRegionTest bad => exact execBgtRegionTest_kept bad s
  | retentionIdleExpiry m => exact execRetentionIdleExpiry_kept m s
  | macroWakeEnd m => exact execMacroWakeEnd_kept m s
  | patchRoundEnd => exact execPatchRoundEnd_kept s
  | wealiPageWriteEnd page bad1 bad2 => cases hc
  | rwpStoreEnd off => exact execRwpStoreEnd_kept off s
  | wealiSweepTick page margin uncorr => exact execWealiSweepTick_kept page margin uncorr s
  | tallyWindowEnd => exact execTallyWindowEnd_kept s
  | summaryIntervalEnd => exact execSummaryIntervalEnd_kept s
  | perstNAssert p => exact execPerstNAssert_kept p s
  | perstNRelease p => exact execPerstNRelease_kept p s
  | hotReset h => exact execHotReset_kept h s
  | headLinkUp h width rate flit256 => exact execHeadLinkUp_kept h width rate flit256 s
  | cxlReset ld memClear => exact execCxlReset_kept ld memClear s
  | functionLevelReset ld => exact execFunctionLevelReset_kept ld s
  | busMasterDisable ld => exact execBusMasterDisable_kept ld s
  | ideIntegrityFailure h => exact execIdeIntegrityFailure_kept h s
  | gpfPhase2 h => exact execGpfPhase2_kept h s
  | spdmKeyExchange at_ session withMutual secret => exact execSpdmKeyExchange_kept at_ session withMutual secret s
  | ideKmKeyProg session h key => exact execIdeKmKeyProg_kept session h key s
  | doeDiscovery ld index => exact execDoeDiscovery_kept ld index s
  | cdatRead ld => exact execCdatRead_kept ld s
  | fmLdAllocate ld blocks => exact execFmLdAllocate_kept ld blocks s
  | fmAddDc ld region extents => exact execFmAddDc_kept ld region extents s
  | mctpBar2Access op ld off val => exact execMctpBar2Access_kept op ld off val s
  | mailboxDoorbell path opc len => exact execMailboxDoorbell_kept path opc len s
  | backgroundOpEnd path ok => cases hc
  | identify path => exact execIdentify_kept path s
  | backgroundOperationStatus path => exact execBackgroundOperationStatus_kept path s
  | getResponseMessageLimit path => exact execGetResponseMessageLimit_kept path s
  | setResponseMessageLimit path log2 => exact execSetResponseMessageLimit_kept path log2 s
  | requestAbortBackgroundOp path => exact execRequestAbortBackgroundOp_kept path s
  | getEventRecords path log => exact execGetEventRecords_kept path log s
  | clearEventRecords path log all handles => exact execClearEventRecords_kept path log all handles s
  | getEventInterruptPolicy path => exact execGetEventInterruptPolicy_kept path s
  | setEventInterruptPolicy path policy => exact execSetEventInterruptPolicy_kept path policy s
  | getFwInfo path => exact execGetFwInfo_kept path s
  | transferFw path action slot off data => exact execTransferFw_kept path action slot off data s
  | activateFw path action slot => exact execActivateFw_kept path action slot s
  | getTimestamp path => exact execGetTimestamp_kept path s
  | setTimestamp path t => exact execSetTimestamp_kept path t s
  | getSupportedLogs path => exact execGetSupportedLogs_kept path s
  | getLog path log off len => exact execGetLog_kept path log off len s
  | identifyMemoryDevice path => exact execIdentifyMemoryDevice_kept path s
  | getPartitionInfo path => exact execGetPartitionInfo_kept path s
  | setPartitionInfo path volatileCap => exact execSetPartitionInfo_kept path volatileCap s
  | getLsa path off len => exact execGetLsa_kept path off len s
  | setLsa path off data => cases hc
  | getHealthInfo path => exact execGetHealthInfo_kept path s
  | getAlertConfiguration path => exact execGetAlertConfiguration_kept path s
  | setAlertConfiguration path cfg => exact execSetAlertConfiguration_kept path cfg s
  | getShutdownState path => exact execGetShutdownState_kept path s
  | setShutdownState path st => cases hc
  | getPoisonList path dpa len => exact execGetPoisonList_kept path dpa len s
  | injectPoison path dpa => exact execInjectPoison_kept path dpa s
  | clearPoison path dpa data => exact execClearPoison_kept path dpa data s
  | getScanMediaCapabilities path dpa len => exact execGetScanMediaCapabilities_kept path dpa len s
  | scanMedia path dpa len => exact execScanMedia_kept path dpa len s
  | getScanMediaResults path => exact execGetScanMediaResults_kept path s
  | sanitize path => exact execSanitize_kept path s
  | secureErase path => exact execSecureErase_kept path s
  | getDcConfiguration path => exact execGetDcConfiguration_kept path s
  | getDcExtentList path => exact execGetDcExtentList_kept path s
  | addDcResponse path extents => exact execAddDcResponse_kept path extents s
  | releaseDc path extents => exact execReleaseDc_kept path extents s
  | sqTail ld q val => exact execSqTail_kept ld q val s
  | cqHead ld q val => exact execCqHead_kept ld q val s
  | queueEntryFetch q entry => exact execQueueEntryFetch_kept q entry s
  | kelricCommandComplete q cid writeOk => exact execKelricCommandComplete_kept q cid writeOk s
  | identifyK c => exact execIdentifyK_kept c s
  | cacheEnable c => exact execCacheEnable_kept c s
  | cacheDisable c => exact execCacheDisable_kept c s
  | disableCleanDone ld => exact execDisableCleanDone_kept ld s
  | wayChangeEnd => exact execWayChangeEnd_kept s
  | cacheRange c => exact execCacheRange_kept c s
  | rangeJobEnd => exact execRangeJobEnd_kept s
  | cacheStatus c => exact execCacheStatus_kept c s
  | discard c => exact execDiscard_kept c s
  | discardStatus c => exact execDiscardStatus_kept c s
  | keyLoad c => exact execKeyLoad_kept c s
  | keyRetire c => exact execKeyRetire_kept c s
  | keyBind c => exact execKeyBind_kept c s
  | keyStatus c => exact execKeyStatus_kept c s
  | patrolSet c => exact execPatrolSet_kept c s
  | patrolStatus c => exact execPatrolStatus_kept c s
  | scheduleSet c => exact execScheduleSet_kept c s
  | spareStatus c => exact execSpareStatus_kept c s
  | rebuildControl c => exact execRebuildControl_kept c s
  | wearReport c => exact execWearReport_kept c s
  | mirrorSet c => exact execMirrorSet_kept c s
  | fabricStatus c => exact execFabricStatus_kept c s
  | fabricRouteSet c => exact execFabricRouteSet_kept c s
  | timeSourceSet c => exact execTimeSourceSet_kept c s
  | timeStatus c => exact execTimeStatus_kept c s
  | caskConfig c => exact execCaskConfig_kept c s
  | caskStatus c => exact execCaskStatus_kept c s
  | caskRecover c => exact execCaskRecover_kept c s
  | holdupStatus c => exact execHoldupStatus_kept c s
  | holdupTest c => exact execHoldupTest_kept c s
  | throttleSet c => exact execThrottleSet_kept c s
  | thermalStatus c => exact execThermalStatus_kept c s
  | selfTest c => exact execSelfTest_kept c s
  | selfTestEnd id errors => exact execSelfTestEnd_kept id errors s
  | selfTestStatus c => exact execSelfTestStatus_kept c s
  | patchStage c => exact execPatchStage_kept c s
  | patchActivate c => exact execPatchActivate_kept c s
  | patchStatus c => exact execPatchStatus_kept c s
  | lifecycleSet c => exact execLifecycleSet_kept c s
  | settingRead c => exact execSettingRead_kept c s
  | settingWrite c => exact execSettingWrite_kept c s
  | logSnapshot c => exact execLogSnapshot_kept c s
  | sampleConfig c => exact execSampleConfig_kept c s
  | counterConfig c => exact execCounterConfig_kept c s
  | registerWrite req off size val => exact execRegisterWrite_kept req off size val s
  | lowWordLatchRead req off => exact execLowWordLatchRead_kept req off s
  | bitAliasWrite req off val => exact execBitAliasWrite_kept req off val s
  | updateApply req val => exact execUpdateApply_kept req val s
  | updateTimed req val => exact execUpdateTimed_kept req val s
  | updateDrop req val => exact execUpdateDrop_kept req val s
  | unlock req val => exact execUnlock_kept req val s
  | unlockArmExpiry req => exact execUnlockArmExpiry_kept req s
  | keyLockSet req => exact execKeyLockSet_kept req s
  | mapWinSnapshot req => exact execMapWinSnapshot_kept req s
  | caskDomSnapshot req => exact execCaskDomSnapshot_kept req s
  | dfWindowSnapshot req w => exact execDfWindowSnapshot_kept req w s
  | lcRangeClean req val => exact execLcRangeClean_kept req val s
  | lcRangeInvalidate req val => exact execLcRangeInvalidate_kept req val s
  | lcRangeFlush req val => exact execLcRangeFlush_kept req val s
  | allocEnWrite req ld val => exact execAllocEnWrite_kept req ld val s
  | waysReqWrite req val => exact execWaysReqWrite_kept req val s
  | gravResetGroup req val => exact execGravResetGroup_kept req val s
  | crcInjectArm req val => exact execCrcInjectArm_kept req val s
  | discSegmentGo req val => exact execDiscSegmentGo_kept req val s
  | discTileGo req val => exact execDiscTileGo_kept req val s
  | accelGo req val => exact execAccelGo_kept req val s
  | keyCmdLoad req val => exact execKeyCmdLoad_kept req val s
  | keyCmdRetire req val => exact execKeyCmdRetire_kept req val s
  | keyCmdRetireErase req val => exact execKeyCmdRetireErase_kept req val s
  | ldKeyRekey req ld val => exact execLdKeyRekey_kept req ld val s
  | dfMirrorPair req val => exact execDfMirrorPair_kept req val s
  | dfMirrorUnpair req val => exact execDfMirrorUnpair_kept req val s
  | dfMirrorResync req val => exact execDfMirrorResync_kept req val s
  | dfMirrorSwap req val => exact execDfMirrorSwap_kept req val s
  | dfExportAdd req val => exact execDfExportAdd_kept req val s
  | dfExportDel req val => exact execDfExportDel_kept req val s
  | dfImportAdd req val => exact execDfImportAdd_kept req val s
  | dfImportDel req val => exact execDfImportDel_kept req val s
  | caskCfgCreate req val => exact execCaskCfgCreate_kept req val s
  | caskCfgDelete req val => exact execCaskCfgDelete_kept req val s
  | caskCfgMark req val => exact execCaskCfgMark_kept req val s
  | caskCfgRecoverLatest req val => exact execCaskCfgRecoverLatest_kept req val s
  | caskCfgRecoverCommitted req val => exact execCaskCfgRecoverCommitted_kept req val s
  | huTestGo req val => exact execHuTestGo_kept req val s
  | kqCreate req q val => exact execKqCreate_kept req q val s
  | kqDelete req q val => exact execKqDelete_kept req q val s
  | memtestRawWrite req val => exact execMemtestRawWrite_kept req val s
  | memtestRawRead req val => exact execMemtestRawRead_kept req val s
  | memtestCheckedRead req val => exact execMemtestCheckedRead_kept req val s
  | wealiBoardWrite req val => exact execWealiBoardWrite_kept req val s
  | wealiBoardRead req val => exact execWealiBoardRead_kept req val s
  | cntClear req b val => exact execCntClear_kept req b val s
  | sampleEnableWrite req val => exact execSampleEnableWrite_kept req val s
  | sampleClose req val => exact execSampleClose_kept req val s
  | dropRest req val => exact execDropRest_kept req val s
  | sampleDataRead req => exact execSampleDataRead_kept req s
  | sillClear req val => exact execSillClear_kept req val s
  | hdmDecoderCommit ld d c => exact execHdmDecoderCommit_kept ld d c s
  | busMasterEnable ld => exact execBusMasterEnable_kept ld s
  | ldKeyKeyidxWrite req ld val => exact execLdKeyKeyidxWrite_kept req ld val s
  | doroshSignalSeen k => exact execDoroshSignalSeen_kept k s
  | vinGoodLoss => exact execVinGoodLoss_kept s
  | railsOffStep => exact execRailsOffStep_kept s
  | seqPollReply slave reply => exact execSeqPollReply_kept slave reply s
  | seqOffDeadline => exact execSeqOffDeadline_kept s
  | spdmSessionEnd session => exact execSpdmSessionEnd_kept session s
  | hbmWayWakeEnd => exact execHbmWayWakeEnd_kept s
  | planeSelfCheckFail plane => exact execPlaneSelfCheckFail_kept plane s
  | vectorSignalHoldoffEnd ld vec => exact execVectorSignalHoldoffEnd_kept ld vec s
  | refclkReturn w => exact execRefclkReturn_kept w s

end Sys2Proof.Machine
end

