-- ==== Sys2Proof/Laws/Crypto.lean ====
section
/-!
SUPPORT. Laws of the cipher: a block decrypts to what was encrypted, and a wrapped root unwraps to itself.
-/

namespace Sys2Proof.Machine

/-- A list of `n` bytes. -/
def ByteList (n : Nat) (l : List Nat) : Prop := l.length = n ∧ ∀ x ∈ l, x < 256

theorem aesSub_lt (x : Nat) : aesSub x < 256 := Nat.mod_lt _ (by decide)
theorem aesBack_lt (x : Nat) : aesBack x < 256 := Nat.mod_lt _ (by decide)
theorem aesBack_aesSub (x : Nat) (h : x < 256) : aesBack (aesSub x) = x := by
  have : ∀ x : Fin 256, aesBack (aesSub x.val) = x.val := by decide +kernel
  exact this ⟨x, h⟩

theorem ByteList.map {n : Nat} {l : List Nat} {f : Nat → Nat} (h : ByteList n l) (hf : ∀ x, f x < 256) : ByteList n (l.map f) :=
  ⟨by simpa using h.1, by simp only [List.mem_map]; rintro _ ⟨x, -, rfl⟩; exact hf x⟩

theorem map_aesBack_aesSub {n : Nat} {l : List Nat} (h : ByteList n l) : (l.map aesSub).map aesBack = l := by
  rw [List.map_map]
  conv_rhs => rw [← List.map_id l]
  exact List.map_congr_left (fun x hx => aesBack_aesSub x (h.2 x hx))

theorem ByteList.xor {n : Nat} {a b : List Nat} (ha : ByteList n a) (hb : ByteList n b) : ByteList n (xorBytes a b) := by
  refine ⟨by simp [xorBytes, ha.1, hb.1], ?_⟩
  intro x hx
  simp only [xorBytes, List.mem_iff_getElem, List.length_zipWith, List.getElem_zipWith] at hx
  obtain ⟨i, hi, rfl⟩ := hx
  exact Nat.xor_lt_two_pow (n := 8) (ha.2 _ (List.getElem_mem _)) (hb.2 _ (List.getElem_mem _))

theorem xorBytes_cancel {n : Nat} {a b : List Nat} (ha : a.length = n) (hb : b.length = n) : xorBytes (xorBytes a b) b = a := by
  unfold xorBytes
  apply List.ext_getElem
  · simp [ha, hb]
  · intro i h1 h2; simp [Nat.xor_assoc]

theorem eq_four {l : List Nat} (h : l.length = 4) : ∃ a b c d, l = [a, b, c, d] := by
  match l, h with
  | [a, b, c, d], _ => exact ⟨a, b, c, d, rfl⟩

theorem eq_sixteen {l : List Nat} (h : l.length = 16) : ∃ a b c d, a.length = 4 ∧ b.length = 4 ∧ c.length = 4 ∧ d.length = 4 ∧ l = a ++ b ++ c ++ d := by
  refine ⟨l.take 4, (l.drop 4).take 4, (l.drop 8).take 4, l.drop 12, by simp [h], by simp [h], by simp [h], by simp [h], ?_⟩
  have e1 : l = l.take 4 ++ l.drop 4 := (List.take_append_drop 4 l).symm
  have e2 : l.drop 4 = (l.drop 4).take 4 ++ (l.drop 4).drop 4 := (List.take_append_drop 4 _).symm
  have e3 : (l.drop 4).drop 4 = (l.drop 8).take 4 ++ l.drop 12 := by
    rw [List.drop_drop]
    have := (List.take_append_drop 4 (l.drop 8)).symm
    rw [List.drop_drop] at this
    simpa using this
  rw [e3] at e2; rw [e2] at e1
  simpa [List.append_assoc] using e1

theorem shiftRows_bytes (k : Nat) {s : List Nat} (h : ByteList 16 s) : ByteList 16 (shiftRows k s) := by
  refine ⟨by simp [shiftRows], ?_⟩
  intro x hx
  simp only [shiftRows, List.mem_map] at hx
  obtain ⟨i, -, rfl⟩ := hx
  by_cases hj : (i % 4) + 4 * ((i / 4 + k * (i % 4)) % 4) < s.length
  · rw [List.getD_eq_getElem _ _ hj]; exact h.2 _ (List.getElem_mem _)
  · rw [List.getD_eq_default _ _ (by omega)]; decide

theorem shiftRows_back {s : List Nat} (h : s.length = 16) : shiftRows 3 (shiftRows 1 s) = s := by
  obtain ⟨a, b, c, d, ha, hb, hc, hd, rfl⟩ := eq_sixteen h
  obtain ⟨_, _, _, _, rfl⟩ := eq_four ha
  obtain ⟨_, _, _, _, rfl⟩ := eq_four hb
  obtain ⟨_, _, _, _, rfl⟩ := eq_four hc
  obtain ⟨_, _, _, _, rfl⟩ := eq_four hd
  rfl

theorem xTime_eq (a : Nat) (h : a < 256) : xTime a = (2 * a) ^^^ (if a.testBit 7 then 0x11B else 0) := by
  have : ∀ a : Fin 256, xTime a.val = (2 * a.val) ^^^ (if a.val.testBit 7 then 0x11B else 0) := by decide +kernel
  exact this ⟨a, h⟩

theorem xTime_lt (a : Nat) (h : a < 256) : xTime a < 256 := by
  have : ∀ a : Fin 256, xTime a.val < 256 := by decide +kernel
  exact this ⟨a, h⟩

theorem two_mul_xor (a b : Nat) : 2 * (a ^^^ b) = (2 * a) ^^^ (2 * b) := by
  have := Nat.shiftLeft_xor_distrib (a := a) (b := b) (i := 1)
  simpa [Nat.shiftLeft_eq, Nat.mul_comm] using this

theorem xTime_xor (a b : Nat) (ha : a < 256) (hb : b < 256) : xTime (a ^^^ b) = xTime a ^^^ xTime b := by
  rw [xTime_eq a ha, xTime_eq b hb, xTime_eq _ (Nat.xor_lt_two_pow (n := 8) ha hb), Nat.testBit_xor, two_mul_xor]
  cases a.testBit 7 <;> cases b.testBit 7 <;> simp [Nat.xor_assoc, Nat.xor_comm, Nat.xor_left_comm]

theorem gMul_lt (a k : Nat) (h : a < 256) : gMul a k < 256 := by
  unfold gMul
  have h1 := xTime_lt a h
  have h2 := xTime_lt _ h1
  have h3 := xTime_lt _ h2
  refine Nat.xor_lt_two_pow (n := 8) (Nat.xor_lt_two_pow (n := 8) (Nat.xor_lt_two_pow (n := 8) ?_ ?_) ?_) ?_ <;>
    split <;> first | assumption | decide

theorem gMul_xor (a b k : Nat) (ha : a < 256) (hb : b < 256) : gMul (a ^^^ b) k = gMul a k ^^^ gMul b k := by
  unfold gMul
  rw [xTime_xor a b ha hb, xTime_xor _ _ (xTime_lt a ha) (xTime_lt b hb),
    xTime_xor _ _ (xTime_lt _ (xTime_lt a ha)) (xTime_lt _ (xTime_lt b hb))]
  split <;> split <;> split <;> split <;> simp [Nat.xor_assoc, Nat.xor_comm, Nat.xor_left_comm]

theorem mixColumn_bytes (m : List Nat) {c : List Nat} (h : ByteList 4 c) : ByteList 4 (mixColumn m c) := by
  refine ⟨by simp [mixColumn], ?_⟩
  intro x hx
  simp only [mixColumn, List.mem_map] at hx
  obtain ⟨r, -, rfl⟩ := hx
  have hl : ∀ (l : List Nat) (a : Nat), a < 256 → l.foldl (fun a j => a ^^^ gMul (c.getD j 0) (m.getD ((j + 4 - r) % 4) 0)) a < 256 := by
    intro l
    induction l with
    | nil => intro a h; exact h
    | cons j l ih =>
      intro a ha
      refine ih _ (Nat.xor_lt_two_pow (n := 8) ha (gMul_lt _ _ ?_))
      by_cases hj : j < c.length
      · rw [List.getD_eq_getElem _ _ hj]; exact h.2 _ (List.getElem_mem _)
      · rw [List.getD_eq_default _ _ (by omega)]; decide
  exact hl _ _ (by decide)

theorem mixColumn_four (m0 m1 m2 m3 a b c d : Nat) : mixColumn [m0, m1, m2, m3] [a, b, c, d] =
    [gMul a m0 ^^^ gMul b m1 ^^^ gMul c m2 ^^^ gMul d m3, gMul a m3 ^^^ gMul b m0 ^^^ gMul c m1 ^^^ gMul d m2,
     gMul a m2 ^^^ gMul b m3 ^^^ gMul c m0 ^^^ gMul d m1, gMul a m1 ^^^ gMul b m2 ^^^ gMul c m3 ^^^ gMul d m0] := by
  simp [mixColumn, List.range_succ]

theorem mixColumn_back {c : List Nat} (h : ByteList 4 c) : mixColumn [14, 11, 13, 9] (mixColumn [2, 3, 1, 1] c) = c := by
  obtain ⟨a, b, c, d, rfl⟩ := eq_four h.1
  have ha : a < 256 := h.2 a (by simp)
  have hb : b < 256 := h.2 b (by simp)
  have hc : c < 256 := h.2 c (by simp)
  have hd : d < 256 := h.2 d (by simp)
  have key : ∀ x : Fin 256, gMul (gMul x.val 2) 14 ^^^ gMul (gMul x.val 1) 11 ^^^ gMul (gMul x.val 1) 13 ^^^ gMul (gMul x.val 3) 9 = x.val
      ∧ gMul (gMul x.val 3) 14 ^^^ gMul (gMul x.val 2) 11 ^^^ gMul (gMul x.val 1) 13 ^^^ gMul (gMul x.val 1) 9 = 0
      ∧ gMul (gMul x.val 1) 14 ^^^ gMul (gMul x.val 3) 11 ^^^ gMul (gMul x.val 2) 13 ^^^ gMul (gMul x.val 1) 9 = 0
      ∧ gMul (gMul x.val 1) 14 ^^^ gMul (gMul x.val 1) 11 ^^^ gMul (gMul x.val 3) 13 ^^^ gMul (gMul x.val 2) 9 = 0
      ∧ gMul (gMul x.val 2) 9 ^^^ gMul (gMul x.val 1) 14 ^^^ gMul (gMul x.val 1) 11 ^^^ gMul (gMul x.val 3) 13 = 0
      ∧ gMul (gMul x.val 3) 9 ^^^ gMul (gMul x.val 2) 14 ^^^ gMul (gMul x.val 1) 11 ^^^ gMul (gMul x.val 1) 13 = x.val
      ∧ gMul (gMul x.val 1) 9 ^^^ gMul (gMul x.val 3) 14 ^^^ gMul (gMul x.val 2) 11 ^^^ gMul (gMul x.val 1) 13 = 0
      ∧ gMul (gMul x.val 1) 9 ^^^ gMul (gMul x.val 1) 14 ^^^ gMul (gMul x.val 3) 11 ^^^ gMul (gMul x.val 2) 13 = 0
      ∧ gMul (gMul x.val 2) 13 ^^^ gMul (gMul x.val 1) 9 ^^^ gMul (gMul x.val 1) 14 ^^^ gMul (gMul x.val 3) 11 = 0
      ∧ gMul (gMul x.val 3) 13 ^^^ gMul (gMul x.val 2) 9 ^^^ gMul (gMul x.val 1) 14 ^^^ gMul (gMul x.val 1) 11 = 0
      ∧ gMul (gMul x.val 1) 13 ^^^ gMul (gMul x.val 3) 9 ^^^ gMul (gMul x.val 2) 14 ^^^ gMul (gMul x.val 1) 11 = x.val
      ∧ gMul (gMul x.val 1) 13 ^^^ gMul (gMul x.val 1) 9 ^^^ gMul (gMul x.val 3) 14 ^^^ gMul (gMul x.val 2) 11 = 0
      ∧ gMul (gMul x.val 2) 11 ^^^ gMul (gMul x.val 1) 13 ^^^ gMul (gMul x.val 1) 9 ^^^ gMul (gMul x.val 3) 14 = 0
      ∧ gMul (gMul x.val 3) 11 ^^^ gMul (gMul x.val 2) 13 ^^^ gMul (gMul x.val 1) 9 ^^^ gMul (gMul x.val 1) 14 = 0
      ∧ gMul (gMul x.val 1) 11 ^^^ gMul (gMul x.val 3) 13 ^^^ gMul (gMul x.val 2) 9 ^^^ gMul (gMul x.val 1) 14 = 0
      ∧ gMul (gMul x.val 1) 11 ^^^ gMul (gMul x.val 1) 13 ^^^ gMul (gMul x.val 3) 9 ^^^ gMul (gMul x.val 2) 14 = x.val := by decide +kernel
  have hx : ∀ x y, x < 256 → y < 256 → x ^^^ y < 256 := fun x y h1 h2 => Nat.xor_lt_two_pow (n := 8) h1 h2
  have lin : ∀ p q r s k, p < 256 → q < 256 → r < 256 → s < 256 → gMul (p ^^^ q ^^^ r ^^^ s) k = gMul p k ^^^ gMul q k ^^^ gMul r k ^^^ gMul s k := by
    intro p q r s k h1 h2 h3 h4
    rw [gMul_xor _ _ _ (hx _ _ (hx _ _ h1 h2) h3) h4, gMul_xor _ _ _ (hx _ _ h1 h2) h3, gMul_xor _ _ _ h1 h2]
  rw [mixColumn_four, mixColumn_four]
  have g := gMul_lt
  obtain ⟨a00, a01, a02, a03, a10, a11, a12, a13, a20, a21, a22, a23, a30, a31, a32, a33⟩ := key ⟨a, ha⟩
  obtain ⟨b00, b01, b02, b03, b10, b11, b12, b13, b20, b21, b22, b23, b30, b31, b32, b33⟩ := key ⟨b, hb⟩
  obtain ⟨c00, c01, c02, c03, c10, c11, c12, c13, c20, c21, c22, c23, c30, c31, c32, c33⟩ := key ⟨c, hc⟩
  obtain ⟨d00, d01, d02, d03, d10, d11, d12, d13, d20, d21, d22, d23, d30, d31, d32, d33⟩ := key ⟨d, hd⟩
  dsimp only at *
  have four : ∀ p0 p1 p2 p3 q0 q1 q2 q3 r0 r1 r2 r3 s0 s1 s2 s3 : Nat,
      (p0 ^^^ q0 ^^^ r0 ^^^ s0) ^^^ (p1 ^^^ q1 ^^^ r1 ^^^ s1) ^^^ (p2 ^^^ q2 ^^^ r2 ^^^ s2) ^^^ (p3 ^^^ q3 ^^^ r3 ^^^ s3)
        = (p0 ^^^ p1 ^^^ p2 ^^^ p3) ^^^ (q0 ^^^ q1 ^^^ q2 ^^^ q3) ^^^ (r0 ^^^ r1 ^^^ r2 ^^^ r3) ^^^ (s0 ^^^ s1 ^^^ s2 ^^^ s3) := by
    intros; ac_rfl
  refine List.cons_eq_cons.2 ⟨?_, List.cons_eq_cons.2 ⟨?_, List.cons_eq_cons.2 ⟨?_, List.cons_eq_cons.2 ⟨?_, rfl⟩⟩⟩⟩
  all_goals
    rw [lin _ _ _ _ _ (g _ _ ha) (g _ _ hb) (g _ _ hc) (g _ _ hd), lin _ _ _ _ _ (g _ _ ha) (g _ _ hb) (g _ _ hc) (g _ _ hd),
      lin _ _ _ _ _ (g _ _ ha) (g _ _ hb) (g _ _ hc) (g _ _ hd), lin _ _ _ _ _ (g _ _ ha) (g _ _ hb) (g _ _ hc) (g _ _ hd), four]
  · rw [a00, b01, c02, d03]; simp
  · rw [a10, b11, c12, d13]; simp
  · rw [a20, b21, c22, d23]; simp
  · rw [a30, b31, c32, d33]; simp

theorem mixColumns_eq (m : List Nat) {a b c d : List Nat} (ha : a.length = 4) (hb : b.length = 4) (hc : c.length = 4) (hd : d.length = 4) :
    mixColumns m (a ++ b ++ c ++ d) = mixColumn m a ++ mixColumn m b ++ mixColumn m c ++ mixColumn m d := by
  obtain ⟨_, _, _, _, rfl⟩ := eq_four ha
  obtain ⟨_, _, _, _, rfl⟩ := eq_four hb
  obtain ⟨_, _, _, _, rfl⟩ := eq_four hc
  obtain ⟨_, _, _, _, rfl⟩ := eq_four hd
  rfl

theorem ByteList.append {n k : Nat} {a b : List Nat} (ha : ByteList n a) (hb : ByteList k b) : ByteList (n + k) (a ++ b) :=
  ⟨by simp [ha.1, hb.1], fun x hx => (List.mem_append.1 hx).elim (ha.2 x) (hb.2 x)⟩

theorem mixColumns_bytes (m : List Nat) {s : List Nat} (h : ByteList 16 s) : ByteList 16 (mixColumns m s) := by
  obtain ⟨a, b, c, d, ha, hb, hc, hd, rfl⟩ := eq_sixteen h.1
  have hx := h.2
  simp only [List.mem_append] at hx
  rw [mixColumns_eq m ha hb hc hd]
  exact (((mixColumn_bytes m ⟨ha, fun x q => hx x (.inl (.inl (.inl q)))⟩).append (mixColumn_bytes m ⟨hb, fun x q => hx x (.inl (.inl (.inr q)))⟩)).append
    (mixColumn_bytes m ⟨hc, fun x q => hx x (.inl (.inr q))⟩)).append (mixColumn_bytes m ⟨hd, fun x q => hx x (.inr q)⟩)

theorem mixColumns_back {s : List Nat} (h : ByteList 16 s) : mixColumns [14, 11, 13, 9] (mixColumns [2, 3, 1, 1] s) = s := by
  obtain ⟨a, b, c, d, ha, hb, hc, hd, rfl⟩ := eq_sixteen h.1
  have hx := h.2
  simp only [List.mem_append] at hx
  have ba : ByteList 4 a := ⟨ha, fun x q => hx x (.inl (.inl (.inl q)))⟩
  have bb : ByteList 4 b := ⟨hb, fun x q => hx x (.inl (.inl (.inr q)))⟩
  have bc : ByteList 4 c := ⟨hc, fun x q => hx x (.inl (.inr q))⟩
  have bd : ByteList 4 d := ⟨hd, fun x q => hx x (.inr q)⟩
  rw [mixColumns_eq _ ha hb hc hd, mixColumns_eq _ (mixColumn_bytes _ ba).1 (mixColumn_bytes _ bb).1 (mixColumn_bytes _ bc).1 (mixColumn_bytes _ bd).1,
    mixColumn_back ba, mixColumn_back bb, mixColumn_back bc, mixColumn_back bd]

/-- A round of the cipher before its last, and its inverse. -/
def aesRound (s k : List Nat) : List Nat := xorBytes (mixColumns [2, 3, 1, 1] (shiftRows 1 (s.map aesSub))) k
def aesBackRound (s k : List Nat) : List Nat := mixColumns [14, 11, 13, 9] (xorBytes ((shiftRows 3 s).map aesBack) k)

theorem aesRound_bytes {s k : List Nat} (hs : ByteList 16 s) (hk : ByteList 16 k) : ByteList 16 (aesRound s k) :=
  (mixColumns_bytes _ (shiftRows_bytes 1 (hs.map aesSub_lt))).xor hk

theorem aesRound_back {s k : List Nat} (hs : ByteList 16 s) (hk : ByteList 16 k) :
    aesBackRound (shiftRows 1 ((aesRound s k).map aesSub)) k = shiftRows 1 (s.map aesSub) := by
  have h1 := aesRound_bytes hs hk
  have h2 := shiftRows_bytes 1 (hs.map aesSub_lt)
  unfold aesBackRound
  rw [shiftRows_back (h1.map aesSub_lt).1, map_aesBack_aesSub h1]
  unfold aesRound
  rw [xorBytes_cancel (mixColumns_bytes _ h2).1 hk.1, mixColumns_back h2]

theorem aesRounds_back (ks : List (List Nat)) (hk : ∀ k ∈ ks, ByteList 16 k) (s : List Nat) (hs : ByteList 16 s) :
    ByteList 16 (ks.foldl aesRound s)
    ∧ ks.reverse.foldl aesBackRound (shiftRows 1 ((ks.foldl aesRound s).map aesSub)) = shiftRows 1 (s.map aesSub) := by
  induction ks generalizing s with
  | nil => exact ⟨hs, rfl⟩
  | cons k ks ih =>
    have h1 := aesRound_bytes hs (hk k (by simp))
    obtain ⟨a, b⟩ := ih (fun x hx => hk x (by simp [hx])) _ h1
    refine ⟨a, ?_⟩
    rw [List.foldl_cons, List.reverse_cons, List.foldl_append, b]
    exact aesRound_back hs (hk k (by simp))

/-- A block encrypted with fifteen round keys decrypts to what it was. -/
theorem aesUnblock_aesBlock {ks : List (List Nat)} (hl : ks.length = 15) (hk : ∀ k ∈ ks, ByteList 16 k) {b : List Nat} (hb : ByteList 16 b) :
    ByteList 16 (aesBlock ks b) ∧ aesUnblock ks (aesBlock ks b) = b := by
  have h0 : ByteList 16 (ks.headD []) := by
    cases ks with
    | nil => simp at hl
    | cons k ks => exact hk k (by simp)
  have h14 : ByteList 16 (ks.getD 14 []) := by
    rw [List.getD_eq_getElem _ _ (by omega)]; exact hk _ (List.getElem_mem _)
  have hm : ∀ k ∈ (ks.drop 1).take 13, ByteList 16 k := fun k h => hk k (List.mem_of_mem_drop (List.mem_of_mem_take h))
  have hs := hb.xor h0
  obtain ⟨a, e⟩ := aesRounds_back _ hm _ hs
  have hlast := shiftRows_bytes 1 (a.map aesSub_lt)
  refine ⟨hlast.xor h14, ?_⟩
  change xorBytes ((shiftRows 3 (((ks.drop 1).take 13).reverse.foldl aesBackRound (xorBytes (aesBlock ks b) (ks.getD 14 [])))).map aesBack)
    (ks.headD []) = b
  change xorBytes ((shiftRows 3 (((ks.drop 1).take 13).reverse.foldl aesBackRound (xorBytes (xorBytes (shiftRows 1 ((((ks.drop 1).take 13).foldl
    aesRound (xorBytes b (ks.headD []))).map aesSub)) (ks.getD 14 [])) (ks.getD 14 [])))).map aesBack) (ks.headD []) = b
  rw [xorBytes_cancel hlast.1 h14.1, e, shiftRows_back (hs.map aesSub_lt).1, map_aesBack_aesSub hs, xorBytes_cancel hb.1 h0.1]

theorem bytesBe_bytes (v n : Nat) : ByteList n (bytesBe v n) := by
  refine ⟨by simp [bytesBe], ?_⟩
  simp only [bytesBe, List.mem_map]
  rintro _ ⟨i, -, rfl⟩
  exact Nat.mod_lt _ (by decide)

theorem aesWords_bytes (n : Nat) (ws : List (List Nat)) (h8 : 8 ≤ ws.length) (h : ∀ w ∈ ws, ByteList 4 w) :
    (aesWords n ws).length = n + ws.length ∧ ∀ w ∈ aesWords n ws, ByteList 4 w := by
  induction n generalizing ws with
  | zero => exact ⟨by simp [aesWords], h⟩
  | succ n ih =>
    have hh : ByteList 4 (ws.headD []) := by
      cases ws with
      | nil => simp at h8
      | cons w ws => exact h w (by simp)
    have h7 : ByteList 4 (ws.getD 7 []) := by
      rw [List.getD_eq_getElem _ _ (by omega)]; exact h _ (List.getElem_mem _)
    rw [aesWords]
    have ht : ByteList 4 (if (59 - n) % 8 = 0 then
        xorBytes (((ws.headD []).drop 1 ++ (ws.headD []).take 1).map aesSub) [2 ^ ((59 - n) / 8 - 1), 0, 0, 0]
      else if (59 - n) % 8 = 4 then (ws.headD []).map aesSub else ws.headD []) := by
      split
      · refine ByteList.xor (ByteList.map ⟨?_, ?_⟩ aesSub_lt) ⟨rfl, ?_⟩
        · rw [List.length_append, List.length_drop, List.length_take, hh.1]; decide
        · intro x hx
          rcases List.mem_append.1 hx with q | q
          · exact hh.2 x (List.mem_of_mem_drop q)
          · exact hh.2 x (List.mem_of_mem_take q)
        · intro x hx
          simp only [List.mem_cons, List.not_mem_nil, or_false] at hx
          rcases hx with rfl | rfl | rfl | rfl
          · have : (59 - n) / 8 - 1 ≤ 6 := by omega
            calc 2 ^ ((59 - n) / 8 - 1) ≤ 2 ^ 6 := Nat.pow_le_pow_right (by decide) this
              _ < 256 := by decide
          all_goals decide
      · split
        · exact hh.map aesSub_lt
        · exact hh
    obtain ⟨a, b⟩ := ih (xorBytes _ (ws.getD 7 []) :: ws) (by simp; omega) (by
      intro w hw
      rcases List.mem_cons.1 hw with rfl | q
      · exact ht.xor h7
      · exact h w q)
    exact ⟨by rw [a]; simp; omega, b⟩

theorem aesKeys_bytes (key : BitVec 256) : (aesKeys key).length = 15 ∧ ∀ k ∈ aesKeys key, ByteList 16 k := by
  have h0 : ∀ w ∈ ((List.range 8).map (fun i => ((bytesBe key.toNat 32).drop (4 * i)).take 4)).reverse, ByteList 4 w := by
    intro w hw
    simp only [List.mem_reverse, List.mem_map, List.mem_range] at hw
    obtain ⟨i, hi, rfl⟩ := hw
    refine ⟨by simp [(bytesBe_bytes key.toNat 32).1]; omega, fun x hx => (bytesBe_bytes key.toNat 32).2 x ?_⟩
    exact List.mem_of_mem_drop (List.mem_of_mem_take hx)
  obtain ⟨hl, hw⟩ := aesWords_bytes 52 _ (by simp) h0
  refine ⟨by simp [aesKeys], ?_⟩
  intro k hk
  simp only [aesKeys, List.mem_map, List.mem_range] at hk
  obtain ⟨i, hi, rfl⟩ := hk
  generalize hws : (aesWords 52 ((List.range 8).map (fun i => ((bytesBe key.toNat 32).drop (4 * i)).take 4)).reverse).reverse = ws at *
  have l60 : ws.length = 60 := by rw [← hws, List.length_reverse, hl]; simp
  have hb : ∀ w ∈ ws, ByteList 4 w := by rw [← hws]; intro w q; exact hw w (List.mem_reverse.1 q)
  have l4 : ((ws.drop (4 * i)).take 4).length = 4 := by simp [l60]; omega
  generalize hq : (ws.drop (4 * i)).take 4 = q at *
  have hqb : ∀ w ∈ q, ByteList 4 w := by
    rw [← hq]; intro w h; exact hb w (List.mem_of_mem_drop (List.mem_of_mem_take h))
  match q, l4 with
  | [a, b, c, d], _ =>
    have := (((hqb a (by simp)).append (hqb b (by simp))).append (hqb c (by simp))).append (hqb d (by simp))
    simpa using this

theorem bytesBe_succ (v n : Nat) : bytesBe v (n + 1) = bytesBe (v / 256) n ++ [v % 256] := by
  unfold bytesBe
  rw [List.range_succ, List.map_append]
  congr 1
  · refine List.map_congr_left (fun i hi => ?_)
    have : i < n := List.mem_range.1 hi
    rw [show 8 * (n + 1 - 1 - i) = 8 + 8 * (n - 1 - i) by omega, Nat.shiftRight_add, Nat.shiftRight_eq_div_pow v 8]
  · simp

theorem natBe_append (l : List Nat) (x : Nat) : natBe (l ++ [x]) = 256 * natBe l + x := by simp [natBe]

theorem natBe_bytesBe (v n : Nat) : natBe (bytesBe v n) = v % 2 ^ (8 * n) := by
  induction n generalizing v with
  | zero => simp [natBe, bytesBe, Nat.mod_one]
  | succ n ih =>
    rw [bytesBe_succ, natBe_append, ih, show 8 * (n + 1) = 8 + 8 * n by omega, pow_add, Nat.mod_mul (a := 2 ^ 8)]
    norm_num; omega

theorem bytesBe_natBe {n : Nat} {l : List Nat} (h : ByteList n l) : bytesBe (natBe l) n = l := by
  induction n generalizing l with
  | zero => rw [List.length_eq_zero_iff.1 h.1]; rfl
  | succ n ih =>
    have hne : l ≠ [] := by intro e; rw [e] at h; simpa using h.1
    obtain ⟨d, x, rfl⟩ : ∃ d x, l = d ++ [x] := ⟨l.dropLast, l.getLast hne, (List.dropLast_append_getLast hne).symm⟩
    have hx : x < 256 := h.2 x (by simp)
    have hd : ByteList n d := ⟨by simpa using h.1, fun y hy => h.2 y (by simp [hy])⟩
    rw [natBe_append, bytesBe_succ, show (256 * natBe d + x) / 256 = natBe d by omega, show (256 * natBe d + x) % 256 = x by omega, ih hd]

theorem natBe_lt {n : Nat} {l : List Nat} (h : ByteList n l) : natBe l < 2 ^ (8 * n) := by
  have := natBe_bytesBe (natBe l) n
  rw [bytesBe_natBe h] at this
  rw [this]; exact Nat.mod_lt _ (by positivity)

/-- The steps of an unwrap undo those of a wrap. -/
theorem unwrapSteps_wrapSteps {ks : List (List Nat)} (hl : ks.length = 15) (hk : ∀ k ∈ ks, ByteList 16 k) (m : Nat) (hm : m ≤ 24)
    (a : Nat) (r : List Nat) (ha : a < 2 ^ 64) (hr : r.length = 4) (hb : ∀ x ∈ r, x < 2 ^ 64) :
    (wrapSteps ks m a r).1 < 2 ^ 64 ∧ (wrapSteps ks m a r).2.length = 4 ∧ (∀ x ∈ (wrapSteps ks m a r).2, x < 2 ^ 64)
      ∧ unwrapSteps ks 24 (wrapSteps ks m a r).1 (wrapSteps ks m a r).2 = unwrapSteps ks (24 - m) a r := by
  induction m generalizing a r with
  | zero => exact ⟨ha, hr, hb, rfl⟩
  | succ m ih =>
    rw [wrapSteps]
    set t := 24 - m with ht
    set i := (t - 1) % 4 with hi
    have hi4 : i < 4 := Nat.mod_lt _ (by decide)
    have hri : r.getD i 0 < 2 ^ 64 := by
      rw [List.getD_eq_getElem _ _ (by omega)]; exact hb _ (List.getElem_mem _)
    set v := a * 2 ^ 64 + r.getD i 0 with hv
    have hv128 : v < 2 ^ (8 * 16) := by rw [hv]; norm_num at *; omega
    obtain ⟨hB, hU⟩ := aesUnblock_aesBlock hl hk (bytesBe_bytes v 16)
    set b := natBe (aesBlock ks (bytesBe v 16)) with hbd
    have hb128 : b < 2 ^ (8 * 16) := natBe_lt hB
    have hA : (b / 2 ^ 64) ^^^ t < 2 ^ 64 := by
      refine Nat.xor_lt_two_pow ?_ ?_
      · norm_num at *; omega
      · norm_num; omega
    obtain ⟨c1, c2, c3, c4⟩ := ih (by omega) ((b / 2 ^ 64) ^^^ t) (r.set i (b % 2 ^ 64)) hA (by simpa using hr) (by
      intro x hx
      rcases List.mem_or_eq_of_mem_set hx with q | rfl
      · exact hb x q
      · exact Nat.mod_lt _ (by positivity))
    refine ⟨c1, c2, c3, c4.trans ?_⟩
    rw [show t = (24 - (m + 1)) + 1 by omega, unwrapSteps]
    have e1 : 24 - (m + 1) + 1 = t := by omega
    have e2 : (24 - (m + 1)) % 4 = i := by rw [hi, ht]; congr 1
    have e3 : (r.set i (b % 2 ^ 64)).getD i 0 = b % 2 ^ 64 := by
      rw [List.getD_eq_getElem _ _ (by simp; omega)]; simp
    rw [e1, e2, e3, Nat.xor_assoc, Nat.xor_self, Nat.xor_zero, show b / 2 ^ 64 * 2 ^ 64 + b % 2 ^ 64 = b from Nat.div_add_mod' b _, hbd,
      bytesBe_natBe hB, hU, natBe_bytesBe, Nat.mod_eq_of_lt hv128, hv]
    have e4 : (a * 2 ^ 64 + r.getD i 0) / 2 ^ 64 = a := by omega
    have e5 : (a * 2 ^ 64 + r.getD i 0) % 2 ^ 64 = r.getD i 0 := by omega
    rw [e4, e5, List.set_set]
    congr 1
    rw [List.getD_eq_getElem _ _ (by omega)]
    exact List.set_getElem_self _

/-- A root wrapped under a KEK unwraps to itself (R205, R208). -/
theorem keyUnwrap_keyWrap (kek root : BitVec 256) : keyUnwrap kek (keyWrap kek root) = some root := by
  obtain ⟨hl, hk⟩ := aesKeys_bytes kek
  have hb : ∀ x ∈ (List.range 4).map (fun i => (root.toNat >>> (64 * (3 - i))) % 2 ^ 64), x < 2 ^ 64 := by
    simp only [List.mem_map]; rintro _ ⟨i, -, rfl⟩; exact Nat.mod_lt _ (by positivity)
  obtain ⟨h1, h2, h3, h4⟩ := unwrapSteps_wrapSteps hl hk 24 (by decide) wrapIv _ (by decide) (by simp) hb
  unfold keyUnwrap keyWrap
  dsimp only
  generalize wrapSteps (aesKeys kek) 24 wrapIv _ = y at *
  obtain ⟨a, r⟩ := y
  obtain ⟨w0, w1, w2, w3, rfl⟩ := eq_four h2
  simp only [List.mem_cons, List.not_mem_nil, or_false] at h3
  have q0 := h3 w0 (by simp)
  have q1 := h3 w1 (by simp)
  have q2 := h3 w2 (by simp)
  have q3 := h3 w3 (by simp)
  dsimp only at h1 h4
  simp only [List.foldl_cons, List.foldl_nil, BitVec.toNat_ofNat, List.range_succ, List.range_zero, List.nil_append, List.map_cons, List.map_nil,
    List.cons_append, Nat.shiftRight_eq_div_pow]
  norm_num only at *
  have hw : ∀ N : Nat, N = (((a * 18446744073709551616 + w0) * 18446744073709551616 + w1) * 18446744073709551616 + w2) * 18446744073709551616 + w3 →
      N % 2 ^ 320 / 115792089237316195423570985008687907853269984665640564039457584007913129639936 % 18446744073709551616 = a
      ∧ N % 2 ^ 320 / 6277101735386680763835789423207666416102355444464034512896 % 18446744073709551616 = w0
      ∧ N % 2 ^ 320 / 340282366920938463463374607431768211456 % 18446744073709551616 = w1
      ∧ N % 2 ^ 320 / 18446744073709551616 % 18446744073709551616 = w2
      ∧ N % 2 ^ 320 / 1 % 18446744073709551616 = w3 := by
    intro N hN
    norm_num only
    omega
  obtain ⟨e0, e1, e2, e3, e4⟩ := hw _ rfl
  rw [e0, e1, e2, e3, e4, h4]
  simp only [unwrapSteps, if_true, List.range_succ, List.range_zero, List.nil_append, List.map_cons, List.map_nil,
    List.cons_append, List.foldl_cons, List.foldl_nil, Nat.shiftRight_eq_div_pow, Option.some.injEq]
  apply BitVec.eq_of_toNat_eq
  have := root.isLt
  rw [BitVec.toNat_ofNat]
  norm_num only at *
  omega

end Sys2Proof.Machine
end

