-- ==== Sys2Proof/Laws/Maps.lean ====
section
/-!
SUPPORT. Laws of the sparse maps and of memory: a read after a write, the writes that leave a place alone, and that every operation
keeps the canonical form.
-/

namespace Sys2Proof.Machine

variable {α : Type} [DecidableEq α]

/-- A key's entries are what the map answers for it: without one the map answers its default. -/
theorem mget_filter_self (d : α) (m : List (Nat × α)) (k : Nat) : mget d (m.filter (fun x => x.1 != k)) k = d := by
  induction m with
  | nil => rfl
  | cons a r ih =>
    obtain ⟨j, v⟩ := a
    by_cases h : j = k
    · simpa [h] using ih
    · simpa [mget, h] using ih

/-- Entries of another key do not matter to a read. -/
theorem mget_filter_of_ne (d : α) (m : List (Nat × α)) {k j : Nat} (h : j ≠ k) :
    mget d (m.filter (fun x => x.1 != k)) j = mget d m j := by
  induction m with
  | nil => rfl
  | cons a r ih =>
    obtain ⟨i, v⟩ := a
    by_cases hk : i = k
    · subst hk
      simpa [mget, h.symm] using ih
    · by_cases hj : i = j
      · subst hj
        simp [mget, hk]
      · simpa [mget, hk, hj] using ih

omit [DecidableEq α] in
theorem mget_mins_self (d v : α) (m : List (Nat × α)) (k : Nat) (h : ∀ x ∈ m, x.1 ≠ k) : mget d (mins k v m) k = v := by
  induction m with
  | nil => simp [mins, mget]
  | cons a r ih =>
    obtain ⟨j, w⟩ := a
    simp only [mins]
    split
    · simp [mget]
    · have hj : j ≠ k := h (j, w) (by simp)
      simpa [mget, hj] using ih (fun x hx => h x (by simp [hx]))

omit [DecidableEq α] in
theorem mget_mins_of_ne (d v : α) (m : List (Nat × α)) {k j : Nat} (h : j ≠ k) : mget d (mins k v m) j = mget d m j := by
  induction m with
  | nil => simp [mins, mget, h.symm]
  | cons a r ih =>
    obtain ⟨i, w⟩ := a
    simp only [mins]
    split
    · simp [mget, h.symm]
    · simp [mget, ih]

/-- A read after a write to the same key gives what was written. -/
@[simp] theorem mget_mset_self (d v : α) (m : List (Nat × α)) (k : Nat) : mget d (mset d m k v) k = v := by
  unfold mset
  split
  · simp_all [mget_filter_self]
  · exact mget_mins_self _ _ _ _ (by simp)

/-- A write leaves every other key alone, whatever the other key's default. -/
theorem mget_mset_of_ne' (d e v : α) (m : List (Nat × α)) {k j : Nat} (h : j ≠ k) : mget e (mset d m k v) j = mget e m j := by
  unfold mset
  split
  · exact mget_filter_of_ne e m h
  · rw [mget_mins_of_ne _ _ _ h, mget_filter_of_ne e m h]

/-- A write leaves every other key alone. -/
theorem mget_mset_of_ne (d v : α) (m : List (Nat × α)) {k j : Nat} (h : j ≠ k) : mget d (mset d m k v) j = mget d m j :=
  mget_mset_of_ne' d d v m h

/-- Reading any key after a write. -/
theorem mget_mset (d v : α) (m : List (Nat × α)) (k j : Nat) :
    mget d (mset d m k v) j = if j = k then v else mget d m j := by
  split
  · rename_i h
    rw [h, mget_mset_self]
  · rename_i h
    exact mget_mset_of_ne d v m h

/-! ### The canonical form -/

theorem mwfFrom_mono (d : α) {a b : Nat} (h : a ≤ b) {m : List (Nat × α)} (hm : mwfFrom d b m = true) : mwfFrom d a m = true := by
  cases m with
  | nil => rfl
  | cons x r =>
    simp only [mwfFrom, Bool.and_eq_true, decide_eq_true_eq] at hm ⊢
    exact ⟨⟨by omega, hm.1.2⟩, hm.2⟩

theorem mwfFrom_filter (d : α) (p : Nat × α → Bool) (m : List (Nat × α)) (b : Nat) (hm : mwfFrom d b m = true) :
    mwfFrom d b (m.filter p) = true := by
  induction m generalizing b with
  | nil => rfl
  | cons x r ih =>
    simp only [mwfFrom, Bool.and_eq_true, decide_eq_true_eq] at hm
    have hr := ih (x.1 + 1) hm.2
    by_cases hp : p x = true
    · simp only [List.filter_cons_of_pos hp, mwfFrom, Bool.and_eq_true, decide_eq_true_eq]
      exact ⟨hm.1, hr⟩
    · rw [List.filter_cons_of_neg hp]
      exact mwfFrom_mono d (by omega) hr

theorem mwfFrom_mins (d v : α) (hv : v ≠ d) (k : Nat) (m : List (Nat × α)) (b : Nat) (hb : b ≤ k) (hk : ∀ x ∈ m, x.1 ≠ k)
    (hm : mwfFrom d b m = true) : mwfFrom d b (mins k v m) = true := by
  induction m generalizing b with
  | nil => simp [mins, mwfFrom, hb, hv]
  | cons x r ih =>
    obtain ⟨j, w⟩ := x
    have hj : j ≠ k := hk (j, w) (by simp)
    simp only [mwfFrom, Bool.and_eq_true, decide_eq_true_eq] at hm
    simp only [mins]
    split
    · simp only [mwfFrom, Bool.and_eq_true, decide_eq_true_eq]
      exact ⟨⟨hb, by simp [hv]⟩, ⟨by omega, hm.1.2⟩, hm.2⟩
    · simp only [mwfFrom, Bool.and_eq_true, decide_eq_true_eq]
      exact ⟨hm.1, ih (j + 1) (by omega) (fun y hy => hk y (by simp [hy])) hm.2⟩

/-- A write keeps a map canonical. -/
theorem mwf_mset (d v : α) (m : List (Nat × α)) (k : Nat) (hm : mwf d m = true) : mwf d (mset d m k v) = true := by
  unfold mset
  split
  · exact mwfFrom_filter d _ m 0 hm
  · rename_i hv
    exact mwfFrom_mins d v hv k _ 0 (by omega) (by simp) (mwfFrom_filter d _ m 0 hm)

/-- A change of one entry keeps a map canonical. -/
theorem mwf_mmod (d : α) (m : List (Nat × α)) (k : Nat) (f : α → α) (hm : mwf d m = true) : mwf d (mmod d m k f) = true :=
  mwf_mset d _ m k hm

/-! ### Memory (R395, R479) -/

@[simp] theorem memByte_memSet_self (m : Memory) (a : Nat) (v : Byte) : memByte (memSet m a v) a = v := mget_mset_self _ _ _ _

theorem memByte_memSet_of_ne (m : Memory) {a b : Nat} (v : Byte) (h : b ≠ a) : memByte (memSet m a v) b = memByte m b :=
  mget_mset_of_ne _ _ _ h

/-- A byte outside the bytes written reads as before. -/
theorem memByte_memWrite_outside (m : Memory) (a : Nat) (l : List Byte) (b : Nat) (h : b < a ∨ a + l.length ≤ b) :
    memByte (memWrite m a l) b = memByte m b := by
  induction l generalizing m a with
  | nil => rfl
  | cons v r ih =>
    simp only [List.length_cons] at h
    rw [memWrite, ih _ _ (by omega), memByte_memSet_of_ne _ _ (by omega)]

/-- A byte written reads as what was written there. -/
theorem memByte_memWrite_inside (m : Memory) (a : Nat) (l : List Byte) (i : Nat) (h : i < l.length) :
    memByte (memWrite m a l) (a + i) = l[i] := by
  induction l generalizing m a i with
  | nil => simp at h
  | cons v r ih =>
    cases i with
    | zero => rw [memWrite, memByte_memWrite_outside _ _ _ _ (by omega)]; simp
    | succ n =>
      have := ih (memSet m a v) (a + 1) n (by simpa using h)
      simpa [memWrite, Nat.add_assoc, Nat.add_comm 1 n] using this

/-- One byte written keeps memory canonical. -/
theorem Memory.wf_memSet (m : Memory) (a : Nat) (v : Byte) (h : m.wf = true) : Memory.wf (memSet m a v) = true :=
  mwf_mset 0 v m a h

/-- Bytes written keep memory canonical. -/
theorem Memory.wf_memWrite (m : Memory) (a : Nat) (l : List Byte) (h : m.wf = true) : Memory.wf (memWrite m a l) = true := by
  induction l generalizing m a with
  | nil => exact h
  | cons v r ih => exact ih _ _ (Memory.wf_memSet m a v h)

end Sys2Proof.Machine
end

