-- ==== Sys2Proof/Laws/Lasting.lean ====
section
/-!
SUPPORT. The few operations that do change something of what `State.kept` names, and what they do to it: the board area (R479,
R480), the lifecycle and its fuse (R219).
-/

namespace Sys2Proof.Machine

/-- The state with another board area. -/
def State.withBoard (s : State) (b : Memory) : State := { s with weali := { s.weali with board := b } }

/-- The state with another lifecycle and fuse. -/
def State.withLife (s : State) (l : Nat) (f : Bool) : State := { s with keys := { s.keys with lifecycle := l, fuse := f } }

/-- What is kept apart from the board area carries over to another board area. -/
theorem State.withBoard_kept {s t : State} (h : s.kept = t.kept) (b : Memory) : (s.withBoard b).kept = (t.withBoard b).kept := by
  simp only [State.kept, Prod.mk.injEq] at h
  simp [State.kept, State.withBoard, h]

@[simp] theorem State.withBoard_self (s : State) : s.withBoard s.weali.board = s := rfl

theorem State.board_of_kept {s t : State} (h : s.kept = t.kept) : s.weali.board = t.weali.board := by
  simp only [State.kept, Prod.mk.injEq] at h
  exact h.2.2.2.2.1

/-- A board operation that ends writes its bytes into the board area and touches nothing else of what is kept (R479). -/
theorem State.boardDone_kept (s : State) (x : Nat × List Byte × Option CmdSrc) :
    (s.boardDone x).kept = (s.withBoard (memWrite s.weali.board x.1 (boardBytes x.1 x.2.1))).kept := by
  unfold State.boardDone
  dsimp only
  split
  · rw [State.done_kept, State.count_kept, State.count_kept]; rfl
  · rw [State.setFlag_kept, State.setF_kept, State.count_kept, State.count_kept]; rfl

/-- A change of the board area alone that keeps it canonical. -/
def BoardOnly (s t : State) : Prop := ∃ b, t.kept = (s.withBoard b).kept ∧ (s.weali.board.wf = true → Memory.wf b = true)

theorem BoardOnly.of_kept {s t : State} (h : t.kept = s.kept) : BoardOnly s t := ⟨s.weali.board, h, id⟩

theorem BoardOnly.trans {s t u : State} (h : BoardOnly s t) (g : BoardOnly t u) : BoardOnly s u := by
  obtain ⟨b, hb, wb⟩ := h
  obtain ⟨c, hc, wc⟩ := g
  have e : t.weali.board = b := State.board_of_kept hb
  exact ⟨c, hc.trans (State.withBoard_kept hb c), fun w => wc (by rw [e]; exact wb w)⟩

theorem BoardOnly.boardDone (s : State) (x : Nat × List Byte × Option CmdSrc) : BoardOnly s (s.boardDone x) :=
  ⟨_, State.boardDone_kept s x, fun w => Memory.wf_memWrite _ _ _ w⟩

theorem BoardOnly.foldl {α : Type} (f : State → α → State) (h : ∀ s a, BoardOnly s (f s a)) (l : List α) (s : State) :
    BoardOnly s (l.foldl f s) := by
  induction l generalizing s with
  | nil => exact BoardOnly.of_kept rfl
  | cons a r ih => exact (h s a).trans (ih (f s a))

/-- The stores that a power loss lets end change the board area alone (R479, R364). -/
theorem BoardOnly.storesEnd (s : State) : BoardOnly s s.storesEnd := by
  unfold State.storesEnd
  exact (BoardOnly.of_kept (State.foldl_kept _ (fun s x => State.storeDone_kept ..) _ _)).trans
    (BoardOnly.foldl _ (fun s x => BoardOnly.boardDone s x) _ _)

/-- A board operation whose page has been written changes the board area alone (R479, R480). -/
theorem BoardOnly.pageStored (s : State) (p : Nat) : BoardOnly s (s.pageStored p) := by
  unfold State.pageStored
  split
  · exact BoardOnly.boardDone ..
  · exact BoardOnly.of_kept rfl

/-- WEALI_PAGE_WRITE_END changes the board area alone (R479, R480). -/
theorem execWealiPageWriteEnd_board (page : BitVec 17) (bad1 bad2 : Bool) (s t : State)
    (h : execWealiPageWriteEnd page bad1 bad2 s = .next t) : BoardOnly s t := by
  refine (BoardOnly.pageStored s page.toNat).trans (BoardOnly.of_kept ?_)
  have k : Res.keeps (execWealiPageWriteEnd page bad1 bad2 s) (s.pageStored page.toNat) := by
    unfold execWealiPageWriteEnd
    simp
  exact k t h

/-- QUIESCE_END changes the board area alone (R362 to R364). -/
theorem execQuiesceEnd_board (s t : State) (h : execQuiesceEnd s = .next t) : BoardOnly s t := by
  unfold execQuiesceEnd at h
  split at h
  · cases h; exact BoardOnly.of_kept rfl
  · split at h
    · cases h; exact BoardOnly.of_kept rfl
    · refine (BoardOnly.storesEnd s).trans (BoardOnly.of_kept ?_)
      dsimp only at h
      split at h
      · cases h; simp
      · cases h; simp

/-! ### The lifecycle (R219, R432) -/

/-- What is kept apart from lifecycle and fuse carries over. -/
theorem State.withLife_kept {s t : State} (h : s.kept = t.kept) (l : Nat) (f : Bool) : (s.withLife l f).kept = (t.withLife l f).kept := by
  simp only [State.kept, Prod.mk.injEq] at h
  simp [State.kept, State.withLife, h]

/-- A transition sets the lifecycle; to DECOMMISSIONED it blows the fuse, and no transition clears it. -/
theorem State.lcTransit_kept (s : State) (t : Nat) :
    (s.lcTransit t).kept = (s.withLife t (s.keys.fuse || decide (t = 3))).kept := by
  have h := State.keysWipe_kept s
  simp only [State.kept, Prod.mk.injEq] at h
  unfold State.lcTransit
  dsimp only
  generalize hu : State.pageWrites _ 1 = u
  have base : u.kept = (s.withLife t s.keys.fuse).kept := by
    rw [← hu, State.pageWrites_kept, State.setF_kept]
    simp [State.kept, State.withLife, h]
  split
  · rename_i ht
    simp only [State.pump_kept]
    refine (State.foldl_kept _ (fun s x => State.dropDecoders_kept ..) _ _).trans ?_
    refine (State.modHost_kept _ _ ?_).trans ?_
    · intro x; exact ⟨rfl, rfl⟩
    simp only [State.kept, State.withLife, Prod.mk.injEq] at base ⊢
    simp [base, ht]
  · rename_i ht
    have e : (s.withLife t (s.keys.fuse || decide (t = 3))).kept = u.kept := by simp [base, ht]
    rw [e]
    repeat' first | simp | split

/-- Either nothing kept has changed, or a transition to a lifecycle that waited was made (R432). -/
theorem State.lcFinish_kept (s : State) :
    s.lcFinish.kept = s.kept ∨ ∃ t, s.lcFinish.kept = (s.withLife t (s.keys.fuse || decide (t = 3))).kept := by
  unfold State.lcFinish
  have h := State.lcAdvance_kept s
  have hf : s.lcAdvance.keys.fuse = s.keys.fuse := by
    simp only [State.kept, Prod.mk.injEq] at h
    exact h.2.2.2.2.2.2
  dsimp only
  split
  · split
    · rename_i t src _ _
      refine Or.inr ⟨t, ?_⟩
      rw [State.done_kept, State.lcTransit_kept, hf]
      exact State.withLife_kept h _ _
    · exact Or.inl h
  · exact Or.inl h

/-- BACKGROUND_OP_END changes the lifecycle and the fuse alone, by a transition that waited (R219, R432). -/
theorem execBackgroundOpEnd_life (path : MboxPath) (ok : Bool) (s t : State) (h : execBackgroundOpEnd path ok s = .next t) :
    t.kept = s.kept ∨ ∃ l, t.kept = (s.withLife l (s.keys.fuse || decide (l = 3))).kept := by
  have k : Res.keeps (execBackgroundOpEnd path ok s) s.lcFinish := by
    unfold execBackgroundOpEnd
    repeat' first | simp | split
  rw [k t h]
  exact State.lcFinish_kept s

end Sys2Proof.Machine
end

