-- ==== Sys2Proof/Laws/Words.lean ====
section
/-!
SUPPORT. Laws of the words and fields of BAR2: a field reads back what was set, and setting one leaves alone every field that shares
no bit with it.
-/

namespace Sys2Proof.Machine

/-! ### Bits of numbers -/

theorem testBit_bitsOf (x lsb w i : Nat) : (bitsOf x lsb w).testBit i = (decide (i < w) && x.testBit (lsb + i)) := by
  simp [bitsOf, Nat.testBit_mod_two_pow, Nat.testBit_shiftRight]

theorem bitsOf_lt (x lsb w : Nat) : bitsOf x lsb w < 2 ^ w := Nat.mod_lt _ (by positivity)

/-- The three parts of a number about a field. -/
theorem parts_of_field (x lsb w : Nat) :
    x = x % 2 ^ lsb + bitsOf x lsb w * 2 ^ lsb + x / 2 ^ (lsb + w) * 2 ^ (lsb + w) := by
  have h1 := Nat.div_add_mod x (2 ^ lsb)
  have h2 := Nat.div_add_mod (x / 2 ^ lsb) (2 ^ w)
  have h3 : x / 2 ^ (lsb + w) = x / 2 ^ lsb / 2 ^ w := by rw [pow_add, Nat.div_div_eq_div_mul]
  simp only [bitsOf, Nat.shiftRight_eq_div_pow]
  rw [h3, pow_add]
  calc x = 2 ^ lsb * (2 ^ w * (x / 2 ^ lsb / 2 ^ w) + x / 2 ^ lsb % 2 ^ w) + x % 2 ^ lsb := by rw [h2, h1]
    _ = _ := by ring

/-- A field put in place: what is below it, the field, what is above it. -/
theorem putBits_eq (x lsb w v : Nat) :
    putBits x lsb w v = x % 2 ^ lsb + v % 2 ^ w * 2 ^ lsb + x / 2 ^ (lsb + w) * 2 ^ (lsb + w) := by
  have h := parts_of_field x lsb w
  unfold putBits
  omega

/-- What a field reads after it was put in place. -/
theorem bitsOf_putBits (x lsb w v : Nat) : bitsOf (putBits x lsb w v) lsb w = v % 2 ^ w := by
  rw [putBits_eq]
  have hb : x % 2 ^ lsb < 2 ^ lsb := Nat.mod_lt _ (by positivity)
  have hd : (x % 2 ^ lsb + v % 2 ^ w * 2 ^ lsb + x / 2 ^ (lsb + w) * 2 ^ (lsb + w)) / 2 ^ lsb
      = v % 2 ^ w + x / 2 ^ (lsb + w) * 2 ^ w := by
    have e : x % 2 ^ lsb + v % 2 ^ w * 2 ^ lsb + x / 2 ^ (lsb + w) * 2 ^ (lsb + w)
        = x % 2 ^ lsb + 2 ^ lsb * (v % 2 ^ w + x / 2 ^ (lsb + w) * 2 ^ w) := by rw [pow_add]; ring
    rw [e, Nat.add_mul_div_left _ _ (by positivity), Nat.div_eq_of_lt hb, Nat.zero_add]
  simp only [bitsOf, Nat.shiftRight_eq_div_pow]
  rw [hd, Nat.add_mul_mod_self_right, Nat.mod_mod]

/-- A bit of a number with a field put in place. -/
theorem testBit_putBits (x lsb w v i : Nat) :
    (putBits x lsb w v).testBit i = if lsb ≤ i ∧ i < lsb + w then v.testBit (i - lsb) else x.testBit i := by
  rw [putBits_eq]
  have hb : x % 2 ^ lsb < 2 ^ lsb := Nat.mod_lt _ (by positivity)
  have hv : v % 2 ^ w < 2 ^ w := Nat.mod_lt _ (by positivity)
  have hlow : x % 2 ^ lsb + v % 2 ^ w * 2 ^ lsb < 2 ^ (lsb + w) := by
    rw [pow_add]
    calc x % 2 ^ lsb + v % 2 ^ w * 2 ^ lsb < 2 ^ lsb + v % 2 ^ w * 2 ^ lsb := by omega
      _ = (v % 2 ^ w + 1) * 2 ^ lsb := by ring
      _ ≤ 2 ^ w * 2 ^ lsb := Nat.mul_le_mul_right _ hv
      _ = 2 ^ lsb * 2 ^ w := Nat.mul_comm _ _
  have e : x % 2 ^ lsb + v % 2 ^ w * 2 ^ lsb + x / 2 ^ (lsb + w) * 2 ^ (lsb + w)
      = 2 ^ (lsb + w) * (x / 2 ^ (lsb + w)) + (2 ^ lsb * (v % 2 ^ w) + x % 2 ^ lsb) := by ring
  have e2 : 2 ^ lsb * (v % 2 ^ w) + x % 2 ^ lsb < 2 ^ (lsb + w) := by rw [Nat.mul_comm]; omega
  rw [e, Nat.testBit_two_pow_mul_add _ e2, Nat.testBit_two_pow_mul_add _ hb]
  split
  · split
    · simp only [Nat.testBit_mod_two_pow]
      rename_i h1 h2
      rw [if_neg (by omega)]; simp [h2]
    · simp only [Nat.testBit_mod_two_pow]
      rename_i h1 h2
      rw [if_pos (by omega)]
      simp; omega
  · rw [if_neg (by omega), Nat.testBit_div_two_pow]
    congr 1
    omega

/-- Putting a field in place leaves every field beside it alone. -/
theorem bitsOf_putBits_of_disjoint (x lsb w v lsb' w' : Nat) (h : lsb' + w' ≤ lsb ∨ lsb + w ≤ lsb') :
    bitsOf (putBits x lsb w v) lsb' w' = bitsOf x lsb' w' := by
  apply Nat.eq_of_testBit_eq
  intro i
  rw [testBit_bitsOf, testBit_bitsOf, testBit_putBits]
  by_cases hi : i < w'
  · rw [if_neg (by omega)]
  · simp [hi]

/-- A field of the low bits of a number. -/
theorem bitsOf_mod_two_pow (x n lsb w : Nat) (h : lsb + w ≤ n) : bitsOf (x % 2 ^ n) lsb w = bitsOf x lsb w := by
  apply Nat.eq_of_testBit_eq
  intro i
  rw [testBit_bitsOf, testBit_bitsOf, Nat.testBit_mod_two_pow]
  by_cases hi : i < w
  · simp [hi, show lsb + i < n by omega]
  · simp [hi]

/-! ### Words -/

@[simp] theorem State.word_setWord_self (s : State) (off v : Nat) : (s.setWord off v).word off = v % 2 ^ 32 :=
  mget_mset_self _ _ _ _

theorem State.word_setWord_of_ne (s : State) {off off' : Nat} (v : Nat) (h : off' ≠ off) : (s.setWord off v).word off' = s.word off' :=
  mget_mset_of_ne' _ _ _ _ h

/-! ### Fields -/

/-- Words beyond those set read as before. -/
theorem State.word_setWide_of_out (s : State) (off v n : Nat) (o : Nat) (h : o < off ∨ off + 4 * n ≤ o) :
    (s.setWide off v n).word o = s.word o := by
  induction n generalizing s off v with
  | zero => rfl
  | succ n ih => rw [State.setWide, ih _ _ _ (by omega), State.word_setWord_of_ne _ _ (by omega)]

/-- Words set read back. -/
theorem State.wide_setWide_self (s : State) (off v n : Nat) : (s.setWide off v n).wide off n = v % 2 ^ (32 * n) := by
  induction n generalizing s off v with
  | zero => simp [State.wide, Nat.mod_one]
  | succ n ih =>
    rw [State.wide, State.setWide, ih, State.word_setWide_of_out _ _ _ _ _ (by omega), State.word_setWord_self, Nat.mod_mod,
      show 32 * (n + 1) = 32 + 32 * n by ring, pow_add, Nat.mod_mul]

/-- Words that none of those set is read as before. -/
theorem State.wide_setWide_of_out (s : State) (off v n o m : Nat) (h : o + 4 * m ≤ off ∨ off + 4 * n ≤ o) :
    (s.setWide off v n).wide o m = s.wide o m := by
  induction m generalizing o with
  | zero => rfl
  | succ m ih => rw [State.wide, State.wide, ih _ (by omega), State.word_setWide_of_out _ _ _ _ _ (by omega)]

/-- A field reads back what was set. -/
theorem State.getF_setF_self (s : State) (f : Field) (v : Nat) : (s.setF f v).getF f = v % 2 ^ f.width := by
  unfold State.getF State.setF
  rw [State.wide_setWide_self, bitsOf_mod_two_pow _ _ _ _ (by unfold Field.words; omega), bitsOf_putBits]

/-- Setting a field leaves a field in other words alone. -/
theorem State.getF_setF_of_out (s : State) (f g : Field) (v : Nat) (h : g.off + 4 * g.words ≤ f.off ∨ f.off + 4 * f.words ≤ g.off) :
    (s.setF f v).getF g = s.getF g := by
  unfold State.getF State.setF
  rw [State.wide_setWide_of_out _ _ _ _ _ _ h]

/-- Setting a field leaves a field beside it in the same one word alone. -/
theorem State.getF_setF_of_disjoint (s : State) (f g : Field) (v : Nat) (ho : g.off = f.off) (hw : g.words = f.words)
    (h : g.lsb + g.width ≤ f.lsb ∨ f.lsb + f.width ≤ g.lsb) : (s.setF f v).getF g = s.getF g := by
  unfold State.getF State.setF
  rw [ho, hw, State.wide_setWide_self, bitsOf_mod_two_pow _ _ _ _ (by rw [← hw]; unfold Field.words; omega),
    bitsOf_putBits_of_disjoint _ _ _ _ _ _ h]

/-- A one-bit field raised reads 1. -/
theorem State.flag_raise_self (s : State) (f : Field) (h : f.width = 1) : (s.raise f).flag f = true := by
  simp [State.flag, State.raise, State.getF_setF_self, h]

/-- A one-bit field set from a Bool reads it. -/
theorem State.flag_setFlag_self (s : State) (f : Field) (b : Bool) (h : f.width = 1) : (s.setFlag f b).flag f = b := by
  cases b <;> simp [State.flag, State.setFlag, State.getF_setF_self, h, b2n]

end Sys2Proof.Machine
end

