-- ==== Sys2Proof/Laws/Paths.lean ====
section
/-!
SUPPORT. What the shared operations of commands do: answering a command path, coming to a Kelric command's action, and writing a
register word.
-/

namespace Sys2Proof.Machine

/-- Inserting an entry adds nothing to the entries of other keys. -/
theorem filter_mins {α : Type} (k : Nat) (v : α) (m : List (Nat × α)) :
    (mins k v (m.filter (fun x => x.1 != k))).filter (fun x => x.1 != k) = m.filter (fun x => x.1 != k) := by
  induction m with
  | nil => simp [mins]
  | cons a r ih =>
    obtain ⟨j, w⟩ := a
    by_cases h : j = k
    · simp [h, ih]
    · simp only [List.filter_cons, bne_iff_ne, ne_eq, h, not_false_eq_true, if_true, mins]
      split
      · simp [h]
      · simp [h]; simpa using ih

/-- Of two settings of one key the later stands. -/
theorem mset_mset {α : Type} [DecidableEq α] (d : α) (m : List (Nat × α)) (k : Nat) (v w : α) :
    mset d (mset d m k v) k w = mset d m k w := by
  have h : (mset d m k v).filter (fun x => x.1 != k) = m.filter (fun x => x.1 != k) := by
    unfold mset; simp only; split
    · simp
    · exact filter_mins ..
  simp only [mset] at h ⊢
  simp only [h]

/-- What a ready path is. -/
theorem pathReady_unbusy {s : State} {path : MboxPath} {opc : Nat} (h : s.pathReady path opc = true) :
    s.host.mailbox = true ∧ s.pathBusy (pathNo path) opc = false ∧ s.inDrydown = false := by
  simp only [State.pathReady, Bool.and_eq_true, Bool.not_eq_true'] at h
  exact ⟨h.1.1, h.1.2, h.2⟩

/-- Marking a path busy changes no phase of a drydown. -/
theorem kMark_inDrydown (s : State) (path : MboxPath) (opc : Nat) : (s.kMark (.path path) opc).inDrydown = s.inDrydown := rfl

/-- On a ready path a standard command runs. -/
theorem stdRun_ready {s : State} {path : MboxPath} {opc : Nat} (h : s.pathReady path opc = true) (f : Nat → State → State) :
    s.stdRun path opc f = f (pathNo path) (s.kMark (.path path) opc) := by
  obtain ⟨h1, h2, h3⟩ := pathReady_unbusy h
  simp only [State.stdRun, h1, h2, kMark_inDrydown, h3]
  simp

/-- The end of a command on a path is its answer and nothing else, where the command itself changed nothing. -/
theorem endPath_answer (s u : State) (path : MboxPath) (opc : Nat) (rc : Rc) (pl : List Byte)
    (hu : u = { s with host := { s.host with mbox := u.host.mbox } })
    (hm : u.host.mbox = (s.kMark (.path path) opc).host.mbox) :
    s.MboxAnswer (u.endPath (pathNo path) rc pl) path opc rc pl := by
  have hb : (mget {} u.host.mbox (pathNo path)).busy = true ∧ (mget {} u.host.mbox (pathNo path)).opc = opc := by
    rw [hm]; simp only [State.kMark, mget_mset_self, and_self]
  have hs : mset {} u.host.mbox (pathNo path) {} = mset {} s.host.mbox (pathNo path) {} := by
    rw [hm]; simp only [State.kMark]; exact mset_mset ..
  generalize hq : u.host.mbox = q at *
  subst hu
  unfold State.MboxAnswer State.endPath
  simp only [hb.1, hb.2, Bool.not_true, Bool.false_eq_true, if_false, State.emit]
  by_cases hp : 64 ≤ pathNo path
  · have : ¬ pathNo path < 64 := by omega
    simp [hp, this, hs]; exact ⟨_, rfl⟩
  · have h2 : pathNo path < 64 := by omega
    simp only [hp, if_false, State.histogram, State.modTally, h2, true_and]
    by_cases hk : mget false s.host.msixMasked (pathNo path) = true
    · simp [hk, hs]
    · simp [hk, hs]

/-- A Kelric command that comes to its action takes it. -/
theorem kRun_ready {s : State} {opc : Nat} {c d : KCmd} {check : KCmd → State → Nat} (h : s.kReady opc c check d)
    (act : KCmd → CmdSrc → State → State) (hold : KCmd → State → State) :
    s.kRun opc c check act hold = act d (s.kBegun opc d).1 (s.kBegun opc d).2 := by
  obtain ⟨h1, h2, h3, h4, h5, h6⟩ := h
  unfold State.kRun State.kBegun
  simp only [h1]
  cases hs : d.src with
  | path p =>
    rw [hs] at h3 h4
    simp only [h2 p hs, Bool.false_eq_true, if_false, h3, if_true, h4, ne_eq, not_true_eq_false, h5]
    cases hl : (s.kMark (.path p) opc).kLong opc d with
    | true =>
      have := h6 p hs (by rw [hs]; exact hl)
      rw [hs] at this
      simp only [if_true, this, Bool.false_eq_true, if_false]
    | false => simp only [Bool.false_eq_true, if_false]
  | queue q cid =>
    rw [hs] at h3 h4
    simp only [Bool.false_eq_true, if_false, h3, if_true, h4, ne_eq, not_true_eq_false, h5]
  | bg p =>
    rw [hs] at h3 h4
    simp only [Bool.false_eq_true, if_false, h3, if_true, h4, ne_eq, not_true_eq_false, h5]
  | timed t =>
    rw [hs] at h3 h4
    simp only [Bool.false_eq_true, if_false, h3, if_true, h4, ne_eq, not_true_eq_false, h5]

/-- A bit of a number whose masked bits were taken out. -/
theorem testBit_sub_and (x m i : Nat) : (x - (x &&& m)).testBit i = (x.testBit i && !m.testBit i) := by
  have h1 : ∀ x m : Nat, (x &&& m) % 2 ≤ x % 2 ∧ ((x &&& m) % 2 = 1 ↔ x % 2 = 1 ∧ m % 2 = 1) := by
    intro x m
    have h := Nat.testBit_and x m 0
    simp only [Nat.testBit_zero] at h
    have hd : ((x &&& m) % 2 = 1 ↔ x % 2 = 1 ∧ m % 2 = 1) := by
      constructor
      · intro e; rw [e] at h; simpa using h.symm
      · intro e; rw [e.1, e.2] at h; simpa using h
    exact ⟨by omega, hd⟩
  induction i generalizing x m with
  | zero =>
    have := h1 x m
    have h3 : x &&& m ≤ x := Nat.and_le_left
    simp only [Nat.testBit_zero]
    rcases this with ⟨a, b⟩
    by_cases hx : x % 2 = 1 <;> by_cases hm : m % 2 = 1
    · have : (x &&& m) % 2 = 1 := b.2 ⟨hx, hm⟩
      have : (x - (x &&& m)) % 2 = 0 := by omega
      simp [hx, hm, this]
    · have : ¬ (x &&& m) % 2 = 1 := fun e => hm (b.1 e).2
      have : (x - (x &&& m)) % 2 = 1 := by omega
      simp [hx, hm, this]
    · have : ¬ (x &&& m) % 2 = 1 := fun e => hx (b.1 e).1
      have : ¬ (x - (x &&& m)) % 2 = 1 := by omega
      simp [hx, this]
    · have : ¬ (x &&& m) % 2 = 1 := fun e => hx (b.1 e).1
      have : ¬ (x - (x &&& m)) % 2 = 1 := by omega
      simp [hx, this]
  | succ n ih =>
    simp only [Nat.testBit_succ]
    rw [← ih, ← Nat.and_div_two]
    congr 1
    have := h1 x m
    have h3 : x &&& m ≤ x := Nat.and_le_left
    omega

/-- A bit of a number whose masked bits were replaced. -/
theorem testBit_setMask (x m v i : Nat) : (setMask x m v).testBit i = if m.testBit i then v.testBit i else x.testBit i := by
  unfold setMask
  rw [Nat.testBit_or, testBit_sub_and, Nat.testBit_and]
  cases m.testBit i <;> simp

/-- The masked bits of a number whose masked bits were replaced. -/
theorem setMask_and (x m v : Nat) (h : v &&& m = v) : setMask x m v &&& m = v := by
  apply Nat.eq_of_testBit_eq
  intro i
  rw [Nat.testBit_and, testBit_setMask, ← h, Nat.testBit_and]
  cases m.testBit i <;> simp

/-- A bit by its own name. -/
theorem bitAt_eq (x i : Nat) : bitAt x i = x.testBit i := by
  unfold bitAt; rw [Nat.testBit_eq_decide_div_mod_eq]

/-- A bit of a word whose masked bits were replaced. -/
theorem bitAt_setMask (x m v i : Nat) (hi : i < 32) (hm : m.testBit i = true) : bitAt (setMask x m v &&& 0xFFFFFFFF) i = v.testBit i := by
  rw [bitAt_eq, Nat.testBit_and, testBit_setMask, hm]
  have : Nat.testBit 0xFFFFFFFF i = true := by
    rw [show (0xFFFFFFFF : Nat) = 2 ^ 32 - 1 from rfl, Nat.testBit_two_pow_sub_one]; simpa using hi
  rw [this]; simp

/-- A whole word of a served block, written by a requester that may, with its reserved bits unchanged, is taken. -/
theorem write4_word (s : State) (req : Requester) (off w : Nat) (h1 : off % 4 = 0) (h2 : off < 0x100000) (h3 : s.served off = true)
    (h4 : s.mayWrite req off = true) (h5 : (regDef off).isNone = false) (h6 : s.rsvClash off w = false) :
    s.write4 req off w = some (s.wordTake req off w 0xFFFFFFFF) := by
  unfold State.write4
  have e1 : decide (0x2000000 ≤ off) = false := decide_eq_false (by omega)
  have e2 : decide (0x100000 ≤ off) = false := decide_eq_false (by omega)
  have e3 : ¬ 0x2000000 ≤ off := by omega
  have e4 : ¬ 0x100000 ≤ off := by omega
  simp only [e1, e2, h1, h3, h4, h5, h6, ne_eq, not_true_eq_false, if_false, Bool.false_eq_true, Bool.not_false, Bool.not_true, Bool.and_false, Bool.or_self]

end Sys2Proof.Machine
end

