-- ==== Sys2Proof/Laws/State.lean ====
section
/-!
SUPPORT. One law for each field of State and each named update: what the update leaves in the field. All hold by unfolding, so that no
later proof unfolds a record update.
-/

namespace Sys2Proof.Machine

/-! ### `State.modHost` -/

@[simp] theorem State.modHost_pending (s : State) (f : HostSt → HostSt) : (s.modHost f).pending = s.pending := rfl
@[simp] theorem State.modHost_out (s : State) (f : HostSt → HostSt) : (s.modHost f).out = s.out := rfl
@[simp] theorem State.modHost_free (s : State) (f : HostSt → HostSt) : (s.modHost f).free = s.free := rfl
@[simp] theorem State.modHost_ft (s : State) (f : HostSt → HostSt) : (s.modHost f).ft = s.ft := rfl
@[simp] theorem State.modHost_frac (s : State) (f : HostSt → HostSt) : (s.modHost f).frac = s.frac := rfl
@[simp] theorem State.modHost_words (s : State) (f : HostSt → HostSt) : (s.modHost f).words = s.words := rfl
@[simp] theorem State.modHost_rsv (s : State) (f : HostSt → HostSt) : (s.modHost f).rsv = s.rsv := rfl
@[simp] theorem State.modHost_tally (s : State) (f : HostSt → HostSt) : (s.modHost f).tally = s.tally := rfl
@[simp] theorem State.modHost_host (s : State) (f : HostSt → HostSt) : (s.modHost f).host = f s.host := rfl
@[simp] theorem State.modHost_home (s : State) (f : HostSt → HostSt) : (s.modHost f).home = s.home := rfl
@[simp] theorem State.modHost_cache (s : State) (f : HostSt → HostSt) : (s.modHost f).cache = s.cache := rfl
@[simp] theorem State.modHost_reads (s : State) (f : HostSt → HostSt) : (s.modHost f).reads = s.reads := rfl
@[simp] theorem State.modHost_progs (s : State) (f : HostSt → HostSt) : (s.modHost f).progs = s.progs := rfl
@[simp] theorem State.modHost_map (s : State) (f : HostSt → HostSt) : (s.modHost f).map = s.map := rfl
@[simp] theorem State.modHost_patrol (s : State) (f : HostSt → HostSt) : (s.modHost f).patrol = s.patrol := rfl
@[simp] theorem State.modHost_keys (s : State) (f : HostSt → HostSt) : (s.modHost f).keys = s.keys := rfl
@[simp] theorem State.modHost_fabric (s : State) (f : HostSt → HostSt) : (s.modHost f).fabric = s.fabric := rfl
@[simp] theorem State.modHost_power (s : State) (f : HostSt → HostSt) : (s.modHost f).power = s.power := rfl
@[simp] theorem State.modHost_avail (s : State) (f : HostSt → HostSt) : (s.modHost f).avail = s.avail := rfl
@[simp] theorem State.modHost_cask (s : State) (f : HostSt → HostSt) : (s.modHost f).cask = s.cask := rfl
@[simp] theorem State.modHost_time (s : State) (f : HostSt → HostSt) : (s.modHost f).time = s.time := rfl
@[simp] theorem State.modHost_kelric (s : State) (f : HostSt → HostSt) : (s.modHost f).kelric = s.kelric := rfl
@[simp] theorem State.modHost_regs (s : State) (f : HostSt → HostSt) : (s.modHost f).regs = s.regs := rfl
@[simp] theorem State.modHost_therm (s : State) (f : HostSt → HostSt) : (s.modHost f).therm = s.therm := rfl
@[simp] theorem State.modHost_eng (s : State) (f : HostSt → HostSt) : (s.modHost f).eng = s.eng := rfl
@[simp] theorem State.modHost_maint (s : State) (f : HostSt → HostSt) : (s.modHost f).maint = s.maint := rfl
@[simp] theorem State.modHost_weali (s : State) (f : HostSt → HostSt) : (s.modHost f).weali = s.weali := rfl
@[simp] theorem State.modHost_jtag (s : State) (f : HostSt → HostSt) : (s.modHost f).jtag = s.jtag := rfl

/-! ### `State.modCache` -/

@[simp] theorem State.modCache_pending (s : State) (f : Cache → Cache) : (s.modCache f).pending = s.pending := rfl
@[simp] theorem State.modCache_out (s : State) (f : Cache → Cache) : (s.modCache f).out = s.out := rfl
@[simp] theorem State.modCache_free (s : State) (f : Cache → Cache) : (s.modCache f).free = s.free := rfl
@[simp] theorem State.modCache_ft (s : State) (f : Cache → Cache) : (s.modCache f).ft = s.ft := rfl
@[simp] theorem State.modCache_frac (s : State) (f : Cache → Cache) : (s.modCache f).frac = s.frac := rfl
@[simp] theorem State.modCache_words (s : State) (f : Cache → Cache) : (s.modCache f).words = s.words := rfl
@[simp] theorem State.modCache_rsv (s : State) (f : Cache → Cache) : (s.modCache f).rsv = s.rsv := rfl
@[simp] theorem State.modCache_tally (s : State) (f : Cache → Cache) : (s.modCache f).tally = s.tally := rfl
@[simp] theorem State.modCache_host (s : State) (f : Cache → Cache) : (s.modCache f).host = s.host := rfl
@[simp] theorem State.modCache_home (s : State) (f : Cache → Cache) : (s.modCache f).home = s.home := rfl
@[simp] theorem State.modCache_cache (s : State) (f : Cache → Cache) : (s.modCache f).cache = f s.cache := rfl
@[simp] theorem State.modCache_reads (s : State) (f : Cache → Cache) : (s.modCache f).reads = s.reads := rfl
@[simp] theorem State.modCache_progs (s : State) (f : Cache → Cache) : (s.modCache f).progs = s.progs := rfl
@[simp] theorem State.modCache_map (s : State) (f : Cache → Cache) : (s.modCache f).map = s.map := rfl
@[simp] theorem State.modCache_patrol (s : State) (f : Cache → Cache) : (s.modCache f).patrol = s.patrol := rfl
@[simp] theorem State.modCache_keys (s : State) (f : Cache → Cache) : (s.modCache f).keys = s.keys := rfl
@[simp] theorem State.modCache_fabric (s : State) (f : Cache → Cache) : (s.modCache f).fabric = s.fabric := rfl
@[simp] theorem State.modCache_power (s : State) (f : Cache → Cache) : (s.modCache f).power = s.power := rfl
@[simp] theorem State.modCache_avail (s : State) (f : Cache → Cache) : (s.modCache f).avail = s.avail := rfl
@[simp] theorem State.modCache_cask (s : State) (f : Cache → Cache) : (s.modCache f).cask = s.cask := rfl
@[simp] theorem State.modCache_time (s : State) (f : Cache → Cache) : (s.modCache f).time = s.time := rfl
@[simp] theorem State.modCache_kelric (s : State) (f : Cache → Cache) : (s.modCache f).kelric = s.kelric := rfl
@[simp] theorem State.modCache_regs (s : State) (f : Cache → Cache) : (s.modCache f).regs = s.regs := rfl
@[simp] theorem State.modCache_therm (s : State) (f : Cache → Cache) : (s.modCache f).therm = s.therm := rfl
@[simp] theorem State.modCache_eng (s : State) (f : Cache → Cache) : (s.modCache f).eng = s.eng := rfl
@[simp] theorem State.modCache_maint (s : State) (f : Cache → Cache) : (s.modCache f).maint = s.maint := rfl
@[simp] theorem State.modCache_weali (s : State) (f : Cache → Cache) : (s.modCache f).weali = s.weali := rfl
@[simp] theorem State.modCache_jtag (s : State) (f : Cache → Cache) : (s.modCache f).jtag = s.jtag := rfl

/-! ### `State.modMap` -/

@[simp] theorem State.modMap_pending (s : State) (f : MapSt → MapSt) : (s.modMap f).pending = s.pending := rfl
@[simp] theorem State.modMap_out (s : State) (f : MapSt → MapSt) : (s.modMap f).out = s.out := rfl
@[simp] theorem State.modMap_free (s : State) (f : MapSt → MapSt) : (s.modMap f).free = s.free := rfl
@[simp] theorem State.modMap_ft (s : State) (f : MapSt → MapSt) : (s.modMap f).ft = s.ft := rfl
@[simp] theorem State.modMap_frac (s : State) (f : MapSt → MapSt) : (s.modMap f).frac = s.frac := rfl
@[simp] theorem State.modMap_words (s : State) (f : MapSt → MapSt) : (s.modMap f).words = s.words := rfl
@[simp] theorem State.modMap_rsv (s : State) (f : MapSt → MapSt) : (s.modMap f).rsv = s.rsv := rfl
@[simp] theorem State.modMap_tally (s : State) (f : MapSt → MapSt) : (s.modMap f).tally = s.tally := rfl
@[simp] theorem State.modMap_host (s : State) (f : MapSt → MapSt) : (s.modMap f).host = s.host := rfl
@[simp] theorem State.modMap_home (s : State) (f : MapSt → MapSt) : (s.modMap f).home = s.home := rfl
@[simp] theorem State.modMap_cache (s : State) (f : MapSt → MapSt) : (s.modMap f).cache = s.cache := rfl
@[simp] theorem State.modMap_reads (s : State) (f : MapSt → MapSt) : (s.modMap f).reads = s.reads := rfl
@[simp] theorem State.modMap_progs (s : State) (f : MapSt → MapSt) : (s.modMap f).progs = s.progs := rfl
@[simp] theorem State.modMap_map (s : State) (f : MapSt → MapSt) : (s.modMap f).map = f s.map := rfl
@[simp] theorem State.modMap_patrol (s : State) (f : MapSt → MapSt) : (s.modMap f).patrol = s.patrol := rfl
@[simp] theorem State.modMap_keys (s : State) (f : MapSt → MapSt) : (s.modMap f).keys = s.keys := rfl
@[simp] theorem State.modMap_fabric (s : State) (f : MapSt → MapSt) : (s.modMap f).fabric = s.fabric := rfl
@[simp] theorem State.modMap_power (s : State) (f : MapSt → MapSt) : (s.modMap f).power = s.power := rfl
@[simp] theorem State.modMap_avail (s : State) (f : MapSt → MapSt) : (s.modMap f).avail = s.avail := rfl
@[simp] theorem State.modMap_cask (s : State) (f : MapSt → MapSt) : (s.modMap f).cask = s.cask := rfl
@[simp] theorem State.modMap_time (s : State) (f : MapSt → MapSt) : (s.modMap f).time = s.time := rfl
@[simp] theorem State.modMap_kelric (s : State) (f : MapSt → MapSt) : (s.modMap f).kelric = s.kelric := rfl
@[simp] theorem State.modMap_regs (s : State) (f : MapSt → MapSt) : (s.modMap f).regs = s.regs := rfl
@[simp] theorem State.modMap_therm (s : State) (f : MapSt → MapSt) : (s.modMap f).therm = s.therm := rfl
@[simp] theorem State.modMap_eng (s : State) (f : MapSt → MapSt) : (s.modMap f).eng = s.eng := rfl
@[simp] theorem State.modMap_maint (s : State) (f : MapSt → MapSt) : (s.modMap f).maint = s.maint := rfl
@[simp] theorem State.modMap_weali (s : State) (f : MapSt → MapSt) : (s.modMap f).weali = s.weali := rfl
@[simp] theorem State.modMap_jtag (s : State) (f : MapSt → MapSt) : (s.modMap f).jtag = s.jtag := rfl

/-! ### `State.modPatrol` -/

@[simp] theorem State.modPatrol_pending (s : State) (f : Patrol → Patrol) : (s.modPatrol f).pending = s.pending := rfl
@[simp] theorem State.modPatrol_out (s : State) (f : Patrol → Patrol) : (s.modPatrol f).out = s.out := rfl
@[simp] theorem State.modPatrol_free (s : State) (f : Patrol → Patrol) : (s.modPatrol f).free = s.free := rfl
@[simp] theorem State.modPatrol_ft (s : State) (f : Patrol → Patrol) : (s.modPatrol f).ft = s.ft := rfl
@[simp] theorem State.modPatrol_frac (s : State) (f : Patrol → Patrol) : (s.modPatrol f).frac = s.frac := rfl
@[simp] theorem State.modPatrol_words (s : State) (f : Patrol → Patrol) : (s.modPatrol f).words = s.words := rfl
@[simp] theorem State.modPatrol_rsv (s : State) (f : Patrol → Patrol) : (s.modPatrol f).rsv = s.rsv := rfl
@[simp] theorem State.modPatrol_tally (s : State) (f : Patrol → Patrol) : (s.modPatrol f).tally = s.tally := rfl
@[simp] theorem State.modPatrol_host (s : State) (f : Patrol → Patrol) : (s.modPatrol f).host = s.host := rfl
@[simp] theorem State.modPatrol_home (s : State) (f : Patrol → Patrol) : (s.modPatrol f).home = s.home := rfl
@[simp] theorem State.modPatrol_cache (s : State) (f : Patrol → Patrol) : (s.modPatrol f).cache = s.cache := rfl
@[simp] theorem State.modPatrol_reads (s : State) (f : Patrol → Patrol) : (s.modPatrol f).reads = s.reads := rfl
@[simp] theorem State.modPatrol_progs (s : State) (f : Patrol → Patrol) : (s.modPatrol f).progs = s.progs := rfl
@[simp] theorem State.modPatrol_map (s : State) (f : Patrol → Patrol) : (s.modPatrol f).map = s.map := rfl
@[simp] theorem State.modPatrol_patrol (s : State) (f : Patrol → Patrol) : (s.modPatrol f).patrol = f s.patrol := rfl
@[simp] theorem State.modPatrol_keys (s : State) (f : Patrol → Patrol) : (s.modPatrol f).keys = s.keys := rfl
@[simp] theorem State.modPatrol_fabric (s : State) (f : Patrol → Patrol) : (s.modPatrol f).fabric = s.fabric := rfl
@[simp] theorem State.modPatrol_power (s : State) (f : Patrol → Patrol) : (s.modPatrol f).power = s.power := rfl
@[simp] theorem State.modPatrol_avail (s : State) (f : Patrol → Patrol) : (s.modPatrol f).avail = s.avail := rfl
@[simp] theorem State.modPatrol_cask (s : State) (f : Patrol → Patrol) : (s.modPatrol f).cask = s.cask := rfl
@[simp] theorem State.modPatrol_time (s : State) (f : Patrol → Patrol) : (s.modPatrol f).time = s.time := rfl
@[simp] theorem State.modPatrol_kelric (s : State) (f : Patrol → Patrol) : (s.modPatrol f).kelric = s.kelric := rfl
@[simp] theorem State.modPatrol_regs (s : State) (f : Patrol → Patrol) : (s.modPatrol f).regs = s.regs := rfl
@[simp] theorem State.modPatrol_therm (s : State) (f : Patrol → Patrol) : (s.modPatrol f).therm = s.therm := rfl
@[simp] theorem State.modPatrol_eng (s : State) (f : Patrol → Patrol) : (s.modPatrol f).eng = s.eng := rfl
@[simp] theorem State.modPatrol_maint (s : State) (f : Patrol → Patrol) : (s.modPatrol f).maint = s.maint := rfl
@[simp] theorem State.modPatrol_weali (s : State) (f : Patrol → Patrol) : (s.modPatrol f).weali = s.weali := rfl
@[simp] theorem State.modPatrol_jtag (s : State) (f : Patrol → Patrol) : (s.modPatrol f).jtag = s.jtag := rfl

/-! ### `State.modReads` -/

@[simp] theorem State.modReads_pending (s : State) (f : Reads → Reads) : (s.modReads f).pending = s.pending := rfl
@[simp] theorem State.modReads_out (s : State) (f : Reads → Reads) : (s.modReads f).out = s.out := rfl
@[simp] theorem State.modReads_free (s : State) (f : Reads → Reads) : (s.modReads f).free = s.free := rfl
@[simp] theorem State.modReads_ft (s : State) (f : Reads → Reads) : (s.modReads f).ft = s.ft := rfl
@[simp] theorem State.modReads_frac (s : State) (f : Reads → Reads) : (s.modReads f).frac = s.frac := rfl
@[simp] theorem State.modReads_words (s : State) (f : Reads → Reads) : (s.modReads f).words = s.words := rfl
@[simp] theorem State.modReads_rsv (s : State) (f : Reads → Reads) : (s.modReads f).rsv = s.rsv := rfl
@[simp] theorem State.modReads_tally (s : State) (f : Reads → Reads) : (s.modReads f).tally = s.tally := rfl
@[simp] theorem State.modReads_host (s : State) (f : Reads → Reads) : (s.modReads f).host = s.host := rfl
@[simp] theorem State.modReads_home (s : State) (f : Reads → Reads) : (s.modReads f).home = s.home := rfl
@[simp] theorem State.modReads_cache (s : State) (f : Reads → Reads) : (s.modReads f).cache = s.cache := rfl
@[simp] theorem State.modReads_reads (s : State) (f : Reads → Reads) : (s.modReads f).reads = f s.reads := rfl
@[simp] theorem State.modReads_progs (s : State) (f : Reads → Reads) : (s.modReads f).progs = s.progs := rfl
@[simp] theorem State.modReads_map (s : State) (f : Reads → Reads) : (s.modReads f).map = s.map := rfl
@[simp] theorem State.modReads_patrol (s : State) (f : Reads → Reads) : (s.modReads f).patrol = s.patrol := rfl
@[simp] theorem State.modReads_keys (s : State) (f : Reads → Reads) : (s.modReads f).keys = s.keys := rfl
@[simp] theorem State.modReads_fabric (s : State) (f : Reads → Reads) : (s.modReads f).fabric = s.fabric := rfl
@[simp] theorem State.modReads_power (s : State) (f : Reads → Reads) : (s.modReads f).power = s.power := rfl
@[simp] theorem State.modReads_avail (s : State) (f : Reads → Reads) : (s.modReads f).avail = s.avail := rfl
@[simp] theorem State.modReads_cask (s : State) (f : Reads → Reads) : (s.modReads f).cask = s.cask := rfl
@[simp] theorem State.modReads_time (s : State) (f : Reads → Reads) : (s.modReads f).time = s.time := rfl
@[simp] theorem State.modReads_kelric (s : State) (f : Reads → Reads) : (s.modReads f).kelric = s.kelric := rfl
@[simp] theorem State.modReads_regs (s : State) (f : Reads → Reads) : (s.modReads f).regs = s.regs := rfl
@[simp] theorem State.modReads_therm (s : State) (f : Reads → Reads) : (s.modReads f).therm = s.therm := rfl
@[simp] theorem State.modReads_eng (s : State) (f : Reads → Reads) : (s.modReads f).eng = s.eng := rfl
@[simp] theorem State.modReads_maint (s : State) (f : Reads → Reads) : (s.modReads f).maint = s.maint := rfl
@[simp] theorem State.modReads_weali (s : State) (f : Reads → Reads) : (s.modReads f).weali = s.weali := rfl
@[simp] theorem State.modReads_jtag (s : State) (f : Reads → Reads) : (s.modReads f).jtag = s.jtag := rfl

/-! ### `State.modFabric` -/

@[simp] theorem State.modFabric_pending (s : State) (f : FabricSt → FabricSt) : (s.modFabric f).pending = s.pending := rfl
@[simp] theorem State.modFabric_out (s : State) (f : FabricSt → FabricSt) : (s.modFabric f).out = s.out := rfl
@[simp] theorem State.modFabric_free (s : State) (f : FabricSt → FabricSt) : (s.modFabric f).free = s.free := rfl
@[simp] theorem State.modFabric_ft (s : State) (f : FabricSt → FabricSt) : (s.modFabric f).ft = s.ft := rfl
@[simp] theorem State.modFabric_frac (s : State) (f : FabricSt → FabricSt) : (s.modFabric f).frac = s.frac := rfl
@[simp] theorem State.modFabric_words (s : State) (f : FabricSt → FabricSt) : (s.modFabric f).words = s.words := rfl
@[simp] theorem State.modFabric_rsv (s : State) (f : FabricSt → FabricSt) : (s.modFabric f).rsv = s.rsv := rfl
@[simp] theorem State.modFabric_tally (s : State) (f : FabricSt → FabricSt) : (s.modFabric f).tally = s.tally := rfl
@[simp] theorem State.modFabric_host (s : State) (f : FabricSt → FabricSt) : (s.modFabric f).host = s.host := rfl
@[simp] theorem State.modFabric_home (s : State) (f : FabricSt → FabricSt) : (s.modFabric f).home = s.home := rfl
@[simp] theorem State.modFabric_cache (s : State) (f : FabricSt → FabricSt) : (s.modFabric f).cache = s.cache := rfl
@[simp] theorem State.modFabric_reads (s : State) (f : FabricSt → FabricSt) : (s.modFabric f).reads = s.reads := rfl
@[simp] theorem State.modFabric_progs (s : State) (f : FabricSt → FabricSt) : (s.modFabric f).progs = s.progs := rfl
@[simp] theorem State.modFabric_map (s : State) (f : FabricSt → FabricSt) : (s.modFabric f).map = s.map := rfl
@[simp] theorem State.modFabric_patrol (s : State) (f : FabricSt → FabricSt) : (s.modFabric f).patrol = s.patrol := rfl
@[simp] theorem State.modFabric_keys (s : State) (f : FabricSt → FabricSt) : (s.modFabric f).keys = s.keys := rfl
@[simp] theorem State.modFabric_fabric (s : State) (f : FabricSt → FabricSt) : (s.modFabric f).fabric = f s.fabric := rfl
@[simp] theorem State.modFabric_power (s : State) (f : FabricSt → FabricSt) : (s.modFabric f).power = s.power := rfl
@[simp] theorem State.modFabric_avail (s : State) (f : FabricSt → FabricSt) : (s.modFabric f).avail = s.avail := rfl
@[simp] theorem State.modFabric_cask (s : State) (f : FabricSt → FabricSt) : (s.modFabric f).cask = s.cask := rfl
@[simp] theorem State.modFabric_time (s : State) (f : FabricSt → FabricSt) : (s.modFabric f).time = s.time := rfl
@[simp] theorem State.modFabric_kelric (s : State) (f : FabricSt → FabricSt) : (s.modFabric f).kelric = s.kelric := rfl
@[simp] theorem State.modFabric_regs (s : State) (f : FabricSt → FabricSt) : (s.modFabric f).regs = s.regs := rfl
@[simp] theorem State.modFabric_therm (s : State) (f : FabricSt → FabricSt) : (s.modFabric f).therm = s.therm := rfl
@[simp] theorem State.modFabric_eng (s : State) (f : FabricSt → FabricSt) : (s.modFabric f).eng = s.eng := rfl
@[simp] theorem State.modFabric_maint (s : State) (f : FabricSt → FabricSt) : (s.modFabric f).maint = s.maint := rfl
@[simp] theorem State.modFabric_weali (s : State) (f : FabricSt → FabricSt) : (s.modFabric f).weali = s.weali := rfl
@[simp] theorem State.modFabric_jtag (s : State) (f : FabricSt → FabricSt) : (s.modFabric f).jtag = s.jtag := rfl

/-! ### `State.modTime` -/

@[simp] theorem State.modTime_pending (s : State) (f : TimeSt → TimeSt) : (s.modTime f).pending = s.pending := rfl
@[simp] theorem State.modTime_out (s : State) (f : TimeSt → TimeSt) : (s.modTime f).out = s.out := rfl
@[simp] theorem State.modTime_free (s : State) (f : TimeSt → TimeSt) : (s.modTime f).free = s.free := rfl
@[simp] theorem State.modTime_ft (s : State) (f : TimeSt → TimeSt) : (s.modTime f).ft = s.ft := rfl
@[simp] theorem State.modTime_frac (s : State) (f : TimeSt → TimeSt) : (s.modTime f).frac = s.frac := rfl
@[simp] theorem State.modTime_words (s : State) (f : TimeSt → TimeSt) : (s.modTime f).words = s.words := rfl
@[simp] theorem State.modTime_rsv (s : State) (f : TimeSt → TimeSt) : (s.modTime f).rsv = s.rsv := rfl
@[simp] theorem State.modTime_tally (s : State) (f : TimeSt → TimeSt) : (s.modTime f).tally = s.tally := rfl
@[simp] theorem State.modTime_host (s : State) (f : TimeSt → TimeSt) : (s.modTime f).host = s.host := rfl
@[simp] theorem State.modTime_home (s : State) (f : TimeSt → TimeSt) : (s.modTime f).home = s.home := rfl
@[simp] theorem State.modTime_cache (s : State) (f : TimeSt → TimeSt) : (s.modTime f).cache = s.cache := rfl
@[simp] theorem State.modTime_reads (s : State) (f : TimeSt → TimeSt) : (s.modTime f).reads = s.reads := rfl
@[simp] theorem State.modTime_progs (s : State) (f : TimeSt → TimeSt) : (s.modTime f).progs = s.progs := rfl
@[simp] theorem State.modTime_map (s : State) (f : TimeSt → TimeSt) : (s.modTime f).map = s.map := rfl
@[simp] theorem State.modTime_patrol (s : State) (f : TimeSt → TimeSt) : (s.modTime f).patrol = s.patrol := rfl
@[simp] theorem State.modTime_keys (s : State) (f : TimeSt → TimeSt) : (s.modTime f).keys = s.keys := rfl
@[simp] theorem State.modTime_fabric (s : State) (f : TimeSt → TimeSt) : (s.modTime f).fabric = s.fabric := rfl
@[simp] theorem State.modTime_power (s : State) (f : TimeSt → TimeSt) : (s.modTime f).power = s.power := rfl
@[simp] theorem State.modTime_avail (s : State) (f : TimeSt → TimeSt) : (s.modTime f).avail = s.avail := rfl
@[simp] theorem State.modTime_cask (s : State) (f : TimeSt → TimeSt) : (s.modTime f).cask = s.cask := rfl
@[simp] theorem State.modTime_time (s : State) (f : TimeSt → TimeSt) : (s.modTime f).time = f s.time := rfl
@[simp] theorem State.modTime_kelric (s : State) (f : TimeSt → TimeSt) : (s.modTime f).kelric = s.kelric := rfl
@[simp] theorem State.modTime_regs (s : State) (f : TimeSt → TimeSt) : (s.modTime f).regs = s.regs := rfl
@[simp] theorem State.modTime_therm (s : State) (f : TimeSt → TimeSt) : (s.modTime f).therm = s.therm := rfl
@[simp] theorem State.modTime_eng (s : State) (f : TimeSt → TimeSt) : (s.modTime f).eng = s.eng := rfl
@[simp] theorem State.modTime_maint (s : State) (f : TimeSt → TimeSt) : (s.modTime f).maint = s.maint := rfl
@[simp] theorem State.modTime_weali (s : State) (f : TimeSt → TimeSt) : (s.modTime f).weali = s.weali := rfl
@[simp] theorem State.modTime_jtag (s : State) (f : TimeSt → TimeSt) : (s.modTime f).jtag = s.jtag := rfl

/-! ### `State.modPower` -/

@[simp] theorem State.modPower_pending (s : State) (f : PowerSt → PowerSt) : (s.modPower f).pending = s.pending := rfl
@[simp] theorem State.modPower_out (s : State) (f : PowerSt → PowerSt) : (s.modPower f).out = s.out := rfl
@[simp] theorem State.modPower_free (s : State) (f : PowerSt → PowerSt) : (s.modPower f).free = s.free := rfl
@[simp] theorem State.modPower_ft (s : State) (f : PowerSt → PowerSt) : (s.modPower f).ft = s.ft := rfl
@[simp] theorem State.modPower_frac (s : State) (f : PowerSt → PowerSt) : (s.modPower f).frac = s.frac := rfl
@[simp] theorem State.modPower_words (s : State) (f : PowerSt → PowerSt) : (s.modPower f).words = s.words := rfl
@[simp] theorem State.modPower_rsv (s : State) (f : PowerSt → PowerSt) : (s.modPower f).rsv = s.rsv := rfl
@[simp] theorem State.modPower_tally (s : State) (f : PowerSt → PowerSt) : (s.modPower f).tally = s.tally := rfl
@[simp] theorem State.modPower_host (s : State) (f : PowerSt → PowerSt) : (s.modPower f).host = s.host := rfl
@[simp] theorem State.modPower_home (s : State) (f : PowerSt → PowerSt) : (s.modPower f).home = s.home := rfl
@[simp] theorem State.modPower_cache (s : State) (f : PowerSt → PowerSt) : (s.modPower f).cache = s.cache := rfl
@[simp] theorem State.modPower_reads (s : State) (f : PowerSt → PowerSt) : (s.modPower f).reads = s.reads := rfl
@[simp] theorem State.modPower_progs (s : State) (f : PowerSt → PowerSt) : (s.modPower f).progs = s.progs := rfl
@[simp] theorem State.modPower_map (s : State) (f : PowerSt → PowerSt) : (s.modPower f).map = s.map := rfl
@[simp] theorem State.modPower_patrol (s : State) (f : PowerSt → PowerSt) : (s.modPower f).patrol = s.patrol := rfl
@[simp] theorem State.modPower_keys (s : State) (f : PowerSt → PowerSt) : (s.modPower f).keys = s.keys := rfl
@[simp] theorem State.modPower_fabric (s : State) (f : PowerSt → PowerSt) : (s.modPower f).fabric = s.fabric := rfl
@[simp] theorem State.modPower_power (s : State) (f : PowerSt → PowerSt) : (s.modPower f).power = f s.power := rfl
@[simp] theorem State.modPower_avail (s : State) (f : PowerSt → PowerSt) : (s.modPower f).avail = s.avail := rfl
@[simp] theorem State.modPower_cask (s : State) (f : PowerSt → PowerSt) : (s.modPower f).cask = s.cask := rfl
@[simp] theorem State.modPower_time (s : State) (f : PowerSt → PowerSt) : (s.modPower f).time = s.time := rfl
@[simp] theorem State.modPower_kelric (s : State) (f : PowerSt → PowerSt) : (s.modPower f).kelric = s.kelric := rfl
@[simp] theorem State.modPower_regs (s : State) (f : PowerSt → PowerSt) : (s.modPower f).regs = s.regs := rfl
@[simp] theorem State.modPower_therm (s : State) (f : PowerSt → PowerSt) : (s.modPower f).therm = s.therm := rfl
@[simp] theorem State.modPower_eng (s : State) (f : PowerSt → PowerSt) : (s.modPower f).eng = s.eng := rfl
@[simp] theorem State.modPower_maint (s : State) (f : PowerSt → PowerSt) : (s.modPower f).maint = s.maint := rfl
@[simp] theorem State.modPower_weali (s : State) (f : PowerSt → PowerSt) : (s.modPower f).weali = s.weali := rfl
@[simp] theorem State.modPower_jtag (s : State) (f : PowerSt → PowerSt) : (s.modPower f).jtag = s.jtag := rfl

/-! ### `State.modAvail` -/

@[simp] theorem State.modAvail_pending (s : State) (f : AvailSt → AvailSt) : (s.modAvail f).pending = s.pending := rfl
@[simp] theorem State.modAvail_out (s : State) (f : AvailSt → AvailSt) : (s.modAvail f).out = s.out := rfl
@[simp] theorem State.modAvail_free (s : State) (f : AvailSt → AvailSt) : (s.modAvail f).free = s.free := rfl
@[simp] theorem State.modAvail_ft (s : State) (f : AvailSt → AvailSt) : (s.modAvail f).ft = s.ft := rfl
@[simp] theorem State.modAvail_frac (s : State) (f : AvailSt → AvailSt) : (s.modAvail f).frac = s.frac := rfl
@[simp] theorem State.modAvail_words (s : State) (f : AvailSt → AvailSt) : (s.modAvail f).words = s.words := rfl
@[simp] theorem State.modAvail_rsv (s : State) (f : AvailSt → AvailSt) : (s.modAvail f).rsv = s.rsv := rfl
@[simp] theorem State.modAvail_tally (s : State) (f : AvailSt → AvailSt) : (s.modAvail f).tally = s.tally := rfl
@[simp] theorem State.modAvail_host (s : State) (f : AvailSt → AvailSt) : (s.modAvail f).host = s.host := rfl
@[simp] theorem State.modAvail_home (s : State) (f : AvailSt → AvailSt) : (s.modAvail f).home = s.home := rfl
@[simp] theorem State.modAvail_cache (s : State) (f : AvailSt → AvailSt) : (s.modAvail f).cache = s.cache := rfl
@[simp] theorem State.modAvail_reads (s : State) (f : AvailSt → AvailSt) : (s.modAvail f).reads = s.reads := rfl
@[simp] theorem State.modAvail_progs (s : State) (f : AvailSt → AvailSt) : (s.modAvail f).progs = s.progs := rfl
@[simp] theorem State.modAvail_map (s : State) (f : AvailSt → AvailSt) : (s.modAvail f).map = s.map := rfl
@[simp] theorem State.modAvail_patrol (s : State) (f : AvailSt → AvailSt) : (s.modAvail f).patrol = s.patrol := rfl
@[simp] theorem State.modAvail_keys (s : State) (f : AvailSt → AvailSt) : (s.modAvail f).keys = s.keys := rfl
@[simp] theorem State.modAvail_fabric (s : State) (f : AvailSt → AvailSt) : (s.modAvail f).fabric = s.fabric := rfl
@[simp] theorem State.modAvail_power (s : State) (f : AvailSt → AvailSt) : (s.modAvail f).power = s.power := rfl
@[simp] theorem State.modAvail_avail (s : State) (f : AvailSt → AvailSt) : (s.modAvail f).avail = f s.avail := rfl
@[simp] theorem State.modAvail_cask (s : State) (f : AvailSt → AvailSt) : (s.modAvail f).cask = s.cask := rfl
@[simp] theorem State.modAvail_time (s : State) (f : AvailSt → AvailSt) : (s.modAvail f).time = s.time := rfl
@[simp] theorem State.modAvail_kelric (s : State) (f : AvailSt → AvailSt) : (s.modAvail f).kelric = s.kelric := rfl
@[simp] theorem State.modAvail_regs (s : State) (f : AvailSt → AvailSt) : (s.modAvail f).regs = s.regs := rfl
@[simp] theorem State.modAvail_therm (s : State) (f : AvailSt → AvailSt) : (s.modAvail f).therm = s.therm := rfl
@[simp] theorem State.modAvail_eng (s : State) (f : AvailSt → AvailSt) : (s.modAvail f).eng = s.eng := rfl
@[simp] theorem State.modAvail_maint (s : State) (f : AvailSt → AvailSt) : (s.modAvail f).maint = s.maint := rfl
@[simp] theorem State.modAvail_weali (s : State) (f : AvailSt → AvailSt) : (s.modAvail f).weali = s.weali := rfl
@[simp] theorem State.modAvail_jtag (s : State) (f : AvailSt → AvailSt) : (s.modAvail f).jtag = s.jtag := rfl

/-! ### `State.modTherm` -/

@[simp] theorem State.modTherm_pending (s : State) (f : ThermSt → ThermSt) : (s.modTherm f).pending = s.pending := rfl
@[simp] theorem State.modTherm_out (s : State) (f : ThermSt → ThermSt) : (s.modTherm f).out = s.out := rfl
@[simp] theorem State.modTherm_free (s : State) (f : ThermSt → ThermSt) : (s.modTherm f).free = s.free := rfl
@[simp] theorem State.modTherm_ft (s : State) (f : ThermSt → ThermSt) : (s.modTherm f).ft = s.ft := rfl
@[simp] theorem State.modTherm_frac (s : State) (f : ThermSt → ThermSt) : (s.modTherm f).frac = s.frac := rfl
@[simp] theorem State.modTherm_words (s : State) (f : ThermSt → ThermSt) : (s.modTherm f).words = s.words := rfl
@[simp] theorem State.modTherm_rsv (s : State) (f : ThermSt → ThermSt) : (s.modTherm f).rsv = s.rsv := rfl
@[simp] theorem State.modTherm_tally (s : State) (f : ThermSt → ThermSt) : (s.modTherm f).tally = s.tally := rfl
@[simp] theorem State.modTherm_host (s : State) (f : ThermSt → ThermSt) : (s.modTherm f).host = s.host := rfl
@[simp] theorem State.modTherm_home (s : State) (f : ThermSt → ThermSt) : (s.modTherm f).home = s.home := rfl
@[simp] theorem State.modTherm_cache (s : State) (f : ThermSt → ThermSt) : (s.modTherm f).cache = s.cache := rfl
@[simp] theorem State.modTherm_reads (s : State) (f : ThermSt → ThermSt) : (s.modTherm f).reads = s.reads := rfl
@[simp] theorem State.modTherm_progs (s : State) (f : ThermSt → ThermSt) : (s.modTherm f).progs = s.progs := rfl
@[simp] theorem State.modTherm_map (s : State) (f : ThermSt → ThermSt) : (s.modTherm f).map = s.map := rfl
@[simp] theorem State.modTherm_patrol (s : State) (f : ThermSt → ThermSt) : (s.modTherm f).patrol = s.patrol := rfl
@[simp] theorem State.modTherm_keys (s : State) (f : ThermSt → ThermSt) : (s.modTherm f).keys = s.keys := rfl
@[simp] theorem State.modTherm_fabric (s : State) (f : ThermSt → ThermSt) : (s.modTherm f).fabric = s.fabric := rfl
@[simp] theorem State.modTherm_power (s : State) (f : ThermSt → ThermSt) : (s.modTherm f).power = s.power := rfl
@[simp] theorem State.modTherm_avail (s : State) (f : ThermSt → ThermSt) : (s.modTherm f).avail = s.avail := rfl
@[simp] theorem State.modTherm_cask (s : State) (f : ThermSt → ThermSt) : (s.modTherm f).cask = s.cask := rfl
@[simp] theorem State.modTherm_time (s : State) (f : ThermSt → ThermSt) : (s.modTherm f).time = s.time := rfl
@[simp] theorem State.modTherm_kelric (s : State) (f : ThermSt → ThermSt) : (s.modTherm f).kelric = s.kelric := rfl
@[simp] theorem State.modTherm_regs (s : State) (f : ThermSt → ThermSt) : (s.modTherm f).regs = s.regs := rfl
@[simp] theorem State.modTherm_therm (s : State) (f : ThermSt → ThermSt) : (s.modTherm f).therm = f s.therm := rfl
@[simp] theorem State.modTherm_eng (s : State) (f : ThermSt → ThermSt) : (s.modTherm f).eng = s.eng := rfl
@[simp] theorem State.modTherm_maint (s : State) (f : ThermSt → ThermSt) : (s.modTherm f).maint = s.maint := rfl
@[simp] theorem State.modTherm_weali (s : State) (f : ThermSt → ThermSt) : (s.modTherm f).weali = s.weali := rfl
@[simp] theorem State.modTherm_jtag (s : State) (f : ThermSt → ThermSt) : (s.modTherm f).jtag = s.jtag := rfl

/-! ### `State.modEng` -/

@[simp] theorem State.modEng_pending (s : State) (f : EngSt → EngSt) : (s.modEng f).pending = s.pending := rfl
@[simp] theorem State.modEng_out (s : State) (f : EngSt → EngSt) : (s.modEng f).out = s.out := rfl
@[simp] theorem State.modEng_free (s : State) (f : EngSt → EngSt) : (s.modEng f).free = s.free := rfl
@[simp] theorem State.modEng_ft (s : State) (f : EngSt → EngSt) : (s.modEng f).ft = s.ft := rfl
@[simp] theorem State.modEng_frac (s : State) (f : EngSt → EngSt) : (s.modEng f).frac = s.frac := rfl
@[simp] theorem State.modEng_words (s : State) (f : EngSt → EngSt) : (s.modEng f).words = s.words := rfl
@[simp] theorem State.modEng_rsv (s : State) (f : EngSt → EngSt) : (s.modEng f).rsv = s.rsv := rfl
@[simp] theorem State.modEng_tally (s : State) (f : EngSt → EngSt) : (s.modEng f).tally = s.tally := rfl
@[simp] theorem State.modEng_host (s : State) (f : EngSt → EngSt) : (s.modEng f).host = s.host := rfl
@[simp] theorem State.modEng_home (s : State) (f : EngSt → EngSt) : (s.modEng f).home = s.home := rfl
@[simp] theorem State.modEng_cache (s : State) (f : EngSt → EngSt) : (s.modEng f).cache = s.cache := rfl
@[simp] theorem State.modEng_reads (s : State) (f : EngSt → EngSt) : (s.modEng f).reads = s.reads := rfl
@[simp] theorem State.modEng_progs (s : State) (f : EngSt → EngSt) : (s.modEng f).progs = s.progs := rfl
@[simp] theorem State.modEng_map (s : State) (f : EngSt → EngSt) : (s.modEng f).map = s.map := rfl
@[simp] theorem State.modEng_patrol (s : State) (f : EngSt → EngSt) : (s.modEng f).patrol = s.patrol := rfl
@[simp] theorem State.modEng_keys (s : State) (f : EngSt → EngSt) : (s.modEng f).keys = s.keys := rfl
@[simp] theorem State.modEng_fabric (s : State) (f : EngSt → EngSt) : (s.modEng f).fabric = s.fabric := rfl
@[simp] theorem State.modEng_power (s : State) (f : EngSt → EngSt) : (s.modEng f).power = s.power := rfl
@[simp] theorem State.modEng_avail (s : State) (f : EngSt → EngSt) : (s.modEng f).avail = s.avail := rfl
@[simp] theorem State.modEng_cask (s : State) (f : EngSt → EngSt) : (s.modEng f).cask = s.cask := rfl
@[simp] theorem State.modEng_time (s : State) (f : EngSt → EngSt) : (s.modEng f).time = s.time := rfl
@[simp] theorem State.modEng_kelric (s : State) (f : EngSt → EngSt) : (s.modEng f).kelric = s.kelric := rfl
@[simp] theorem State.modEng_regs (s : State) (f : EngSt → EngSt) : (s.modEng f).regs = s.regs := rfl
@[simp] theorem State.modEng_therm (s : State) (f : EngSt → EngSt) : (s.modEng f).therm = s.therm := rfl
@[simp] theorem State.modEng_eng (s : State) (f : EngSt → EngSt) : (s.modEng f).eng = f s.eng := rfl
@[simp] theorem State.modEng_maint (s : State) (f : EngSt → EngSt) : (s.modEng f).maint = s.maint := rfl
@[simp] theorem State.modEng_weali (s : State) (f : EngSt → EngSt) : (s.modEng f).weali = s.weali := rfl
@[simp] theorem State.modEng_jtag (s : State) (f : EngSt → EngSt) : (s.modEng f).jtag = s.jtag := rfl

/-! ### `State.modMaint` -/

@[simp] theorem State.modMaint_pending (s : State) (f : MaintSt → MaintSt) : (s.modMaint f).pending = s.pending := rfl
@[simp] theorem State.modMaint_out (s : State) (f : MaintSt → MaintSt) : (s.modMaint f).out = s.out := rfl
@[simp] theorem State.modMaint_free (s : State) (f : MaintSt → MaintSt) : (s.modMaint f).free = s.free := rfl
@[simp] theorem State.modMaint_ft (s : State) (f : MaintSt → MaintSt) : (s.modMaint f).ft = s.ft := rfl
@[simp] theorem State.modMaint_frac (s : State) (f : MaintSt → MaintSt) : (s.modMaint f).frac = s.frac := rfl
@[simp] theorem State.modMaint_words (s : State) (f : MaintSt → MaintSt) : (s.modMaint f).words = s.words := rfl
@[simp] theorem State.modMaint_rsv (s : State) (f : MaintSt → MaintSt) : (s.modMaint f).rsv = s.rsv := rfl
@[simp] theorem State.modMaint_tally (s : State) (f : MaintSt → MaintSt) : (s.modMaint f).tally = s.tally := rfl
@[simp] theorem State.modMaint_host (s : State) (f : MaintSt → MaintSt) : (s.modMaint f).host = s.host := rfl
@[simp] theorem State.modMaint_home (s : State) (f : MaintSt → MaintSt) : (s.modMaint f).home = s.home := rfl
@[simp] theorem State.modMaint_cache (s : State) (f : MaintSt → MaintSt) : (s.modMaint f).cache = s.cache := rfl
@[simp] theorem State.modMaint_reads (s : State) (f : MaintSt → MaintSt) : (s.modMaint f).reads = s.reads := rfl
@[simp] theorem State.modMaint_progs (s : State) (f : MaintSt → MaintSt) : (s.modMaint f).progs = s.progs := rfl
@[simp] theorem State.modMaint_map (s : State) (f : MaintSt → MaintSt) : (s.modMaint f).map = s.map := rfl
@[simp] theorem State.modMaint_patrol (s : State) (f : MaintSt → MaintSt) : (s.modMaint f).patrol = s.patrol := rfl
@[simp] theorem State.modMaint_keys (s : State) (f : MaintSt → MaintSt) : (s.modMaint f).keys = s.keys := rfl
@[simp] theorem State.modMaint_fabric (s : State) (f : MaintSt → MaintSt) : (s.modMaint f).fabric = s.fabric := rfl
@[simp] theorem State.modMaint_power (s : State) (f : MaintSt → MaintSt) : (s.modMaint f).power = s.power := rfl
@[simp] theorem State.modMaint_avail (s : State) (f : MaintSt → MaintSt) : (s.modMaint f).avail = s.avail := rfl
@[simp] theorem State.modMaint_cask (s : State) (f : MaintSt → MaintSt) : (s.modMaint f).cask = s.cask := rfl
@[simp] theorem State.modMaint_time (s : State) (f : MaintSt → MaintSt) : (s.modMaint f).time = s.time := rfl
@[simp] theorem State.modMaint_kelric (s : State) (f : MaintSt → MaintSt) : (s.modMaint f).kelric = s.kelric := rfl
@[simp] theorem State.modMaint_regs (s : State) (f : MaintSt → MaintSt) : (s.modMaint f).regs = s.regs := rfl
@[simp] theorem State.modMaint_therm (s : State) (f : MaintSt → MaintSt) : (s.modMaint f).therm = s.therm := rfl
@[simp] theorem State.modMaint_eng (s : State) (f : MaintSt → MaintSt) : (s.modMaint f).eng = s.eng := rfl
@[simp] theorem State.modMaint_maint (s : State) (f : MaintSt → MaintSt) : (s.modMaint f).maint = f s.maint := rfl
@[simp] theorem State.modMaint_weali (s : State) (f : MaintSt → MaintSt) : (s.modMaint f).weali = s.weali := rfl
@[simp] theorem State.modMaint_jtag (s : State) (f : MaintSt → MaintSt) : (s.modMaint f).jtag = s.jtag := rfl

/-! ### `State.modRegs` -/

@[simp] theorem State.modRegs_pending (s : State) (f : RegsSt → RegsSt) : (s.modRegs f).pending = s.pending := rfl
@[simp] theorem State.modRegs_out (s : State) (f : RegsSt → RegsSt) : (s.modRegs f).out = s.out := rfl
@[simp] theorem State.modRegs_free (s : State) (f : RegsSt → RegsSt) : (s.modRegs f).free = s.free := rfl
@[simp] theorem State.modRegs_ft (s : State) (f : RegsSt → RegsSt) : (s.modRegs f).ft = s.ft := rfl
@[simp] theorem State.modRegs_frac (s : State) (f : RegsSt → RegsSt) : (s.modRegs f).frac = s.frac := rfl
@[simp] theorem State.modRegs_words (s : State) (f : RegsSt → RegsSt) : (s.modRegs f).words = s.words := rfl
@[simp] theorem State.modRegs_rsv (s : State) (f : RegsSt → RegsSt) : (s.modRegs f).rsv = s.rsv := rfl
@[simp] theorem State.modRegs_tally (s : State) (f : RegsSt → RegsSt) : (s.modRegs f).tally = s.tally := rfl
@[simp] theorem State.modRegs_host (s : State) (f : RegsSt → RegsSt) : (s.modRegs f).host = s.host := rfl
@[simp] theorem State.modRegs_home (s : State) (f : RegsSt → RegsSt) : (s.modRegs f).home = s.home := rfl
@[simp] theorem State.modRegs_cache (s : State) (f : RegsSt → RegsSt) : (s.modRegs f).cache = s.cache := rfl
@[simp] theorem State.modRegs_reads (s : State) (f : RegsSt → RegsSt) : (s.modRegs f).reads = s.reads := rfl
@[simp] theorem State.modRegs_progs (s : State) (f : RegsSt → RegsSt) : (s.modRegs f).progs = s.progs := rfl
@[simp] theorem State.modRegs_map (s : State) (f : RegsSt → RegsSt) : (s.modRegs f).map = s.map := rfl
@[simp] theorem State.modRegs_patrol (s : State) (f : RegsSt → RegsSt) : (s.modRegs f).patrol = s.patrol := rfl
@[simp] theorem State.modRegs_keys (s : State) (f : RegsSt → RegsSt) : (s.modRegs f).keys = s.keys := rfl
@[simp] theorem State.modRegs_fabric (s : State) (f : RegsSt → RegsSt) : (s.modRegs f).fabric = s.fabric := rfl
@[simp] theorem State.modRegs_power (s : State) (f : RegsSt → RegsSt) : (s.modRegs f).power = s.power := rfl
@[simp] theorem State.modRegs_avail (s : State) (f : RegsSt → RegsSt) : (s.modRegs f).avail = s.avail := rfl
@[simp] theorem State.modRegs_cask (s : State) (f : RegsSt → RegsSt) : (s.modRegs f).cask = s.cask := rfl
@[simp] theorem State.modRegs_time (s : State) (f : RegsSt → RegsSt) : (s.modRegs f).time = s.time := rfl
@[simp] theorem State.modRegs_kelric (s : State) (f : RegsSt → RegsSt) : (s.modRegs f).kelric = s.kelric := rfl
@[simp] theorem State.modRegs_regs (s : State) (f : RegsSt → RegsSt) : (s.modRegs f).regs = f s.regs := rfl
@[simp] theorem State.modRegs_therm (s : State) (f : RegsSt → RegsSt) : (s.modRegs f).therm = s.therm := rfl
@[simp] theorem State.modRegs_eng (s : State) (f : RegsSt → RegsSt) : (s.modRegs f).eng = s.eng := rfl
@[simp] theorem State.modRegs_maint (s : State) (f : RegsSt → RegsSt) : (s.modRegs f).maint = s.maint := rfl
@[simp] theorem State.modRegs_weali (s : State) (f : RegsSt → RegsSt) : (s.modRegs f).weali = s.weali := rfl
@[simp] theorem State.modRegs_jtag (s : State) (f : RegsSt → RegsSt) : (s.modRegs f).jtag = s.jtag := rfl

/-! ### `State.modTally` -/

@[simp] theorem State.modTally_pending (s : State) (f : TallySt → TallySt) : (s.modTally f).pending = s.pending := rfl
@[simp] theorem State.modTally_out (s : State) (f : TallySt → TallySt) : (s.modTally f).out = s.out := rfl
@[simp] theorem State.modTally_free (s : State) (f : TallySt → TallySt) : (s.modTally f).free = s.free := rfl
@[simp] theorem State.modTally_ft (s : State) (f : TallySt → TallySt) : (s.modTally f).ft = s.ft := rfl
@[simp] theorem State.modTally_frac (s : State) (f : TallySt → TallySt) : (s.modTally f).frac = s.frac := rfl
@[simp] theorem State.modTally_words (s : State) (f : TallySt → TallySt) : (s.modTally f).words = s.words := rfl
@[simp] theorem State.modTally_rsv (s : State) (f : TallySt → TallySt) : (s.modTally f).rsv = s.rsv := rfl
@[simp] theorem State.modTally_tally (s : State) (f : TallySt → TallySt) : (s.modTally f).tally = f s.tally := rfl
@[simp] theorem State.modTally_host (s : State) (f : TallySt → TallySt) : (s.modTally f).host = s.host := rfl
@[simp] theorem State.modTally_home (s : State) (f : TallySt → TallySt) : (s.modTally f).home = s.home := rfl
@[simp] theorem State.modTally_cache (s : State) (f : TallySt → TallySt) : (s.modTally f).cache = s.cache := rfl
@[simp] theorem State.modTally_reads (s : State) (f : TallySt → TallySt) : (s.modTally f).reads = s.reads := rfl
@[simp] theorem State.modTally_progs (s : State) (f : TallySt → TallySt) : (s.modTally f).progs = s.progs := rfl
@[simp] theorem State.modTally_map (s : State) (f : TallySt → TallySt) : (s.modTally f).map = s.map := rfl
@[simp] theorem State.modTally_patrol (s : State) (f : TallySt → TallySt) : (s.modTally f).patrol = s.patrol := rfl
@[simp] theorem State.modTally_keys (s : State) (f : TallySt → TallySt) : (s.modTally f).keys = s.keys := rfl
@[simp] theorem State.modTally_fabric (s : State) (f : TallySt → TallySt) : (s.modTally f).fabric = s.fabric := rfl
@[simp] theorem State.modTally_power (s : State) (f : TallySt → TallySt) : (s.modTally f).power = s.power := rfl
@[simp] theorem State.modTally_avail (s : State) (f : TallySt → TallySt) : (s.modTally f).avail = s.avail := rfl
@[simp] theorem State.modTally_cask (s : State) (f : TallySt → TallySt) : (s.modTally f).cask = s.cask := rfl
@[simp] theorem State.modTally_time (s : State) (f : TallySt → TallySt) : (s.modTally f).time = s.time := rfl
@[simp] theorem State.modTally_kelric (s : State) (f : TallySt → TallySt) : (s.modTally f).kelric = s.kelric := rfl
@[simp] theorem State.modTally_regs (s : State) (f : TallySt → TallySt) : (s.modTally f).regs = s.regs := rfl
@[simp] theorem State.modTally_therm (s : State) (f : TallySt → TallySt) : (s.modTally f).therm = s.therm := rfl
@[simp] theorem State.modTally_eng (s : State) (f : TallySt → TallySt) : (s.modTally f).eng = s.eng := rfl
@[simp] theorem State.modTally_maint (s : State) (f : TallySt → TallySt) : (s.modTally f).maint = s.maint := rfl
@[simp] theorem State.modTally_weali (s : State) (f : TallySt → TallySt) : (s.modTally f).weali = s.weali := rfl
@[simp] theorem State.modTally_jtag (s : State) (f : TallySt → TallySt) : (s.modTally f).jtag = s.jtag := rfl

/-! ### `State.modLink` -/

@[simp] theorem State.modLink_pending (s : State) (k : Nat) (f : LinkSt → LinkSt) : (s.modLink k f).pending = s.pending := rfl
@[simp] theorem State.modLink_out (s : State) (k : Nat) (f : LinkSt → LinkSt) : (s.modLink k f).out = s.out := rfl
@[simp] theorem State.modLink_free (s : State) (k : Nat) (f : LinkSt → LinkSt) : (s.modLink k f).free = s.free := rfl
@[simp] theorem State.modLink_ft (s : State) (k : Nat) (f : LinkSt → LinkSt) : (s.modLink k f).ft = s.ft := rfl
@[simp] theorem State.modLink_frac (s : State) (k : Nat) (f : LinkSt → LinkSt) : (s.modLink k f).frac = s.frac := rfl
@[simp] theorem State.modLink_words (s : State) (k : Nat) (f : LinkSt → LinkSt) : (s.modLink k f).words = s.words := rfl
@[simp] theorem State.modLink_rsv (s : State) (k : Nat) (f : LinkSt → LinkSt) : (s.modLink k f).rsv = s.rsv := rfl
@[simp] theorem State.modLink_tally (s : State) (k : Nat) (f : LinkSt → LinkSt) : (s.modLink k f).tally = s.tally := rfl
@[simp] theorem State.modLink_host (s : State) (k : Nat) (f : LinkSt → LinkSt) : (s.modLink k f).host = s.host := rfl
@[simp] theorem State.modLink_home (s : State) (k : Nat) (f : LinkSt → LinkSt) : (s.modLink k f).home = s.home := rfl
@[simp] theorem State.modLink_cache (s : State) (k : Nat) (f : LinkSt → LinkSt) : (s.modLink k f).cache = s.cache := rfl
@[simp] theorem State.modLink_reads (s : State) (k : Nat) (f : LinkSt → LinkSt) : (s.modLink k f).reads = s.reads := rfl
@[simp] theorem State.modLink_progs (s : State) (k : Nat) (f : LinkSt → LinkSt) : (s.modLink k f).progs = s.progs := rfl
@[simp] theorem State.modLink_map (s : State) (k : Nat) (f : LinkSt → LinkSt) : (s.modLink k f).map = s.map := rfl
@[simp] theorem State.modLink_patrol (s : State) (k : Nat) (f : LinkSt → LinkSt) : (s.modLink k f).patrol = s.patrol := rfl
@[simp] theorem State.modLink_keys (s : State) (k : Nat) (f : LinkSt → LinkSt) : (s.modLink k f).keys = s.keys := rfl
@[simp] theorem State.modLink_fabric (s : State) (k : Nat) (f : LinkSt → LinkSt) : (s.modLink k f).fabric = { s.fabric with links := mmod {} s.fabric.links k f } := rfl
@[simp] theorem State.modLink_power (s : State) (k : Nat) (f : LinkSt → LinkSt) : (s.modLink k f).power = s.power := rfl
@[simp] theorem State.modLink_avail (s : State) (k : Nat) (f : LinkSt → LinkSt) : (s.modLink k f).avail = s.avail := rfl
@[simp] theorem State.modLink_cask (s : State) (k : Nat) (f : LinkSt → LinkSt) : (s.modLink k f).cask = s.cask := rfl
@[simp] theorem State.modLink_time (s : State) (k : Nat) (f : LinkSt → LinkSt) : (s.modLink k f).time = s.time := rfl
@[simp] theorem State.modLink_kelric (s : State) (k : Nat) (f : LinkSt → LinkSt) : (s.modLink k f).kelric = s.kelric := rfl
@[simp] theorem State.modLink_regs (s : State) (k : Nat) (f : LinkSt → LinkSt) : (s.modLink k f).regs = s.regs := rfl
@[simp] theorem State.modLink_therm (s : State) (k : Nat) (f : LinkSt → LinkSt) : (s.modLink k f).therm = s.therm := rfl
@[simp] theorem State.modLink_eng (s : State) (k : Nat) (f : LinkSt → LinkSt) : (s.modLink k f).eng = s.eng := rfl
@[simp] theorem State.modLink_maint (s : State) (k : Nat) (f : LinkSt → LinkSt) : (s.modLink k f).maint = s.maint := rfl
@[simp] theorem State.modLink_weali (s : State) (k : Nat) (f : LinkSt → LinkSt) : (s.modLink k f).weali = s.weali := rfl
@[simp] theorem State.modLink_jtag (s : State) (k : Nat) (f : LinkSt → LinkSt) : (s.modLink k f).jtag = s.jtag := rfl

/-! ### `State.modHead` -/

@[simp] theorem State.modHead_pending (s : State) (k : Nat) (f : HeadSt → HeadSt) : (s.modHead k f).pending = s.pending := rfl
@[simp] theorem State.modHead_out (s : State) (k : Nat) (f : HeadSt → HeadSt) : (s.modHead k f).out = s.out := rfl
@[simp] theorem State.modHead_free (s : State) (k : Nat) (f : HeadSt → HeadSt) : (s.modHead k f).free = s.free := rfl
@[simp] theorem State.modHead_ft (s : State) (k : Nat) (f : HeadSt → HeadSt) : (s.modHead k f).ft = s.ft := rfl
@[simp] theorem State.modHead_frac (s : State) (k : Nat) (f : HeadSt → HeadSt) : (s.modHead k f).frac = s.frac := rfl
@[simp] theorem State.modHead_words (s : State) (k : Nat) (f : HeadSt → HeadSt) : (s.modHead k f).words = s.words := rfl
@[simp] theorem State.modHead_rsv (s : State) (k : Nat) (f : HeadSt → HeadSt) : (s.modHead k f).rsv = s.rsv := rfl
@[simp] theorem State.modHead_tally (s : State) (k : Nat) (f : HeadSt → HeadSt) : (s.modHead k f).tally = s.tally := rfl
@[simp] theorem State.modHead_host (s : State) (k : Nat) (f : HeadSt → HeadSt) : (s.modHead k f).host = { s.host with heads := mmod {} s.host.heads k f } := rfl
@[simp] theorem State.modHead_home (s : State) (k : Nat) (f : HeadSt → HeadSt) : (s.modHead k f).home = s.home := rfl
@[simp] theorem State.modHead_cache (s : State) (k : Nat) (f : HeadSt → HeadSt) : (s.modHead k f).cache = s.cache := rfl
@[simp] theorem State.modHead_reads (s : State) (k : Nat) (f : HeadSt → HeadSt) : (s.modHead k f).reads = s.reads := rfl
@[simp] theorem State.modHead_progs (s : State) (k : Nat) (f : HeadSt → HeadSt) : (s.modHead k f).progs = s.progs := rfl
@[simp] theorem State.modHead_map (s : State) (k : Nat) (f : HeadSt → HeadSt) : (s.modHead k f).map = s.map := rfl
@[simp] theorem State.modHead_patrol (s : State) (k : Nat) (f : HeadSt → HeadSt) : (s.modHead k f).patrol = s.patrol := rfl
@[simp] theorem State.modHead_keys (s : State) (k : Nat) (f : HeadSt → HeadSt) : (s.modHead k f).keys = s.keys := rfl
@[simp] theorem State.modHead_fabric (s : State) (k : Nat) (f : HeadSt → HeadSt) : (s.modHead k f).fabric = s.fabric := rfl
@[simp] theorem State.modHead_power (s : State) (k : Nat) (f : HeadSt → HeadSt) : (s.modHead k f).power = s.power := rfl
@[simp] theorem State.modHead_avail (s : State) (k : Nat) (f : HeadSt → HeadSt) : (s.modHead k f).avail = s.avail := rfl
@[simp] theorem State.modHead_cask (s : State) (k : Nat) (f : HeadSt → HeadSt) : (s.modHead k f).cask = s.cask := rfl
@[simp] theorem State.modHead_time (s : State) (k : Nat) (f : HeadSt → HeadSt) : (s.modHead k f).time = s.time := rfl
@[simp] theorem State.modHead_kelric (s : State) (k : Nat) (f : HeadSt → HeadSt) : (s.modHead k f).kelric = s.kelric := rfl
@[simp] theorem State.modHead_regs (s : State) (k : Nat) (f : HeadSt → HeadSt) : (s.modHead k f).regs = s.regs := rfl
@[simp] theorem State.modHead_therm (s : State) (k : Nat) (f : HeadSt → HeadSt) : (s.modHead k f).therm = s.therm := rfl
@[simp] theorem State.modHead_eng (s : State) (k : Nat) (f : HeadSt → HeadSt) : (s.modHead k f).eng = s.eng := rfl
@[simp] theorem State.modHead_maint (s : State) (k : Nat) (f : HeadSt → HeadSt) : (s.modHead k f).maint = s.maint := rfl
@[simp] theorem State.modHead_weali (s : State) (k : Nat) (f : HeadSt → HeadSt) : (s.modHead k f).weali = s.weali := rfl
@[simp] theorem State.modHead_jtag (s : State) (k : Nat) (f : HeadSt → HeadSt) : (s.modHead k f).jtag = s.jtag := rfl

/-! ### `State.modDom` -/

@[simp] theorem State.modDom_pending (s : State) (k : Nat) (f : CaskDom → CaskDom) : (s.modDom k f).pending = s.pending := rfl
@[simp] theorem State.modDom_out (s : State) (k : Nat) (f : CaskDom → CaskDom) : (s.modDom k f).out = s.out := rfl
@[simp] theorem State.modDom_free (s : State) (k : Nat) (f : CaskDom → CaskDom) : (s.modDom k f).free = s.free := rfl
@[simp] theorem State.modDom_ft (s : State) (k : Nat) (f : CaskDom → CaskDom) : (s.modDom k f).ft = s.ft := rfl
@[simp] theorem State.modDom_frac (s : State) (k : Nat) (f : CaskDom → CaskDom) : (s.modDom k f).frac = s.frac := rfl
@[simp] theorem State.modDom_words (s : State) (k : Nat) (f : CaskDom → CaskDom) : (s.modDom k f).words = s.words := rfl
@[simp] theorem State.modDom_rsv (s : State) (k : Nat) (f : CaskDom → CaskDom) : (s.modDom k f).rsv = s.rsv := rfl
@[simp] theorem State.modDom_tally (s : State) (k : Nat) (f : CaskDom → CaskDom) : (s.modDom k f).tally = s.tally := rfl
@[simp] theorem State.modDom_host (s : State) (k : Nat) (f : CaskDom → CaskDom) : (s.modDom k f).host = s.host := rfl
@[simp] theorem State.modDom_home (s : State) (k : Nat) (f : CaskDom → CaskDom) : (s.modDom k f).home = s.home := rfl
@[simp] theorem State.modDom_cache (s : State) (k : Nat) (f : CaskDom → CaskDom) : (s.modDom k f).cache = s.cache := rfl
@[simp] theorem State.modDom_reads (s : State) (k : Nat) (f : CaskDom → CaskDom) : (s.modDom k f).reads = s.reads := rfl
@[simp] theorem State.modDom_progs (s : State) (k : Nat) (f : CaskDom → CaskDom) : (s.modDom k f).progs = s.progs := rfl
@[simp] theorem State.modDom_map (s : State) (k : Nat) (f : CaskDom → CaskDom) : (s.modDom k f).map = s.map := rfl
@[simp] theorem State.modDom_patrol (s : State) (k : Nat) (f : CaskDom → CaskDom) : (s.modDom k f).patrol = s.patrol := rfl
@[simp] theorem State.modDom_keys (s : State) (k : Nat) (f : CaskDom → CaskDom) : (s.modDom k f).keys = s.keys := rfl
@[simp] theorem State.modDom_fabric (s : State) (k : Nat) (f : CaskDom → CaskDom) : (s.modDom k f).fabric = s.fabric := rfl
@[simp] theorem State.modDom_power (s : State) (k : Nat) (f : CaskDom → CaskDom) : (s.modDom k f).power = s.power := rfl
@[simp] theorem State.modDom_avail (s : State) (k : Nat) (f : CaskDom → CaskDom) : (s.modDom k f).avail = s.avail := rfl
@[simp] theorem State.modDom_cask (s : State) (k : Nat) (f : CaskDom → CaskDom) : (s.modDom k f).cask = { s.cask with doms := mmod {} s.cask.doms k f, changed := true } := rfl
@[simp] theorem State.modDom_time (s : State) (k : Nat) (f : CaskDom → CaskDom) : (s.modDom k f).time = s.time := rfl
@[simp] theorem State.modDom_kelric (s : State) (k : Nat) (f : CaskDom → CaskDom) : (s.modDom k f).kelric = s.kelric := rfl
@[simp] theorem State.modDom_regs (s : State) (k : Nat) (f : CaskDom → CaskDom) : (s.modDom k f).regs = s.regs := rfl
@[simp] theorem State.modDom_therm (s : State) (k : Nat) (f : CaskDom → CaskDom) : (s.modDom k f).therm = s.therm := rfl
@[simp] theorem State.modDom_eng (s : State) (k : Nat) (f : CaskDom → CaskDom) : (s.modDom k f).eng = s.eng := rfl
@[simp] theorem State.modDom_maint (s : State) (k : Nat) (f : CaskDom → CaskDom) : (s.modDom k f).maint = s.maint := rfl
@[simp] theorem State.modDom_weali (s : State) (k : Nat) (f : CaskDom → CaskDom) : (s.modDom k f).weali = s.weali := rfl
@[simp] theorem State.modDom_jtag (s : State) (k : Nat) (f : CaskDom → CaskDom) : (s.modDom k f).jtag = s.jtag := rfl

/-! ### `State.modQueue` -/

@[simp] theorem State.modQueue_pending (s : State) (k : Nat) (f : KQueue → KQueue) : (s.modQueue k f).pending = s.pending := rfl
@[simp] theorem State.modQueue_out (s : State) (k : Nat) (f : KQueue → KQueue) : (s.modQueue k f).out = s.out := rfl
@[simp] theorem State.modQueue_free (s : State) (k : Nat) (f : KQueue → KQueue) : (s.modQueue k f).free = s.free := rfl
@[simp] theorem State.modQueue_ft (s : State) (k : Nat) (f : KQueue → KQueue) : (s.modQueue k f).ft = s.ft := rfl
@[simp] theorem State.modQueue_frac (s : State) (k : Nat) (f : KQueue → KQueue) : (s.modQueue k f).frac = s.frac := rfl
@[simp] theorem State.modQueue_words (s : State) (k : Nat) (f : KQueue → KQueue) : (s.modQueue k f).words = s.words := rfl
@[simp] theorem State.modQueue_rsv (s : State) (k : Nat) (f : KQueue → KQueue) : (s.modQueue k f).rsv = s.rsv := rfl
@[simp] theorem State.modQueue_tally (s : State) (k : Nat) (f : KQueue → KQueue) : (s.modQueue k f).tally = s.tally := rfl
@[simp] theorem State.modQueue_host (s : State) (k : Nat) (f : KQueue → KQueue) : (s.modQueue k f).host = s.host := rfl
@[simp] theorem State.modQueue_home (s : State) (k : Nat) (f : KQueue → KQueue) : (s.modQueue k f).home = s.home := rfl
@[simp] theorem State.modQueue_cache (s : State) (k : Nat) (f : KQueue → KQueue) : (s.modQueue k f).cache = s.cache := rfl
@[simp] theorem State.modQueue_reads (s : State) (k : Nat) (f : KQueue → KQueue) : (s.modQueue k f).reads = s.reads := rfl
@[simp] theorem State.modQueue_progs (s : State) (k : Nat) (f : KQueue → KQueue) : (s.modQueue k f).progs = s.progs := rfl
@[simp] theorem State.modQueue_map (s : State) (k : Nat) (f : KQueue → KQueue) : (s.modQueue k f).map = s.map := rfl
@[simp] theorem State.modQueue_patrol (s : State) (k : Nat) (f : KQueue → KQueue) : (s.modQueue k f).patrol = s.patrol := rfl
@[simp] theorem State.modQueue_keys (s : State) (k : Nat) (f : KQueue → KQueue) : (s.modQueue k f).keys = s.keys := rfl
@[simp] theorem State.modQueue_fabric (s : State) (k : Nat) (f : KQueue → KQueue) : (s.modQueue k f).fabric = s.fabric := rfl
@[simp] theorem State.modQueue_power (s : State) (k : Nat) (f : KQueue → KQueue) : (s.modQueue k f).power = s.power := rfl
@[simp] theorem State.modQueue_avail (s : State) (k : Nat) (f : KQueue → KQueue) : (s.modQueue k f).avail = s.avail := rfl
@[simp] theorem State.modQueue_cask (s : State) (k : Nat) (f : KQueue → KQueue) : (s.modQueue k f).cask = s.cask := rfl
@[simp] theorem State.modQueue_time (s : State) (k : Nat) (f : KQueue → KQueue) : (s.modQueue k f).time = s.time := rfl
@[simp] theorem State.modQueue_kelric (s : State) (k : Nat) (f : KQueue → KQueue) : (s.modQueue k f).kelric = { s.kelric with queues := mmod {} s.kelric.queues k f } := rfl
@[simp] theorem State.modQueue_regs (s : State) (k : Nat) (f : KQueue → KQueue) : (s.modQueue k f).regs = s.regs := rfl
@[simp] theorem State.modQueue_therm (s : State) (k : Nat) (f : KQueue → KQueue) : (s.modQueue k f).therm = s.therm := rfl
@[simp] theorem State.modQueue_eng (s : State) (k : Nat) (f : KQueue → KQueue) : (s.modQueue k f).eng = s.eng := rfl
@[simp] theorem State.modQueue_maint (s : State) (k : Nat) (f : KQueue → KQueue) : (s.modQueue k f).maint = s.maint := rfl
@[simp] theorem State.modQueue_weali (s : State) (k : Nat) (f : KQueue → KQueue) : (s.modQueue k f).weali = s.weali := rfl
@[simp] theorem State.modQueue_jtag (s : State) (k : Nat) (f : KQueue → KQueue) : (s.modQueue k f).jtag = s.jtag := rfl

/-! ### `State.setWord` -/

@[simp] theorem State.setWord_pending (s : State) (off v : Nat) : (s.setWord off v).pending = s.pending := rfl
@[simp] theorem State.setWord_out (s : State) (off v : Nat) : (s.setWord off v).out = s.out := rfl
@[simp] theorem State.setWord_free (s : State) (off v : Nat) : (s.setWord off v).free = s.free := rfl
@[simp] theorem State.setWord_ft (s : State) (off v : Nat) : (s.setWord off v).ft = s.ft := rfl
@[simp] theorem State.setWord_frac (s : State) (off v : Nat) : (s.setWord off v).frac = s.frac := rfl
@[simp] theorem State.setWord_words (s : State) (off v : Nat) : (s.setWord off v).words = mset (resetWord off) s.words off (v % 2 ^ 32) := rfl
@[simp] theorem State.setWord_rsv (s : State) (off v : Nat) : (s.setWord off v).rsv = s.rsv := rfl
@[simp] theorem State.setWord_tally (s : State) (off v : Nat) : (s.setWord off v).tally = s.tally := rfl
@[simp] theorem State.setWord_host (s : State) (off v : Nat) : (s.setWord off v).host = s.host := rfl
@[simp] theorem State.setWord_home (s : State) (off v : Nat) : (s.setWord off v).home = s.home := rfl
@[simp] theorem State.setWord_cache (s : State) (off v : Nat) : (s.setWord off v).cache = s.cache := rfl
@[simp] theorem State.setWord_reads (s : State) (off v : Nat) : (s.setWord off v).reads = s.reads := rfl
@[simp] theorem State.setWord_progs (s : State) (off v : Nat) : (s.setWord off v).progs = s.progs := rfl
@[simp] theorem State.setWord_map (s : State) (off v : Nat) : (s.setWord off v).map = s.map := rfl
@[simp] theorem State.setWord_patrol (s : State) (off v : Nat) : (s.setWord off v).patrol = s.patrol := rfl
@[simp] theorem State.setWord_keys (s : State) (off v : Nat) : (s.setWord off v).keys = s.keys := rfl
@[simp] theorem State.setWord_fabric (s : State) (off v : Nat) : (s.setWord off v).fabric = s.fabric := rfl
@[simp] theorem State.setWord_power (s : State) (off v : Nat) : (s.setWord off v).power = s.power := rfl
@[simp] theorem State.setWord_avail (s : State) (off v : Nat) : (s.setWord off v).avail = s.avail := rfl
@[simp] theorem State.setWord_cask (s : State) (off v : Nat) : (s.setWord off v).cask = s.cask := rfl
@[simp] theorem State.setWord_time (s : State) (off v : Nat) : (s.setWord off v).time = s.time := rfl
@[simp] theorem State.setWord_kelric (s : State) (off v : Nat) : (s.setWord off v).kelric = s.kelric := rfl
@[simp] theorem State.setWord_regs (s : State) (off v : Nat) : (s.setWord off v).regs = s.regs := rfl
@[simp] theorem State.setWord_therm (s : State) (off v : Nat) : (s.setWord off v).therm = s.therm := rfl
@[simp] theorem State.setWord_eng (s : State) (off v : Nat) : (s.setWord off v).eng = s.eng := rfl
@[simp] theorem State.setWord_maint (s : State) (off v : Nat) : (s.setWord off v).maint = s.maint := rfl
@[simp] theorem State.setWord_weali (s : State) (off v : Nat) : (s.setWord off v).weali = s.weali := rfl
@[simp] theorem State.setWord_jtag (s : State) (off v : Nat) : (s.setWord off v).jtag = s.jtag := rfl

/-! ### `State.emit` -/

@[simp] theorem State.emit_pending (s : State) (o : Out) : (s.emit o).pending = s.pending := rfl
@[simp] theorem State.emit_out (s : State) (o : Out) : (s.emit o).out = s.out ++ [o] := rfl
@[simp] theorem State.emit_free (s : State) (o : Out) : (s.emit o).free = s.free := rfl
@[simp] theorem State.emit_ft (s : State) (o : Out) : (s.emit o).ft = s.ft := rfl
@[simp] theorem State.emit_frac (s : State) (o : Out) : (s.emit o).frac = s.frac := rfl
@[simp] theorem State.emit_words (s : State) (o : Out) : (s.emit o).words = s.words := rfl
@[simp] theorem State.emit_rsv (s : State) (o : Out) : (s.emit o).rsv = s.rsv := rfl
@[simp] theorem State.emit_tally (s : State) (o : Out) : (s.emit o).tally = s.tally := rfl
@[simp] theorem State.emit_host (s : State) (o : Out) : (s.emit o).host = s.host := rfl
@[simp] theorem State.emit_home (s : State) (o : Out) : (s.emit o).home = s.home := rfl
@[simp] theorem State.emit_cache (s : State) (o : Out) : (s.emit o).cache = s.cache := rfl
@[simp] theorem State.emit_reads (s : State) (o : Out) : (s.emit o).reads = s.reads := rfl
@[simp] theorem State.emit_progs (s : State) (o : Out) : (s.emit o).progs = s.progs := rfl
@[simp] theorem State.emit_map (s : State) (o : Out) : (s.emit o).map = s.map := rfl
@[simp] theorem State.emit_patrol (s : State) (o : Out) : (s.emit o).patrol = s.patrol := rfl
@[simp] theorem State.emit_keys (s : State) (o : Out) : (s.emit o).keys = s.keys := rfl
@[simp] theorem State.emit_fabric (s : State) (o : Out) : (s.emit o).fabric = s.fabric := rfl
@[simp] theorem State.emit_power (s : State) (o : Out) : (s.emit o).power = s.power := rfl
@[simp] theorem State.emit_avail (s : State) (o : Out) : (s.emit o).avail = s.avail := rfl
@[simp] theorem State.emit_cask (s : State) (o : Out) : (s.emit o).cask = s.cask := rfl
@[simp] theorem State.emit_time (s : State) (o : Out) : (s.emit o).time = s.time := rfl
@[simp] theorem State.emit_kelric (s : State) (o : Out) : (s.emit o).kelric = s.kelric := rfl
@[simp] theorem State.emit_regs (s : State) (o : Out) : (s.emit o).regs = s.regs := rfl
@[simp] theorem State.emit_therm (s : State) (o : Out) : (s.emit o).therm = s.therm := rfl
@[simp] theorem State.emit_eng (s : State) (o : Out) : (s.emit o).eng = s.eng := rfl
@[simp] theorem State.emit_maint (s : State) (o : Out) : (s.emit o).maint = s.maint := rfl
@[simp] theorem State.emit_weali (s : State) (o : Out) : (s.emit o).weali = s.weali := rfl
@[simp] theorem State.emit_jtag (s : State) (o : Out) : (s.emit o).jtag = s.jtag := rfl

/-! ### `State.emits` -/

@[simp] theorem State.emits_pending (s : State) (l : List Out) : (s.emits l).pending = s.pending := rfl
@[simp] theorem State.emits_out (s : State) (l : List Out) : (s.emits l).out = s.out ++ l := rfl
@[simp] theorem State.emits_free (s : State) (l : List Out) : (s.emits l).free = s.free := rfl
@[simp] theorem State.emits_ft (s : State) (l : List Out) : (s.emits l).ft = s.ft := rfl
@[simp] theorem State.emits_frac (s : State) (l : List Out) : (s.emits l).frac = s.frac := rfl
@[simp] theorem State.emits_words (s : State) (l : List Out) : (s.emits l).words = s.words := rfl
@[simp] theorem State.emits_rsv (s : State) (l : List Out) : (s.emits l).rsv = s.rsv := rfl
@[simp] theorem State.emits_tally (s : State) (l : List Out) : (s.emits l).tally = s.tally := rfl
@[simp] theorem State.emits_host (s : State) (l : List Out) : (s.emits l).host = s.host := rfl
@[simp] theorem State.emits_home (s : State) (l : List Out) : (s.emits l).home = s.home := rfl
@[simp] theorem State.emits_cache (s : State) (l : List Out) : (s.emits l).cache = s.cache := rfl
@[simp] theorem State.emits_reads (s : State) (l : List Out) : (s.emits l).reads = s.reads := rfl
@[simp] theorem State.emits_progs (s : State) (l : List Out) : (s.emits l).progs = s.progs := rfl
@[simp] theorem State.emits_map (s : State) (l : List Out) : (s.emits l).map = s.map := rfl
@[simp] theorem State.emits_patrol (s : State) (l : List Out) : (s.emits l).patrol = s.patrol := rfl
@[simp] theorem State.emits_keys (s : State) (l : List Out) : (s.emits l).keys = s.keys := rfl
@[simp] theorem State.emits_fabric (s : State) (l : List Out) : (s.emits l).fabric = s.fabric := rfl
@[simp] theorem State.emits_power (s : State) (l : List Out) : (s.emits l).power = s.power := rfl
@[simp] theorem State.emits_avail (s : State) (l : List Out) : (s.emits l).avail = s.avail := rfl
@[simp] theorem State.emits_cask (s : State) (l : List Out) : (s.emits l).cask = s.cask := rfl
@[simp] theorem State.emits_time (s : State) (l : List Out) : (s.emits l).time = s.time := rfl
@[simp] theorem State.emits_kelric (s : State) (l : List Out) : (s.emits l).kelric = s.kelric := rfl
@[simp] theorem State.emits_regs (s : State) (l : List Out) : (s.emits l).regs = s.regs := rfl
@[simp] theorem State.emits_therm (s : State) (l : List Out) : (s.emits l).therm = s.therm := rfl
@[simp] theorem State.emits_eng (s : State) (l : List Out) : (s.emits l).eng = s.eng := rfl
@[simp] theorem State.emits_maint (s : State) (l : List Out) : (s.emits l).maint = s.maint := rfl
@[simp] theorem State.emits_weali (s : State) (l : List Out) : (s.emits l).weali = s.weali := rfl
@[simp] theorem State.emits_jtag (s : State) (l : List Out) : (s.emits l).jtag = s.jtag := rfl

/-! ### `State.draw` -/

@[simp] theorem State.draw_fst (s : State) : s.draw.1 = Config.freeNat s.free := rfl
@[simp] theorem State.draw_snd_pending (s : State) : s.draw.2.pending = s.pending := rfl
@[simp] theorem State.draw_snd_out (s : State) : s.draw.2.out = s.out := rfl
@[simp] theorem State.draw_snd_free (s : State) : s.draw.2.free = s.free + 1 := rfl
@[simp] theorem State.draw_snd_ft (s : State) : s.draw.2.ft = s.ft := rfl
@[simp] theorem State.draw_snd_frac (s : State) : s.draw.2.frac = s.frac := rfl
@[simp] theorem State.draw_snd_words (s : State) : s.draw.2.words = s.words := rfl
@[simp] theorem State.draw_snd_rsv (s : State) : s.draw.2.rsv = s.rsv := rfl
@[simp] theorem State.draw_snd_tally (s : State) : s.draw.2.tally = s.tally := rfl
@[simp] theorem State.draw_snd_host (s : State) : s.draw.2.host = s.host := rfl
@[simp] theorem State.draw_snd_home (s : State) : s.draw.2.home = s.home := rfl
@[simp] theorem State.draw_snd_cache (s : State) : s.draw.2.cache = s.cache := rfl
@[simp] theorem State.draw_snd_reads (s : State) : s.draw.2.reads = s.reads := rfl
@[simp] theorem State.draw_snd_progs (s : State) : s.draw.2.progs = s.progs := rfl
@[simp] theorem State.draw_snd_map (s : State) : s.draw.2.map = s.map := rfl
@[simp] theorem State.draw_snd_patrol (s : State) : s.draw.2.patrol = s.patrol := rfl
@[simp] theorem State.draw_snd_keys (s : State) : s.draw.2.keys = s.keys := rfl
@[simp] theorem State.draw_snd_fabric (s : State) : s.draw.2.fabric = s.fabric := rfl
@[simp] theorem State.draw_snd_power (s : State) : s.draw.2.power = s.power := rfl
@[simp] theorem State.draw_snd_avail (s : State) : s.draw.2.avail = s.avail := rfl
@[simp] theorem State.draw_snd_cask (s : State) : s.draw.2.cask = s.cask := rfl
@[simp] theorem State.draw_snd_time (s : State) : s.draw.2.time = s.time := rfl
@[simp] theorem State.draw_snd_kelric (s : State) : s.draw.2.kelric = s.kelric := rfl
@[simp] theorem State.draw_snd_regs (s : State) : s.draw.2.regs = s.regs := rfl
@[simp] theorem State.draw_snd_therm (s : State) : s.draw.2.therm = s.therm := rfl
@[simp] theorem State.draw_snd_eng (s : State) : s.draw.2.eng = s.eng := rfl
@[simp] theorem State.draw_snd_maint (s : State) : s.draw.2.maint = s.maint := rfl
@[simp] theorem State.draw_snd_weali (s : State) : s.draw.2.weali = s.weali := rfl
@[simp] theorem State.draw_snd_jtag (s : State) : s.draw.2.jtag = s.jtag := rfl

end Sys2Proof.Machine
end

