-- ==== Sys2Proof/Machine/Pins.lean ====
section
/-!
DEFINITION. The balls of the package and the levels of the signal pins as views of the state: the ballout (spec/23, R522 to R529), the
levels of outputs (spec/14, R381; spec/23, R531), and boundary scan (spec/23, R534; spec/08, R218).
-/

namespace Sys2Proof.Machine

/-! ### The ballout (R522 to R529) -/

/-- The supplies that have balls (R529). -/
inductive Supply where
  | vddCore | vddSram | vddaHp | vddhHp | vddqMc | vddMcphy | vddHbm | vppHbm | vddqHbm | vddIo | vddAon | vddioAon
deriving DecidableEq, Repr

/-- The signals of a media channel (R524); `tp` are the reserved balls. -/
inductive MediaSig where
  | dq (k : Nat) | dqsP (k : Nat) | dqsN (k : Nat) | ca (k : Nat) | ckP | ckN | cs (k : Nat) | alert | tp (k : Nat)
deriving DecidableEq, Repr

/-- What has lanes: a host port or a Dorosh link (R525). -/
inductive LaneOf where
  | port (n : Nat) | link (k : Nat)
deriving DecidableEq, Repr

/-- What a ball carries. `corner` is an item of R528's list. -/
inductive Ball where
  | vss
  | supply (v : Supply)
  | media (ch : Nat) (sig : MediaSig)
  | lane (of : LaneOf) (lane : Nat) (tx neg : Bool)
  | refclk (port : Option Nat) (neg : Bool)
  | corner (item : Nat)
deriving DecidableEq, Repr

/-- A ball of a channel's block by its local row and column (R524). -/
def mediaBall (ch i j : Nat) : Ball :=
  let m := Ball.media ch
  match i, j with
  | 4, 0 => m .ckP
  | 4, 1 => m .ckN
  | 4, 3 => m (.ca 4)
  | 4, 4 => m (.ca 5)
  | 4, 6 => m (.ca 6)
  | 4, 7 => m (.ca 7)
  | 5, 0 => m (.cs 0)
  | 5, 1 => m (.cs 1)
  | 5, 2 => m .alert
  | 5, 4 => .supply .vddMcphy
  | 5, 5 => m (.tp 0)
  | 5, 6 => m (.tp 1)
  | 5, 7 => m (.tp 2)
  | 1, 5 | 2, 5 | 4, 5 => .supply .vddqMc
  | 0, 6 => m (.dqsP 0)
  | 0, 7 => m (.dqsN 0)
  | 3, 6 => m (.dqsP 1)
  | 3, 7 => m (.dqsN 1)
  | 1, 6 => m (.ca 0)
  | 1, 7 => m (.ca 1)
  | 2, 6 => m (.ca 2)
  | 2, 7 => m (.ca 3)
  | i, 0 => m (.dq (4 * i))
  | i, 1 => m (.dq (4 * i + 1))
  | 4, _ | 5, _ => .vss
  | i, 3 => m (.dq (4 * i + 2))
  | i, 4 => m (.dq (4 * i + 3))
  | _, _ => .vss

/-- The owner and lane of lane `l` of a band (R525). -/
def bandLane (band l : Nat) : LaneOf × Nat :=
  match band with
  | 0 => (.port 0, l)
  | 1 => (.port 0, 8 + l)
  | 2 => (.port 1, l)
  | 3 => (.port 1, 8 + l)
  | 8 => (.port 2, l)
  | 9 => (.port 2, 8 + l)
  | 10 => (.port 3, l)
  | 11 => (.port 3, 8 + l)
  | b => (.link ((if b < 6 then 2 * (b - 4) else 4 + 2 * (b - 6)) + l / 4), l % 4)

/-- The supplies and clocks of columns 33 to 38 of a band (R526). -/
def bandSupply (band row m : Nat) : Ball :=
  match row, m with
  | 0, 0 | 0, 1 | 1, 4 | 2, 0 => .supply .vddaHp
  | 0, 3 | 0, 4 | 2, 2 => .supply .vddhHp
  | 1, 1 | 1, 2 =>
    let neg := m == 2
    match band with
    | 0 => .refclk (some 0) neg
    | 2 => .refclk (some 1) neg
    | 8 => .refclk (some 2) neg
    | 10 => .refclk (some 3) neg
    | 4 => .refclk none neg
    | _ => .vss
  | _, _ => .vss

/-- The supply of a core ball by its row and its number in the row (R527). -/
def coreSupply (r k : Nat) : Supply :=
  if r ≤ 30 then .vddCore
  else if r ≤ 32 then .vddSram
  else if r ≤ 34 then .vddHbm
  else if r = 35 then .vddqHbm
  else if k < 3 then .vppHbm
  else if k < 6 then .vddIo
  else if k < 8 then .vddAon
  else .vddioAon

/-- A corner ball by its number (R528). -/
def cornerBall (q : Nat) : Ball := if q % 4 = 3 then .vss else .corner (3 * (q / 4) + q % 4)

/-- What the ball at row index r and column c, both 1 to 54, carries (R522 to R528). -/
def ballAt (r c : Nat) : Ball :=
  let outer := c ≤ 16 ∨ 39 ≤ c
  if outer ∧ 4 ≤ r ∧ r ≤ 51 then
    let b := (r - 4) / 6
    let fromEdge := if c ≤ 16 then c - 1 else 54 - c
    mediaBall ((if c ≤ 16 then 0 else 16) + 2 * b + fromEdge / 8) ((r - 4) % 6) (fromEdge % 8)
  else if outer then
    let corner := (if r ≤ 3 then 0 else 2) + (if c ≤ 16 then 0 else 1)
    cornerBall (48 * corner + 16 * (if r ≤ 3 then r - 1 else r - 52) + (if c ≤ 16 then c - 1 else c - 39))
  else if 19 ≤ r ∧ r ≤ 36 then
    if (r + c) % 2 = 0 then .vss else .supply (coreSupply r ((c - 17) / 2))
  else
    let band := if r ≤ 18 then (r - 1) / 3 else 6 + (r - 37) / 3
    let row := if r ≤ 18 then (r - 1) % 3 else (r - 37) % 3
    if 33 ≤ c then bandSupply band row (c - 33)
    else if row = 1 then .vss
    else
      let (own, lane) := bandLane band ((c - 17) / 2)
      .lane own lane (row == 0) ((c - 17) % 2 == 1)

/-! ### Levels of outputs (R366, R381, R531) -/

/-- The level a pin of the controller drives. `idle`: the bus's own idle, whose electrical form R381 leaves to its interface. -/
inductive PinLevel where
  | z | low | high | idle
deriving DecidableEq, Repr

/-- A push-pull level. -/
def pinOf (b : Bool) : PinLevel := if b then .high else .low

/-- An open-drain level. -/
def pinPull (low : Bool) : PinLevel := if low then .low else .z

/-- ALERT_N is low: a Failure or Fatal record is not cleared, R349 holds, or a unit is below its minimum (R531). -/
def State.alertLow (s : State) : Bool :=
  s.host.logs.any (fun (k, l) => (k % 5 == 2 || k % 5 == 3) && !l.recs.isEmpty) || s.power.seq == .held || s.flag Reg.AVAIL_STAT.BELOW_MIN

/-- Are the media channels' I/O rails, or the lanes' rails, up (R345, R534)? -/
def State.vddqUp (s : State) : Bool := s.flag (Reg.PWR_RAIL.PG 5)
def State.vddhpUp (s : State) : Bool := s.flag (Reg.PWR_RAIL.PG 2) && s.flag (Reg.PWR_RAIL.PG 4)

/-- The level of an output of the supervisor, by its item of R528, none for other balls (R366, R381, R531). -/
def State.supervisorPin (s : State) (item : Nat) : Option PinLevel :=
  if item < 24 then some (pinOf (s.flag (Reg.PWR_RAIL.EN item)))
  else match item with
  | 67 => some (pinOf (s.flag Reg.HU_STAT.CHG))
  | 68 => some (pinOf (s.flag Reg.HU_STAT.HOLD))
  | 69 => some (pinOf s.power.capTestPin)
  | 70 => some (pinPull s.power.pfwLow)
  | 71 | 72 | 73 | 74 | 75 => some (pinOf (!s.flag (Reg.RST_CFG.LOW (item - 71))))
  | 115 => some .low
  | 116 => some .high
  | 125 => some (if s.seqRole = 1 then .idle else .z)
  | 126 | 127 | 128 | 129 | 130 | 131 | 132 => some .z
  | 139 => some .high
  | 141 => some (pinPull s.alertLow)
  | _ => none

/-- The level of a supervisor output in reset, before its step (R381). -/
def resetPin (item : Nat) : PinLevel :=
  if item < 24 then .low
  else match item with
  | 67 | 68 | 69 | 71 | 72 | 73 | 74 | 75 | 115 => .low
  | 116 | 139 => .high
  | _ => .z

/-! ### Boundary scan (R218, R534) -/

/-- Is the ball in the boundary-scan register: every signal ball but XTAL, the sense and the sensor balls (R534)? -/
def Ball.scanned : Ball → Bool
  | .vss | .supply _ => false
  | .media _ (.tp _) => false
  | .media _ _ | .lane _ _ _ _ | .refclk _ _ => true
  | .corner k => !(decide (48 ≤ k) && decide (k ≤ 66)) && !(decide (81 ≤ k) && decide (k ≤ 112)) && k != 142 && k != 143

/-- Has the ball the AC test of IEEE 1149.6 (R534)? -/
def Ball.acTest : Ball → Bool
  | .lane _ _ _ _ => true
  | _ => false

/-- Does boundary scan act on the ball: the media channels' and the lanes' only while their rails are up (R534)? -/
def State.scanActs (s : State) (b : Ball) : Bool :=
  b.scanned && (match b with
    | .media _ _ => s.vddqUp
    | .lane _ _ _ _ | .refclk _ _ => s.vddhpUp
    | _ => true)

/-- May boundary scan drive the ball high: never PWR_EN, HOLD_EN or CAP_TEST in DEPLOYED or DECOMMISSIONED (R534)? -/
def State.scanMayRaise (s : State) (b : Ball) : Bool :=
  decide (s.keys.lifecycle < 2) || !(match b with
    | .corner k => decide (k < 24) || k == 68 || k == 69
    | _ => false)

/-- JTAG debug beside boundary scan: open in MANUFACTURE, after authentication in PROVISIONED, else not at all (R218). -/
def State.jtagDebug (s : State) (authenticated : Bool) : Bool :=
  s.keys.lifecycle == 0 || (s.keys.lifecycle == 1 && authenticated)

/-- The level the controller drives on a ball with no boundary scan in use (R381). -/
def State.plainPin (s : State) (b : Ball) : PinLevel :=
  match b with
  | .corner k => (s.supervisorPin k).getD .z
  | .media _ _ => if s.vddqUp then .idle else .z
  | .lane _ _ tx _ => if tx then .idle else .z
  | _ => .z

/-- The level on the ball at (r, c): what EXTEST selects, where boundary scan may act; else supervisor outputs at their reset levels
while boundary scan is in use; else the controller's own (R381, R534). -/
def State.pinAt (s : State) (r c : Nat) : PinLevel :=
  let b := ballAt r c
  if !s.jtag.scan then s.plainPin b
  else match (if s.jtag.extest && s.scanActs b then mget none s.jtag.reg (54 * (r - 1) + (c - 1)) else none) with
    | some v => pinOf (v && s.scanMayRaise b)
    | none => match b with
      | .corner k => if (s.supervisorPin k).isSome then resetPin k else s.plainPin b
      | _ => s.plainPin b

end Sys2Proof.Machine
end

