-- ==== Sys2Proof/Tests/Slice0.lean ====
section
/-!
SUPPORT. The model's own tests: ill-formed commands refused, the spec's worked examples and single steps on small states, and for every
statement with hypotheses a witness that meets them (`witness_<statement>`, clause by clause where it has several).
-/

namespace Sys2Proof.Tests

open Sys2Proof Sys2Proof.Machine

-- one theorem after the other: each asks the kernel to evaluate the machine
set_option Elab.async false

/-- A device that is up: the mailboxes are open and memory is active. -/
def up : State := { host := { mailbox := true, memActive := true } }

/-- One block of static capacity of LD 0, its decoder 0 committed over the block, and head 0 up. -/
def served : State :=
  let d : Decoder := { committed := true, cfg := ⟨0, 0x10000000, 1, 4096, 0, 0, false⟩ }
  let h : HostSt := { mailbox := true, memActive := true, blocks := [(0, { kind := 1 })], decoders := [(0, d)] }
  let s : State := { host := h, power := { budget := 100 } }
  s.setF (Reg.HP_HEAD_STAT.LINK_UP 0) 1

/-! ### Witnesses: the mailbox -/

theorem witness_MailboxReadsAnswerAndChangeNothing :
    (∀ opc ∈ [0x0001, 0x0100, 0x0102, 0x0200, 0x0300, 0x0400, 0x0401, 0x4200, 0x4000, 0x4100, 0x4102, 0x4201, 0x4203, 0x4300, 0x4303, 0x4305,
        0x4800, 0x4801], up.pathReady (.mailbox 63) opc = true)
      ∧ up.pathReady (.mgmtFm 7) 0x0003 = true ∧ mgmtPath (.mgmtFm 7) = true ∧ pathLd (.mailbox 63) = some 63
      -- the last bytes of the label area, the longest read, and a poison list from a line's address
      ∧ (65536#32).toNat + (65536#32).toNat ≤ 131072 ∧ (65536#32).toNat ≤ 65536 ∧ (64#64).toNat % 64 = 0
      ∧ (0#32).toNat + (0#32).toNat ≤ up.sillLog.length := by decide +kernel

theorem witness_MailboxSettingsAreRecorded :
    (∀ opc ∈ [0x0101, 0x0103, 0x0301, 0x4101, 0x4202, 0x4204, 0x4103, 0x0005, 0x0002], up.pathReady (.mailbox 0) opc = true)
      ∧ pathLd (.mailbox 0) = some 0 ∧ up.pathReady (.mgmt 0) 0x0004 = true ∧ mgmtPath (.mgmt 0) = true
      ∧ (8 ≤ (8#8).toNat ∧ (8#8).toNat ≤ 16) ∧ (8 ≤ (16#8).toNat ∧ (16#8).toNat ≤ 16)
      ∧ (131068#32).toNat + ([1, 2, 3, 4] : List Byte).length ≤ 131072
      ∧ (mget {} up.host.bgs (pathFn (pathNo (.mailbox 0)))).opc = 0 := by decide +kernel

/-- A patch image is staged and checked, and two spare engines are there. -/
def patched : State :=
  let s : State := { host := { mailbox := true, memActive := true }, maint := { staged := { checked := true } } }
  (s.setF (Reg.ENG_STAT.ROLE 62) 5).setF (Reg.ENG_STAT.ROLE 63) 5

theorem witness_MailboxBackgroundCommandsStart :
    (up.host.mailbox = true ∧ (mget {} up.host.mbox 0).busy = false ∧ 0xC0F2 ∈ stdOpcodes ++ kOpcodes ∧ (65536#21).toNat ≤ 65536)
      ∧ (up.pathReady (.mailbox 0) 0x0201 = true ∧ up.bgHeld 0 = false ∧ up.stageStatus 0 (128 * (0#32).toNat) [1] = kOk)
      ∧ (patched.pathReady (.mailbox 0) 0x0202 = true ∧ patched.bgHeld 0 = false ∧ patched.activateStatus = kOk)
      ∧ (up.pathReady (.mailbox 0) 0x4304 = true ∧ up.pathReady (.mailbox 0) 0x4400 = true ∧ up.pathReady (.mailbox 0) 0x4401 = true
          ∧ up.host.memActive = true ∧ (0#64).toNat % 64 = 0 ∧ (1#64) ≠ 0
          ∧ served.discCheck (lsnsOf (served.ldRuns 0 (fun b => b.kind != 0 && !b.releasing))) = kOk) := by decide +kernel

theorem witness_MailboxBackgroundCommandsStart_end :
    let s : State := { host := { mailbox := true, bgs := [(0, { path := 0, opc := 0x4400, res := some (.success, []) })] } }
    let b := mget {} s.host.bgs (pathFn (pathNo (.mailbox 0)))
    s.keys.lcWait = none ∧ b.opc ≠ 0 ∧ b.path = pathNo (.mailbox 0) ∧ b.res = some (.success, []) ∧ b.opc ≠ 0x4304 ∧ s.power.restart = false := by
  decide +kernel

theorem witness_SetLsaStoresExactlyItsBytes :
    pathLd (.mailbox 63) = some 63 ∧ up.pathReady (.mailbox 63) 0x4103 = true ∧ (131071#32).toNat + ([7] : List Byte).length ≤ 131072 := by
  decide +kernel

/-! ### Witnesses: hosts and capacity -/

/-- A BISnp under way on head 0 with tag 63. -/
def snooping : State :=
  let n : Snoop := { dest := .slot 0, inv := true, sent := true, tag := 63 }
  { home := { act := [{ req := { src := .own 0, op := .wrI }, phase := .snoop, snoops := [n] }] } }

theorem witness_HostRequestsReachTheHome :
    (served.headUp 0 = true ∧ (mget {} served.host.heads 0).ideNeeded = false ∧ served.keys.wipeFilled = false
      ∧ served.headLd 0 0 = some 0 ∧ served.hpaToDpa 0 0x0FFFFFC0 = some 0x0FFFFFC0 ∧ served.dpaKey 0 0x0FFFFFC0 = some 0x3FFFFF
      ∧ served.mirrorCopy (ltnSeg (keyTile 0x3FFFFF)) = false)
    ∧ (snooping.snoopOf 0 63).isSome = true
    ∧ (up.setF (Reg.COH_SLOT.PURGING 31) 1).flag (Reg.COH_SLOT.PURGING 31) = true
    ∧ ((mget {} served.host.heads 0).rwdOut < 256 ∧ served.creditHeld 0 = false ∧ served.creditRoom = true)
    ∧ (let s := served.setF (Reg.DF_LINK.STATE 7) 3
       s.getF (Reg.DF_LINK.STATE 7) = 3 ∧ s.creditHeld (8 + 7) = false ∧ s.creditRoom = true) := by decide +kernel

theorem witness_CreditIsGrantedWithinTheBudget :
    served.writeThrough = false ∧ served.keys.wipeFilled = false
      ∧ ∃ t, exec (.writeCreditGrant (.head 0)) served = .next t ∧ (mget {} t.host.heads 0).rwdOut ≠ (mget {} served.host.heads 0).rwdOut := by
  refine ⟨by decide +kernel, by decide +kernel, _, rfl, by decide +kernel⟩

theorem witness_CreditIsGrantedWithinTheBudget_writeThrough :
    let s := served.setF Reg.WP_CONFIG.WT_FORCE 1
    s.writeThrough = true ∧ s.keys.wipeFilled = false
      ∧ ∃ t, exec (.writeCreditGrant (.head 0)) s = .next t ∧ (mget {} t.host.heads 0).rwdOut ≠ (mget {} s.host.heads 0).rwdOut := by
  refine ⟨by decide +kernel, by decide +kernel, _, rfl, by decide +kernel⟩

/-- LD 0 has been offered one block of region 0, and has accepted another. -/
def offered : State :=
  let taken : List (Nat × Block) := [(0, { kind := 2, num := 0, ready := true }), (1, { kind := 2, num := 1 })]
  let offer : DcAdd := { ld := 0, region := 0, extents := [⟨0, 1, 1⟩], blocks := [1] }
  { host := { mailbox := true, memActive := true, blocks := taken, dcOffers := [offer], dcExtents := [(0, ⟨0, 0, 1⟩)] } }

theorem witness_CapacityCommandsMoveBlocks :
    -- static capacity: exactly what the LD has already, the boundary of the clause
    (served.keys.lifecycle ≠ 3 ∧ (served.host.blocks.filter (fun (_, b) => b.kind == 1 && b.ld == 0 && !b.releasing)).length ≤ (1#18).toNat)
    -- an offer of the last block of region 1
    ∧ (let s := up.setF Reg.MEDIA_GEOM.PKG_PER_CH 1
       let e : DcExtent := ⟨1, BitVec.ofNat 17 (dcBlocks - 1), 1⟩
       s.keys.lifecycle ≠ 3 ∧ s.importOf 0 1 e = false ∧ s.importMeets 0 1 e = false ∧ e.count ≠ 0 ∧ e.region = 1
        ∧ e.first.toNat + e.count.toNat ≤ dcBlocks ∧ (∀ o ∈ s.regionExtents 0 1, extMeets o e = false) ∧ s.host.blocks = []
        ∧ (s.regionExtents 0 1).length < 256 ∧ e.count.toNat ≤ s.freeBlockCount)
    -- accepted
    ∧ (pathLd (.mailbox 0) = some 0 ∧ offered.pathReady (.mailbox 0) 0x4802 = true
        ∧ (offered.host.dcOffers.find? (fun o => o.ld == 0)).map (·.extents) = some [⟨0, 1, 1⟩] ∧ extWithin ⟨0, 1, 1⟩ ⟨0, 1, 1⟩ = true
        ∧ (offered.host.dcExtents.filter (fun x => x.1 == 0 && x.2.region.val == 0)).length + 1 ≤ 256)
    -- released
    ∧ (offered.pathReady (.mailbox 0) 0x4803 = true ∧ offered.host.memActive = true
        ∧ (offered.host.dcExtents.filter (fun x => x.1 == 0)).map (·.2) = [⟨0, 0, 1⟩] ∧ extWithin ⟨0, 0, 1⟩ ⟨0, 0, 1⟩ = true
        ∧ (∀ b ∈ offered.extBlocks 0 ⟨0, 0, 1⟩, offered.blockCask b = false) ∧ offered.extBlocks 0 ⟨0, 0, 1⟩ = [0])
    -- poison
    ∧ (served.pathReady (.mailbox 0) 0x4301 = true ∧ served.pathReady (.mailbox 0) 0x4302 = true ∧ (0x0FFFFFC0#64).toNat % 64 = 0
        ∧ served.dpaKey 0 (0x0FFFFFC0#64).toNat = some 0x3FFFFF ∧ 0x3FFFFF < 2 ^ 39 ∧ served.mirrorCopy (ltnSeg (keyTile 0x3FFFFF)) = false)
    -- CXL Reset with memory cleared
    ∧ (((up.dropDecoders 0).dropQueues (· == 0)).host.memActive = true ∧ ((up.dropDecoders 0).dropQueues (· == 0)).inDrydown = false) := by
  decide +kernel

theorem witness_HeadEventsTakeEffect :
    (snooping.snoopOf 0 63).isSome = true
    ∧ (up.setF (Reg.HP_HEAD_STAT.IDE_ACTIVE 7) 1).flag (Reg.HP_HEAD_STAT.IDE_ACTIVE 7) = true
    ∧ (let s := up.setF (Reg.HP_HEAD_STAT.IN_RESET 0) 0
       s.headExists 0 = true ∧ s.flag (Reg.HP_HEAD_STAT.IN_RESET 0) = false ∧ s.headUp 0 = false ∧ s.host.mailbox = true
        ∧ s.host.refAbsent.getLsbD 0 = false)
    ∧ served.headUp 0 = true
    ∧ ({ host := { perst := 8 } } : State).host.perst.getLsbD 3 = true ∧ up.host.perst.getLsbD 3 = false
    ∧ up.keys.wiped = false
    ∧ (let s : State := { keys := { sessions := [{ id := 5, at_ := .smbus 0 }] } }
       (∃ x ∈ s.keys.sessions, x.id = 5) ∧ s.keys.wiped = false) := by decide +kernel


/-! ### Witnesses: the cache and the map -/

theorem witness_CacheEventsTakeEffect :
    (let s : State := { cache := { tagReads := [2 * (0xFFFFFF#24).toNat + b2n true] } }
     2 * (0xFFFFFF#24).toNat + b2n true ∈ s.cache.tagReads)
    ∧ (let s : State := { cache := { mash := [{ ltn := 5, valid := 14 }] } }
       s.mashOf (5#37).toNat = some { ltn := 5, valid := 14 } ∧ (14#4) ≠ 15)
    -- a budget of nothing starts the cleaner and stops it
    ∧ up.budget * up.cleanHi ≤ up.charge * 100 ∧ up.charge * 100 ≤ up.budget * up.cleanLo
    ∧ (let d1 : Disabling := { ld := 63, phase := .firstClean, left := [9] }
       let d2 : Disabling := { ld := 0, phase := .holdClean }
       let s : State := { cache := { disabling := [d1, d2] } }
       s.cache.disabling.find? (fun d => d.ld == 63) = some d1 ∧ (∀ t ∈ d1.left, s.progOf t = false) ∧ d1.phase = .firstClean
        ∧ s.cache.disabling.find? (fun d => d.ld == 0) = some d2 ∧ (∀ t ∈ d2.left, s.progOf t = false) ∧ d2.phase = .holdClean)
    ∧ (let s : State := { cache := { wayTarget := some 8 } }
       s.cache.wayTarget = some 8 ∧ s.cache.waking = false ∧ s.wayWalk.departing = [])
    ∧ (let s : State := { cache := { wayTarget := some 12, waking := true } }
       s.cache.wayTarget = some 12 ∧ s.cache.waking = true)
    ∧ (let j : RangeJob := { op := .flush, started := true }
       let s : State := { cache := { jobs := [j] } }
       s.cache.jobs = j :: [] ∧ j.started = true ∧ j.left = [] ∧ j.late = []) := by decide +kernel

/-- Segment 7 is mapped to the last data slot of die set 0. -/
def mapped : State :=
  { host := { mailbox := true, memActive := true }, patrol := { pop := 1 }, map := { entries := [(7, { psn := 393215, state := stMapped })] } }

theorem witness_MapEventsTakeEffect :
    -- the period has just passed, with no checkpoint under way and with one
    (let s : State := { ft := up.ckptPeriod * 2 ^ 20 }
     s.map.ckptLast + s.ckptPeriod ≤ s.ft / 2 ^ 20 ∧ s.map.ckptBusy = false)
    ∧ (let s : State := { ft := up.ckptPeriod * 2 ^ 20, map := { ckptBusy := true } }
       s.map.ckptLast + s.ckptPeriod ≤ s.ft / 2 ^ 20 ∧ s.map.ckptBusy = true)
    ∧ (let s : State := { map := { ckptBusy := true } }
       s.map.ckptBusy = true ∧ (∀ p ∈ s.progs.list, p.why ≠ .checkpoint) ∧ s.map.ckptDue = false)
    ∧ (let s : State := { mapped with map := { mapped.map with copyWait := [(7, .patrol)] } }
       s.map.copyWait.find? (fun w => w.1 == (7#25).toNat) = some (7, .patrol) ∧ s.copyMayStart 7 .patrol = true)
    ∧ (let c1 : Copy := { lsn := 7, target := 1, source := 393215, why := .patrol, redo := 1, pass := 1 }
       let c2 : Copy := { lsn := 8, target := 2, source := 3, why := .patrol }
       let s : State := { map := { copies := [c1, c2] } }
       s.map.copies.find? (fun c => c.lsn == 7) = some c1 ∧ c1.pend = 0 ∧ c1.out = [] ∧ c1.redo ≠ 0
        ∧ s.map.copies.find? (fun c => c.lsn == 8) = some c2 ∧ c2.pend = 0 ∧ c2.out = [] ∧ c2.redo = 0
        ∧ (∀ p ∈ s.progs.list, ¬ (p.why.user? = true ∧ ltnSeg p.ltn = 8 ∧ p.psn = c2.source ∧ p.granted = true)))
    ∧ (let k : Marking := { psn := 0, waiting := true, since := 0 }
       let s : State := { map := { marks := [k] }, ft := 2 ^ 22 }
       s.map.marks.find? (fun k => k.psn == 0) = some k ∧ s.markMayStart k = true)
    ∧ (let s : State := { mapped with map := { mapped.map with pcount := [(393215, 4096 * endure)] } }
       (s.entry 7).state = stMapped ∧ (s.entry 7).psn ≠ noPsn ∧ endure ≤ s.pcount (s.entry 7).psn)
    ∧ (let s : State := { mapped with map := { mapped.map with rekeys := [{ lsn := 7, cls := 1 }] } }
       (s.map.rekeyRun.filter (fun r => psnSet (s.entry r.lsn).psn / 32 == 0)).length < s.rekeyMax
        ∧ s.rekeyNext 0 = some { lsn := 7, cls := 1 })
    ∧ (let r : RekeyRun := { lsn := 7, next := 4096 }
       let s : State := { map := { rekeyRun := [r] } }
       s.map.rekeyRun.find? (fun r => r.lsn == 7) = some r ∧ 4096 ≤ r.next ∧ r.out = []) := by decide +kernel

/-! ### Witnesses: reads and programs -/

/-- A device whose tile 0 of segment 7 is being read for a request. -/
def reading (r : Reg) : State := { mapped with reads := { regs := [r] } }

/-- The eight data chunks of a discarded tile of generation 0, as kept decodes. -/
def discardedChunks : List ChunkSt :=
  let f : FieldBlock := { tag := 0, wcount := 0, keyver := 0, poison := 0, discard := true, fmt := 1, achk := 0 }
  (List.range 8).map (fun k => { seen := true, dec := some (dataMessage 0 f.bits k, 0) }) ++ [({} : ChunkSt), {}]

theorem witness_ReadPathEventsTakeEffect_map :
    (let r : Reg := { key := .logical 0, why := .demand, phase := .map }
     let s : State := { reads := { regs := [r] }, map := { entries := [(0, { psn := noPsn, state := stDiscarded })] } }
     s.regOf (.logical 0) = some r ∧ r.phase = .map ∧ (s.entryNow (ltnSeg (0#37).toNat)).state = stDiscarded)
    ∧ (let r : Reg := { key := .logical 28672, why := .demand, phase := .map }
       let s := reading r
       let e := s.entryNow (ltnSeg (28672#37).toNat)
       let take := fun (r : Reg) => { r with psn := e.psn, keyidx := e.keyidx, keyver := e.keyver, tMap := s.ft }
       let u := (s.modReg r.key take).prefetch (take r) (28672#37).toNat
       s.regOf (.logical 28672) = some r ∧ r.phase = .map ∧ e.state ≠ stDiscarded ∧ ¬ (e.state = stWorn ∧ e.psn = noPsn)
        ∧ e.onMedium = true ∧ u.keyLocked e.keyidx = false) := by decide +kernel

theorem witness_ReadPathEventsTakeEffect_admit :
    let r : Reg := { key := .logical 28672, why := .demand, phase := .issue, psn := 393215 }
    let s := reading r
    let u := s.latchReg r
    ∃ q, s.regOf (.logical 28672) = some r ∧ r.phase = .issue ∧ u.regOf (.logical 28672) = some q ∧ s.fromSource r = none
      ∧ u.chanRoom q (if q.why = .counter ∧ q.job = 0 then u.counterChunks q else u.roundReads q) = true :=
  ⟨_, rfl, rfl, rfl, by decide +kernel, by decide +kernel⟩

theorem witness_ReadPathEventsTakeEffect_chunk :
    (let r : Reg := { key := .logical 0, why := .demand, phase := .reading, chunks := [{ die := 1023, out := 1 }] }
     let s := reading r
     s.reads.regs.find? (fun r => (r.t % 16 == (0 : Fin 16).val && chunkIndex (psnSlot r.psn) r.t == (0#27).toNat)
        && r.chunks.any (fun c => c.die == 32 * (31 : Fin 32).val + (31 : Fin 32).val && decide (0 < c.out))) = some r
      ∧ drefNearest (BitVec.ofNat 320 (drefBits 3 * 2 ^ 272)).toNat = [3])
    ∧ (let r : Reg := { key := .logical 5, why := .demand, phase := .resend }
       (reading r).regOf (.logical 5) = some r ∧ r.phase = .resend) := by decide +kernel

/-- The tile that an attempt opened. -/
def okTile (x : Found × Option FieldBlock) : Tile := match x.1 with | .ok p _ _ => p | _ => 0

/-- An attempt that succeeded, as the equation the statements name. -/
theorem attempt_found (x : Found × Option FieldBlock) (h : (match x.1 with | .ok _ _ _ => true | _ => false) = true) :
    ∃ p c f fields, x = (.ok p c f, fields) := by
  obtain ⟨y, z⟩ := x
  cases y with
  | ok p c f => exact ⟨p, c, f, z, rfl⟩
  | _ => cases h

/-- A check holds where no error is injected, and fails where one is. -/
theorem crcGood_eq (s : State) (point unit : Nat) (t : Tile) (ltn : Nat) : s.crcGood point unit t ltn = !s.crcArmed point unit := by
  unfold State.crcGood State.carriedCrc
  cases s.crcArmed point unit
  · simp
  · simp only [if_true, Bool.not_true, beq_eq_false_iff_ne]
    intro e
    have := congrArg (·.getLsbD 0) e
    simp at this

theorem witness_ReadPathEventsTakeEffect_attempt :
    let r : Reg := { key := .logical 28672, why := .demand, phase := .reading, round := 2, psn := 393215, chunks := discardedChunks }
    let a : Reg := { r with key := .physical 393215 0 }
    let s := reading r
    let armed := (s.setF Reg.CRC_INJECT.ARM 1).setF Reg.CRC_INJECT.POINT 3
    (s.regOf (.logical 28672) = some r ∧ r.phase = .reading ∧ r.waiting = false ∧ r.why ≠ .counter)
      ∧ (∃ p c f fields, s.attempt r r.kept (s.allRead r) = (.ok p c f, fields))
      ∧ (∃ p c f fields, (reading a).attempt a a.kept ((reading a).allRead a) = (.ok p c f, fields))
      -- the check at the cache writer holds, and fails where an error is injected there
      ∧ (s.tallyOpen r (s.attempt r r.kept (s.allRead r))).crcGood 3 0 (okTile (s.attempt r r.kept (s.allRead r))) 28672 = true
      ∧ (armed.tallyOpen r (armed.attempt r r.kept (armed.allRead r))).crcGood 3 0 (okTile (armed.attempt r r.kept (armed.allRead r))) 28672 = false :=
  ⟨by decide +kernel, attempt_found _ (by decide +kernel), attempt_found _ (by decide +kernel),
    (crcGood_eq _ _ _ _ _).trans (by decide +kernel), (crcGood_eq _ _ _ _ _).trans (by decide +kernel)⟩

theorem witness_ReadPathEventsTakeEffect_deep :
    (let r : Reg := { key := .logical 0, why := .demand, phase := .deepWait }
     let s := reading r
     s.regOf (.logical 0) = some r ∧ r.phase = .deepWait ∧ s.deepFull r = false)
    -- the limit of recoveries reached
    ∧ (let r : Reg := { key := .logical 0, why := .demand, phase := .deepWait }
       let run : List Reg := (List.range 64).map (fun k => { key := .logical (BitVec.ofNat 37 (k + 1)), why := .demand, phase := .deep })
       let s : State := { reads := { regs := r :: run } }
       s.regOf (.logical 0) = some r ∧ r.phase = .deepWait ∧ s.deepFull r = true)
    ∧ (let r : Reg := { key := .logical 0, why := .demand, phase := .deep, swept := true }
       (reading r).regOf (.logical 0) = some r ∧ r.phase = .deep ∧ r.swept = true ∧ r.waiting = false)
    ∧ (let c : ChunkSt := { seen := true, dec := some (0, 0), gen := 0 }
       let r : Reg := { key := .logical 0, why := .counter, phase := .reading, chunks := List.replicate 8 c }
       (reading r).regOf (.logical 0) = some r ∧ r.why = .counter ∧ r.job = 0 ∧ r.phase = .reading ∧ r.waiting = false
        ∧ ([4, 5, 6, 7].map (fun i => r.chunks.getD i {})).all (fun c => c.seen && c.dec.isSome
          && c.gen == (counterFields ([4, 5, 6, 7].map (fun i => r.chunks.getD i {}))).wcount.toNat % 4) = true) := by decide +kernel

theorem witness_ReadPathEventsTakeEffect_deepEnd :
    let r : Reg := { key := .logical 28672, why := .demand, phase := .deep, swept := true, psn := 393215, chunks := discardedChunks }
    let s := reading r
    let u := (s.modReads (fun x => { x with holds := x.holds.filter (fun h => h.2 != r.key) })).resumePaused
    let cs := r.chunks.map (fun c => if c.dec.isSome || c.raws.isEmpty then c
      else { c with dec := trialDecode (gravSpan r.grav) c.raws })
    let q := { r with chunks := cs }
    let u := u.modReg r.key (fun x => { x with chunks := cs })
    let decoded := (List.range 10).filter (fun i => (cs.getD i {}).dec.isSome)
    let tries := (leftOut decoded).map (fun out => u.attempt q (q.kept.zipIdx.map (fun (c, i) => if out.contains i then none else c)) true)
    s.regOf (.logical 28672) = some r ∧ r.waiting = false
      ∧ (tries.findSome? (fun x => match x.1 with | .ok p c f => some (p, c, f) | _ => none)).isSome = true := by decide +kernel

/-- Die set 0 has its ten dies. -/
def members (s : State) : State :=
  (List.range 10).foldl (fun (t : State) m => ((t.setF (Reg.DIESET_MEMBER.VALID 0 m) 1).setF (Reg.DIESET_MEMBER.CHANNEL 0 m) m)) s

theorem witness_WritePathEventsTakeEffect :
    (let p : Prog := { id := 1, why := .evict, cls := 2, ltn := 28672, psn := 15, phase := .ready }
     let s := members { mapped with progs := { list := [p] } }
     (s.holder 0 0).isSome = false ∧ (s.dropStale 0 0).firstFor 0 0 = some p
      ∧ (p.why.user? && p.why != .pinned && ((s.dropStale 0 0).entry (ltnSeg p.ltn)).state == stWorn) = false)
    ∧ (let p : Prog := { id := 1, why := .evict, cls := 2, ltn := 28672, psn := 15, phase := .ready }
       let s := members { mapped with map := { entries := [(7, { psn := 15, state := stWorn })] }, progs := { list := [p] } }
       (s.holder 0 0).isSome = false ∧ (s.dropStale 0 0).firstFor 0 0 = some p
        ∧ (p.why.user? && p.why != .pinned && ((s.dropStale 0 0).entry (ltnSeg p.ltn)).state == stWorn) = true)
    ∧ (let p : Prog := { id := 1, why := .evict, cls := 2, phase := .wave, pend := [0] }
       let s := members { mapped with progs := { list := [p] } }
       s.dieChunks (32 * (0 : Fin 32).val + 0) ≠ []
        ∧ ((s.dieChunks (32 * (0 : Fin 32).val + (0 : Fin 32).val)).find? (fun (_, _, p) => p == (0 : Fin 16).val)) = some (1, 0, 0))
    ∧ (up.responseCheck 0 3 (responseOk (0#64).toNat 8)).1 = true := by decide +kernel

/-! ### Witnesses: the patrol and time -/

theorem witness_PatrolAndSparingEventsTakeEffect :
    (31 ∈ ({ patrol := { alerts := [31] } } : State).patrol.alerts)
    ∧ (let s : State := { progs := { retrain := [31, 0] }, patrol := { retries := [(31, 2)] } }
       31 ∈ s.progs.retrain ∧ 3 ≤ mget 0 s.patrol.retries 31 + 1 ∧ 0 ∈ s.progs.retrain ∧ mget 0 s.patrol.retries 0 + 1 < 3)
    ∧ (let s : State := { map := { loaded := true } }
       s.map.loaded = true ∧ s.setPresent 95 = true ∧ s.inDrydown = false)
    ∧ (let s : State := { patrol := { accelOn := true, accel := (List.range 96).map (fun d => (d, slotsPerSet * 4096)) } }
       s.patrol.accelOn = true ∧ ∀ d, d < 96 → s.setPresent d = true → s.patrolSeek d true (mget 0 s.patrol.accel d) (slotsPerSet + 1) = none)
    ∧ (up.setF Reg.RP_CONFIG.AUTO_CAL 1).flag Reg.RP_CONFIG.AUTO_CAL = true := by decide +kernel

/-- A SYNC frame on link 0 as its receiver expects it next. -/
def syncFrame : Frame := { link := 0, hdr := BitVec.ofNat 128 (0xFFF + 5 * 2 ^ 24 + 3 * 2 ^ 28), tagOk := true }

/-- A SYNC body of grandmaster 6 of class 3, the peer's first frame after the one known, sent 1,000 units after this node's. -/
def syncBody : Nat := 1 + 6 * 2 ^ 4 + 3 * 2 ^ 16 + 2 ^ 24 + 1000 * 2 ^ 136

theorem witness_TimeEventsTakeEffect :
    (let s : State := { time := { code := some (2 ^ 20, 1, false) } }
     s.time.code = some (2 ^ 20, 1, false) ∧ (s.setF Reg.TIME_CFG.FTSYNC_EN 1).time.code = some (2 ^ 20, 1, false)
      ∧ ((s.setF Reg.TIME_CFG.FTSYNC_EN 0).setF Reg.FTSYNC_OFFSET.OFFSET (satOffset (((2 ^ 20 : Nat) : Int) - s.ft))).flag Reg.TIME_CFG.FTSYNC_EN = false
      ∧ ((s.setF Reg.TIME_CFG.FTSYNC_EN 1).setF Reg.FTSYNC_OFFSET.OFFSET (satOffset (((2 ^ 20 : Nat) : Int) - s.ft))).flag Reg.TIME_CFG.FTSYNC_EN = true)
    ∧ (let word := BitVec.ofNat 98 (2 * (5 + codeCrc 5 * 2 ^ 80) + 2 ^ 97)
       let d := bitsOf word.toNat 1 96
       word.getLsbD 0 = false ∧ word.getLsbD 97 = true ∧ bitsOf d 73 7 = 0 ∧ bitsOf d 80 16 = codeCrc d)
    ∧ (up.setF Reg.TIME_CFG.SYNC_OUT_EN 1).flag Reg.TIME_CFG.SYNC_OUT_EN = true
    ∧ (up.setF Reg.TIME_CFG.PTM_EN 1).flag Reg.TIME_CFG.PTM_EN = true
    -- a first frame, and one that completes an exchange with the parent
    ∧ (let s := up.setF (Reg.DF_LINK.STATE 0) 3
       (s.linkAccept syncFrame 5 [3] 2 (1#256).toNat).1 = true ∧ bitsOf (1#256).toNat 0 4 = 1 ∧ bitsOf (1#256).toNat 216 40 = 0
        ∧ ({} : SyncLink).exchange (1#256).toNat = none)
    ∧ (let s : State := { up.setF (Reg.DF_LINK.STATE 0) 3 with time := { links := [(0, { seen := true })] } }
       let u := (s.linkAccept syncFrame 5 [3] 2 syncBody).2
       let v := (u.modTime (fun t => { t with links := mset {} t.links 0 ((mget {} t.links 0 : SyncLink).heard syncBody u.ftFine.toNat) })).timeChoose
       (s.linkAccept syncFrame 5 [3] 2 syncBody).1 = true ∧ bitsOf syncBody 0 4 = 1 ∧ bitsOf syncBody 216 40 = 0
        ∧ v.time.parent = some 0 ∧ (mget {} u.time.links 0 : SyncLink).exchange syncBody = some (500, 500))
    ∧ (let s : State := { time := { step := some 5 }, ft := 4 }
       s.time.step = some 5 ∧ s.ft < 5) := by decide +kernel


/-! ### Witnesses: casks -/

/-- A domain of two nodes, whose coordinator is node 5. -/
def dom56 : CaskDom := { id := 9, state := 1, period := 1, nodes := [6, 5], begun := true, epoch := 3 }

/-- A node that knows it, with link 0 UP. -/
def member (n : Nat) : State :=
  let s : State := { cask := { doms := [(0, dom56)] } }
  (s.setF Reg.DF_NODE.NODE_ID n).setF (Reg.DF_LINK.STATE 0) 3

/-- A CASK frame and body of a kind from a node. -/
def caskFrame (src : Nat) : Frame := { link := 0, hdr := BitVec.ofNat 128 (0xFFF + src * 2 ^ 12 + 6 * 2 ^ 24 + 3 * 2 ^ 28), tagOk := true }
/-- Its body. -/
def caskBody (kind : Nat) : BitVec 256 := 
  BitVec.ofNat 256 (kind + 9 * 2 ^ 4 + (if [5, 6, 7, 10].contains kind then 0 else 2) * 2 ^ 36 + dom56.hash * 2 ^ 128)

theorem witness_CaskMessagesTakeEffect :
    -- at the coordinator from the other member
    (∀ k ∈ [1, 3, 5], ((member 5).caskTake (caskFrame 6) (caskBody k) k).1 = some 0
      ∧ (((member 5).caskTake (caskFrame 6) (caskBody k) k).2.dom 0).coord = ((member 5).caskTake (caskFrame 6) (caskBody k) k).2.nodeId
      ∧ (((member 5).caskTake (caskFrame 6) (caskBody k) k).2.dom 0).live = true)
    -- at the other member from the coordinator
    ∧ (∀ k ∈ [2, 4, 6, 7, 8, 9, 10], ((member 6).caskTake (caskFrame 5) (caskBody k) k).1 = some 0
      ∧ (((member 6).caskTake (caskFrame 5) (caskBody k) k).2.dom 0).coord = (caskFrame 5).src) := by decide +kernel

theorem witness_CaskAgentEventsTakeEffect :
    (let s := (member 6).setF Reg.TIME_STAT.STATE 2
     let d := s.dom 0
     d.state = 1 ∧ d.begun = true ∧ d.epoch ≠ 0 ∧ s.locked = true ∧ s.writesDone 0 = true ∧ ¬ (d.readyAny = true ∧ d.epoch - 1 ≤ d.ready))
    ∧ (let r : CaskRecov := { target := some 1, askedBy := some 5 }
       let s : State := { cask := { doms := [(15, { dom56 with state := 3, recov := some r })] } }
       (s.dom 15).recov = some r ∧ r.target = some 1 ∧ (s.dom 15).state = 3 ∧ (s.dom 15).resting = false)
    ∧ (let r1 : CaskRecov := { target := some 1 }
       let r2 : CaskRecov := {}
       let s : State := { cask := { doms := [(0, { dom56 with recov := some r1 }), (1, { dom56 with recov := some r2 })] } }
       (s.dom 0).recov = some r1 ∧ r1.askedBy = none ∧ r1.target.isSome = true ∧ (s.dom 1).recov = some r2 ∧ r2.askedBy = none
        ∧ r2.target = none) := by decide +kernel

/-- A node whose undo log is a list. -/
def logged (l : List UndoRec) : State := { cask := { doms := [(0, dom56)], log := l } }

theorem witness_CaskAgentEventsTakeEffect_undo :
    ∃ l : List UndoRec,
      ((logged l).spillPct * ringCap < ((logged l).cask.log.length - (logged l).cask.spilled) * 100
        ∧ 16 ≤ (logged l).cask.log.length - (logged l).cask.spilled ∧ (logged l).cask.spilled + 16 ≤ undoCap - ringCap)
      ∧ ((logged l).dom 0).live = true ∧ ((logged l).dom 0).earlySent = false
      ∧ (logged l).earlyPct * undoCap ≤ (logged l).cask.log.length * 100 := by
  have key : ∀ l : List UndoRec, l.length = undoCap →
      ((logged l).spillPct * ringCap < (l.length - 0) * 100 ∧ 16 ≤ l.length - 0 ∧ 0 + 16 ≤ undoCap - ringCap)
      ∧ ((logged l).dom 0).live = true ∧ ((logged l).dom 0).earlySent = false ∧ (logged l).earlyPct * undoCap ≤ l.length * 100 := by
    intro l h
    rw [show (logged l).spillPct = (logged []).spillPct from rfl, show (logged l).earlyPct = (logged []).earlyPct from rfl,
      show (logged []).spillPct = 75 by decide +kernel, show (logged []).earlyPct = 90 by decide +kernel, h]
    unfold undoCap ringCap
    exact ⟨by omega, rfl, rfl, by omega⟩
  obtain ⟨l, h⟩ : ∃ l : List UndoRec, l.length = undoCap := ⟨List.replicate undoCap {}, List.length_replicate⟩
  exact ⟨l, key l h⟩

/-! ### Witnesses: peers and mirrors -/

/-- A node whose link 0 is UP and which exports its first block to every node, writable. -/
def exporter : State :=
  let e : ExportEnt := { first := 0, count := 1, node := 0xFFF, write := true, valid := true }
  ({ fabric := { exports := [(0, e)] } } : State).setF (Reg.DF_LINK.STATE 0) 3

/-- A COH frame of a message of node 6, and the message, for a line. -/
def cohFrame (opc : Nat) : Frame := { link := 0, hdr := BitVec.ofNat 128 (0xFFF + 6 * 2 ^ 12 + 3 * 2 ^ 24 + msgVc 3 opc * 2 ^ 28), tagOk := true }
/-- The message. -/
def cohMsg (opc line : Nat) : CohMsg := ⟨BitVec.ofNat 128 (opc + 6 * 2 ^ 6 + 7 * 2 ^ 42 + line * 2 ^ 54), 0, 0, 0⟩

theorem witness_PeerRequestsReachTheHome :
    ∀ opc ∈ [1, 2, 3, 4, 5], ∀ line ∈ [2 ^ 22 - 1, 2 ^ 22],
      (exporter.cohTake (cohFrame opc) (cohMsg opc line) opc).1 = true
      ∧ ((exporter.cohTake (cohFrame opc) (cohMsg opc line) opc).2.peerDup 6 7 line).isNone = true
      ∧ (exporter.cohTake (cohFrame opc) (cohMsg opc line) opc).2.rehome 0xFFF line = line
      ∧ (cohMsg opc line).src = 6 ∧ (cohMsg opc line).tid = 7 ∧ (cohMsg opc line).line = line
      -- the last line of the exported block is admitted, the next is not
      ∧ (exporter.cohTake (cohFrame opc) (cohMsg opc line) opc).2.exported 6 line true = decide (line < 2 ^ 22)
      ∧ (exporter.cohTake (cohFrame opc) (cohMsg opc line) opc).2.exported 6 line false = decide (line < 2 ^ 22) := by decide +kernel

/-- The exporter with transactions under way. -/
def asked (p : List ProxyTxn) (a : List Act) : State := { exporter with home := { proxy := p, act := a } }

theorem witness_PeerSnoopsAndAnswersTakeEffect :
    (∀ opc ∈ [0x10, 0x11, 0x12, 0x13], (exporter.cohTake (cohFrame opc) (cohMsg opc 5) opc).1 = true
      ∧ ((exporter.cohTake (cohFrame opc) (cohMsg opc 5) opc).2.keptAnswer 6 7 5 opc) = []
      ∧ (exporter.cohTake (cohFrame opc) (cohMsg opc 5) opc).2.home.owed = [])
    ∧ (let p : ProxyTxn := { tid := 7, home := 6, opc := 1, line := lineKey 6 5 }
       let s := asked [p] []
       ∀ opc ∈ [0x20, 0x21], (s.cohTake (cohFrame opc) (cohMsg opc 5) opc).1 = true
        ∧ (s.cohTake (cohFrame opc) (cohMsg opc 5) opc).2.proxyOf (cohMsg opc 5) = some p ∧ p.gotData = none)
    ∧ (let p : ProxyTxn := { tid := 7, home := 6, opc := 1, line := lineKey 6 5, gotData := some 0 }
       let s := asked [p] []
       (s.cohTake (cohFrame 0x21) (cohMsg 0x21 5) 0x21).1 = true
        ∧ (s.cohTake (cohFrame 0x21) (cohMsg 0x21 5) 0x21).2.proxyOf (cohMsg 0x21 5) = some p ∧ p.gotData.isSome = true)
    ∧ (let a : Act := { req := { src := .own 0, op := .rdA, line := 5 }, phase := .snoop, snoops := [{ dest := .peer 6 }] }
       let s := asked [] [a]
       (s.cohTake (cohFrame 0x22) (cohMsg 0x22 5) 0x22).1 = true
        ∧ ((s.cohTake (cohFrame 0x22) (cohMsg 0x22 5) 0x22).2.home.act.find? (fun a => a.snoopKey == 5 && a.snoops.any (fun n => n.dest == .peer 6))) = some a)
    ∧ (let a : Act := { req := { src := .own 0, op := .rdA, line := 5 }, phase := .fwd }
       let s := asked [] [a]
       let m : CohMsg := ⟨BitVec.ofNat 128 (0x23 + 6 * 2 ^ 6 + 7 * 2 ^ 42 + 5 * 2 ^ 54 + 2 ^ 97), 0, 0, 0⟩
       (s.cohTake (cohFrame 0x23) m 0x23).1 = true
        ∧ ((s.cohTake (cohFrame 0x23) m 0x23).2.home.act.find? (fun a => a.phase == .fwd && a.req.line == 5)) = some a ∧ m.f 97 1 = 1)
    ∧ (let a : Act := { req := { src := .peer 0 6 7, op := .rdA, line := 5 }, phase := .ack }
       let s := asked [] [a]
       (s.cohTake (cohFrame 0x24) (cohMsg 0x24 5) 0x24).1 = true
        ∧ ((s.cohTake (cohFrame 0x24) (cohMsg 0x24 5) 0x24).2.home.act.find? (fun a => a.req.isPeer 6 7 5)) = some a) := by decide +kernel

/-- A node that copies node 6's segments from 0 on in its own from 100 on, one of them. -/
def copier (e : MirrorEnt) : State := ({ fabric := { mirrors := [(255, e)] } } : State).setF (Reg.DF_LINK.STATE 0) 3
/-- The copy's entry, on the mirror side. -/
def copyOf : MirrorEnt := { homeLsn := 0, count := 1, mirrorLsn := 100, partner := 6, role := 1, state := 2 }
/-- A MIRROR frame of node 6. -/
def mirFrame (opc : Nat) : Frame := { link := 0, hdr := BitVec.ofNat 128 (0xFFF + 6 * 2 ^ 12 + 4 * 2 ^ 24 + msgVc 4 opc * 2 ^ 28), tagOk := true }
/-- A MIRROR message without data. -/
def mirMsg (opc tid line : Nat) : MirMsg := ⟨BitVec.ofNat 128 (opc + 6 * 2 ^ 6 + tid * 2 ^ 42 + line * 2 ^ 54), 0, 0, 0⟩

theorem witness_MirrorMessagesTakeEffect :
    (∀ x ∈ [(0x30, 16383), (0x32, 16383), (0x34, 0), (0x36, 16380)],
      let u := ((copier copyOf).mirTake (mirFrame x.1) (mirMsg x.1 7 x.2) x.1).2
      ((copier copyOf).mirTake (mirFrame x.1) (mirMsg x.1 7 x.2) x.1).1 = true ∧ u.mirKept (mirMsg x.1 7 x.2) (x.1 + 1) = none
        ∧ u.copyEntry 6 0 = some (255, copyOf) ∧ u.mirOpen (.mirror 6 7 x.2) = false ∧ u.mirOpen (.resync 6 7 x.2) = false
        ∧ (mirMsg x.1 7 x.2).src = 6 ∧ (mirMsg x.1 7 x.2).line / 16384 = 0 ∧ u.fabric.serving = [])
    -- a copy that is whole, with a tile that is not cached, and one that holds no tile yet
    ∧ (let s : State := { copier copyOf with map := { entries := [(100, { psn := 3, state := stMapped })] } }
       let u := (s.mirTake (mirFrame 0x32) (mirMsg 0x32 7 0) 0x32).2
       copyOf.synced 0 = true ∧ (u.tileNow 409600).2.1 ≠ 15 ∧ (u.entry 100).state ≠ stDiscarded ∧ u.regOf (.logical 409600) = none ∧ u.regsFree ≠ 0)
    ∧ ({ copyOf with state := 1 } : MirrorEnt).synced 0 = false := by decide +kernel

theorem witness_MirrorAnswersTakeEffect :
    (let a : Act := { id := 7, req := { src := .own 0, op := .wrI, line := 5 }, phase := .held, wantMirror := true }
     let s : State := { copier { copyOf with role := 0 } with home := { act := [a] } }
     (s.mirTake (mirFrame 0x31) (mirMsg 0x31 7 5) 0x31).1 = true
      ∧ ((((s.mirTake (mirFrame 0x31) (mirMsg 0x31 7 5) 0x31).2.mirAnswered (mirMsg 0x31 7 5) 0x30).home.act.find? (fun a =>
        a.wantMirror && a.req.line == 5 && a.id % 4096 == 7))) = some a)
    ∧ (let r : Reg := { key := .logical 1, why := .demand, phase := .mirror }
       let s : State := { copier { copyOf with role := 0 } with reads := { regs := [r], mrds := [(1, true), (1, false)] } }
       let u := (s.mirTake (mirFrame 0x33) (mirMsg 0x33 6 4) 0x33).2
       (s.mirTake (mirFrame 0x33) (mirMsg 0x33 6 4) 0x33).1 = true ∧ (mirMsg 0x33 6 4).tid % 2 = 0
        ∧ (u.mirAnswered (mirMsg 0x33 6 4) 0x32).reads.mrds.contains (1, true) = true ∧ u.regOf (.logical 1) = some r ∧ r.phase = .mirror
        ∧ (mirMsg 0x33 6 4).trailer.getLsbD 4 = false ∧ (mirMsg 0x33 6 4).trailer.getLsbD 5 = false
        ∧ (s.mirTake (mirFrame 0x33) { mirMsg 0x33 6 4 with trailer := 0x20 } 0x33).1 = true
        ∧ (s.mirTake (mirFrame 0x33) (mirMsg 0x33 7 4) 0x33).1 = true ∧ (mirMsg 0x33 7 4).tid % 2 = 1
        ∧ ((s.mirTake (mirFrame 0x33) (mirMsg 0x33 7 4) 0x33).2.mirAnswered (mirMsg 0x33 7 4) 0x32).reads.mrds.contains (1, false) = true)
    ∧ ((copier copyOf).mirTake (mirFrame 0x35) (mirMsg 0x35 7 0) 0x35).1 = true
    ∧ (let e : MirrorEnt := { copyOf with role := 0, state := 1, out := [1] }
       ((copier e).mirTake (mirFrame 0x37) (mirMsg 0x37 7 4) 0x37).1 = true
        ∧ ((((copier e).mirTake (mirFrame 0x37) (mirMsg 0x37 7 4) 0x37).2.mirAnswered (mirMsg 0x37 7 4) 0x36).fabric.mirrors.find? (fun (_, e) =>
          e.role == 0 && e.state == 1 && e.partner == 6 && e.out.contains 1)) = some (255, e))
    ∧ (let e : MirrorEnt := { copyOf with role := 0, state := 1, count := 2 }
       let s : State := { copier e with map := { entries := [(0, { psn := noPsn, state := stDiscarded }), (1, { psn := 3, state := stMapped })] } }
       (mget {} s.fabric.mirrors 255 : MirrorEnt) = e ∧ e.role = 0 ∧ e.state = 1 ∧ s.resyncNext e = some 4096 ∧ (s.entry 1).state ≠ stDiscarded
        ∧ s.regOf (.logical 4096) = none ∧ s.regsFree ≠ 0 ∧ (s.tileProgs 4096).any (·.granted) = false)
    ∧ (let e : MirrorEnt := { copyOf with role := 0, state := 1 }
       let s : State := { copier e with map := { entries := [(0, { psn := noPsn, state := stDiscarded })] } }
       s.resyncNext e = some 4095 ∧ (s.entry 0).state = stDiscarded) := by decide +kernel

/-! ### Witnesses: frames, links and views -/

/-- A link in SECURE without keys, a handshake under way. -/
def securing (h : Handshake) : State :=
  ({ fabric := { links := [(0, { hs := some h })] } } : State).setF (Reg.DF_LINK.STATE 0) 2
/-- A frame of a type for VC4. -/
def ctlFrame (type : Nat) : Frame := { link := 0, hdr := BitVec.ofNat 128 (0xFFF + 6 * 2 ^ 12 + type * 2 ^ 24 + 4 * 2 ^ 28), tagOk := true }
/-- Two offers. -/
def offerOf (n : Nat) : OfferBody := ⟨1, BitVec.ofNat 64 n, 0, 0⟩

theorem witness_FrameMessagesTakeEffect :
    (∀ v ∈ [1, 2], ((securing {}).hsTake (ctlFrame 2) 9 ({ offerOf 1 with version := v } : OfferBody).bytes).1 = true)
    -- the last fragment but one, and the last: a fragment of the greatest length
    ∧ (let h : Handshake := { own := some (offerOf 1), peer := some (offerOf 2) }
       let part : List Byte := List.replicate 272 0
       let head := fun (b : ProofBody) => ([2#8, b.frag, b.count, BitVec.ofNat 8 (b.part.length / 256), BitVec.ofNat 8 b.part.length] : List Byte)
       let take := fun (h : Handshake) (b : ProofBody) =>
         (securing h).hsTake (ctlFrame 2) (1 + (b.part.length + 15) / 16) (head b ++ List.replicate 11 0#8 ++ b.part)
       (take h ⟨0, 2, part⟩).1 = true ∧ ((take h ⟨0, 2, part⟩).2.link 0).hs = some h ∧ h.confirmed = false
        ∧ (0#8).toNat < (2#8).toNat ∧ (2#8).toNat ≤ 32 ∧ part.length ≤ 272
        ∧ (h.frags ++ [((0#8).toNat, part)]).length < (2#8).toNat
        ∧ (take h ⟨0, 1, part⟩).1 = true ∧ (1#8).toNat ≤ (h.frags ++ [((0#8).toNat, part)]).length ∧ h.transcript.isSome = true)
    ∧ (let h : Handshake := { peer := some (offerOf 2) }
       ((securing h).link 0).hs = some h ∧ h.peer.isSome = true ∧ (ctlFrame 2).hf 24 4 = 2 ∧ (ctlFrame 2).hf 28 3 = 4
        ∧ (ctlFrame 2).hf 48 16 = 0 ∧ (ctlFrame 2).tagOk = true)
    ∧ ((securing {}).hsTake (ctlFrame 2) 1 [4#8, 3#8]).1 = true
    ∧ (exporter.linkAccept (ctlFrame 0) 0 [4] 1 0).1 = true ∧ ¬ ((exporter.linkAccept (ctlFrame 0) 0 [4] 1 0).2.getF (Reg.DF_LINK.STATE 0) = 2)
    ∧ (exporter.linkAccept (ctlFrame 1) 1 [4] 2 0).1 = true ∧ (exporter.linkAccept (ctlFrame 1) 1 [4] 2 0).2.fabric.lsdb = []
    ∧ (exporter.linkAccept (ctlFrame 7) 7 [4] 1 1).1 = true ∧ leAt ([1] : List Byte) 0 1 ≠ 0 := by decide +kernel

theorem witness_LinkEventsTakeEffect :
    ((securing {}).link 0).hs.isSome = true
    ∧ (let s : State := ({ fabric := { links := [(7, { frames := 2 ^ 32, kept := [{}] })] } } : State).setF (Reg.DF_LINK.STATE 7) 3
       s.linkUp 7 = true ∧ (s.link 7).hs = none ∧ 2 ^ 32 ≤ (s.link 7).frames ∧ (s.link 7).kept ≠ [])
    ∧ (let s : State := { fabric := { links := [(7, { tagFails := 16 })], lsaSlots := 64 } }
       16 ≤ (s.link 7).tagFails ∧ 64 ≤ s.fabric.lsaSlots)
    ∧ (let s := up.setF Reg.DF_CONFIG.LINK_EN 0x80
       s.getF (Reg.DF_LINK.STATE 7) = 0 ∧ bitAt (s.getF Reg.DF_CONFIG.LINK_EN) 7 = true ∧ s.host.mailbox = true
        ∧ s.host.refAbsent.getLsbD 4 = false ∧ s.keys.wiped = false)
    ∧ (up.setF (Reg.DF_LINK.STATE 7) 1).getF (Reg.DF_LINK.STATE 7) = 1 := by decide +kernel

theorem witness_ViewsAndNodeFailuresTakeEffect :
    (let s : State := { fabric := { settled := false, quiet := 2 } }
     s.fabric.settled = false ∧ 2 ≤ s.fabric.quiet)
    -- the default limit of sixteen slots, just passed
    ∧ (let s : State := (({ fabric := { absent := [(6, 17)] } } : State).setF Reg.DF_NODE.PRIMARY 1).setF Reg.DF_CONFIG.NODE_FAIL_SLOTS 0
       s.fabric.failed.contains 6 = false ∧ 6 ≠ s.nodeId ∧ s.flag Reg.DF_NODE.PRIMARY = true
        ∧ (if s.getF Reg.DF_CONFIG.NODE_FAIL_SLOTS = 0 ∨ 16 < s.getF Reg.DF_CONFIG.NODE_FAIL_SLOTS then 16
            else s.getF Reg.DF_CONFIG.NODE_FAIL_SLOTS) + 1 ≤ mget 0 s.fabric.absent 6) := by decide +kernel


/-! ### Witnesses: timers, thermal work, availability and engines -/

theorem witness_TimersAndStoresTakeEffect :
    (let x : RwpStore := { off := 0x40004, mask := 3, val := 1 }
     let s : State := { regs := { stores := [x] } }
     s.regs.stores.find? (fun x => x.off == (0x40004#26).toNat && !x.ready) = some x) := by decide +kernel

/-- A running device whose sequence is over. -/
def running : State := { up with power := { seq := .on } }

theorem witness_ThermalEventsTakeEffect :
    ({ keys := { wiping := true } } : State).keys.wiping = true
    ∧ (up.power.seq ≠ .on ∧ running.power.seq = .on)
    -- the four modes of a remote sensor
    ∧ (∀ m ∈ [0, 1, 2, 3], (up.setF (Reg.TSNS_CFG.MODE 15) m).getF (Reg.TSNS_CFG.MODE 15) = m)
    -- no valid sensor, and some
    ∧ ({ therm := { excluded := List.range 32 } } : State).validSensors = [] ∧ up.validSensors ≠ []
    ∧ (up.responseCheck 0 4 (responseOk (0#64).toNat 8)).1 = true ∧ (up.responseCheck 0 5 (responseOk (0#128).toNat 16)).1 = true := by
  decide +kernel

theorem witness_AvailabilityEventsTakeEffect :
    -- an oscillator newly off, one known to be off, and both good at a start
    (1#2 &&& ~~~up.avail.oscDown ≠ 0)
    ∧ (let s : State := { avail := { oscDown := 1 } }
       1#2 &&& ~~~s.avail.oscDown = 0)
    ∧ (let s : State := { power := { seq := .on } }
       s.power.seq = .on ∧ s.host.memActive = false ∧ s.inDrydown = false ∧ s.power.resuming = false)
    ∧ (up.avail.pllDown.getLsbD 1 = false)
    ∧ (let s : State := { avail := { pllDown := 2 } }
       s.avail.pllDown ≠ 0 ∧ s.avail.pllDown ≠ 3)
    ∧ up.avail.planeDown.getLsbD 1 = false
    ∧ ({ avail := { shareOut := true } } : State).avail.shareOut = true := by decide +kernel

theorem witness_EngineEventsTakeEffect :
    (let s : State := { eng := { moves := [(63, 2, 5)] } }
     s.eng.moves.find? (fun m => m.1 == (63 : Fin 64).val) = some (63, 2, 5))
    ∧ (up.setF (Reg.MOVER_STAT.BUSY 127) 0).flag (Reg.MOVER_STAT.RETIRED 127) = false
    ∧ (up.setF Reg.BGT_CFG.BGT_EN 1).flag Reg.BGT_CFG.BGT_EN = true
    ∧ (let s := up.setF Reg.RET_CFG.RET_EN 1
       s.flag Reg.RET_CFG.RET_EN = true ∧ s.flag (Reg.MEM_MACRO.OUT 639) = false ∧ s.mayRetain 639 = true)
    ∧ (let c := true
       let s : State := { maint := { activating := some c } }
       s.maint.activating = some c) := by decide +kernel

/-! ### Witnesses: the power sequence and the drydown -/

/-- A device in a phase of its power sequence. -/
def phased (p : SeqPhase) : State := { power := { seq := p } }
/-- A slave in the stack in a phase of its power sequence. -/
def slave (p : SeqPhase) : State := (phased p).setF Reg.SEQ_STAT.ROLE 2

theorem witness_PowerSequenceEventsTakeEffect :
    (running.mayPowerUp = false ∧ (phased .off).mayPowerUp = true ∧ (phased .off).seqRole ≠ 2
      ∧ (slave .off).mayPowerUp = true ∧ (slave .off).seqRole = 2)
    ∧ ((phased .raising).power.seq = .raising ∧ (phased .raising).power.stepFailed = false)
    ∧ (let s : State := { (phased .raising) with power := { (phased .raising).power with step := (phased .raising).railStep 23 } }
       s.power.seq = .raising ∧ s.power.stepFailed = false ∧ s.railStep (23 : Fin 24).val = s.power.step)
    ∧ ((phased .backoff).power.seq = .backoff ∧ (phased .backoff).seqRole ≠ 2 ∧ (phased .backoff).power.coldLow = false)
    ∧ ({ power := { stretch := [4] } } : State).power.stretch.contains (4 : Fin 5).val = true
    ∧ (phased .lowering).power.seq = .lowering
    ∧ (let d : Dry := { below := true }
       let s : State := { power := { seq := .lowering, after := .railsOff, dry := some d } }
       s.power.dry = some d ∧ s.power.seq = .lowering ∧ s.power.after = .railsOff ∧ s.raised = []) := by decide +kernel

/-- A device in a phase of its drydown. -/
def drying (d : Dry) (phase : Nat) : State := ({ power := { dry := some d } } : State).setF Reg.DRY_STAT.PHASE phase

theorem witness_PowerSequenceEventsTakeEffect_resets :
    -- COLD_RST_N in a drydown, on an active device, and on one that is not
    (let u := fun (s : State) => s.modPower (fun p => { p with coldLow := true })
     let v := fun (s : State) => (u s).resetOut 4 true
     (u (drying {} 1)).inDrydown = true
      ∧ ((u running).inDrydown = false ∧ (v running).power.seq = .on ∧ (v running).host.memActive = true ∧ (v running).keys.wiped = false)
      ∧ ((u (phased .off)).inDrydown = false ∧ ¬ (v (phased .off)).power.seq = .on))
    -- VIN's warning without a drydown, in the wait of a resume, in a drydown, and in a reset flush
    ∧ (let u := fun (s : State) => (s.modPower (fun p => { p with vin := 0, fell := p.fell || p.seq == .held })).chargeNow
       (u running).power.dry = none
        ∧ ((u (drying {} 4)).power.dry = some {} ∧ (u (drying {} 4)).getF Reg.DRY_STAT.PHASE = 4)
        ∧ ((u (drying {} 2)).power.dry = some {} ∧ (u (drying {} 2)).getF Reg.DRY_STAT.PHASE ≠ 4)
        ∧ ((u (drying { reset := true } 2)).power.dry = some { reset := true } ∧ (u (drying { reset := true } 2)).getF Reg.DRY_STAT.PHASE ≠ 4)) := by
  decide +kernel

/-- A frame of the SEQ bus to every slave, its check right. -/
def seqWord (cmd arg : Nat) : BitVec 40 := BitVec.ofNat 40 (63 * 2 ^ 32 + cmd * 2 ^ 24 + arg * 2 ^ 8 + crc8 [63, cmd, arg / 256, arg % 256])

theorem witness_SequencerMessagesTakeEffect :
    -- STEP 1 at rest and STEP 2 at step 1
    (let s := slave .off
     s.seqTake (seqWord 1 1).toNat 1 = (true, s) ∧ s.seqRole = 2 ∧ bitsOf (seqWord 1 1).toNat 8 16 = 1 ∧ s.power.coldLow = false
      ∧ s.inDrydown = false ∧ s.keys.wiped = false ∧ s.power.seq = .off)
    ∧ (let s : State := { slave .settled with power := { seq := .settled, step := 1 } }
       s.seqTake (seqWord 1 2).toNat 1 = (true, s) ∧ bitsOf (seqWord 1 2).toNat 8 16 ≠ 1 ∧ s.power.seq = .settled
        ∧ s.power.step < bitsOf (seqWord 1 2).toNat 8 16)
    ∧ (slave .off).seqTake (seqWord 2 0).toNat 2 = (true, slave .off)
    ∧ ((slave .raising).seqTake (seqWord 3 0).toNat 3 = (true, slave .raising) ∧ (slave .raising).power.seq = .raising)
    ∧ ((slave .off).seqTake (seqWord 4 0).toNat 4 = (true, slave .off) ∧ (slave .off).raised = [])
    ∧ ((slave .settled).seqTake (seqWord 5 0).toNat 5 = (true, slave .settled) ∧ (slave .settled).power.seq = .settled)
    ∧ (slave .off).seqTake (seqWord 6 0).toNat 6 = (true, slave .off)
    ∧ ((slave .settled).seqRole = 2 ∧ (slave .on).seqRole = 2 ∧ (slave .on).power.seq = .on)
    -- on the master: a reply of a bad check and one of a good check
    ∧ ((up.setF Reg.SEQ_STAT.ROLE 1).seqRole = 1 ∧ crc8 [bitsOf (1#24).toNat 16 8, bitsOf (1#24).toNat 8 8] ≠ bitsOf (1#24).toNat 0 8
        ∧ crc8 [bitsOf (0#24).toNat 16 8, bitsOf (0#24).toNat 8 8] = bitsOf (0#24).toNat 0 8)
    ∧ ({ power := { offWait := true } } : State).power.offWait = true
    ∧ (running.power.seq = .on ∧ (running.setF (Reg.PWR_RAIL.EN 23) 1).flag (Reg.PWR_RAIL.EN (23 : Fin 24).val) = true) := by decide +kernel

theorem witness_HoldUpAndDrydownEventsTakeEffect :
    (let s := fun (n : Nat) => ({ power := { test := { phase := n, slow := 1 } } } : State)
     (s 0).power.test.phase = 0 ∧ (s 0).inDrydown = false ∧ 0 < (s 0).power.test.slow ∧ (s 1).power.test.phase = 1 ∧ (s 2).power.test.phase = 2
      ∧ (s 3).power.test.phase = 3)
    ∧ (drying {} 1).getF Reg.DRY_STAT.PHASE = 1
    ∧ ((drying {} 2).getF Reg.DRY_STAT.PHASE = 2 ∧ (drying {} 2).power.dry.any (fun d => d.deadGroups.length == 4) = false
        ∧ (drying {} 2).keys.wiped = false ∧ (drying {} 2).flushLeft = [] ∧ (drying {} 2).unplaced = false)
    ∧ ((drying {} 3).power.dry = some {} ∧ (drying {} 3).getF Reg.DRY_STAT.PHASE = 3 ∧ ({} : Dry).checkpoint = false
        ∧ (drying {} 3).progs.list = [])
    ∧ (let s : State := ({ power := { dry := some {}, vin := 2 } } : State).setF Reg.DRY_STAT.PHASE 4
       s.getF Reg.DRY_STAT.PHASE = 4 ∧ s.power.vin = 2) := by decide +kernel

/-! ### Witnesses: Kelric commands -/

/-- A submission on the management path of LD 0: operand bytes as (offset, value) pairs, and its data. -/
def asks (ops : List (Nat × Nat)) (data : List Byte) : KCmd :=
  ⟨.path (.mgmt 0), BitVec.ofNat 256 (ops.foldl (fun a x => a + x.2 * 2 ^ (8 * x.1)) 0), data, 0, none⟩

/-- A submission comes to its action on a free path. -/
theorem kReady_asks {s : State} {opc : Nat} {check : KCmd → State → Nat} (ops : List (Nat × Nat)) (data : List Byte)
    (h : s.host.mailbox = true ∧ s.pathBusy 64 opc = false ∧ (s.kMark (.path (.mgmt 0)) opc).kGate opc (asks ops data) = kOk
      ∧ check (asks ops data) (s.kMark (.path (.mgmt 0)) opc) = kOk ∧ (s.kMark (.path (.mgmt 0)) opc).bgHeld 64 = false) :
    s.kReady opc (asks ops data) check (asks ops data) := by
  obtain ⟨h1, h2, h3, h4, h5⟩ := h
  refine ⟨if_pos h1, ?_, h3, h4, rfl, ?_⟩
  · rintro p hp; cases hp; exact h2
  · rintro p hp -; cases hp; exact h5

theorem witness_KelricReadsAnswerTheirData :
    let always : KCmd → State → Nat := fun _ _ => kOk
    (∀ opc ∈ [0xC000, 0xC013, 0xC021, 0xC041, 0xC050, 0xC052, 0xC071, 0xC090, 0xC0A1, 0xC0C2],
        up.kReady opc (asks [] []) always (asks [] []))
      ∧ up.kReady 0xC033 (asks [(0, 7)] []) State.keyStatusCheck (asks [(0, 7)] [])
      ∧ up.kReady 0xC061 (asks [(0, 4)] []) (fun c _ => if 4 < c.op 0 1 then kField else kOk) (asks [(0, 4)] [])
      -- every domain, and one
      ∧ (∀ s ∈ [up, ({ up with cask := { doms := [(0, { dom56 with id := 0 })] } } : State)], s.kReady 0xC081 (asks [] [])
          (fun c s => if c.op 4 4 ≠ 0 ∧ (s.domOf (c.op 4 4)).isNone then kRange else kOk) (asks [] []))
      ∧ up.kReady 0xC0E0 (asks [(0, 0x0703)] []) State.settingReadCheck (asks [(0, 0x0703)] []) :=
  ⟨by intro opc h; exact kReady_asks _ _ (by revert opc; decide +kernel), kReady_asks _ _ (by decide +kernel), kReady_asks _ _ (by decide +kernel),
   by intro s h; exact kReady_asks _ _ (by revert s; decide +kernel), kReady_asks _ _ (by decide +kernel)⟩

/-- LD 0 and a session of it, and key 7. -/
def keyed : State := { served with keys := { sessions := [{ id := 5, at_ := .smbus 0, withMutual := true }], ctx := [(7, { valid := true })] } }

theorem witness_KelricCacheKeyAndMediaCommandsTakeEffect :
    up.kReady 0xC010 (asks [(0, 2)] []) State.cacheEnableCheck (asks [(0, 2)] [])
    ∧ up.kReady 0xC011 (asks [(0, 2)] []) State.cacheDisableCheck (asks [(0, 2)] [])
    ∧ up.kReady 0xC012 (asks [(0, 1), (1, 1)] []) State.cacheRangeCheck (asks [(0, 1), (1, 1)] [])
    ∧ served.kReady 0xC020 (asks [(16, 1)] []) State.discardCheck (asks [(16, 1)] [])
    ∧ keyed.kReady 0xC031 (asks [(0, 7), (4, 5)] []) State.keyRetireCheck (asks [(0, 7), (4, 5)] [])
    ∧ keyed.kReady 0xC032 (asks [(0, 7), (4, 5)] []) State.keyBindCheck (asks [(0, 7), (4, 5)] [])
    ∧ up.kReady 0xC040 (asks [(0, 1), (1, 30)] []) State.patrolSetCheck (asks [(0, 1), (1, 30)] [])
    ∧ up.kReady 0xC042 (asks [(1, 2)] (List.replicate 32 255)) State.scheduleSetCheck (asks [(1, 2)] (List.replicate 32 255))
    ∧ up.kReady 0xC051 (asks [(1, 1), (2, 128)] []) State.rebuildControlCheck (asks [(1, 1), (2, 128)] []) := by
  refine ⟨?_, ?_, ?_, ?_, ?_, ?_, ?_, ?_, ?_⟩ <;> exact kReady_asks _ _ (by decide +kernel)

/-- A device with a domain in a state. -/
def domained (st : Nat) : State := { up with cask := { doms := [(0, { dom56 with state := st })] } }

theorem witness_KelricFabricAndSystemCommandsTakeEffect :
    up.kReady 0xC060 (asks [(0, 4), (18, 65535)] []) State.mirrorSetCheck (asks [(0, 4), (18, 65535)] [])
    ∧ up.kReady 0xC062 (asks [(0, 1), (2, 4094)] []) State.routeSetCheck (asks [(0, 1), (2, 4094)] [])
    ∧ up.kReady 0xC070 (asks [(0, 4), (2, 7)] []) State.timeSourceCheck (asks [(0, 4), (2, 7)] [])
    ∧ (domained 1).kReady 0xC080 (asks [(0, 1), (4, 9)] []) State.caskConfigCheck (asks [(0, 1), (4, 9)] [])
    ∧ (domained 4).kReady 0xC082 (asks [(0, 1), (4, 9)] []) State.caskRecoverCheck (asks [(0, 1), (4, 9)] [])
    ∧ up.kReady 0xC091 (asks [] []) State.holdupTestCheck (asks [] [])
    ∧ up.kReady 0xC0A0 (asks [(0, 1), (1, 70)] []) State.throttleSetCheck (asks [(0, 1), (1, 70)] [])
    ∧ up.kReady 0xC0E1 (asks [(0, 0x0703), (4, 255)] []) State.settingWriteCheck (asks [(0, 0x0703), (4, 255)] [])
    ∧ up.kReady 0xC0F0 (asks [(8, 1)] []) State.logSnapshotCheck (asks [(8, 1)] [])
    ∧ up.kReady 0xC0F1 (asks [(0, 1)] []) State.sampleConfigCheck (asks [(0, 1)] [])
    ∧ up.kReady 0xC0F2 (asks [(0, 17), (1, 7), (4, 10000)] []) State.counterConfigCheck (asks [(0, 17), (1, 7), (4, 10000)] [])
    ∧ up.kReady 0xC0B0 (asks [(0, 1)] []) State.selfTestCheck (asks [(0, 1)] [])
    ∧ up.kReady 0xC0B1 (asks [(0, 1)] []) (fun _ _ => kOk) (asks [(0, 1)] [])
    ∧ up.kReady 0xC0C0 (asks [] [1]) State.patchStageCheck (asks [] [1])
    ∧ patched.kReady 0xC0C1 (asks [] []) (fun _ s => s.activateStatus) (asks [] [])
    ∧ keyed.kReady 0xC0D0 (asks [(0, 1), (4, 5)] []) State.lifecycleSetCheck (asks [(0, 1), (4, 5)] []) := by
  refine ⟨?_, ?_, ?_, ?_, ?_, ?_, ?_, ?_, ?_, ?_, ?_, ?_, ?_, ?_, ?_, ?_⟩ <;> exact kReady_asks _ _ (by decide +kernel)

theorem witness_KelricAnswersFreeTheirPlace :
    (let c : CmdSrc := .queue 0 9
     c = .queue 0 9 ∧ (asks [] []).dlen.toNat < ([1] : List Byte).length ∧ ([] : List Byte).length ≤ (0#32).toNat)
    ∧ (let s : State := { host := { mailbox := true, mbox := [(0, { busy := true, opc := 0xC000 })] } }
       (mget {} s.host.mbox (pathNo (.mailbox 0))).busy = true ∧ 0xC000 ≤ (mget {} s.host.mbox (pathNo (.mailbox 0))).opc) := by
  decide +kernel

/-- The bytes of a wrapped root are read back as it stands. -/
theorem wrappedOf_bytes (w : BitVec 320) : wrappedOf ((bytesBe w.toNat 40).map (BitVec.ofNat 8)) = w := by
  have h : ∀ (l : List Nat) (a : Nat), (∀ x ∈ l, x < 256) →
      (l.map (BitVec.ofNat 8)).foldl (fun a b => 256 * a + b.toNat) a = l.foldl (fun a b => 256 * a + b) a := by
    intro l
    induction l with
    | nil => intro a _; rfl
    | cons x l ih =>
      intro a hl
      have : x % 2 ^ 8 = x := Nat.mod_eq_of_lt (hl x (by simp))
      simp only [List.map_cons, List.foldl_cons, BitVec.toNat_ofNat, this]
      exact ih _ (fun y hy => hl y (by simp [hy]))
  unfold wrappedOf
  rw [h _ _ (bytesBe_bytes _ _).2]
  change BitVec.ofNat 320 (natBe (bytesBe w.toNat 40)) = w
  rw [natBe_bytesBe, Nat.mod_eq_of_lt w.isLt]
  exact BitVec.eq_of_toNat_eq (by simp)

/-- What KEY_LOAD asks of a submission whose root unwraps. -/
theorem keyLoadCheck_ok {s : State} {c : KCmd} {x : Session} {root : BitVec 256} (hr : ¬ (2 ^ 18 ≤ c.op 0 3 ∨ 2 ^ 18 ≤ c.op 8 3))
    (hd : ¬ ((c.data.length != 40 || (match c.src with | .queue _ _ => c.dlen.toNat != 40 | _ => false)) = true))
    (hl : s.keys.lifecycle ≠ 0) (hi : ¬ (c.op 0 3 = 0 ∨ s.eng.faulty.contains (c.op 0 3) = true))
    (hs : s.session (s.cmdLd c.src) (c.op 4 4) = some x) (hu : State.unwrapRoot x (wrappedOf c.data) = some root)
    (ht : s.keyTaken (c.op 0 3) = false) (hv : (s.key (c.op 0 3)).valid = false) (hk : (s.key (c.op 0 3)).locked = false)
    (hf : keyFrom c = none) : State.keyLoadCheck c s = kOk := by
  have h : s.keyLoadStatus (s.cmdLd c.src) (c.op 0 3) (c.op 4 4) (wrappedOf c.data) (keyFrom c) = (kOk, some root) := by
    have e : s.keyIndexStatus (c.op 0 3) root none = kOk := by
      unfold State.keyIndexStatus
      simp only [hv, hk]
      rfl
    have gen : ∀ (U : Session → BitVec 320 → Option (BitVec 256)) (w : BitVec 320), U x w = some root →
        (if s.keys.lifecycle = 0 then (kLifecycle, none)
          else if c.op 0 3 = 0 ∨ s.eng.faulty.contains (c.op 0 3) = true then (kInvalidIndex, none)
          else match s.session (s.cmdLd c.src) (c.op 4 4) with
            | none => (kNoSession, none)
            | some x => match U x w with
              | none => (kUnwrapFailed, none)
              | some root =>
                let st := if s.keyTaken (c.op 0 3) = true then kKeyInUse else s.keyIndexStatus (c.op 0 3) root (keyFrom c)
                (st, if st = kOk then some root else none)) = (kOk, some root) := by
      intro U w h
      rw [if_neg hl, if_neg hi, hs]
      dsimp only
      rw [h]
      dsimp only
      rw [ht, hf, if_neg (by decide), e, if_pos rfl]
    exact gen _ _ hu
  unfold State.keyLoadCheck
  refine (if_neg hr).trans ((if_neg hd).trans ?_)
  rw [h, hf]
  exact if_neg (by simp [State.rotateLocked])

/-- A KEY_LOAD of index 7, not persistent, over session 5: the root 1, wrapped under that session's KEK. -/
def loads : KCmd :=
  asks [(0, 7), (4, 5)] ((bytesBe (keyWrap (kdf ({ id := 5, at_ := .smbus 0 } : Session).secret labelTK 5 0) 1).toNat 40).map (BitVec.ofNat 8))

/-- A device in service with that session. -/
def sessioned : State := { up with keys := { sessions := [{ id := 5, at_ := .smbus 0 }], lifecycle := 1 } }

theorem witness_KelricCacheKeyAndMediaCommandsTakeEffect_keyLoad : sessioned.kReady 0xC030 loads State.keyLoadCheck loads := by
  refine kReady_asks _ _ ⟨rfl, rfl, by decide +kernel, ?_, rfl⟩
  refine keyLoadCheck_ok (x := { id := 5, at_ := .smbus 0 }) (root := 1) (by decide +kernel) (by decide +kernel) (by decide +kernel)
    (by decide +kernel) rfl ?_ (by decide +kernel) (by decide +kernel) (by decide +kernel) (by decide +kernel)
  exact (congrArg (State.unwrapRoot _) (wrappedOf_bytes _)).trans (keyUnwrap_keyWrap _ _)


theorem witness_SelfTestsAndTimedActionsEnd :
    (let t : SelfTest := { id := 255, variant := 7, state := 1 }
     let s : State := { maint := { tests := [t, { t with id := 1, variant := 1 }] } }
     s.maint.tests.find? (fun t => t.id == (255#8).toNat && t.state == 1) = some t)
    ∧ (let a : TimedAct := { handle := 1, at_ := 5, what := .update [] }
       let s : State := { host := { memActive := true }, time := { actions := [a] } }
       s.nextAction = some a ∧ s.host.memActive = true) := by decide +kernel

/-- Queue pair 0 of LD 0 holds 16 entries a side and is active; its tail is at 3. -/
def queued : State :=
  let s : State := { up with kelric := { queues := [(0, { state := 1, tail := 3 })] } }
  (s.setF (Reg.KQ_CTRL.SQ_LOG 0) 4).setF (Reg.KQ_CTRL.CQ_LOG 0) 4

theorem witness_KelricQueueEventsTakeEffect :
    (queued.doorbellOf 0 0 = true ∧ (queued.queue 0).state ≠ 3
      -- the last slot of the queue, the first outside it, and one that moves the tail back
      ∧ ((15#32).toNat < queued.sqSize 0 ∧ queued.sqAhead 0 (queued.queue 0).tail ≤ queued.sqAhead 0 (15#32).toNat)
      ∧ ¬ ((16#32).toNat < queued.sqSize 0) ∧ ¬ (queued.sqAhead 0 (queued.queue 0).tail ≤ queued.sqAhead 0 (2#32).toNat)
      ∧ (15#32).toNat < queued.cqSize 0 ∧ queued.cqSize 0 ≤ (16#32).toNat)
    ∧ queued.doorbellOf 1 0 = false
    ∧ (queued.inflight < 1024 ∧ queued.keys.lcWait = none ∧ (queued.fetchTurn).map (·.1) = some 0)
    ∧ (let f : Flight := { opc := 0xC000, cid := 9, ran := true, done := true }
       let s : State := { kelric := { queues := [(0, { state := 1, flights := [f] })] } }
       (s.queue 0).flights.find? (fun f => f.done && !f.held && f.cid == (9#16).toNat) = some f)
    ∧ (let s : State := { kelric := { vecs := [(64 * 63 + 63, (true, true))] } }
       mget (false, false) s.kelric.vecs (64 * 63 + 63) = (true, true) ∧ mget (false, false) up.kelric.vecs (64 * 63 + 63) ≠ (true, true)) := by
  decide +kernel

/-! ### Witnesses: registers -/

/-- The rows with a GO bit: each word's offset, its own field mask and its own field's value. -/
def goRows : List (Nat × Nat × Nat) :=
  [(0x40030, 0x203, 0x201), (0x40030, 0x203, 0x202), (0x40030, 0x203, 0x203), (0x7006C, 0xC, 8), (0x7006C, 0xC, 0xC), (0x80000, 0x200000, 0x200000),
   (0x90230, 0x700000, 0x500000), (0x90230, 0x700000, 0x600000), (0x90230, 0x700000, 0x700000), (0xC010C, 0x38000000, 0x20000000),
   (0xC010C, 0x38000000, 0x28000000), (0xC010C, 0x38000000, 0x30000000), (0xC010C, 0x38000000, 0x38000000), (0xC0208, 0x30000, 0x20000)] ++
  [(0xC0208, 0x30000, 0x30000), (0xC030C, 0x180, 0x100), (0xC030C, 0x180, 0x180), (0xD0414, 0x78, 0x40), (0xD0414, 0x78, 0x48),
   (0xD0414, 0x78, 0x50), (0xD0414, 0x78, 0x58), (0xD0414, 0x78, 0x60), (0xE0020, 1, 1), (0x14E34, 7, 5), (0x14E34, 7, 6), (0x14E34, 7, 7),
   (0x118, 0x380, 0x280), (0x118, 0x380, 0x300)]

theorem witness_GoBitsStartTheirAction : ∀ x ∈ goRows, up.mayStore .mgmt x.1 (setMask (0#32).toNat x.2.1 x.2.2) = true := by decide +kernel

theorem witness_SettingWritesTakeEffect :
    (∀ x ∈ ([(0x401FC, 1), (0x40004, 0), (0x40004, 1), (0x5000C, 7), (0x30010, 0x40), (0x901FC, 7), (0x901FC, 0x40007), (0x1144, 0xFFF),
        (0x3800, 1), (0x3800, 0x2000), (0x3800, 0x4000), (0x3024, 5), (0x10010, 0x1000000), (0x10010, 0), (0x8, 2), (0x20, 0), (0x20, 0x10000),
        (0x20, 0x20000)] : List (Nat × Nat)), up.mayStore .mgmt x.1 x.2 = true)
    -- a sillage record that is held, and one that is not
    ∧ (let s : State := { up with tally := { sill := { recs := [(5, 0)] } } }
       ((s.useArm (reqNo .mgmt)).2.sillClear 5).isSome = true ∧ ((s.useArm (reqNo .mgmt)).2.sillClear 6) = none) := by decide +kernel

theorem witness_RegisterAccessesTakeEffect :
    -- a whole word: the last of the first register block, and eight bytes as two words
    ((0x40008#26).toNat % 4 = 0 ∧ (regDef 0x40030).isSome = true ∧ up.mayStore .mgmt 0x40030 0 = true)
    ∧ (rwpReg (0x3020 + 4) ≠ 0x3020 ∧ (up.write4 .mgmt 0x3020 0).isSome = true)
    -- a persistent register of 64 bits
    ∧ (rwpReg (0x12008 + 4) = 0x12008 ∧ up.served 0x12008 = true ∧ up.mayWrite .mgmt 0x12008 = true)
    -- an LD that is not the administrator may not write the sequencer's block
    ∧ (up.served 0x40030 = true ∧ up.mayWrite (.ld 63) 0x40030 = false)
    -- bit 31 of that word through its alias
    ∧ (let off : BitVec 26 := BitVec.ofNat 26 (0x2000000 + 0x40030 * 32 + 31 * 4)
       0x2000000 ≤ off.toNat ∧ off.toNat % 4 = 0 ∧ (off.toNat - 0x2000000) / 128 * 4 = 0x40030 ∧ up.mayWrite .mgmt 0x40030 = true
        ∧ (regDef 0x40030).isSome = true)
    -- a read of a live word, and of one left in the latch
    ∧ (up.hidden .mgmt 0x40030 = false ∧ (mget [] up.regs.latch (reqNo .mgmt)).find? (fun x => x.1 == 0x40030) = none)
    ∧ (let s : State := { up with regs := { latch := [(64, [(0x3024, 9)])] } }
       s.hidden .mgmt 0x3024 = false ∧ (mget [] s.regs.latch (reqNo .mgmt)).find? (fun x => x.1 == 0x3024) = some (0x3024, 9))
    -- the tables' windows and the sample register
    ∧ (∀ o ∈ [0x70044, 0xD0304, 0xC0104, 0xC0204, 0xC0304, 0x380C], up.served o = true ∧ up.hidden .mgmt o = false)
    ∧ mget [] up.regs.latch (reqNo .mgmt) = [] := by decide +kernel

theorem witness_UnlockingAndSidebandAccessesTakeEffect :
    up.mayStore .mgmt 0x10 (0x7A5E#32).toNat = true ∧ up.mayStore .mgmt 0x40030 (0#32).toNat = true ∧ (regDef 0x40030).isSome = true
      ∧ bitsOf (0x7A5E#32).toNat 0 16 = 0x7A5E := by decide +kernel

theorem witness_ReservedBitsMayNotChange :
    (regDef 0x40030).isSome = true ∧ up.served 0x40030 = true ∧ up.mayWrite .mgmt 0x40030 = true
      ∧ bitsOf (0xFFFFFFFF#64).toNat 0 32 &&& accMask 0x40030 (· == .rsv) ≠ mget 0 up.rsv 0x40030 &&& accMask 0x40030 (· == .rsv)
      ∧ bitsOf (0#64).toNat 0 32 &&& accMask 0x40030 (· == .rsv) = mget 0 up.rsv 0x40030 &&& accMask 0x40030 (· == .rsv) := by decide +kernel

/-- A bit of each access type that the statement names, and one of none of them. -/
theorem witness_WordBitsFollowTheirAccess :
    ∀ x ∈ ([(40, 31, .rw), (4, 0, .rw1c), (8, 1, .rw1s), (0, 15, .ro)] : List (Nat × Nat × Access)),
      bufferedWord x.1 = false ∧ accMask x.1 (· == .rwp) = 0 ∧ accMask x.1 (· == .rwl) = 0 ∧ x.2.1 < 32
        ∧ (∀ b ∈ ([.ro, .rw, .rw1c, .rw1s, .wo, .rwp, .rwl, .rsv] : List Access), (accMask x.1 (· == b)).testBit x.2.1 = (b == x.2.2)) := by
  decide +kernel

theorem witness_UndefinedWordsReadZeroAndIgnoreWrites :
    (regDef 0xFFFFC = none ∧ up.served 0xFFFFC = true ∧ up.mayWrite .mgmt 0xFFFFC = true)
      ∧ ((0x1FFFFFC#26).toNat % 4 = 0 ∧ 0x100000 ≤ (0x1FFFFFC#26).toNat ∧ (0x1FFFFFC#26).toNat < 0x2000000 ∧ up.mayWrite .mgmt 0x1FFFFFC = true)
      ∧ (mget [] up.regs.latch (reqNo .mgmt)).find? (fun x => x.1 == 0x1FFFFFC) = none := by decide +kernel

theorem witness_DrydownLeavesFourCommands :
    let s := (drying {} 1).modHost (fun h => { h with mailbox := true })
    s.host.mailbox = true ∧ s.inDrydown = true
      ∧ (stdOpcode (.getHealthInfo (.mailbox 0))).map (·.2) = some 0x4200 ∧ (stdOpcode (.getShutdownState (.mailbox 0))).map (·.2) ≠ some 0x4200
      ∧ s.pathBusy (pathNo (.mailbox 0)) 0x4200 = false
      ∧ (∀ opc ∈ [0xC000, 0xC090, 0xC0A1, 0xC013], s.pathBusy (pathNo (.mgmt 0)) opc = false)
      ∧ (kelricOpcode (.identifyK (asks [] []))).map (·.2) = some 0xC000 ∧ (kelricOpcode (.cacheStatus (asks [] []))).map (·.2) = some 0xC013 := by
  decide +kernel

/-! ### Witnesses: the start -/

theorem witness_StartEventsTakeEffect :
    -- the end of the fill, with the minimum configuration and below it
    (let s := (phased .on).setF Reg.START_STAT.STAGE 2
     let u := fun (a : BitVec 2) (b : BitVec 64) => (((s.setF Reg.START_STAT.STAGE 3).engStart b).unitsAtStart a).budgetAtStart
     s.power.seq = .on ∧ s.getF Reg.START_STAT.STAGE = 2 ∧ (u 3 (BitVec.allOnes 64)).avail.below = false ∧ (u 0 0).avail.below = true)
    -- the media trained: a population not seen, one seen, and one known
    ∧ (let s := (phased .on).setF Reg.START_STAT.STAGE 3
       let all : State := { s with patrol := { ident := (List.range 32).map (fun c => (2 * c, true)) } }
       s.power.seq = .on ∧ s.inDrydown = false ∧ s.patrol.trained = false ∧ s.getF Reg.START_STAT.STAGE = 3 ∧ s.host.memActive = false
        ∧ s.patrol.pop = 0 ∧ s.popSeen = none ∧ all.patrol.pop = 0 ∧ all.popSeen = some 1 ∧ ({ s with patrol := { pop := 2 } } : State).patrol.pop ≠ 0)
    -- the keys set up: known media, and a device outside MANUFACTURE that has none
    ∧ (let s := fun (pop lc : Nat) => (({ power := { seq := .on }, patrol := { trained := true, pop := pop }, keys := { lifecycle := lc } } : State).setF
         Reg.START_STAT.STAGE 4)
       let u := fun (pop lc : Nat) => ((s pop lc).setF Reg.START_STAT.STAGE 5).keysRestore
       (s 1 1).power.seq = .on ∧ (s 1 1).inDrydown = false ∧ (s 1 1).patrol.trained = true ∧ (s 1 1).getF Reg.START_STAT.STAGE = 4
        ∧ (s 1 1).power.resuming = false ∧ (u 1 1).patrol.pop ≠ 0 ∧ (u 0 1).patrol.pop = 0 ∧ (u 0 1).keys.lifecycle ≠ 0 ∧ (u 0 1).keys.fuse = false)
    ∧ (let s := (({ power := { seq := .on }, patrol := { pop := 1 } } : State).setF Reg.START_STAT.STAGE 5)
       s.power.seq = .on ∧ s.inDrydown = false ∧ s.getF Reg.START_STAT.STAGE = 5 ∧ s.patrol.pop ≠ 0 ∧ s.keys.fuse = false)
    ∧ (let s : State := { power := { seq := .on, formatting := true } }
       s.power.seq = .on ∧ s.inDrydown = false ∧ s.power.formatting = true) := by decide +kernel

/-! ### Witnesses: the invariants -/

theorem reset_memoryCanonical : State.reset.memoryCanonical = true := by decide +kernel

/-- CommandsLeaveQueueAndReservedBits, EveryStepKeepsMemoryCanonical, LabelsChangeBySetLsaAlone, ShutdownStateIsRecordedOnly,
TheFuseIsPermanent and EveryCommandCompletes: a command of each kind that they name completes on a device that is up. -/
theorem witness_invariants :
    (∃ t, exec .hourlyCheckpoint up = .next t) ∧ (∃ t, exec (.setLsa (.mailbox 0) 0 [1]) up = .next t)
      ∧ (∃ t, exec (.setShutdownState (.mailbox 0) 1) up = .next t) ∧ (∃ t, exec (.backgroundOpEnd (.mailbox 0) true) up = .next t)
      ∧ storesRegister .hourlyCheckpoint = false ∧ storesRegister (.registerWrite .mgmt 0 4 0) = true ∧ up.memoryCanonical = true
      ∧ (∃ t, step up = .next t) :=
  ⟨⟨_, rfl⟩, ⟨_, rfl⟩, ⟨_, rfl⟩, ⟨_, rfl⟩, rfl, rfl, by decide +kernel, ⟨_, rfl⟩⟩

theorem witness_AnEmptyQueueLetsTimePass : State.reset.pending = [] := rfl

/-- SET_LSA changes a byte that it names. -/
theorem witness_LabelsChangeBySetLsaAlone :
    ∃ t, exec (.setLsa (.mailbox 0) 0 [1]) up = .next t ∧ memByte (mget [] t.host.lsa 0) 0 ≠ memByte (mget [] up.host.lsa 0) 0 :=
  ⟨_, rfl, by decide +kernel⟩

/-- The transition to DECOMMISSIONED, when nothing is in flight any more, blows the fuse. -/
theorem witness_TheFuseIsPermanent :
    let s : State := { keys := { lifecycle := 2, lcWait := some (3, .path (.mailbox 0)), holdWrites := true } }
    ∃ t, exec (.backgroundOpEnd (.mailbox 0) true) s = .next t ∧ s.keys.fuse = false ∧ t.keys.fuse = true :=
  ⟨_, rfl, rfl, by decide +kernel⟩

theorem witness_FieldsReadBackAsWritten :
    let f := Reg.TIME_CFG.PTM_EN
    let g := Reg.WP_CONFIG.WT_FORCE
    g.off + 4 * g.words ≤ f.off ∨ f.off + 4 * f.words ≤ g.off := by decide

/-- The board area changes at the end of a page write. -/
theorem witness_BoardBytesChangeWithPageWritesAlone :
    let s : State := { weali := { boardOps := [(4, [1], none)] } }
    ∃ t, exec (.wealiPageWriteEnd 256 false false) s = .next t ∧ t.weali.board ≠ s.weali.board :=
  ⟨_, rfl, by decide +kernel⟩

theorem witness_TimeProofAndKeyCommandsComplete :
    (let word := BitVec.ofNat 98 (2 * (5 + codeCrc 5 * 2 ^ 80) + 2 ^ 97)
     let d := bitsOf word.toNat 1 96
     word.getLsbD 0 = false ∧ word.getLsbD 97 = true ∧ bitsOf d 73 7 = 0 ∧ bitsOf d 80 16 = codeCrc d
      ∧ up.time.lastSeq.all (fun p => bitsOf d 64 8 == (p + 1) % 256) = true)
    ∧ (up.setF Reg.TIME_CFG.SYNC_OUT_EN 1).flag Reg.TIME_CFG.SYNC_OUT_EN = true
    ∧ (up.setF Reg.TIME_CFG.PTM_EN 1).flag Reg.TIME_CFG.PTM_EN = true
    ∧ (let s := up.setF (Reg.DF_LINK.STATE 0) 3
       (s.linkAccept syncFrame 5 [3] 2 (1#256).toNat).1 = true ∧ bitsOf (1#256).toNat 0 4 = 1 ∧ bitsOf (1#256).toNat 216 40 = 0)
    ∧ (let s : State := { time := { step := some 5 }, ft := 4 }
       s.time.step = some 5 ∧ s.ft < 5)
    ∧ (let h : Handshake := { own := some (offerOf 1), peer := some (offerOf 2) }
       let b : ProofBody := ⟨31, 32, List.replicate 272 0⟩
       let head : List Byte := [2#8, b.frag, b.count, BitVec.ofNat 8 (b.part.length / 256), BitVec.ofNat 8 b.part.length]
       let take := (securing h).hsTake (ctlFrame 2) (1 + (b.part.length + 15) / 16) (head ++ List.replicate 11 0#8 ++ b.part)
       take.1 = true ∧ (take.2.link 0).hs = some h ∧ h.confirmed = false ∧ b.frag.toNat < b.count.toNat ∧ b.count.toNat ≤ 32
        ∧ b.part.length ≤ 272) := by decide +kernel

/-! ### Ill-formed commands

One term for each bound of `Instr.wf`, just beyond it, and the same command on the bound. -/

theorem test_wf_kelricSource : Instr.wf (.identifyK ⟨.bg (.mailbox 0), 0, [], 0, none⟩) = false ∧ Instr.wf (.identifyK ⟨.timed 0, 0, [], 0, none⟩) = false
    ∧ Instr.wf (.identifyK ⟨.queue 0 0, 0, [], 0, none⟩) = true := by decide

theorem test_wf_kelricData : Instr.wf (.patchStage ⟨.queue 0 0, 0, [1], 0, none⟩) = false
    ∧ Instr.wf (.patchStage ⟨.queue 0 0, 0, [], BitVec.ofNat 32 (2 ^ 24 + 1), none⟩) = false
    ∧ Instr.wf (.patchStage ⟨.queue 0 0, 0, [1], 1, none⟩) = true := by decide

theorem test_wf_mailboxLength : Instr.wf (.mailboxDoorbell (.mailbox 0) 1 65537) = false ∧ Instr.wf (.mailboxDoorbell (.mailbox 0) 1 65536) = true := by
  decide

theorem test_wf_payloads (d : List Byte) :
    (Instr.wf (.setLsa (.mailbox 0) 0 d) = true ↔ d.length ≤ 65536) ∧ (Instr.wf (.transferFw (.mailbox 0) 0 2 0 d) = true ↔ d.length ≤ 65536)
      ∧ (Instr.wf (.patchStage ⟨.path (.mailbox 0), 0, d, 0, none⟩) = true ↔ d.length + 32 ≤ 65536) := by
  simp [Instr.wf, Instr.kelric, KCmd.wf, KCmd.fits, CmdSrc.sent]

theorem test_wf_proof (f : Frame) : Instr.wf (.proof f ⟨0, 0, []⟩) = false ∧ Instr.wf (.proof f ⟨0, 33, []⟩) = false
    ∧ Instr.wf (.proof f ⟨2, 2, []⟩) = false ∧ (∀ d, Instr.wf (.proof f ⟨0, 1, d⟩) = true ↔ d.length ≤ 272)
    ∧ Instr.wf (.proof f ⟨31, 32, [7]⟩) = true := by
  refine ⟨rfl, rfl, rfl, fun d => ?_, rfl⟩
  simp [Instr.wf, ProofBody.wf]

/-- A link-state advertisement of links by their numbers. -/
def lsaOf (l : List LinkNo) : LsaBody := ⟨1, 0, 0, 0, false, true, l.map (fun k => (2, k, 0)), []⟩

theorem test_wf_lsa (f : Frame) : Instr.wf (.lsa f (lsaOf [0, 0])) = false ∧ Instr.wf (.lsa f (lsaOf [0, 1, 2, 3, 4, 5, 6, 7, 7])) = false
    ∧ Instr.wf (.lsa f (lsaOf [0, 1, 2, 3, 4, 5, 6, 7])) = true := ⟨rfl, rfl, rfl⟩

theorem test_wf_sensors : Instr.wf (.onDieSensorSample (List.replicate 31 0)) = false ∧ Instr.wf (.onDieSensorSample (List.replicate 32 0)) = true := by
  decide

theorem test_wf_sums : Instr.wf (.calibrationPass [⟨0, 1, 0, 0, 0⟩, ⟨0, 1, 1, 0, 0⟩]) = false
    ∧ Instr.wf (.calibrationPass [⟨0, 1, 0, 0, 0⟩, ⟨0, 2, 1, 0, 0⟩]) = true := by decide

/-! ### The spec's worked examples -/

/-- Spec 02, the example after R53: a device address and its PSN. -/
theorem test_geometry :
    0x012345678940 / 64 % 4 = 1 ∧ keyTile (0x012345678940 / 64) = 0x0123456789 ∧ ltnSeg 0x0123456789 = 1193046 ∧ 0x0123456789 % 4096 = 1929
      ∧ psnSet 21000000 = 50 ∧ psnSlot 21000000 = 28500 ∧ chunkIndex 28500 1929 = 7296120
      ∧ (List.range 10).map (chunkMember 28500 1929) = [9, 0, 1, 2, 3, 4, 5, 6, 7, 8] := by decide

/-- Spec 09, the example after R234: a host address through a decoder interleaved four ways, in block 0 of LD 5, device block 4,100. -/
theorem test_decoder :
    let d : Decoder := { committed := true, cfg := ⟨0x4000000000, 0x40000000000, 4, 1024, 2, 0, false⟩ }
    let s : State := { host := { blocks := [(4100, { ld := 5, kind := 1 })], decoders := [(20, d)] } }
    s.hpaToDpa 5 0x4012345840 = some 0x048D1440 ∧ s.hpaToDpa 5 0x4012345C40 = none ∧ s.dpaKey 5 0x048D1440 = some (0x100448D1440 / 64)
      ∧ keyTile (0x100448D1440 / 64) = 0x100448D14 ∧ ltnSeg 0x100448D14 = 1049672 := by decide +kernel

/-- Spec 13, the example after R358: a bank of 5.0 F and of 2.4 F at 12.0 V, and the latter at 10.8 V in its test. The example
rounds t_run to 373.25 ms; R357's own numbers, unrounded, give 373.248 ms and 312 tiles fewer than its 44,616,496. -/
theorem test_budget :
    (let s := (up.setF Reg.HU_CAP.CAP_MF 5000).modPower (fun p => { p with samples := [12000000] })
     s.budgetNow.power.budget = 2 ^ 26)
    ∧ (let s := (up.setF Reg.HU_CAP.CAP_MF 2400).modPower (fun p => { p with samples := [12000000] })
       s.budgetNow.power.budget = 44616184)
    ∧ (let s := (up.setF Reg.HU_CAP.CAP_MF 2400).modPower (fun p => { p with samples := [12000000], test := { lowered := some 10800000 } })
       s.budgetNow.power.budget * 256 / 10 ^ 7 = 763) := by decide +kernel

/-- Spec 15, the example after R387: Tj at 99.5 °C, and a group at 81 °C. -/
theorem test_throttling :
    (let s : State := { up with therm := { last := List.replicate 32 398 } }
     s.junction.getF Reg.THERM_STAT.CAP = 64)
    ∧ throttleCap 324 up.medStart up.medSlope = 52 := by decide +kernel

/-- Spec 04, the example after R546. -/
theorem test_gravity : let e := resetWord (0x51000 + 4 * (8 * 12 + 5)); toSigned (bitsOf e 0 6) 6 = -13 ∧ gravShift e = 3 ∧ gravSpan e = 8 := by
  decide +kernel

/-- Spec 18, the example on clearing TEST_FAIL through its alias. -/
theorem test_alias : 0x2000000 + 32 * 0xE0018 + 4 * 14 = 0x3C00338 ∧ (0x3C00338 - 0x2000000) / 128 * 4 = 0xE0018
    ∧ (0x3C00338 - 0x2000000) % 128 / 4 = 14 := by decide

/-- Spec 23, the examples of R524, R525 and R528: rows Y, BK and BU are 19, 48 and 54; D is 4. -/
theorem test_ballout : ballAt 19 39 = .media 21 (.dqsN 1) ∧ ballAt 4 1 = .media 0 (.dq 0) ∧ ballAt 48 24 = .lane (.port 2) 11 false true
    ∧ ballAt 54 52 = .corner 142 := by decide

/-- R37: the generator is the product of the minimal polynomials, of degree 30. -/
theorem test_bchGen : bchGen < 2 ^ 31 ∧ 2 ^ 30 ≤ bchGen ∧ bchGen % 2 = 1 := by decide +kernel

/-- The check values that the names of the CRCs are published with. -/
theorem test_crcs : crc32c ("123456789".toList.map Char.toNat) = 0xE3069283 ∧ crc8 ("123456789".toList.map Char.toNat) = 0xF4 := by decide +kernel

/-! ### Single steps -/

/-- A step takes the command at the front of the queue. -/
theorem test_step_takes_front : (step { up with pending := [.hourlyCheckpoint, .vinGoodReturn] }) = exec .hourlyCheckpoint { up with pending := [.vinGoodReturn] } := rfl

/-- R404: a Kelric command during a drydown is answered DRYDOWN; R394: the path is free again. -/
theorem test_drydown_gate :
    let s := (drying {} 1).modHost (fun h => { h with mailbox := true })
    (s.kMark (.path (.mgmt 0)) 0xC013).kGate 0xC013 (asks [] []) = kDrydown ∧ (s.kMark (.path (.mgmt 0)) 0xC090).kGate 0xC090 (asks [] []) = kOk := by
  decide +kernel

end Sys2Proof.Tests
end

section
/-!
PROOFS. What a whole-word write leaves in each bit of a word (R9), and fields that read back (R438).
-/

namespace Sys2Proof.Machine

/-- The word that a whole-word write leaves, where it is not buffered and has no persistent and no locked field: the RW1C bits written 1
cleared, the RW1S bits written 1 set, and the RW bits taken from the value (R9). -/
theorem State.word_wordWrite_plain (s : State) (off val : Nat) (free : Bool) (hb : bufferedWord off = false)
    (hp : accMask off (· == .rwp) = 0) (hl : accMask off (· == .rwl) = 0) :
    (s.wordWrite off val 0xFFFFFFFF free).word off =
      setMask (((s.word off - (s.word off &&& (val &&& (accMask off (· == .rw1c) &&& 0xFFFFFFFF))))
        ||| (val &&& (accMask off (· == .rw1s) &&& 0xFFFFFFFF))) % 2 ^ 32) (accMask off (· == .rw) &&& 0xFFFFFFFF) val % 2 ^ 32 := by
  simp [State.wordWrite, hb, hp, hl]

theorem testBit_word_mask {i : Nat} (hi : i < 32) : Nat.testBit 0xFFFFFFFF i = true := by
  rw [show (0xFFFFFFFF : Nat) = 2 ^ 32 - 1 from rfl, Nat.testBit_two_pow_sub_one]
  simpa using hi

/-- The same, bit by bit. -/
theorem State.testBit_word_wordWrite_plain (s : State) (off val i : Nat) (free : Bool) (hi : i < 32) (hb : bufferedWord off = false)
    (hp : accMask off (· == .rwp) = 0) (hl : accMask off (· == .rwl) = 0) :
    ((s.wordWrite off val 0xFFFFFFFF free).word off).testBit i =
      if (accMask off (· == .rw)).testBit i then val.testBit i
      else ((s.word off).testBit i && !(val.testBit i && (accMask off (· == .rw1c)).testBit i))
        || (val.testBit i && (accMask off (· == .rw1s)).testBit i) := by
  rw [State.word_wordWrite_plain s off val free hb hp hl]
  simp only [Nat.testBit_mod_two_pow, testBit_setMask, Nat.testBit_or, Nat.testBit_and, testBit_sub_and, testBit_word_mask hi, hi,
    decide_true, Bool.true_and, Bool.and_true]

/-- Settles O53: the bit of the word left, read off the masks of its access type. -/
theorem wordBitsFollowTheirAccess : Obligations.WordBitsFollowTheirAccess := by
  unfold Obligations.WordBitsFollowTheirAccess
  intro s off val free a i hb hp hl hi ha
  rw [State.testBit_word_wordWrite_plain s off val i free hi hb (Nat.zero_of_testBit_eq_false hp) (Nat.zero_of_testBit_eq_false hl),
    ha .rw, ha .rw1c, ha .rw1s]
  cases a with
  | rw => rfl
  | rw1c => simp [beq_eq_decide]
  | rw1s => simp [beq_eq_decide]
  | ro | wo | rwp | rwl | rsv => simp [beq_eq_decide]

/-- Settles O54, by the laws of the words a field reaches over. -/
theorem fieldsReadBackAsWritten : Obligations.FieldsReadBackAsWritten := by
  unfold Obligations.FieldsReadBackAsWritten
  intro s f g v
  exact ⟨s.getF_setF_self f v, s.getF_setF_of_out f g v⟩

/-! ### Reset (R9, R369, R370) -/

/-- No word is listed at reset, so each holds its reset value. -/
theorem State.reset_word (off : Nat) : State.reset.word off = resetWord off := rfl

/-- Settles O3: the fields named are those of the reset words, and no memory is listed. -/
theorem resetIsThePowerOnState : Obligations.ResetIsThePowerOnState := by
  unfold Obligations.ResetIsThePowerOnState
  refine ⟨rfl, rfl, rfl, rfl, rfl, rfl, State.reset_word, ?stage, ?cause, ?phase, ?links, ?heads, rfl⟩
  case stage => decide +kernel
  case cause => decide +kernel
  case phase => decide +kernel
  case links => decide +kernel
  case heads => decide +kernel

end Sys2Proof.Machine
end

section
/-!
PROOFS. Accesses to BAR2 (spec/18, R438 to R445): what a write of a word does in each of its cases, what a read answers, and the
statements that rest on them.
-/

namespace Sys2Proof.Machine

/-! ### When a word may be stored -/

theorem State.mayStore_iff (s : State) (req : Requester) (off val : Nat) :
    s.mayStore req off val = true ↔ s.served off = true ∧ s.mayWrite req off = true ∧ s.rsvClash off val = false := by
  simp [State.mayStore, and_assoc]

theorem State.rsvClash_iff (s : State) (off val : Nat) :
    s.rsvClash off val = true ↔ val &&& accMask off (· == .rsv) ≠ mget 0 s.rsv off &&& accMask off (· == .rsv) := by
  simp [State.rsvClash]

/-! ### A 4-byte write (R10, R439, R441 to R443) -/

theorem State.write4_misaligned (s : State) (req : Requester) (off val : Nat) (ha : off % 4 ≠ 0) :
    s.write4 req off val = some (s.raise Reg.REG_STATUS.ACCESS_ERR) := by
  simp [State.write4, ha]

theorem State.write4_denied (s : State) (req : Requester) (off val : Nat) (ha : off % 4 = 0) (hw : off < 0x100000)
    (hs : s.served off = true) (hm : s.mayWrite req off = false) :
    s.write4 req off val = some (s.raise Reg.REG_STATUS.WR_DENIED) := by
  have hal : ¬ 0x2000000 ≤ off := by omega
  have hwin : ¬ 0x100000 ≤ off := by omega
  simp [State.write4, ha, hal, hwin, hs, hm]

theorem State.write4_clash (s : State) (req : Requester) (off val : Nat) (ha : off % 4 = 0) (hw : off < 0x100000)
    (hs : s.served off = true) (hm : s.mayWrite req off = true) (hd : (regDef off).isNone = false) (hc : s.rsvClash off val = true) :
    s.write4 req off val = none := by
  have hal : ¬ 0x2000000 ≤ off := by omega
  have hwin : ¬ 0x100000 ≤ off := by omega
  simp [State.write4, ha, hal, hwin, hs, hm, hd, hc]

/-- One bit of a word, written in the region of the aliases. -/
theorem State.write4_alias (s : State) (req : Requester) (off val : Nat) (ha : off % 4 = 0) (hal : 0x2000000 ≤ off)
    (hs : s.served ((off - 0x2000000) / 128 * 4) = true) (hm : s.mayWrite req ((off - 0x2000000) / 128 * 4) = true)
    (hd : (regDef ((off - 0x2000000) / 128 * 4)).isNone = false) :
    s.write4 req off val = some (s.wordTake req ((off - 0x2000000) / 128 * 4)
      (val % 2 * 2 ^ ((off - 0x2000000) % 128 / 4)) (2 ^ ((off - 0x2000000) % 128 / 4))) := by
  simp [State.write4, ha, hal, hs, hm, hd]

/-- A whole word that its requester may store is taken. -/
theorem State.write4_mayStore (s : State) (req : Requester) (off val : Nat) (ha : off % 4 = 0) (hw : off < 0x100000)
    (hd : (regDef off).isSome = true) (h : s.mayStore req off val = true) :
    s.write4 req off val = some (s.wordTake req off val 0xFFFFFFFF) := by
  obtain ⟨hs, hm, hc⟩ := (s.mayStore_iff req off val).mp h
  exact write4_word s req off val ha hw hs hm (by simpa using hd) hc

/-! ### A write by its size (R439) -/

theorem State.writeSized_four (s : State) (req : Requester) (off val : Nat) :
    s.writeSized req off 4 val = s.write4 req off (bitsOf val 0 32) := rfl

/-- Only the persistent registers of 64 bits are named by their low word, and it is aligned to eight bytes. -/
theorem mod_eight_of_rwpReg {off : Nat} (h : rwpReg (off + 4) = off) : off % 8 = 0 := by
  unfold rwpReg at h
  split at h
  · omega
  · split at h <;> omega

theorem State.writeSized_long (s : State) (req : Requester) (off val : Nat) (h : rwpReg (off + 4) = off) :
    s.writeSized req off 8 val = some (s.writeLong req off val) := by
  simp [State.writeSized, h]

theorem State.writeSized_pair (s : State) (req : Requester) (off val : Nat) (h : rwpReg (off + 4) ≠ off) (ha : off % 8 = 0) :
    s.writeSized req off 8 val = (s.write4 req off (bitsOf val 0 32)).bind (fun t => t.write4 req (off + 4) (bitsOf val 32 32)) := by
  simp [State.writeSized, h, ha]

/-- A write of another size, or not aligned to its own, is an access error. -/
theorem State.writeSized_error (s : State) (req : Requester) (off size val : Nat)
    (h : (size ≠ 4 ∧ size ≠ 8) ∨ (size = 4 ∧ off % 4 ≠ 0) ∨ (size = 8 ∧ off % 8 ≠ 0)) :
    s.writeSized req off size val = some (s.raise Reg.REG_STATUS.ACCESS_ERR) := by
  obtain ⟨h4, h8⟩ | ⟨rfl, ha⟩ | ⟨rfl, ha⟩ := h
  · simp [State.writeSized, h4, h8]
  · rw [State.writeSized_four, State.write4_misaligned _ _ _ _ ha]
  · have hl : rwpReg (off + 4) ≠ off := fun e => ha (mod_eight_of_rwpReg e)
    simp [State.writeSized, hl, ha]

/-! ### A read of a word (R438, R439, R443, R445) -/

/-- An aligned word of a served block that its requester sees. -/
structure State.Readable (s : State) (req : Requester) (off : Nat) : Prop where
  aligned : off % 4 = 0
  inWindow : off < 0x100000
  served : s.served off = true
  visible : s.hidden req off = false

/-- A readable word is below the aliases and inside the window. -/
theorem State.Readable.below {s : State} {req : Requester} {off : Nat} (h : s.Readable req off) :
    ¬ 0x2000000 ≤ off ∧ ¬ 0x100000 ≤ off := by
  have hw := h.inWindow
  omega

/-- A word that the requester's latch holds is answered from it, and leaves it. -/
theorem State.read4_latched {s : State} {req : Requester} {off v : Nat} (h : s.Readable req off)
    (hl : (mget [] s.regs.latch (reqNo req)).find? (fun x => x.1 == off) = some (off, v)) :
    s.read4 req off = (v, s.modRegs (fun r =>
      { r with latch := mset [] r.latch (reqNo req) ((mget [] s.regs.latch (reqNo req)).filter (fun x => x.1 != off)) })) := by
  simp [State.read4, h.aligned, h.below, h.served, h.visible, hl]

/-- Any other word is answered live, after its window's snapshot, and latches what belongs to it. -/
theorem State.read4_live {s : State} {req : Requester} {off : Nat} (h : s.Readable req off)
    (hl : (mget [] s.regs.latch (reqNo req)).find? (fun x => x.1 == off) = none) (hd : off ≠ 0x380C) :
    s.read4 req off = ((s.snapshot off).regView off, (s.snapshot off).takeLatch (reqNo req) off) := by
  simp [State.read4, h.aligned, h.below, h.served, h.visible, hl, hd]

/-- SAMPLE_DATA is answered with the next word of the record in front. -/
theorem State.read4_sampleData {s : State} {req : Requester} (h : s.Readable req 0x380C)
    (hl : (mget [] s.regs.latch (reqNo req)).find? (fun x => x.1 == 0x380C) = none) :
    s.read4 req 0x380C = s.sampleWord := by
  simp [State.read4, State.snapshot, h.served, h.visible, hl]

theorem State.busRead_eq (s : State) (req : Requester) (off : Nat) :
    s.busRead req off = (s.read4 req off).2.emit (.regRead (reqNo req) off 4 (s.read4 req off).1) := rfl

/-! ### UNLOCK (R448) -/

/-- A whole word written to UNLOCK is its key, in the low half. -/
theorem State.wordTake_unlock (s : State) (req : Requester) (val : Nat) :
    s.wordTake req 0x10 val 0xFFFFFFFF = s.unlockTake (reqNo req) (bitsOf val 0 16) := by
  have hk : bitsOf (val &&& 0xFFFFFFFF) 0 16 = bitsOf val 0 16 := by
    rw [show (0xFFFFFFFF : Nat) = 2 ^ 32 - 1 from rfl, Nat.and_two_pow_sub_one_eq_mod, bitsOf_mod_two_pow _ _ _ _ (by omega)]
  simp only [State.wordTake, if_true, true_or, hk]

/-! ### The statements -/

/-- Settles O12: the value clashes with the RSV bits it is compared with, or the word is taken. -/
theorem reservedBitsMayNotChange : Obligations.ReservedBitsMayNotChange := by
  unfold Obligations.ReservedBitsMayNotChange
  intro s req off val ha hw hd hs hm
  dsimp only
  have hn : (regDef off.toNat).isNone = false := by simpa using hd
  have hx : exec (.registerWrite req off 4 val) s = regRes (s.write4 req off.toNat (bitsOf val.toNat 0 32)) := rfl
  rw [hx, ← State.rsvClash_iff]
  constructor
  · intro hc
    rw [State.write4_clash s req _ _ ha hw hs hm hn hc]
    rfl
  · intro he
    have hc : s.rsvClash off.toNat (bitsOf val.toNat 0 32) = false := by simpa [State.rsvClash] using he
    rw [write4_word s req _ _ ha hw hs hm hn hc]
    exact ⟨_, rfl⟩

/-- Settles O49: each clause is one case of a write by its size or of a read of a readable word. -/
theorem registerAccessesTakeEffect : Obligations.RegisterAccessesTakeEffect := by
  unfold Obligations.RegisterAccessesTakeEffect
  intro s req
  dsimp only
  refine ⟨?word, ?pair, ?long, ?error, ?denied, ?bitAlias, ?read, ?window, ?sample⟩
  case word =>
    intro off val ha hw hd h
    exact congrArg regRes (s.write4_mayStore req _ _ ha hw hd h)
  case pair =>
    intro off val t ha hl ht
    have e := s.writeSized_pair req off.toNat val.toNat hl ha
    rw [ht] at e
    exact congrArg regRes e
  case long =>
    intro off val hl hs hm
    have e : s.writeLong req off.toNat val.toNat = (s.useArm (reqNo req)).2.rwpWrite off.toNat (2 ^ 64 - 1) val.toNat none := by
      simp [State.writeLong, hs, hm]
    rw [← e]
    exact congrArg regRes (s.writeSized_long req off.toNat val.toNat hl)
  case error =>
    intro off size val h
    refine congrArg regRes (s.writeSized_error req off.toNat size.toNat val.toNat ?_)
    bv_omega
  case denied =>
    intro off val ha hw hs hm
    exact congrArg regRes (s.write4_denied req _ _ ha hw hs hm)
  case bitAlias =>
    intro off val hal ha hs hm hd
    have hlow : ¬ off.toNat < 0x2000000 := by omega
    have e : exec (.bitAliasWrite req off val) s = regRes (s.write4 req off.toNat val.toNat) := by
      show regRes (s.write4 req (if off.toNat < 0x2000000 then _ else _) _) = _
      rw [if_neg hlow]
    rw [e, s.write4_alias req _ _ ha hal hs hm (by simpa using hd)]
    rfl
  case read =>
    intro off ha hw hs hv
    have hr : s.Readable req off.toNat := ⟨ha, hw, hs, hv⟩
    have hx : exec (.lowWordLatchRead req off) s = .next (s.busRead req off.toNat) := rfl
    constructor
    · intro v hl
      rw [hx, State.busRead_eq, State.read4_latched hr hl]
    · intro hl hd
      rw [hx, State.busRead_eq, State.read4_live hr hl hd]
  case window =>
    intro c o hc hs hv hl
    have hread : o % 4 = 0 ∧ o < 0x100000 ∧ o ≠ 0x380C ∧ exec c s = .next (s.busRead req o) := by
      simp only [List.mem_cons, Prod.mk.injEq, List.not_mem_nil, or_false] at hc
      obtain ⟨rfl, rfl⟩ | ⟨rfl, rfl⟩ | ⟨rfl, rfl⟩ | ⟨rfl, rfl⟩ | ⟨rfl, rfl⟩ := hc <;>
        exact ⟨by decide, by decide, by decide, rfl⟩
    obtain ⟨ha, hw, hd, hx⟩ := hread
    rw [hx, State.busRead_eq, State.read4_live ⟨ha, hw, hs, hv⟩ (by rw [hl]; rfl) hd]
  case sample =>
    intro hs hv hl
    have hx : exec (.sampleDataRead req) s = .next (s.busRead req 0x380C) := rfl
    rw [hx, State.busRead_eq, State.read4_sampleData ⟨by decide, by decide, hs, hv⟩ hl]

/-- Settles O50: UNLOCK is a word of its own, and the management bus is a requester that may write every word. -/
theorem unlockingAndSidebandAccessesTakeEffect : Obligations.UnlockingAndSidebandAccessesTakeEffect := by
  unfold Obligations.UnlockingAndSidebandAccessesTakeEffect
  intro s
  refine ⟨fun req val => ⟨fun h => ?_, rfl⟩, fun op ld off val => ⟨?refused, ?read, ?write⟩⟩
  · have e := s.write4_mayStore req 0x10 val.toNat (by decide) (by decide) (by decide) h
    rw [State.wordTake_unlock] at e
    exact congrArg regRes e
  case refused =>
    intro h
    exact if_pos h
  case read =>
    intro ho ha hop
    have hn : ¬ (2 ^ 26 ≤ off.toNat ∨ off.toNat % 4 ≠ 0 ∨ (op ≠ 1 ∧ op ≠ 2)) := by
      rintro (h | h | ⟨h, -⟩)
      · omega
      · exact h ha
      · exact h hop
    exact (if_neg hn).trans (if_pos hop)
  case write =>
    intro ho ha hop hd h
    have hn : ¬ (2 ^ 26 ≤ off.toNat ∨ off.toNat % 4 ≠ 0 ∨ (op ≠ 1 ∧ op ≠ 2)) := by
      rintro (h | h | ⟨-, h⟩)
      · omega
      · exact h ha
      · exact h hop
    have hne : op ≠ 1 := by rw [hop]; decide
    have hs : s.served off.toNat = true := ((s.mayStore_iff _ _ _).mp h).1
    have hal : ¬ 0x2000000 ≤ off.toNat := by omega
    show execMctpBar2Access op ld off val s = _
    simp only [execMctpBar2Access, if_neg hn, if_neg hne, if_neg hal, hs, Bool.not_true, Bool.false_and, Bool.false_eq_true,
      if_false, s.write4_mayStore .mgmt _ _ ha ho hd h]

end Sys2Proof.Machine
end

section
/-!
PROOFS. No command changes the queue of commands or the RSV bits (R10): all but five keep what `State.kept` names, and those five change
none of the two.
-/

namespace Sys2Proof.Machine

/-- The queue of commands and the RSV bits are the same. -/
def SameQueueRsv (s t : State) : Prop := t.pending = s.pending ∧ t.rsv = s.rsv

theorem SameQueueRsv.refl (s : State) : SameQueueRsv s s := ⟨rfl, rfl⟩

theorem SameQueueRsv.trans {s t u : State} (h : SameQueueRsv s t) (g : SameQueueRsv t u) : SameQueueRsv s u :=
  ⟨g.1.trans h.1, g.2.trans h.2⟩

theorem SameQueueRsv.of_kept {s t : State} (h : t.kept = s.kept) : SameQueueRsv s t := by
  simp only [State.kept, Prod.mk.injEq] at h
  obtain ⟨hq, hr, _⟩ := h
  exact ⟨hq, hr⟩

/-- A change of the board area alone leaves both. -/
theorem BoardOnly.sameQueueRsv {s t : State} (h : BoardOnly s t) : SameQueueRsv s t := by
  obtain ⟨b, hb, -⟩ := h
  exact SameQueueRsv.of_kept (s := s.withBoard b) hb

/-- A standard command leaves both where what it runs does. -/
theorem State.stdRun_sameQueueRsv (s : State) (path : MboxPath) (opc : Nat) (f : Nat → State → State)
    (h : ∀ p u, SameQueueRsv u (f p u)) : SameQueueRsv s (s.stdRun path opc f) := by
  have hm : SameQueueRsv s (s.kMark (.path path) opc) := .of_kept (State.kMark_kept ..)
  unfold State.stdRun
  dsimp only
  split
  · exact .refl s
  · split
    · exact .of_kept (State.emit_kept ..)
    · split
      · exact hm.trans (.of_kept (State.endPath_kept ..))
      · exact hm.trans (h _ _)

theorem State.ldRun_sameQueueRsv (s : State) (path : MboxPath) (opc : Nat) (f : Nat → Nat → State → State)
    (h : ∀ p ld u, SameQueueRsv u (f p ld u)) : SameQueueRsv s (s.ldRun path opc f) := by
  refine State.stdRun_sameQueueRsv _ _ _ _ (fun p u => ?_)
  split
  · exact h _ _ _
  · exact .of_kept (State.endPath_kept ..)

/-- SET_LSA changes a label storage area and its path. -/
theorem execSetLsa_sameQueueRsv (path : MboxPath) (off : BitVec 32) (data : List Byte) (s t : State)
    (h : execSetLsa path off data s = .next t) : SameQueueRsv s t := by
  cases h
  refine State.ldRun_sameQueueRsv _ _ _ _ (fun p ld u => ?_)
  split
  · exact .of_kept (State.endPath_kept ..)
  · exact SameQueueRsv.trans (t := u.modHost _) ⟨rfl, rfl⟩ (.of_kept (State.endPath_kept ..))

/-- SET_SHUTDOWN_STATE changes a shutdown state and its path. -/
theorem execSetShutdownState_sameQueueRsv (path : MboxPath) (st : BitVec 8) (s t : State)
    (h : execSetShutdownState path st s = .next t) : SameQueueRsv s t := by
  cases h
  exact State.ldRun_sameQueueRsv _ _ _ _ (fun p ld u =>
    SameQueueRsv.trans (t := u.modHost _) ⟨rfl, rfl⟩ (.of_kept (State.endPath_kept ..)))

/-- BACKGROUND_OP_END changes the lifecycle and the fuse at most. -/
theorem execBackgroundOpEnd_sameQueueRsv (path : MboxPath) (ok : Bool) (s t : State) (h : execBackgroundOpEnd path ok s = .next t) :
    SameQueueRsv s t := by
  obtain hk | ⟨l, hl⟩ := execBackgroundOpEnd_life path ok s t h
  · exact .of_kept hk
  · exact SameQueueRsv.of_kept (s := s.withLife l _) hl

/-- Settles O4, from the law of each command. -/
theorem commandsLeaveQueueAndReservedBits : Obligations.CommandsLeaveQueueAndReservedBits := by
  unfold Obligations.CommandsLeaveQueueAndReservedBits
  intro c s t h
  show SameQueueRsv s t
  cases hc : keepsAll c with
  | true => exact .of_kept (exec_keeps c s hc t h)
  | false =>
    cases c with
    | wealiPageWriteEnd page bad1 bad2 => exact (execWealiPageWriteEnd_board page bad1 bad2 s t h).sameQueueRsv
    | quiesceEnd => exact (execQuiesceEnd_board s t h).sameQueueRsv
    | backgroundOpEnd path ok => exact execBackgroundOpEnd_sameQueueRsv path ok s t h
    | setLsa path off data => exact execSetLsa_sameQueueRsv path off data s t h
    | setShutdownState path st => exact execSetShutdownState_sameQueueRsv path st s t h
    | _ => cases hc

end Sys2Proof.Machine
end

section
/-!
PROOFS. Every command completes (R10): a command's meaning is a next state on every branch, unless it stores a value of the sender's own
in a register word, which stops with a fault where it would change RSV bits.
-/

namespace Sys2Proof.Machine

/-- An outcome that is a next state. -/
def Completes (r : Res) : Prop := ∃ t, r = .next t

theorem Completes.next (t : State) : Completes (.next t) := ⟨t, rfl⟩

/-- An outcome that is a next state or the fault of changed RSV bits, and nothing else. -/
def CompletesOrClashes (r : Res) : Prop := Completes r ∨ r = .fault .rsvBitsChanged

theorem CompletesOrClashes.next (t : State) : CompletesOrClashes (.next t) := .inl (.next t)

theorem CompletesOrClashes.fault : CompletesOrClashes (.fault .rsvBitsChanged) := .inr rfl

/-! ### The commands with more than one branch, one law each -/

theorem execBirsp_completes (h : HeadNo) (biTag : Fin 64) (rsp : BiRsp) (s : State) : Completes (execBirsp h biTag rsp s) := by
  fun_cases execBirsp <;> exact .next _
theorem execBiconflict_completes (h : HeadNo) (ldId : Fin 16) (line : BitVec 39) (s : State) :
    Completes (execBiconflict h ldId line s) := by
  fun_cases execBiconflict <;> exact .next _
theorem execBisnpTimeout_completes (h : HeadNo) (biTag : Fin 64) (s : State) : Completes (execBisnpTimeout h biTag s) := by
  fun_cases execBisnpTimeout <;> exact .next _
theorem execSlotPurgeEnd_completes (slot : Fin 32) (s : State) : Completes (execSlotPurgeEnd slot s) := by
  fun_cases execSlotPurgeEnd <;> exact .next _
theorem execMapEntryReturn_completes (ltn : BitVec 37) (s : State) : Completes (execMapEntryReturn ltn s) := by
  fun_cases execMapEntryReturn <;> exact .next _
theorem execTileReadAdmit_completes (k : TileRef) (why : ReadWhy) (s0 : State) : Completes (execTileReadAdmit k why s0) := by
  fun_cases execTileReadAdmit <;> exact .next _
theorem execChunkReadData_completes (ch : ChanNo) (pos : DiePos) (part : Fin 16) (cidx : BitVec 27) (bits : BitVec 320) (s : State) :
    Completes (execChunkReadData ch pos part cidx bits s) := by
  fun_cases execChunkReadData <;> exact .next _
theorem execTileAttempt_completes (k : TileRef) (s : State) : Completes (execTileAttempt k s) := by
  fun_cases execTileAttempt <;> exact .next _
theorem execCrcResendArrival_completes (ltn : BitVec 37) (tile : Tile) (crc : BitVec 32) (s : State) :
    Completes (execCrcResendArrival ltn tile crc s) := by
  fun_cases execCrcResendArrival <;> exact .next _
theorem execDeepRecoveryStart_completes (k : TileRef) (s : State) : Completes (execDeepRecoveryStart k s) := by
  fun_cases execDeepRecoveryStart <;> exact .next _
theorem execDeepRecoveryEnd_completes (k : TileRef) (s : State) : Completes (execDeepRecoveryEnd k s) := by
  fun_cases execDeepRecoveryEnd <;> exact .next _
theorem execTagCacheMissReturn_completes (set : BitVec 24) (visitor : Bool) (s : State) :
    Completes (execTagCacheMissReturn set visitor s) := by
  fun_cases execTagCacheMissReturn <;> exact .next _
theorem execWriteCreditGrant_completes (port : CreditPort) (s : State) : Completes (execWriteCreditGrant port s) := by
  fun_cases execWriteCreditGrant <;> exact .next _
theorem execMashIdleTimeout_completes (ltn : BitVec 37) (s : State) : Completes (execMashIdleTimeout ltn s) := by
  fun_cases execMashIdleTimeout <;> exact .next _
theorem execCounterReadReturn_completes (k : TileRef) (s : State) : Completes (execCounterReadReturn k s) := by
  fun_cases execCounterReadReturn <;> exact .next _
theorem execLaneGrant_completes (ds : DieSet) (lane : Fin 16) (s : State) : Completes (execLaneGrant ds lane s) := by
  fun_cases execLaneGrant <;> exact .next _
theorem execStatusResponse_completes (ch : ChanNo) (pkg : Fin 2) (die : Fin 16) (bits : BitVec 64) (s : State) :
    Completes (execStatusResponse ch pkg die bits s) := by
  fun_cases execStatusResponse <;> exact .next _
theorem execPartitionBusyTimeout_completes (ch : ChanNo) (pos : DiePos) (part : Fin 16) (s : State) :
    Completes (execPartitionBusyTimeout ch pos part s) := by
  fun_cases execPartitionBusyTimeout <;> exact .next _
theorem execTempResponse_completes (ch : ChanNo) (pkg : Fin 2) (bits : BitVec 64) (s : State) :
    Completes (execTempResponse ch pkg bits s) := by
  fun_cases execTempResponse <;> exact .next _
theorem execIdentResponse_completes (ch : ChanNo) (pkg : Fin 2) (bits : BitVec 128) (s : State) :
    Completes (execIdentResponse ch pkg bits s) := by
  fun_cases execIdentResponse <;> exact .next _
theorem execChannelRetrainEnd_completes (ch : ChanNo) (ok : Bool) (s : State) : Completes (execChannelRetrainEnd ch ok s) := by
  fun_cases execChannelRetrainEnd <;> exact .next _
theorem execCheckpointDue_completes (s : State) : Completes (execCheckpointDue s) := by
  fun_cases execCheckpointDue <;> exact .next _
theorem execCheckpointEnd_completes (s : State) : Completes (execCheckpointEnd s) := by
  fun_cases execCheckpointEnd <;> exact .next _
theorem execCopyStart_completes (lsn : BitVec 25) (s : State) : Completes (execCopyStart lsn s) := by
  fun_cases execCopyStart <;> exact .next _
theorem execReleaseMarkStart_completes (psn : BitVec 26) (s : State) : Completes (execReleaseMarkStart psn s) := by
  fun_cases execReleaseMarkStart <;> exact .next _
theorem execEndureReached_completes (lsn : BitVec 25) (s : State) : Completes (execEndureReached lsn s) := by
  fun_cases execEndureReached <;> exact .next _
theorem execRekeyStart_completes (g : GroupNo) (s : State) : Completes (execRekeyStart g s) := by
  fun_cases execRekeyStart <;> exact .next _
theorem execCalibrationPass_completes (sums : List CalSum) (s : State) : Completes (execCalibrationPass sums s) := by
  fun_cases execCalibrationPass <;> exact .next _
theorem execFtsyncEdge_completes (s : State) : Completes (execFtsyncEdge s) := by
  fun_cases execFtsyncEdge <;> exact .next _
theorem execFtcodeWord_completes (word : BitVec 98) (s : State) : Completes (execFtcodeWord word s) := by
  fun_cases execFtcodeWord <;> exact .next _
theorem execFtcodeOutSend_completes (s : State) : Completes (execFtcodeOutSend s) := by
  fun_cases execFtcodeOutSend <;> exact .next _
theorem execPtmResponse_completes (ok : Bool) (root : BitVec 64) (s : State) : Completes (execPtmResponse ok root s) := by
  fun_cases execPtmResponse <;> exact .next _
theorem execSync_completes (f : Frame) (body : BitVec 256) (s : State) : Completes (execSync f body s) := by
  fun_cases execSync <;> exact .next _
theorem execFtStepForward_completes (s : State) : Completes (execFtStepForward s) := by
  fun_cases execFtStepForward <;> exact .next _
theorem execTimedActionDue_completes (s : State) : Completes (execTimedActionDue s) := by
  fun_cases execTimedActionDue <;> exact .next _
theorem execCaskBoundary_completes (dom : Fin 16) (s : State) : Completes (execCaskBoundary dom s) := by
  fun_cases execCaskBoundary <;> exact .next _
theorem execUndoSpill_completes (s : State) : Completes (execUndoSpill s) := by
  fun_cases execUndoSpill <;> exact .next _
theorem execCaskReadySend_completes (dom : Fin 16) (s : State) : Completes (execCaskReadySend dom s) := by
  fun_cases execCaskReadySend <;> exact .next _
theorem execEarlyThreshold_completes (dom : Fin 16) (s : State) : Completes (execEarlyThreshold dom s) := by
  fun_cases execEarlyThreshold <;> exact .next _
theorem execReady_completes (f : Frame) (body : BitVec 256) (s : State) : Completes (execReady f body s) := by
  fun_cases execReady <;> exact .next _
theorem execCommit_completes (f : Frame) (body : BitVec 256) (s : State) : Completes (execCommit f body s) := by
  fun_cases execCommit <;> exact .next _
theorem execCaskAck_completes (f : Frame) (body : BitVec 256) (s : State) : Completes (execCaskAck f body s) := by
  fun_cases execCaskAck <;> exact .next _
theorem execRelease_completes (f : Frame) (body : BitVec 256) (s : State) : Completes (execRelease f body s) := by
  fun_cases execRelease <;> exact .next _
theorem execEarlyReq_completes (f : Frame) (body : BitVec 256) (s : State) : Completes (execEarlyReq f body s) := by
  fun_cases execEarlyReq <;> exact .next _
theorem execEarly_completes (f : Frame) (body : BitVec 256) (s : State) : Completes (execEarly f body s) := by
  fun_cases execEarly <;> exact .next _
theorem execQuery_completes (f : Frame) (body : BitVec 256) (s : State) : Completes (execQuery f body s) := by
  fun_cases execQuery <;> exact .next _
theorem execState_completes (f : Frame) (body : BitVec 256) (s : State) : Completes (execState f body s) := by
  fun_cases execState <;> exact .next _
theorem execRecover_completes (f : Frame) (body : BitVec 256) (s : State) : Completes (execRecover f body s) := by
  fun_cases execRecover <;> exact .next _
theorem execCaskWritebackEnd_completes (dom : Fin 16) (s : State) : Completes (execCaskWritebackEnd dom s) := by
  fun_cases execCaskWritebackEnd <;> exact .next _
theorem execRecoverDone_completes (f : Frame) (body : BitVec 256) (s : State) : Completes (execRecoverDone f body s) := by
  fun_cases execRecoverDone <;> exact .next _
theorem execCaskRecoverTimeout_completes (dom : Fin 16) (s : State) : Completes (execCaskRecoverTimeout dom s) := by
  fun_cases execCaskRecoverTimeout <;> exact .next _
theorem execData_completes (f : Frame) (m : CohMsg) (s : State) : Completes (execData f m s) := by
  fun_cases execData <;> exact .next _
theorem execCmp_completes (f : Frame) (m : CohMsg) (s : State) : Completes (execCmp f m s) := by
  fun_cases execCmp <;> exact .next _
theorem execSnpRsp_completes (f : Frame) (m : CohMsg) (s : State) : Completes (execSnpRsp f m s) := by
  fun_cases execSnpRsp <;> exact .next _
theorem execFwdAck_completes (f : Frame) (m : CohMsg) (s : State) : Completes (execFwdAck f m s) := by
  fun_cases execFwdAck <;> exact .next _
theorem execAck_completes (f : Frame) (m : CohMsg) (s : State) : Completes (execAck f m s) := by
  fun_cases execAck <;> exact .next _
theorem execMwr_completes (f : Frame) (m : MirMsg) (s : State) : Completes (execMwr f m s) := by
  fun_cases execMwr <;> exact .next _
theorem execMcmp_completes (f : Frame) (m : MirMsg) (s : State) : Completes (execMcmp f m s) := by
  fun_cases execMcmp <;> exact .next _
theorem execMrd_completes (f : Frame) (m : MirMsg) (s : State) : Completes (execMrd f m s) := by
  fun_cases execMrd <;> exact .next _
theorem execMdata_completes (f : Frame) (m : MirMsg) (s : State) : Completes (execMdata f m s) := by
  fun_cases execMdata <;> exact .next _
theorem execMdisc_completes (f : Frame) (m : MirMsg) (s : State) : Completes (execMdisc f m s) := by
  fun_cases execMdisc <;> exact .next _
theorem execMdack_completes (f : Frame) (m : MirMsg) (s : State) : Completes (execMdack f m s) := by
  fun_cases execMdack <;> exact .next _
theorem execRsync_completes (f : Frame) (m : MirMsg) (s : State) : Completes (execRsync f m s) := by
  fun_cases execRsync <;> exact .next _
theorem execRsack_completes (f : Frame) (m : MirMsg) (s : State) : Completes (execRsack f m s) := by
  fun_cases execRsack <;> exact .next _
theorem execResyncTick_completes (entry : Fin 256) (s : State) : Completes (execResyncTick entry s) := by
  fun_cases execResyncTick <;> exact .next _
theorem execHello_completes (f : Frame) (b : HelloBody) (s : State) : Completes (execHello f b s) := by
  fun_cases execHello <;> exact .next _
theorem execLsa_completes (f : Frame) (b : LsaBody) (s : State) : Completes (execLsa f b s) := by
  fun_cases execLsa <;> exact .next _
theorem execOffer_completes (f : Frame) (b : OfferBody) (s : State) : Completes (execOffer f b s) := by
  fun_cases execOffer <;> exact .next _
theorem execProof_completes (f : Frame) (b : ProofBody) (s : State) : Completes (execProof f b s) := by
  fun_cases execProof <;> exact .next _
theorem execConfirm_completes (f : Frame) (s : State) : Completes (execConfirm f s) := by
  fun_cases execConfirm <;> exact .next _
theorem execAbort_completes (f : Frame) (reason : BitVec 8) (s : State) : Completes (execAbort f reason s) := by
  fun_cases execAbort <;> exact .next _
theorem execMgmt_completes (f : Frame) (packet : List Byte) (s : State) : Completes (execMgmt f packet s) := by
  fun_cases execMgmt <;> exact .next _
theorem execViewSettle_completes (s : State) : Completes (execViewSettle s) := by
  fun_cases execViewSettle <;> exact .next _
theorem execNodeFailDeclare_completes (node : BitVec 12) (s : State) : Completes (execNodeFailDeclare node s) := by
  fun_cases execNodeFailDeclare <;> exact .next _
theorem execPowerUpStart_completes (s : State) : Completes (execPowerUpStart s) := by
  fun_cases execPowerUpStart <;> exact .next _
theorem execStepComplete_completes (s : State) : Completes (execStepComplete s) := by
  fun_cases execStepComplete <;> exact .next _
theorem execStepTimeout_completes (ch : RailNo) (s : State) : Completes (execStepTimeout ch s) := by
  fun_cases execStepTimeout <;> exact .next _
theorem execRetryBackoffExpiry_completes (s : State) : Completes (execRetryBackoffExpiry s) := by
  fun_cases execRetryBackoffExpiry <;> exact .next _
theorem execResetStretchExpiry_completes (k : Fin 5) (s : State) : Completes (execResetStretchExpiry k s) := by
  fun_cases execResetStretchExpiry <;> exact .next _
theorem execStep_completes (w : BitVec 40) (s : State) : Completes (execStep w s) := by
  fun_cases execStep <;> exact .next _
theorem execPoll_completes (w : BitVec 40) (s : State) : Completes (execPoll w s) := by
  fun_cases execPoll <;> exact .next _
theorem execSeqAbort_completes (w : BitVec 40) (s : State) : Completes (execSeqAbort w s) := by
  fun_cases execSeqAbort <;> exact .next _
theorem execOff_completes (w : BitVec 40) (s : State) : Completes (execOff w s) := by
  fun_cases execOff <;> exact .next _
theorem execSeqRelease_completes (w : BitVec 40) (s : State) : Completes (execSeqRelease w s) := by
  fun_cases execSeqRelease <;> exact .next _
theorem execSeqTimeout_completes (s : State) : Completes (execSeqTimeout s) := by
  fun_cases execSeqTimeout <;> exact .next _
theorem execRailFault_completes (ch : RailNo) (s : State) : Completes (execRailFault ch s) := by
  fun_cases execRailFault <;> exact .next _
theorem execCapTestSettled_completes (s : State) : Completes (execCapTestSettled s) := by
  fun_cases execCapTestSettled <;> exact .next _
theorem execCapTestDischargeEnd_completes (dtUs : BitVec 32) (s : State) : Completes (execCapTestDischargeEnd dtUs s) := by
  fun_cases execCapTestDischargeEnd <;> exact .next _
theorem execVinWarning_completes (s : State) : Completes (execVinWarning s) := by
  fun_cases execVinWarning <;> exact .next _
theorem execFlushEnd_completes (s : State) : Completes (execFlushEnd s) := by
  fun_cases execFlushEnd <;> exact .next _
theorem execBankLowInFlush_completes (s : State) : Completes (execBankLowInFlush s) := by
  fun_cases execBankLowInFlush <;> exact .next _
theorem execQuiesceEnd_completes (s : State) : Completes (execQuiesceEnd s) := by
  fun_cases execQuiesceEnd <;> exact .next _
theorem execRailsOffEnd_completes (s : State) : Completes (execRailsOffEnd s) := by
  fun_cases execRailsOffEnd <;> exact .next _
theorem execResumeHoldExpiry_completes (s : State) : Completes (execResumeHoldExpiry s) := by
  fun_cases execResumeHoldExpiry <;> exact .next _
theorem execColdReset_completes (s : State) : Completes (execColdReset s) := by
  fun_cases execColdReset <;> exact .next _
theorem execWipeFillEnd_completes (s : State) : Completes (execWipeFillEnd s) := by
  fun_cases execWipeFillEnd <;> exact .next _
theorem execFillEnd_completes (stackOk : BitVec 2) (engineOk : BitVec 64) (s : State) : Completes (execFillEnd stackOk engineOk s) := by
  fun_cases execFillEnd <;> exact .next _
theorem execMediaTrainingDone_completes (trained : BitVec 32) (retried : Bool) (s : State) :
    Completes (execMediaTrainingDone trained retried s) := by
  fun_cases execMediaTrainingDone <;> exact .next _
theorem execKeySetupEnd_completes (s : State) : Completes (execKeySetupEnd s) := by
  fun_cases execKeySetupEnd <;> exact .next _
theorem execMapLoadEnd_completes (s : State) : Completes (execMapLoadEnd s) := by
  fun_cases execMapLoadEnd <;> exact .next _
theorem execFirstFormatEnd_completes (s : State) : Completes (execFirstFormatEnd s) := by
  fun_cases execFirstFormatEnd <;> exact .next _
theorem execOnDieSensorSample_completes (t : List (BitVec 12)) (s : State) : Completes (execOnDieSensorSample t s) := by
  fun_cases execOnDieSensorSample <;> exact .next _
theorem execRemoteSensorSample_completes (n : Fin 16) (t : BitVec 12) (open_ : Bool) (s : State) :
    Completes (execRemoteSensorSample n t open_ s) := by
  fun_cases execRemoteSensorSample <;> exact .next _
theorem execBandgapRetrim_completes (s : State) : Completes (execBandgapRetrim s) := by
  fun_cases execBandgapRetrim <;> exact .next _
theorem execOscillatorCompare_completes (off0 : Bool) (off1 : Bool) (s : State) : Completes (execOscillatorCompare off0 off1 s) := by
  fun_cases execOscillatorCompare <;> exact .next _
theorem execPllLockLoss_completes (pll : Fin 2) (s : State) : Completes (execPllLockLoss pll s) := by
  fun_cases execPllLockLoss <;> exact .next _
theorem execHbmShareRebuilt_completes (s : State) : Completes (execHbmShareRebuilt s) := by
  fun_cases execHbmShareRebuilt <;> exact .next _
theorem execFailoverTakeover_completes (e : EngineNo) (s : State) : Completes (execFailoverTakeover e s) := by
  fun_cases execFailoverTakeover <;> exact .next _
theorem execMoverDescriptorEnd_completes (k : Fin 128) (bad : Option MoverSource) (s : State) :
    Completes (execMoverDescriptorEnd k bad s) := by
  fun_cases execMoverDescriptorEnd <;> exact .next _
theorem execBgtRegionTest_completes (bad : List (BitVec 14)) (s : State) : Completes (execBgtRegionTest bad s) := by
  fun_cases execBgtRegionTest <;> exact .next _
theorem execPatchRoundEnd_completes (s : State) : Completes (execPatchRoundEnd s) := by
  fun_cases execPatchRoundEnd <;> exact .next _
theorem execWealiSweepTick_completes (page : BitVec 17) (margin : Bool) (uncorr : Bool) (s : State) :
    Completes (execWealiSweepTick page margin uncorr s) := by
  fun_cases execWealiSweepTick <;> exact .next _
theorem execPerstNAssert_completes (p : PortNo) (s : State) : Completes (execPerstNAssert p s) := by
  fun_cases execPerstNAssert <;> exact .next _
theorem execPerstNRelease_completes (p : PortNo) (s : State) : Completes (execPerstNRelease p s) := by
  fun_cases execPerstNRelease <;> exact .next _
theorem execHeadLinkUp_completes (h : HeadNo) (width : BitVec 5) (rate : BitVec 3) (flit256 : Bool) (s : State) :
    Completes (execHeadLinkUp h width rate flit256 s) := by
  fun_cases execHeadLinkUp <;> exact .next _
theorem execCxlReset_completes (ld : LdNo) (memClear : Bool) (s : State) : Completes (execCxlReset ld memClear s) := by
  fun_cases execCxlReset <;> exact .next _
theorem execIdeIntegrityFailure_completes (h : HeadNo) (s : State) : Completes (execIdeIntegrityFailure h s) := by
  fun_cases execIdeIntegrityFailure <;> exact .next _
theorem execSpdmKeyExchange_completes (at_ : DoeOn) (session : BitVec 32) (withMutual : Bool) (secret : BitVec 256) (s : State) :
    Completes (execSpdmKeyExchange at_ session withMutual secret s) := by
  fun_cases execSpdmKeyExchange <;> exact .next _
theorem execIdeKmKeyProg_completes (session : BitVec 32) (h : HeadNo) (key : BitVec 256) (s : State) :
    Completes (execIdeKmKeyProg session h key s) := by
  fun_cases execIdeKmKeyProg <;> exact .next _
theorem execFmLdAllocate_completes (ld : LdNo) (blocks : BitVec 18) (s : State) : Completes (execFmLdAllocate ld blocks s) := by
  fun_cases execFmLdAllocate <;> exact .next _
theorem execFmAddDc_completes (ld : LdNo) (region : Fin 2) (extents : List DcExtent) (s : State) :
    Completes (execFmAddDc ld region extents s) := by
  fun_cases execFmAddDc <;> exact .next _
theorem execMailboxDoorbell_completes (path : MboxPath) (opc : BitVec 16) (len : BitVec 21) (s : State) :
    Completes (execMailboxDoorbell path opc len s) := by
  fun_cases execMailboxDoorbell <;> exact .next _
theorem execBackgroundOpEnd_completes (path : MboxPath) (ok : Bool) (s : State) : Completes (execBackgroundOpEnd path ok s) := by
  fun_cases execBackgroundOpEnd <;> exact .next _
theorem execQueueEntryFetch_completes (q : QNo) (entry : Option (BitVec 512)) (s : State) :
    Completes (execQueueEntryFetch q entry s) := by
  fun_cases execQueueEntryFetch <;> exact .next _
theorem execKelricCommandComplete_completes (q : QNo) (cid : BitVec 16) (writeOk : Bool) (s : State) :
    Completes (execKelricCommandComplete q cid writeOk s) := by
  fun_cases execKelricCommandComplete <;> exact .next _
theorem execWayChangeEnd_completes (s : State) : Completes (execWayChangeEnd s) := by
  fun_cases execWayChangeEnd <;> exact .next _
theorem execSelfTestEnd_completes (id : BitVec 8) (errors : List TestError) (s : State) : Completes (execSelfTestEnd id errors s) := by
  fun_cases execSelfTestEnd <;> exact .next _
theorem execRailsOffStep_completes (s : State) : Completes (execRailsOffStep s) := by
  fun_cases execRailsOffStep <;> exact .next _
theorem execSeqPollReply_completes (slave : BitVec 6) (reply : BitVec 24) (s : State) : Completes (execSeqPollReply slave reply s) := by
  fun_cases execSeqPollReply <;> exact .next _
theorem execVectorSignalHoldoffEnd_completes (ld : LdNo) (vec : Fin 64) (s : State) :
    Completes (execVectorSignalHoldoffEnd ld vec s) := by
  fun_cases execVectorSignalHoldoffEnd <;> exact .next _

/-! ### The commands that store a register word -/

/-- A write of a register word completes or clashes. -/
theorem regRes_completesOrClashes (o : Option State) : CompletesOrClashes (regRes o) := by
  cases o with
  | none => exact .fault
  | some t => exact .next t

theorem execSqTail_completesOrClashes (ld : LdNo) (q : QNo) (val : BitVec 32) (s : State) : CompletesOrClashes (execSqTail ld q val s) := by
  fun_cases execSqTail
  case case2 => exact .fault
  all_goals exact .next _
theorem execCqHead_completesOrClashes (ld : LdNo) (q : QNo) (val : BitVec 32) (s : State) : CompletesOrClashes (execCqHead ld q val s) := by
  fun_cases execCqHead
  case case2 => exact .fault
  all_goals exact .next _
theorem execMctpBar2Access_completesOrClashes (op : BitVec 8) (ld : LdNo) (off val : BitVec 32) (s : State) :
    CompletesOrClashes (execMctpBar2Access op ld off val s) := by
  fun_cases execMctpBar2Access
  case case5 => exact .fault
  all_goals exact .next _

/-! ### All commands -/

/-- A command that stores no value of the sender's own in a register word completes. -/
theorem exec_completes (c : Instr) (s : State) (hc : storesRegister c = false) : Completes (exec c s) := by
  cases c with
  -- these have one branch
  | memrd | meminv | memwr | memwrptl | laneHoldExpiry | streamTrackerTimeout | cleanerStart | cleanerStop | statusPoll
  | mediaAlert | alertStuckTimeout | mediaNoAnswerTimeout | rebuildTick | patrolAdvance | accelPassEnd | copyPassEnd
  | releaseMarkEnd | discardHoldDrained | rekeyEnd | slotBoundary | frameBoundary | hourlyCheckpoint | undoIndexWalk | rdS | rdE
  | rdNc | upg | wr | inv | snpS | fwdS | fwdE | lsaRefreshDue | handshakeTimeout | keyRenewalDue | linkTagFailureLimit | null
  | linkReplayTimeout | linkTrained | helloLoss | aonPowerOn | strapSample | pfw | railWarning | budgetCompute | capTestStart
  | capTestNotCharged | capTestRetry | capRecharged | pfwNAssert | drydownCut | vinGoodReturn | coldResetRelease
  | emergencyWipeTrigger | sensorSelfCheck | timebaseCompensate | pllRelockStable | hbmStackFail | heartbeatCheck | engineFail
  | retentionIdleExpiry | macroWakeEnd | wealiPageWriteEnd | rwpStoreEnd | tallyWindowEnd | summaryIntervalEnd | hotReset
  | functionLevelReset | busMasterDisable | gpfPhase2 | doeDiscovery | cdatRead | identify | backgroundOperationStatus
  | getResponseMessageLimit | setResponseMessageLimit | requestAbortBackgroundOp | getEventRecords | clearEventRecords
  | getEventInterruptPolicy | setEventInterruptPolicy | getFwInfo | transferFw | activateFw | getTimestamp | setTimestamp
  | getSupportedLogs | getLog | identifyMemoryDevice | getPartitionInfo | setPartitionInfo | getLsa | setLsa | getHealthInfo
  | getAlertConfiguration | setAlertConfiguration | getShutdownState | setShutdownState | getPoisonList | injectPoison
  | clearPoison | getScanMediaCapabilities | scanMedia | getScanMediaResults | sanitize | secureErase | getDcConfiguration
  | getDcExtentList | addDcResponse | releaseDc | identifyK | cacheEnable | cacheDisable | disableCleanDone | cacheRange
  | rangeJobEnd | cacheStatus | discard | discardStatus | keyLoad | keyRetire | keyBind | keyStatus | patrolSet | patrolStatus
  | scheduleSet | spareStatus | rebuildControl | wearReport | mirrorSet | fabricStatus | fabricRouteSet | timeSourceSet
  | timeStatus | caskConfig | caskStatus | caskRecover | holdupStatus | holdupTest | throttleSet | thermalStatus | selfTest
  | selfTestStatus | patchStage | patchActivate | patchStatus | lifecycleSet | settingRead | settingWrite | logSnapshot
  | sampleConfig | counterConfig | lowWordLatchRead | unlockArmExpiry | mapWinSnapshot | caskDomSnapshot | dfWindowSnapshot
  | sampleDataRead | hdmDecoderCommit | busMasterEnable | doroshSignalSeen | vinGoodLoss | seqOffDeadline | spdmSessionEnd
  | hbmWayWakeEnd | planeSelfCheckFail | refclkReturn => exact ⟨_, rfl⟩
  -- these have several
  | birsp h biTag rsp => exact execBirsp_completes h biTag rsp s
  | biconflict h ldId line => exact execBiconflict_completes h ldId line s
  | bisnpTimeout h biTag => exact execBisnpTimeout_completes h biTag s
  | slotPurgeEnd slot => exact execSlotPurgeEnd_completes slot s
  | mapEntryReturn ltn => exact execMapEntryReturn_completes ltn s
  | tileReadAdmit k why => exact execTileReadAdmit_completes k why s
  | chunkReadData ch pos part cidx bits => exact execChunkReadData_completes ch pos part cidx bits s
  | tileAttempt k => exact execTileAttempt_completes k s
  | crcResendArrival ltn tile crc => exact execCrcResendArrival_completes ltn tile crc s
  | deepRecoveryStart k => exact execDeepRecoveryStart_completes k s
  | deepRecoveryEnd k => exact execDeepRecoveryEnd_completes k s
  | tagCacheMissReturn set visitor => exact execTagCacheMissReturn_completes set visitor s
  | writeCreditGrant port => exact execWriteCreditGrant_completes port s
  | mashIdleTimeout ltn => exact execMashIdleTimeout_completes ltn s
  | counterReadReturn k => exact execCounterReadReturn_completes k s
  | laneGrant ds lane => exact execLaneGrant_completes ds lane s
  | statusResponse ch pkg die bits => exact execStatusResponse_completes ch pkg die bits s
  | partitionBusyTimeout ch pos part => exact execPartitionBusyTimeout_completes ch pos part s
  | tempResponse ch pkg bits => exact execTempResponse_completes ch pkg bits s
  | identResponse ch pkg bits => exact execIdentResponse_completes ch pkg bits s
  | channelRetrainEnd ch ok => exact execChannelRetrainEnd_completes ch ok s
  | checkpointDue => exact execCheckpointDue_completes  s
  | checkpointEnd => exact execCheckpointEnd_completes  s
  | copyStart lsn => exact execCopyStart_completes lsn s
  | releaseMarkStart psn => exact execReleaseMarkStart_completes psn s
  | endureReached lsn => exact execEndureReached_completes lsn s
  | rekeyStart g => exact execRekeyStart_completes g s
  | calibrationPass sums => exact execCalibrationPass_completes sums s
  | ftsyncEdge => exact execFtsyncEdge_completes  s
  | ftcodeWord word => exact execFtcodeWord_completes word s
  | ftcodeOutSend => exact execFtcodeOutSend_completes  s
  | ptmResponse ok root => exact execPtmResponse_completes ok root s
  | sync f body => exact execSync_completes f body s
  | ftStepForward => exact execFtStepForward_completes  s
  | timedActionDue => exact execTimedActionDue_completes  s
  | caskBoundary dom => exact execCaskBoundary_completes dom s
  | undoSpill => exact execUndoSpill_completes  s
  | caskReadySend dom => exact execCaskReadySend_completes dom s
  | earlyThreshold dom => exact execEarlyThreshold_completes dom s
  | ready f body => exact execReady_completes f body s
  | commit f body => exact execCommit_completes f body s
  | caskAck f body => exact execCaskAck_completes f body s
  | release f body => exact execRelease_completes f body s
  | earlyReq f body => exact execEarlyReq_completes f body s
  | early f body => exact execEarly_completes f body s
  | query f body => exact execQuery_completes f body s
  | state f body => exact execState_completes f body s
  | recover f body => exact execRecover_completes f body s
  | caskWritebackEnd dom => exact execCaskWritebackEnd_completes dom s
  | recoverDone f body => exact execRecoverDone_completes f body s
  | caskRecoverTimeout dom => exact execCaskRecoverTimeout_completes dom s
  | data f m => exact execData_completes f m s
  | cmp f m => exact execCmp_completes f m s
  | snpRsp f m => exact execSnpRsp_completes f m s
  | fwdAck f m => exact execFwdAck_completes f m s
  | ack f m => exact execAck_completes f m s
  | mwr f m => exact execMwr_completes f m s
  | mcmp f m => exact execMcmp_completes f m s
  | mrd f m => exact execMrd_completes f m s
  | mdata f m => exact execMdata_completes f m s
  | mdisc f m => exact execMdisc_completes f m s
  | mdack f m => exact execMdack_completes f m s
  | rsync f m => exact execRsync_completes f m s
  | rsack f m => exact execRsack_completes f m s
  | resyncTick entry => exact execResyncTick_completes entry s
  | hello f b => exact execHello_completes f b s
  | lsa f b => exact execLsa_completes f b s
  | offer f b => exact execOffer_completes f b s
  | proof f b => exact execProof_completes f b s
  | confirm f => exact execConfirm_completes f s
  | abort f reason => exact execAbort_completes f reason s
  | mgmt f packet => exact execMgmt_completes f packet s
  | viewSettle => exact execViewSettle_completes  s
  | nodeFailDeclare node => exact execNodeFailDeclare_completes node s
  | powerUpStart => exact execPowerUpStart_completes  s
  | stepComplete => exact execStepComplete_completes  s
  | stepTimeout ch => exact execStepTimeout_completes ch s
  | retryBackoffExpiry => exact execRetryBackoffExpiry_completes  s
  | resetStretchExpiry k => exact execResetStretchExpiry_completes k s
  | step w => exact execStep_completes w s
  | poll w => exact execPoll_completes w s
  | seqAbort w => exact execSeqAbort_completes w s
  | off w => exact execOff_completes w s
  | seqRelease w => exact execSeqRelease_completes w s
  | seqTimeout => exact execSeqTimeout_completes  s
  | railFault ch => exact execRailFault_completes ch s
  | capTestSettled => exact execCapTestSettled_completes  s
  | capTestDischargeEnd dtUs => exact execCapTestDischargeEnd_completes dtUs s
  | vinWarning => exact execVinWarning_completes  s
  | flushEnd => exact execFlushEnd_completes  s
  | bankLowInFlush => exact execBankLowInFlush_completes  s
  | quiesceEnd => exact execQuiesceEnd_completes  s
  | railsOffEnd => exact execRailsOffEnd_completes  s
  | resumeHoldExpiry => exact execResumeHoldExpiry_completes  s
  | coldReset => exact execColdReset_completes  s
  | wipeFillEnd => exact execWipeFillEnd_completes  s
  | fillEnd stackOk engineOk => exact execFillEnd_completes stackOk engineOk s
  | mediaTrainingDone trained retried => exact execMediaTrainingDone_completes trained retried s
  | keySetupEnd => exact execKeySetupEnd_completes  s
  | mapLoadEnd => exact execMapLoadEnd_completes  s
  | firstFormatEnd => exact execFirstFormatEnd_completes  s
  | onDieSensorSample t => exact execOnDieSensorSample_completes t s
  | remoteSensorSample n t open_ => exact execRemoteSensorSample_completes n t open_ s
  | bandgapRetrim => exact execBandgapRetrim_completes  s
  | oscillatorCompare off0 off1 => exact execOscillatorCompare_completes off0 off1 s
  | pllLockLoss pll => exact execPllLockLoss_completes pll s
  | hbmShareRebuilt => exact execHbmShareRebuilt_completes  s
  | failoverTakeover e => exact execFailoverTakeover_completes e s
  | moverDescriptorEnd k bad => exact execMoverDescriptorEnd_completes k bad s
  | bgtRegionTest bad => exact execBgtRegionTest_completes bad s
  | patchRoundEnd => exact execPatchRoundEnd_completes  s
  | wealiSweepTick page margin uncorr => exact execWealiSweepTick_completes page margin uncorr s
  | perstNAssert p => exact execPerstNAssert_completes p s
  | perstNRelease p => exact execPerstNRelease_completes p s
  | headLinkUp h width rate flit256 => exact execHeadLinkUp_completes h width rate flit256 s
  | cxlReset ld memClear => exact execCxlReset_completes ld memClear s
  | ideIntegrityFailure h => exact execIdeIntegrityFailure_completes h s
  | spdmKeyExchange at_ session withMutual secret => exact execSpdmKeyExchange_completes at_ session withMutual secret s
  | ideKmKeyProg session h key => exact execIdeKmKeyProg_completes session h key s
  | fmLdAllocate ld blocks => exact execFmLdAllocate_completes ld blocks s
  | fmAddDc ld region extents => exact execFmAddDc_completes ld region extents s
  | mailboxDoorbell path opc len => exact execMailboxDoorbell_completes path opc len s
  | backgroundOpEnd path ok => exact execBackgroundOpEnd_completes path ok s
  | queueEntryFetch q entry => exact execQueueEntryFetch_completes q entry s
  | kelricCommandComplete q cid writeOk => exact execKelricCommandComplete_completes q cid writeOk s
  | wayChangeEnd => exact execWayChangeEnd_completes  s
  | selfTestEnd id errors => exact execSelfTestEnd_completes id errors s
  | railsOffStep => exact execRailsOffStep_completes  s
  | seqPollReply slave reply => exact execSeqPollReply_completes slave reply s
  | vectorSignalHoldoffEnd ld vec => exact execVectorSignalHoldoffEnd_completes ld vec s
  | _ => cases hc

/-- One that does completes or clashes. -/
theorem exec_completesOrClashes (c : Instr) (s : State) (hc : storesRegister c = true) : CompletesOrClashes (exec c s) := by
  cases c with
  -- one write of one word
  | registerWrite | bitAliasWrite | updateApply | updateTimed | updateDrop | unlock | keyLockSet | lcRangeClean
  | lcRangeInvalidate | lcRangeFlush | allocEnWrite | waysReqWrite | gravResetGroup | crcInjectArm | discSegmentGo | discTileGo
  | accelGo | keyCmdLoad | keyCmdRetire | keyCmdRetireErase | ldKeyRekey | dfMirrorPair | dfMirrorUnpair | dfMirrorResync
  | dfMirrorSwap | dfExportAdd | dfExportDel | dfImportAdd | dfImportDel | caskCfgCreate | caskCfgDelete | caskCfgMark
  | caskCfgRecoverLatest | caskCfgRecoverCommitted | huTestGo | kqCreate | kqDelete | memtestRawWrite | memtestRawRead
  | memtestCheckedRead | wealiBoardWrite | wealiBoardRead | cntClear | sampleEnableWrite | sampleClose | dropRest | sillClear
  | ldKeyKeyidxWrite => exact regRes_completesOrClashes _
  | sqTail ld q val => exact execSqTail_completesOrClashes ld q val s
  | cqHead ld q val => exact execCqHead_completesOrClashes ld q val s
  | mctpBar2Access op ld off val => exact execMctpBar2Access_completesOrClashes op ld off val s
  | _ => cases hc

/-- Settles O11, from the law of each command. -/
theorem everyCommandCompletes : Obligations.EveryCommandCompletes := by
  unfold Obligations.EveryCommandCompletes
  intro c s
  exact ⟨exec_completes c s, exec_completesOrClashes c s⟩

end Sys2Proof.Machine
end

section
/-!
PROOFS. Events of the write path, of timers and stores, of the engines, and of the hold-up bank and the drydown: what each answers where
what it ends stands. A case names the guard that its command meets; past the guard the command is the next state stated. An end or a
timeout takes effect whatever FT is, and a boundary's row moves FT to its boundary: that is the model's choice (logs 3 and 9).
-/

namespace Sys2Proof.Machine

/-! ### The write path (spec/02, spec/05) -/

/-- Settles O22: each event meets what it looks for, a waiting program, chunk programs out, a sound response, or a busy partition. -/
theorem writePathEventsTakeEffect : Obligations.WritePathEventsTakeEffect := by
  unfold Obligations.WritePathEventsTakeEffect
  intro s
  refine ⟨?grant, ?poll, ?response, ?busy⟩
  case grant =>
    intro ds lane p hfree hfirst u worn
    have hheld : ¬ (s.holder ds.val lane.val).isSome = true := by simp [hfree]
    constructor
    · intro hworn
      refine (if_neg hheld).trans ?_
      rw [hfirst]
      exact if_pos hworn
    · intro hworn chosen taken q begun sealed refreshed v
      have hsound : ¬ worn = true := by simp [hworn]
      refine (if_neg hheld).trans ?_
      rw [hfirst]
      refine (if_neg hsound).trans ?_
      show (match v.waveFrom q 0 with | some w => .next w | none => .next (v.programDone q) : Res) = _
      cases v.waveFrom q 0 <;> rfl
  case poll =>
    intro ch pkg die k hk hout
    have hbusy : ((List.range 32).any fun k => !(s.dieChunks (32 * ch.val + k)).isEmpty) = true :=
      List.any_eq_true.mpr ⟨k, List.mem_range.mpr hk, by simpa using hout⟩
    exact congrArg Host.Outcome.next (if_pos hbusy)
  case response =>
    intro ch pkg die bits d x hok
    have hsound : ¬ (!(s.responseCheck d 3 (responseOk x 8)).1) = true := by simp [hok]
    exact if_neg hsound
  case busy =>
    intro ch pos part id k q d hfind
    show execPartitionBusyTimeout ch pos part s = _
    unfold execPartitionBusyTimeout
    dsimp only
    rw [hfind]

/-! ### Timers and stores (spec/12, spec/18, spec/20, spec/21) -/

/-- Settles O34: a boundary's row is its work after the passage of time; a window of the new length begins where its boundary is not the
later one; the store that ends is the one found. -/
theorem timersAndStoresTakeEffect : Obligations.TimersAndStoresTakeEffect := by
  unfold Obligations.TimersAndStoresTakeEffect
  intro s
  refine ⟨?window, rfl, rfl, ?page, ?store, ?sweep, ?slot⟩
  case window =>
    intro past old new u v
    have hnew : min old new = new ↔ new ≤ old := min_eq_right_iff
    show (.next (if min old new = new then _ else _) : Res) = _
    rw [if_congr hnew rfl rfl]
  case page =>
    intro page v
    refine ⟨rfl, rfl, fun b => ?_⟩
    cases b <;> exact ⟨_, rfl, _, rfl⟩
  case store =>
    intro off x hfind
    show execRwpStoreEnd off s = _
    unfold execRwpStoreEnd
    rw [hfind]
  case sweep =>
    intro page p v
    exact ⟨fun _ => rfl, (apply_ite _ _ _ _).symm, rfl⟩
  case slot =>
    intro here
    have hhere : (s.ft % 2 ^ 20 == 0 && s.time.slotDone != s.ft / 2 ^ 20) = decide here := by
      simp only [here, Bool.decide_and, decide_not]
      rfl
    show execSlotBoundary s = _
    unfold execSlotBoundary
    rw [hhere]
    simp only [decide_eq_true_eq]

/-! ### Engines and on-die memories (spec/17, spec/19) -/

/-- Settles O37: an event of an engine, a mover, a macro or a patch finds what it ends. -/
theorem engineEventsTakeEffect : Obligations.EngineEventsTakeEffect := by
  unfold Obligations.EngineEventsTakeEffect
  intro s
  refine ⟨fun _ => rfl, fun _ _ => rfl, ?takeover, ?mover, ?region, ?retention, ?patch⟩
  case takeover =>
    intro e h role duty hmove
    show execFailoverTakeover e s = _
    unfold execFailoverTakeover
    rw [hmove]
    rfl
  case mover =>
    intro k v
    constructor
    · exact ite_self _
    · intro hret src n w source x y left
      have hin : ¬ v.flag (Reg.MOVER_STAT.RETIRED k.val) = true := by simp [hret]
      refine (if_neg hin).trans ?_
      by_cases hfew : n < 3
      · have hstays : ¬ 3 ≤ n := by omega
        rw [if_pos hfew]
        exact if_neg hstays
      · have hthird : 3 ≤ n := by omega
        rw [if_neg hfew]
        exact if_pos hthird
  case region =>
    intro bad hen m r corrected v
    have hon : ¬ (!s.flag Reg.BGT_CFG.BGT_EN) = true := by simp [hen]
    exact if_neg hon
  case retention =>
    intro m
    refine ⟨fun hen hin hmay => ?_, rfl⟩
    have hgo : (s.flag Reg.RET_CFG.RET_EN && !s.flag (Reg.MEM_MACRO.OUT m.val) && s.mayRetain m.val) = true := by simp [hen, hin, hmay]
    exact congrArg Host.Outcome.next (if_pos hgo)
  case patch =>
    intro c hact v
    show execPatchRoundEnd s = _
    unfold execPatchRoundEnd
    rw [hact]

/-! ### The hold-up bank and the drydown (spec/13) -/

/-- A flush waits for nothing more: each program left is stuck, and a place is wanted only where a group of dies is lost. -/
theorem State.not_flushWaits {s : State} (hleft : ∀ p ∈ s.flushLeft, s.flushStuck p = true)
    (hplaced : s.unplaced = true → s.power.dry.all (fun d => d.deadGroups.isEmpty) = false) :
    ¬ (s.flushLeft.any (fun p => !s.flushStuck p) || (s.unplaced && s.power.dry.all (fun d => d.deadGroups.isEmpty))) = true := by
  have hl : s.flushLeft.any (fun p => !s.flushStuck p) = false := by
    rw [List.any_eq_false]
    intro p hp
    simp [hleft p hp]
  rw [hl, Bool.false_or, Bool.and_eq_true, not_and, Bool.not_eq_true]
  exact hplaced

/-- A quiesce waits for no partition: no wave has chunks out, unless every group of dies is lost. -/
theorem State.quiesceWaits_eq_false {s : State} {d : Dry}
    (hwave : ∀ p ∈ s.progs.list, p.phase = .wave → p.pend ≠ [] → d.deadGroups.length = 4) :
    s.progs.list.any (fun p => p.phase == .wave && !p.pend.isEmpty && d.deadGroups.length != 4) = false := by
  rw [List.any_eq_false]
  intro p hp
  simpa [and_assoc] using hwave p hp

/-- Settles O40: the capacitance test and the drydown are each in the phase that their event ends. -/
theorem holdUpAndDrydownEventsTakeEffect : Obligations.HoldUpAndDrydownEventsTakeEffect := by
  unfold Obligations.HoldUpAndDrydownEventsTakeEffect
  intro s
  refine ⟨fun _ => rfl, ?start, ?settled, ?notCharged, ?discharged, ?retry, ?recharged, ?cut, ?flushed, ?bankLow, ?quiesced,
    ?resume⟩
  case start =>
    intro hphase hdry
    have hgo : (decide (s.power.test.phase = 0) && !s.inDrydown) = true := by simp [hphase, hdry]
    exact congrArg Host.Outcome.next (if_pos hgo)
  case settled =>
    intro hphase v0
    exact if_neg (not_not_intro hphase)
  case notCharged => exact fun hphase => congrArg Host.Outcome.next (if_pos hphase)
  case discharged =>
    intro dt hphase
    refine (if_neg (not_not_intro hphase)).trans ?_
    simp only [apply_ite (Host.Outcome.next : State → Res)]
  case retry =>
    intro hphase hslow hdry
    have hgo : (decide (s.power.test.phase = 0) && decide (0 < s.power.test.slow) && !s.inDrydown) = true := by
      simp [hphase, hslow, hdry]
    exact congrArg Host.Outcome.next (if_pos hgo)
  case recharged => exact fun hphase => congrArg Host.Outcome.next (if_pos hphase)
  case cut => exact fun hphase => congrArg Host.Outcome.next (if_pos hphase)
  case flushed =>
    intro hphase hdead hwiped hleft hplaced num u
    have hlive : ¬ (s.power.dry.any (fun d => d.deadGroups.length == 4) || s.keys.wiped) = true := by simp [hdead, hwiped]
    show execFlushEnd s = _
    unfold execFlushEnd
    rw [if_neg (not_not_intro hphase), if_neg hlive, if_neg (State.not_flushWaits hleft hplaced)]
  case bankLow =>
    intro hphase
    have hrun : ¬ (s.getF Reg.DRY_STAT.PHASE ≠ 1 ∧ s.getF Reg.DRY_STAT.PHASE ≠ 2) := by omega
    exact if_neg hrun
  case quiesced =>
    intro d hdry hphase hck hwave u
    have hgo : ¬ (s.getF Reg.DRY_STAT.PHASE ≠ 3 ∨ d.checkpoint
        ∨ s.progs.list.any (fun p => p.phase == .wave && !p.pend.isEmpty && d.deadGroups.length != 4)) := by
      simp [hphase, hck, State.quiesceWaits_eq_false hwave]
    show execQuiesceEnd s = _
    unfold execQuiesceEnd
    rw [hdry]
    refine (if_neg hgo).trans ?_
    simp only [Bool.not_eq_true', apply_ite (Host.Outcome.next : State → Res)]
    rfl
  case resume =>
    intro hphase hvin
    have hgo : ¬ (s.getF Reg.DRY_STAT.PHASE ≠ 4 ∨ s.power.vin ≠ 2) := by simp [hphase, hvin]
    exact if_neg hgo

end Sys2Proof.Machine
end

section
/-!
PROOFS. Tiles and their places (spec/02): the bytes each data chunk carries (R34), and the members that store a tile's ten chunks (R53).
-/

namespace Sys2Proof.Machine

/-! ### What a data chunk carries (R34, R35) -/

/-- Below the reference cells a chunk's bits are its message's: what stands above begins at bit 272. -/
theorem getLsbD_chunkOf (m : BitVec 272) (g i : Nat) (hi : i < 272) : (chunkOf m g).getLsbD i = m.getLsbD i := by
  have hsplit : ∀ d r p q : Nat, m.toNat + d * 2 ^ 272 + r * 2 ^ 288 + p * 2 ^ 318 + q * 2 ^ 319
      = 2 ^ 272 * (d + r * 2 ^ 16 + p * 2 ^ 46 + q * 2 ^ 47) + m.toNat := by
    intro d r p q
    rw [show (2 : Nat) ^ 288 = 2 ^ 272 * 2 ^ 16 by rw [← pow_add], show (2 : Nat) ^ 318 = 2 ^ 272 * 2 ^ 46 by rw [← pow_add],
      show (2 : Nat) ^ 319 = 2 ^ 272 * 2 ^ 47 by rw [← pow_add]]
    generalize 2 ^ 272 = P
    ring
  have hlow : i < 320 := by omega
  unfold chunkOf
  rw [BitVec.getLsbD_ofNat, hsplit, Nat.testBit_two_pow_mul_add _ m.isLt, if_pos hi]
  simp [hlow, BitVec.testBit_toNat]

/-- The low 256 bits of data message k are the tile's from 256k on; the field block's share stands above them. -/
theorem getLsbD_dataMessage (t : Tile) (f : BitVec 128) (k i : Nat) (hi : i < 256) :
    (dataMessage t f k).getLsbD i = t.getLsbD (256 * k + i) := by
  have happ : (dataMessage t f k).getLsbD i = if i < 256 then (t.extractLsb' (256 * k) 256).getLsbD i else _ := BitVec.getLsbD_append
  rw [happ, if_pos hi]
  simp [hi]

/-- The data bits of coded chunk k are the tile's, in place. -/
theorem getLsbD_chunkOf_dataMessage (t : Tile) (f : BitVec 128) (g k i : Nat) (hi : i < 256) :
    (chunkOf (dataMessage t f k) g).getLsbD i = t.getLsbD (256 * k + i) := by
  rw [getLsbD_chunkOf _ _ _ (by omega), getLsbD_dataMessage _ _ _ _ hi]

/-- Settles O57: a data bit's place in the tile is 256 times its chunk's number plus its place in the chunk. -/
theorem chunksCarryTheTileInOrder : Obligations.ChunksCarryTheTileInOrder := by
  unfold Obligations.ChunksCarryTheTileInOrder
  intro t f g k _
  constructor
  · intro j i hj hi
    have hplace : 256 * k + (8 * j + i) = 8 * (32 * k + j) + i := by omega
    rw [getLsbD_chunkOf_dataMessage _ _ _ _ _ (by omega), hplace]
  · intro L b _ hb
    have hplace : 256 * (2 * L + b / 256) + b % 256 = 512 * L + b := by omega
    rw [getLsbD_chunkOf_dataMessage _ _ _ _ _ (by omega), hplace]
    simp [Tile.line, hb]

/-! ### Where the chunks are stored (R53) -/

/-- Each member holds exactly one of a tile's ten chunks. -/
theorem exists_chunk_on_member (s t m : Nat) (hm : m < 10) : ∃ k, k < 10 ∧ ∀ j, j < 10 → (chunkMember s t j = m ↔ j = k) := by
  refine ⟨(m + 10 - (s + t) % 10) % 10, by omega, fun j hj => ?_⟩
  unfold chunkMember
  omega

/-- Over ten tiles in a row a chunk is on each member exactly once. -/
theorem exists_tile_on_member (s t k m : Nat) (hm : m < 10) :
    ∃ i, i < 10 ∧ ∀ j, j < 10 → (chunkMember s (t + j) k = m ↔ j = i) := by
  refine ⟨(m + 20 - k % 10 - (s + t) % 10) % 10, by omega, fun j hj => ?_⟩
  unfold chunkMember
  omega

theorem length_tiles_on_member (s t k m : Nat) (hm : m < 10) :
    ((List.range 10).filter (fun i => chunkMember s (t + i) k == m)).length = 1 := by
  obtain ⟨i, hi, honly⟩ := exists_tile_on_member s t k m hm
  have hcongr : (List.range 10).filter (fun j => chunkMember s (t + j) k == m) = (List.range 10).filter (· == i) := by
    refine List.filter_congr fun j hj => ?_
    rw [Bool.eq_iff_iff, beq_iff_eq, beq_iff_eq]
    exact honly j (List.mem_range.mp hj)
  rw [hcongr, ← List.count_eq_length_filter, List.count_range]
  simp [hi]

/-- How many numbers below n a test admits, as a sum. -/
theorem length_filter_range (n : Nat) (p : Nat → Bool) :
    ((List.range n).filter p).length = ∑ i ∈ Finset.range n, if p i then 1 else 0 := by
  induction n with
  | zero => rfl
  | succ n ih =>
    rw [List.range_succ, List.filter_append, List.length_append, ih, Finset.sum_range_succ]
    cases hp : p n <;> simp [hp]

/-- Settles O58: the eight data chunks are counted over the tiles chunk by chunk, each once. -/
theorem chunksRotateOverTheMembers : Obligations.ChunksRotateOverTheMembers := by
  unfold Obligations.ChunksRotateOverTheMembers
  intro s t
  refine ⟨fun _ => rfl, ?one, fun m hm => ⟨?data, ?parity⟩⟩
  case one =>
    intro m hm
    obtain ⟨k, hk, honly⟩ := exists_chunk_on_member s t m hm
    exact ⟨k, hk, (honly k hk).mpr rfl, fun j hj => (honly j hj).mp⟩
  case data =>
    calc ((List.range 10).flatMap (fun i => (List.range 8).filter (fun k => chunkMember s (t + i) k == m))).length
        = ∑ i ∈ Finset.range 10, ((List.range 8).filter (fun k => chunkMember s (t + i) k == m)).length := by
          rw [List.length_flatMap]; rfl
      _ = ∑ k ∈ Finset.range 8, ((List.range 10).filter (fun i => chunkMember s (t + i) k == m)).length := by
          simp only [length_filter_range]
          exact Finset.sum_comm
      _ = ∑ _k ∈ Finset.range 8, 1 := Finset.sum_congr rfl fun k _ => length_tiles_on_member s t k m hm
      _ = 8 := rfl
  case parity => exact fun k _ => length_tiles_on_member s t k m hm

end Sys2Proof.Machine
end

section
/-!
PROOFS. The read path (spec/04): what each of its events answers where the read it names is in the phase that the event ends. The model's
own choices are that an end or a timeout takes effect whatever FT is (log 3), the order of a tile's chunk reads (log 22), and how trial
decoding ranks and counts its bits (logs 12 and 111).
-/

namespace Sys2Proof.Machine

/-! ### The cache writer (R48, R49, R65) -/

/-- The end of a read of a physical place is not verified by the cache writer. -/
theorem State.fillEnd_physical {s : State} {r : Reg} {psn : BitVec 26} {t : BitVec 12} (e : ReadEnd) (h : r.key = .physical psn t) :
    s.fillEnd r e = s.readEnd r e := by
  unfold State.fillEnd
  rw [h]

/-- At the cache writer a tile ends its read where it fills no way or its check holds. -/
theorem State.fillEnd_logical_good {s : State} {r : Reg} {l : BitVec 37} (p c : Tile) (f : FieldBlock) (n : Nat) (hkey : r.key = .logical l)
    (h : (r.way.isSome || r.why == .demand || r.why == .prefetch) = false ∨ s.crcGood 3 0 p l.toNat = true) :
    s.fillEnd r (.good p c f n) = s.readEnd r (.good p c f n) := by
  have hpass : ¬ ((r.way.isSome || r.why == .demand || r.why == .prefetch) && true && !s.crcGood 3 0 p l.toNat) = true := by
    rcases h with h | h <;> simp [h]
  unfold State.fillEnd
  rw [hkey]
  exact if_neg hpass

/-- At the cache writer a tile that fills a way and whose check fails is asked for again. -/
theorem State.fillEnd_logical_bad {s : State} {r : Reg} {l : BitVec 37} (p c : Tile) (f : FieldBlock) (n : Nat) (hkey : r.key = .logical l)
    (hfills : (r.way.isSome || r.why == .demand || r.why == .prefetch) = true) (hcrc : s.crcGood 3 0 p l.toNat = false) :
    s.fillEnd r (.good p c f n)
      = ((s.setF Reg.CRC_INJECT.ARM 0).planeMiss.unitMiss.tileEvent { mkEv .warning 4 3 .fault with detail := [3, 0] } l.toNat).modReg
          r.key (fun q => { q with phase := .resend, end_ := some (.good p c f n) }) := by
  have hfail : ((r.way.isSome || r.why == .demand || r.why == .prefetch) && true && !s.crcGood 3 0 p l.toNat) = true := by
    rw [hfills, hcrc]; rfl
  unfold State.fillEnd
  rw [hkey]
  exact if_pos hfail

/-! ### The statement -/

/-- Settles O21: each event finds its read in the phase it ends, and nothing that the read waits for is in its way. A tile that verifies
goes to the cache writer, whose check parts the last two cases of an attempt. -/
theorem readPathEventsTakeEffect : Obligations.ReadPathEventsTakeEffect := by
  unfold Obligations.ReadPathEventsTakeEffect
  intro s
  refine ⟨?mapEntry, ?chunkReads, ?chunk, ?attempt, ?resend, ?deepStart, fun _ _ => rfl, ?deepEnd, ?counter⟩
  case mapEntry =>
    intro ltn r hreg hphase e take u
    have hmap : ¬ r.phase ≠ .map := not_not_intro hphase
    have hexec : exec (.mapEntryReturn ltn) s = execMapEntryReturn ltn s := rfl
    rw [hexec]
    unfold execMapEntryReturn
    rw [hreg]
    constructor
    · intro hdisc
      exact (if_neg hmap).trans (if_pos hdisc)
    · intro hdisc hworn hmedium hkey
      have hon : ¬ (!e.onMedium) = true := by simp [hmedium]
      have hopen : ¬ u.keyLocked e.keyidx = true := by simp [hkey]
      exact (if_neg hmap).trans ((if_neg hdisc).trans ((if_neg hworn).trans ((if_neg hon).trans (if_neg hopen))))
  case chunkReads =>
    intro k r q hreg hphase hlatch u l sparge hsource hroom marked sparged issued
    have hfull : ¬ (!u.chanRoom q l) = true := by simp [hroom]
    show execTileReadAdmit k r.why.account s = _
    unfold execTileReadAdmit
    simp only [hreg, hphase, and_self, if_true, hsource, hlatch]
    exact if_neg hfull
  case chunk =>
    intro ch pos part cidx bits r g die hfind hnear
    show execChunkReadData ch pos part cidx bits s = _
    unfold execChunkReadData
    dsimp only
    rw [hfind, hnear]
    rfl
  case attempt =>
    intro k r p c f fields hreg hphase hwait hwhy learned checked hfound v e fills
    have hgo : ¬ (r.phase ≠ .reading ∨ r.waiting = true ∨ (r.why = .counter ∧ r.job = 0)) := by simp [hphase, hwait, hwhy]
    have hend : exec (.tileAttempt k) s = .next (v.fillEnd r e) := by
      show execTileAttempt k s = _
      unfold execTileAttempt
      rw [hreg]
      refine (if_neg hgo).trans ?_
      dsimp only
      rw [show State.attempt _ r r.kept (State.allRead _ r) = _ from hfound]
      exact if_neg hwhy
    rw [hend]
    refine ⟨fun psn t hkey => by rw [State.fillEnd_physical e hkey], fun l hkey => ⟨?_, ?_⟩⟩
    · exact fun h => by rw [State.fillEnd_logical_good p c f r.round hkey h]
    · exact fun hfills hcrc => by rw [State.fillEnd_logical_bad p c f r.round hkey hfills hcrc]
  case resend =>
    intro ltn tile crc r hreg hphase e
    have hmine : ¬ r.phase ≠ .resend := not_not_intro hphase
    show execCrcResendArrival ltn tile crc s = _
    unfold execCrcResendArrival
    rw [hreg]
    refine (if_neg hmine).trans ?_
    simp only [Bool.and_eq_true, beq_iff_eq, Bool.not_eq_true', apply_ite (Host.Outcome.next : State → Res)]
    rfl
  case deepStart =>
    intro k r hreg hphase u
    have hmine : ¬ r.phase ≠ .deepWait := not_not_intro hphase
    have hexec : exec (.deepRecoveryStart k) s = execDeepRecoveryStart k s := rfl
    rw [hexec]
    unfold execDeepRecoveryStart
    rw [hreg]
    constructor
    · intro hroom
      have hfree : ¬ s.deepFull r = true := by simp [hroom]
      exact (if_neg hmine).trans (if_neg hfree)
    · intro hfull
      exact (if_neg hmine).trans (if_pos hfull)
  case deepEnd =>
    intro k r hreg hphase hswept hwait released cs q u decoded tries p c f hfound
    have hgo : ¬ (r.phase ≠ .deep ∨ (!r.swept) = true ∨ r.waiting = true) := by simp [hphase, hswept, hwait]
    show execDeepRecoveryEnd k s = _
    unfold execDeepRecoveryEnd
    rw [hreg]
    refine (if_neg hgo).trans ?_
    dsimp only
    -- the model's own search over the choices of eight is the one that found the tile
    split
    · next hsearch =>
      cases hsearch.symm.trans hfound
      rfl
    · next hsearch => cases hsearch.symm.trans hfound
  case counter =>
    intro ltn r hreg hwhy hjob hphase hwait cs f hsound u
    have hgo : ¬ (r.why ≠ .counter ∨ r.job ≠ 0 ∨ r.phase ≠ .reading ∨ r.waiting = true) := by simp [hwhy, hjob, hphase, hwait]
    show execCounterReadReturn (.logical ltn) s = _
    unfold execCounterReadReturn
    rw [hreg]
    exact (if_neg hgo).trans (if_pos hsound)

end Sys2Proof.Machine
end

section
/-!
PROOFS. Events of the patrol and of the channels (spec/07), calibration (spec/04), temperatures and the emergency wipe (spec/15): what
each answers where what it ends stands. The model's own choices are that an end or a timeout takes effect whatever FT is (log 3), how an
unanswered die is counted (log 61), and how a sensor's trigger, its third sample, the bandgap's sensor and the requests a wipe overtakes
are read (logs 237 to 240).
-/

namespace Sys2Proof.Machine

/-! ### Patrol, channels and calibration (spec/04, spec/07) -/

/-- No die set holds up the end of an accelerated pass: those present have no slot left to read. -/
theorem State.accelPass_done {s : State}
    (h : ∀ d, d < 96 → s.setPresent d = true → s.patrolSeek d true (mget 0 s.patrol.accel d) (slotsPerSet + 1) = none) :
    (List.range 96).all (fun d => !s.setPresent d || (s.patrolSeek d true (mget 0 s.patrol.accel d) (slotsPerSet + 1)).isNone) = true := by
  rw [List.all_eq_true]
  intro d hd
  cases hp : s.setPresent d with
  | false => rfl
  | true => simp [h d (List.mem_range.mp hd) hp]

/-- Settles O23: an event meets what it ends, an alert, a retrain of its channel, an accelerated pass, or a calibration. -/
theorem patrolAndSparingEventsTakeEffect : Obligations.PatrolAndSparingEventsTakeEffect := by
  unfold Obligations.PatrolAndSparingEventsTakeEffect
  intro s
  refine ⟨fun _ => rfl, ?stuck, fun _ _ => rfl, ?retrain, fun _ => rfl, ?patrol, ?accel, ?calibration⟩
  case stuck =>
    intro ch hlow
    have hheld : s.patrol.alerts.contains ch.val = true := List.contains_iff_mem.mpr hlow
    exact congrArg Host.Outcome.next (if_pos hheld)
  case retrain =>
    intro ch hwaits rest n failed passed
    have hruns : ¬ (!s.progs.retrain.contains ch.val) = true := by simpa using hwaits
    refine ⟨if_neg hruns, fun hthird => ?_, fun hfew => ?_⟩
    · exact (if_neg hruns).trans (if_pos hthird)
    · exact (if_neg hruns).trans (if_neg (Nat.not_le.mpr hfew))
  case patrol =>
    intro ds hloaded hpresent hdry
    have hgo : (s.map.loaded && s.setPresent ds.val && !s.inDrydown) = true := by simp [hloaded, hpresent, hdry]
    exact congrArg Host.Outcome.next (if_pos hgo)
  case accel =>
    intro hon hdone
    have hgo : (s.patrol.accelOn && _) = true := Bool.and_eq_true_iff.mpr ⟨hon, State.accelPass_done hdone⟩
    exact congrArg Host.Outcome.next (if_pos hgo)
  case calibration =>
    intro sums hcal new
    have hgo : ¬ (!s.flag Reg.RP_CONFIG.AUTO_CAL && s.getF Reg.RP_STATUS.CAL_BUSY = 0) = true := by
      rcases hcal with h | h <;> simp [h]
    exact if_neg hgo

/-! ### Temperatures and the emergency wipe (spec/08, spec/15) -/

/-- The references are retrimmed from a valid sensor, where there is one. -/
theorem State.bandgap_sensor {s : State} (n : Nat) (h : s.validSensors ≠ []) :
    ∃ i ∈ s.validSensors, s.validSensors[n % s.validSensors.length]? = some i := by
  have hlt : n % s.validSensors.length < s.validSensors.length := Nat.mod_lt _ (List.length_pos_iff.mpr h)
  exact ⟨_, List.getElem_mem hlt, List.getElem?_eq_getElem hlt⟩

/-- Settles O35: an event finds the wipe it ends, the sequence on, the sensor's mode, a valid sensor, or a response with good framing. -/
theorem thermalEventsTakeEffect : Obligations.ThermalEventsTakeEffect := by
  unfold Obligations.ThermalEventsTakeEffect
  intro s
  refine ⟨fun _ => rfl, ?fill, ?onDie, fun _ => rfl, ?remote, rfl, ?noSensor, ?bandgap, ?temp, ?ident⟩
  case fill =>
    intro hwiping
    have hfills : ¬ (!s.keys.wiping) = true := by simp [hwiping]
    exact if_neg hfills
  case onDie =>
    intro t read v
    constructor
    · intro hoff
      have hrails : (s.power.seq != .on) = true := by simpa using hoff
      exact if_pos hrails
    · intro hon
      have hrails : ¬ (s.power.seq != .on) = true := by simpa using hon
      refine (if_neg hrails).trans ?_
      simp only [List.any_eq_true, Bool.or_eq_true, decide_eq_true_eq]
      rfl
  case remote =>
    intro n t k mode
    refine ⟨fun o hmode => if_pos hmode, fun h0 h3 => ?_, fun h0 h3 => ?_⟩
    · exact if_neg (not_or.mpr ⟨h0, h3⟩)
    · refine (if_neg (not_or.mpr ⟨h0, h3⟩)).trans ?_
      simp only [apply_ite (Host.Outcome.next : State → Res)]
      rfl
  case noSensor =>
    intro hnone
    have hempty : s.validSensors.isEmpty = true := by simp [hnone]
    exact if_pos hempty
  case bandgap =>
    intro hsome
    have hthere : ¬ s.validSensors.isEmpty = true := by simpa using hsome
    obtain ⟨i, hi, hat⟩ := State.bandgap_sensor s.draw.1 hsome
    refine ⟨i, hi, _, ?_, rfl⟩
    refine (if_neg hthere).trans ?_
    rw [← hat]
    rfl
  case temp =>
    intro ch pkg bits u hok
    show execTempResponse ch pkg bits s = _
    unfold execTempResponse
    dsimp only
    rw [hok]
    simp only [apply_ite (Host.Outcome.next : State → Res)]
    rfl
  case ident =>
    intro ch pkg bits u hok
    show execIdentResponse ch pkg bits s = _
    unfold execIdentResponse
    dsimp only
    rw [hok]
    simp only [Bool.and_eq_true, decide_eq_true_eq]
    rfl

end Sys2Proof.Machine
end

section
/-!
PROOFS. Register writes with an effect of their own (spec/18): a row stores its whole word, and the word's own rule says what follows.
That a whole word of 0 and an UPDATE with nothing staged act as stated is the model's choice (log 272), so are REKEY with a refused
index (log 273) and a timed UPDATE of persistent words (log 228).
-/

namespace Sys2Proof.Machine

/-! ### A whole word written (R9, R448) -/

/-- A number of 32 bits is its own low word. -/
theorem and_word_of_lt {x : Nat} (h : x < 2 ^ 32) : x &&& 0xFFFFFFFF = x := by
  rw [show (0xFFFFFFFF : Nat) = 2 ^ 32 - 1 from rfl, Nat.and_two_pow_sub_one_eq_mod, Nat.mod_eq_of_lt h]

/-- A word with some bits replaced stays a word. -/
theorem setMask_lt {x m v : Nat} (hx : x < 2 ^ 32) (hv : v < 2 ^ 32) : setMask x m v < 2 ^ 32 :=
  Nat.or_lt_two_pow (by omega) (Nat.and_le_left.trans_lt hv)

/-- A whole word written, UNLOCK apart, ends its requester's arming and does what the word's own rule says. -/
theorem State.wordTake_whole (s : State) (req : Requester) (off val : Nat) (h : off ≠ 0x10) :
    s.wordTake req off val 0xFFFFFFFF
      = (s.useArm (reqNo req)).2.wordAct req off val 0xFFFFFFFF (s.useArm (reqNo req)).1 := by
  simp [State.wordTake, h]

/-- A register row whose whole word its requester may store answers what the word's own rule gives. -/
theorem State.regRes_write4_mayStore (s : State) (req : Requester) (off val : Nat) (ha : off % 4 = 0) (hw : off < 0x100000)
    (hu : off ≠ 0x10) (hd : (regDef off).isSome = true) (h : s.mayStore req off val = true) :
    regRes (s.write4 req off val)
      = .next ((s.useArm (reqNo req)).2.wordAct req off val 0xFFFFFFFF (s.useArm (reqNo req)).1) := by
  rw [s.write4_mayStore req off val ha hw hd h, s.wordTake_whole req off val hu]
  rfl

/-! ### The words that an LD, a counter block and a queue pair have each -/

theorem regDef_ldCtrl (ld : LdNo) : (regDef (0x40100 + 4 * ld.val)).isSome = true := by
  revert ld; decide +kernel

theorem regDef_ldKey (ld : LdNo) : (regDef (0x90100 + 4 * ld.val)).isSome = true := by
  revert ld; decide +kernel

theorem regDef_cntCtrl (b : Fin 18) : (regDef (0x1100 + 4 * b.val)).isSome = true := by
  revert b; decide +kernel

theorem regDef_queueCtrl (q : QNo) : (regDef (0x10010 + 32 * q.val)).isSome = true := by
  revert q; decide +kernel

/-! ### The words' own rules -/

section
variable (s : State) (req : Requester) (val bits : Nat) (free : Bool)

theorem State.wordAct_sillClear :
    s.wordAct req 0x3024 val bits free = (s.sillClear (val &&& bits)).getD (s.raise Reg.REG_STATUS.ACCESS_ERR) := by
  show (match s.sillClear (val &&& bits) with | some t => t | none => s.raise Reg.REG_STATUS.ACCESS_ERR) = _
  cases s.sillClear (val &&& bits) <;> rfl

theorem State.wordAct_ldCtrl (ld : LdNo) :
    s.wordAct req (0x40100 + 4 * ld.val) val bits free = s.allocWrite ld.val val bits free := by
  have hld := ld.isLt
  have hindex : (0x40100 + 4 * ld.val - 0x40100) / 4 = ld.val := by omega
  unfold State.wordAct
  simp (disch := omega) only [if_neg, if_pos, hindex]

theorem State.wordAct_ldKey (ld : LdNo) :
    s.wordAct req (0x90100 + 4 * ld.val) val bits free = s.ldKeyWrite ld.val val bits free := by
  have hld := ld.isLt
  have hindex : (0x90100 + 4 * ld.val - 0x90100) / 4 = ld.val := by omega
  unfold State.wordAct
  simp (disch := omega) only [if_neg, if_pos, hindex]

theorem State.wordAct_cntCtrl (b : Fin 18) :
    s.wordAct req (0x1100 + 4 * b.val) val bits free = s.cntWrite b.val val bits := by
  have hb := b.isLt
  have hindex : (0x1100 + 4 * b.val - 0x1100) / 4 = b.val := by omega
  unfold State.wordAct
  simp (disch := omega) only [if_neg, if_pos, hindex]

theorem State.wordAct_queueCtrl (q : QNo) :
    s.wordAct req (0x10010 + 32 * q.val) val bits free = s.queueWord (0x10010 + 32 * q.val) val bits := by
  have hq := q.isLt
  unfold State.wordAct
  simp (disch := omega) only [if_neg, if_pos]

end

/-! ### The statement -/

/-- Settles O48: each row comes down to the rule of the word it stores, and the arming it ends frees a locked field for it. -/
theorem settingWritesTakeEffect : Obligations.SettingWritesTakeEffect := by
  unfold Obligations.SettingWritesTakeEffect
  intro s req val w u free
  have hw : w &&& 0xFFFFFFFF = w := and_word_of_lt val.isLt
  have hforced : ∀ m x, x < 2 ^ 32 → setMask w m x &&& 0xFFFFFFFF = setMask w m x :=
    fun m x hx => and_word_of_lt (setMask_lt val.isLt hx)
  -- the row stores its word: what is left is the word's own rule
  have hrow := s.regRes_write4_mayStore req
  refine ⟨?alloc, ?ways, ?gravity, ?inject, ?bind, ?rekey, ?counters, ?samples, ?sillage, ?create, ?delete, ?keyLock, ?update⟩
  case alloc =>
    intro ld h
    have hlow := ld.isLt
    refine (hrow _ w (by omega) (by omega) (by omega) (regDef_ldCtrl ld) h).trans (congrArg Host.Outcome.next ?_)
    rw [State.wordAct_ldCtrl]
    simp only [State.allocWrite, hw, Bool.and_eq_true, Bool.not_eq_true']
    rfl
  case ways =>
    intro h
    exact hrow _ w (by decide) (by decide) (by decide) (by decide) h
  case gravity =>
    intro h
    refine (hrow _ w (by decide) (by decide) (by decide) (by decide) h).trans (congrArg Host.Outcome.next ?_)
    show u.modReads (fun r => { r with
      gravReset := (r.gravReset ++ ([0, 1, 2] : List Nat).filter (fun b => bitAt (w &&& 0xFFFFFFFF) b)).eraseDups }) = _
    rw [hw]
  case inject =>
    intro x h
    exact hrow _ x (by decide) (by decide) (by decide) (by decide) h
  case bind =>
    intro ld h
    have hlow := ld.isLt
    refine (hrow _ w (by omega) (by omega) (by omega) (regDef_ldKey ld) h).trans ?_
    rw [State.wordAct_ldKey]
  case rekey =>
    intro ld x h
    have hlow := ld.isLt
    refine (hrow _ x (by omega) (by omega) (by omega) (regDef_ldKey ld) h).trans ?_
    rw [State.wordAct_ldKey]
  case counters =>
    intro b h v
    have hlow := b.isLt
    refine (hrow _ w (by omega) (by omega) (by omega) (regDef_cntCtrl b) h).trans ?_
    rw [State.wordAct_cntCtrl, State.cntWrite, hw]
  case samples =>
    intro sample
    have hsample : ∀ x, x &&& 0xFFFFFFFF = x → s.mayStore req 0x3800 x = true → regRes (s.write4 req 0x3800 x) = .next (sample x) := by
      intro x hx h
      refine (hrow _ x (by decide) (by decide) (by decide) (by decide) h).trans (congrArg Host.Outcome.next ?_)
      show u.sampleWrite4 x 0xFFFFFFFF free = _
      rw [State.sampleWrite4, hx]
    exact ⟨hsample w hw, hsample _ (hforced _ _ (by decide)), hsample _ (hforced _ _ (by decide))⟩
  case sillage =>
    intro h
    have hclear : exec (.sillClear req val) s = .next ((u.sillClear w).getD (u.raise Reg.REG_STATUS.ACCESS_ERR)) := by
      refine (hrow _ w (by decide) (by decide) (by decide) (by decide) h).trans (congrArg Host.Outcome.next ?_)
      rw [State.wordAct_sillClear, hw]
    rw [hclear]
    exact ⟨fun t ht => by rw [ht]; rfl, fun hn => by rw [hn]; rfl⟩
  case create =>
    intro q h
    have hlow := q.isLt
    refine (hrow _ _ (by omega) (by omega) (by omega) (regDef_queueCtrl q) h).trans ?_
    rw [State.wordAct_queueCtrl]
  case delete =>
    intro q h
    have hlow := q.isLt
    refine (hrow _ _ (by omega) (by omega) (by omega) (regDef_queueCtrl q) h).trans ?_
    rw [State.wordAct_queueCtrl]
  case keyLock =>
    intro x h
    exact hrow _ x (by decide) (by decide) (by decide) (by decide) h
  case update =>
    have hupdate : ∀ m x, x < 2 ^ 32 → s.mayStore req 0x20 (setMask w m x) = true →
        s.forced req 0x20 w m x = .next (u.updateGo (setMask w m x)) := by
      intro m x hx h
      refine (hrow _ _ (by decide) (by decide) (by decide) (by decide) h).trans (congrArg Host.Outcome.next ?_)
      show u.updateGo (setMask w m x &&& 0xFFFFFFFF) = _
      rw [hforced m x hx]
    intro c m x hc h mask
    simp only [List.mem_cons, Prod.mk.injEq, List.not_mem_nil, or_false] at hc
    obtain ⟨rfl, rfl, rfl⟩ | ⟨rfl, rfl, rfl⟩ | ⟨rfl, rfl, rfl⟩ := hc <;> exact hupdate _ _ (by decide) h

end Sys2Proof.Machine
end

section
/-!
PROOFS. Register rows with a GO bit (spec/18): the row's own bits stand in the word whatever the rest of the value, so that the word's
own rule starts what GO starts. That a GO of the patrol is ignored while a pass runs, and how a GO of DISC_CMD and of KEY_CMD is taken,
is the model's choice (log 273), and so is the pairing of mirrors (log 258).
-/

namespace Sys2Proof.Machine

/-- A word whose own rule is to be stored, and to start `act` where its GO bit `bit` is written 1. -/
def State.GoWord (s : State) (req : Requester) (off bit : Nat) (act : State → State) : Prop :=
  ∀ (val bits : Nat) (free : Bool), s.wordAct req off val bits free =
    if bitAt (val &&& bits) bit then act (s.wordPlain off val bits free) else s.wordPlain off val bits free

/-- A register row that forces its GO bit stores its word with its own bits in it, and starts what GO starts. -/
theorem State.forced_go (s : State) (req : Requester) (val : BitVec 32) {off mask set bit : Nat} {act : State → State}
    (hrow : (off % 4 = 0 ∧ off < 0x100000 ∧ off ≠ 0x10 ∧ (regDef off).isSome = true)
      ∧ set &&& mask = set ∧ bit < 32 ∧ mask.testBit bit = true ∧ set.testBit bit = true)
    (hword : (s.useArm (reqNo req)).2.GoWord req off bit act) (hmay : s.mayStore req off (setMask val.toNat mask set) = true) :
    setMask val.toNat mask set &&& mask = set
      ∧ s.forced req off val.toNat mask set = .next (act ((s.useArm (reqNo req)).2.wordPlain off (setMask val.toNat mask set) 0xFFFFFFFF
        (s.useArm (reqNo req)).1)) := by
  obtain ⟨⟨ha, hw, hu, hd⟩, hset, hlow, hmask, hgo⟩ := hrow
  refine ⟨setMask_and _ _ _ hset, (s.regRes_write4_mayStore req off _ ha hw hu hd hmay).trans (congrArg Host.Outcome.next ?_)⟩
  rw [hword, bitAt_setMask _ _ _ _ hlow hmask, if_pos hgo]

/-! ### The words with a GO bit -/

section
variable (s : State) (req : Requester)

theorem State.goWord_lcRange : s.GoWord req 0x40030 9 State.rangeGo := fun _ _ _ => rfl
theorem State.goWord_discCmd : s.GoWord req 0x7006C 3 State.discGo := fun _ _ _ => rfl
theorem State.goWord_keyCmd : s.GoWord req 0x90230 22 (fun u => u.keyGo req) := fun _ _ _ => rfl
theorem State.goWord_mirror : s.GoWord req 0xC010C 29 State.mirrorReg := fun _ _ _ => rfl
theorem State.goWord_export : s.GoWord req 0xC0208 17 State.exportReg := fun _ _ _ => rfl
theorem State.goWord_import : s.GoWord req 0xC030C 8 State.importReg := fun _ _ _ => rfl
theorem State.goWord_caskCfg : s.GoWord req 0xD0414 6 State.caskReg := fun _ _ _ => rfl
theorem State.goWord_memtest : s.GoWord req 0x14E34 2 State.memtestGo := fun _ _ _ => rfl
theorem State.goWord_wealiBoard : s.GoWord req 0x118 9 (fun u => u.boardGo (u.getF Reg.WEALI_BOARD_CMD.OP)) := fun _ _ _ => rfl

/-- The patrol's word starts an accelerated pass unless one runs. -/
theorem State.goWord_accel : s.GoWord req 0x80000 21 (fun u => if s.patrol.accelOn then u else u.accelStart) := by
  intro val bits free
  show (if (bitAt (val &&& bits) 21 && !s.patrol.accelOn) = true then (s.wordPlain 0x80000 val bits free).accelStart
    else s.wordPlain 0x80000 val bits free) = _
  cases bitAt (val &&& bits) 21 <;> cases s.patrol.accelOn <;> rfl

/-- The hold-up bank's word starts a test unless one runs. -/
theorem State.goWord_holdupTest : s.GoWord req 0xE0020 0 (fun u => if u.flag Reg.HU_TEST.BUSY then u else u.testStart none) := by
  intro val bits free
  show (if (bitAt (val &&& bits) 0 && !(s.wordPlain 0xE0020 val bits free).flag Reg.HU_TEST.BUSY) = true
    then (s.wordPlain 0xE0020 val bits free).testStart none else s.wordPlain 0xE0020 val bits free) = _
  generalize s.wordPlain 0xE0020 val bits free = u
  dsimp only
  cases bitAt (val &&& bits) 0 <;> cases u.flag Reg.HU_TEST.BUSY <;> rfl

end

/-- Settles O47: each row forces the GO bit of its word, and the word's own rule starts what GO starts. -/
theorem goBitsStartTheirAction : Obligations.GoBitsStartTheirAction := by
  unfold Obligations.GoBitsStartTheirAction
  intro s req val go
  -- the word is written when its requester's arming has ended
  let u := (s.useArm (reqNo req)).2
  refine ⟨?clean, ?invalidate, ?flush, ?segment, ?tile, ?accel, ?load, ?retire, ?erase, ?pair, ?unpair, ?resync, ?swap, ?exportAdd,
    ?exportDel, ?importAdd, ?importDel, ?create, ?delete, ?mark, ?latest, ?committed, ?holdup, ?rawWrite, ?rawRead, ?checkedRead,
    ?boardWrite, ?boardRead⟩
  case clean | invalidate | flush => exact s.forced_go req val (by decide) (u.goWord_lcRange req)
  case segment | tile => exact s.forced_go req val (by decide) (u.goWord_discCmd req)
  case accel => exact s.forced_go req val (by decide) (u.goWord_accel req)
  case load | retire | erase => exact s.forced_go req val (by decide) (u.goWord_keyCmd req)
  case pair | unpair | resync | swap => exact s.forced_go req val (by decide) (u.goWord_mirror req)
  case exportAdd | exportDel => exact s.forced_go req val (by decide) (u.goWord_export req)
  case importAdd | importDel => exact s.forced_go req val (by decide) (u.goWord_import req)
  case create | delete | mark | latest | committed => exact s.forced_go req val (by decide) (u.goWord_caskCfg req)
  case holdup => exact s.forced_go req val (by decide) (u.goWord_holdupTest req)
  case rawWrite | rawRead | checkedRead => exact s.forced_go req val (by decide) (u.goWord_memtest req)
  case boardWrite | boardRead => exact s.forced_go req val (by decide) (u.goWord_wealiBoard req)

end Sys2Proof.Machine
end

section
/-!
PROOFS. Kelric commands on the cache, discards, keys, the patrol, the schedule and the rebuilds (spec/17): a command that comes to its
action takes it. The order of the checks before the action is the model's choice (logs 252 and 253), and so are what CACHE_DISABLE
stores (log 202) and a KEY_LOAD that waits for its time (log 254).
-/

namespace Sys2Proof.Machine

/-- KEY_BIND sets the LD's index, and with REKEY queues the LD's segments and answers their number (R211). -/
theorem State.keyBindAct_eq (c : KCmd) (re : CmdSrc) (s : State) : State.keyBindAct c re s =
    let v := s.setF (Reg.LD_KEY.KEYIDX (c.op 8 1)) (c.op 0 3)
    if bitAt (c.op 3 1) 0 then (v.rekeyLd (c.op 8 1) (c.op 0 3)).2.done re (v.rekeyLd (c.op 8 1) (c.op 0 3)).1 [] else v.done re 0 [] := by
  unfold State.keyBindAct
  cases bitAt (c.op 3 1) 0 <;> rfl

/-- Settles O43: the command's own checks have admitted it, so what is left is its effect. -/
theorem kelricCacheKeyAndMediaCommandsTakeEffect : Obligations.KelricCacheKeyAndMediaCommandsTakeEffect := by
  unfold Obligations.KelricCacheKeyAndMediaCommandsTakeEffect
  intro s c d runs
  refine ⟨?enable, ?disable, ?range, ?discard, ?load, ?retire, ?bind, ?patrol, ?schedule, ?rebuild⟩
  case enable => exact fun h => congrArg Host.Outcome.next (kRun_ready h State.cacheEnableAct _)
  case disable => exact fun h => congrArg Host.Outcome.next (kRun_ready h State.cacheDisableAct _)
  case range => exact fun h => congrArg Host.Outcome.next (kRun_ready h State.cacheRangeAct _)
  case discard => exact fun h => congrArg Host.Outcome.next (kRun_ready h State.discardAct _)
  case load => exact fun h => congrArg Host.Outcome.next (kRun_ready h State.keyLoadAct _)
  case retire => exact fun h => congrArg Host.Outcome.next (kRun_ready h State.keyRetireAct _)
  case bind => exact fun h => congrArg Host.Outcome.next ((kRun_ready h State.keyBindAct _).trans (State.keyBindAct_eq _ _ _))
  case patrol => exact fun h => congrArg Host.Outcome.next (kRun_ready h State.patrolSetAct _)
  case schedule => exact fun h => congrArg Host.Outcome.next (kRun_ready h State.scheduleSetAct _)
  case rebuild => exact fun h => congrArg Host.Outcome.next (kRun_ready h State.rebuildControlAct _)

end Sys2Proof.Machine
end

section
/-!
PROOFS. Events of the oscillators, the PLLs, the planes and the HBM stacks (spec/22): a loss not known before is told once and may leave
the part below its minimum. The levels of the events, that the standby PLL's loss has none, and that a good comparison at a start clears
the oscillators' flags are the model's choice (log 241).
-/

namespace Sys2Proof.Machine

/-- With no oscillator off, the comparison clears what an earlier one found, where a cold start is under way (R512). -/
theorem execOscillatorCompare_good (s : State) : execOscillatorCompare false false s = .next (
    if s.power.seq == .on && !s.host.memActive && !s.inDrydown && !s.power.resuming
    then (s.modAvail (fun a => { a with oscDown := 0 })).setF Reg.AVAIL_STAT.OSC_SINGLE 0 else s) := rfl

/-- With an oscillator off, the comparison tells those not known to be off (R508, R512). -/
theorem execOscillatorCompare_off (s : State) {a b : Bool} (h : (a || b) = true) :
    let now := BitVec.ofNat 2 (b2n a + 2 * b2n b)
    let v := ((s.modAvail (fun x => { x with oscDown := x.oscDown ||| now })).raise Reg.AVAIL_STAT.OSC_SINGLE).event
      (({ mkEv .warning 12 (b2n b) .fault with detail := [now.toNat] } : EvRec).stat Reg.AVAIL_STAT.OSC_SINGLE) none
    execOscillatorCompare a b s = if now &&& ~~~s.avail.oscDown = 0 then .next s
      else .next (if v.avail.oscDown = 3 then v.belowMin else v) := by
  have hoff : ¬ (!a && !b) = true := by simp [← Bool.not_or, h]
  exact if_neg hoff

/-- Settles O36: each event takes the branch of a loss not known before, or of one known. -/
theorem availabilityEventsTakeEffect : Obligations.AvailabilityEventsTakeEffect := by
  unfold Obligations.AvailabilityEventsTakeEffect
  intro s
  refine ⟨?oscillators, ?pllLost, ?pllBack, ?plane, ?stack, ?share⟩
  case oscillators =>
    intro a b now
    refine ⟨?new, ?known, ?good⟩
    · intro hoff hnew v
      exact (execOscillatorCompare_off s hoff).trans (if_neg hnew)
    · intro hoff hknown
      exact (execOscillatorCompare_off s hoff).trans (if_pos hknown)
    · intro hgood hseq hmem hdry hres
      obtain ⟨rfl, rfl⟩ : a = false ∧ b = false := by simpa using hgood
      refine (execOscillatorCompare_good s).trans (congrArg Host.Outcome.next (if_pos ?_))
      simp [hseq, hmem, hdry, hres]
  case pllLost =>
    intro p hup mine v w
    have hnew : ¬ s.avail.pllDown.getLsbD p.val = true := by simp [hup]
    exact if_neg hnew
  case pllBack =>
    intro hone hboth
    exact congrArg Host.Outcome.next (if_neg (not_or_intro hone hboth))
  case plane =>
    intro p hup v
    have hnew : ¬ s.avail.planeDown.getLsbD p.val = true := by simp [hup]
    refine congrArg Host.Outcome.next ((if_neg hnew).trans ?_)
    show (if v.avail.planeDown = 3 ∧ (!v.avail.below) = true then v.belowMin else v) = _
    simp only [Bool.not_eq_true']
  case stack => exact fun _ => rfl
  case share =>
    intro hout v
    have hwaits : ¬ (!s.avail.shareOut) = true := by simp [hout]
    exact if_neg hwaits

end Sys2Proof.Machine
end

section
/-!
PROOFS. Requests and snoop answers of the hosts, and write credit (spec/03, spec/09, spec/10): what a request passes on its way to the
home changes the counters alone, and a credit leaves only where the budget has room for it. What a MetaValue asks of the home is the
model's choice (log 206), and so are the credit of the links (log 205), the place of a granule in an interleave (log 18) and the gate
of an integrity failure (log 222).
-/

namespace Sys2Proof.Machine

/-! ### What is read of the words alone -/

section
variable {s u : State} (h : u.words = s.words)
include h

theorem State.wide_of_words (off n : Nat) : u.wide off n = s.wide off n := by
  induction n generalizing off with
  | zero => rfl
  | succ n ih => simp only [State.wide, State.word, h, ih]

theorem State.getF_of_words (f : Field) : u.getF f = s.getF f := by
  simp only [State.getF, State.wide_of_words h]

theorem State.flag_of_words (f : Field) : u.flag f = s.flag f := by
  simp only [State.flag, State.getF_of_words h]

theorem State.isDb_of_words (ld : Nat) : u.isDb ld = s.isDb ld := by
  simp only [State.isDb, State.slotOf, State.flag_of_words h, State.getF_of_words h]

end

/-! ### What changes the counters alone -/

/-- The two states differ in the tally unit at most. -/
def State.TallyOnly (s u : State) : Prop := ∃ tally, u = { s with tally := tally }

theorem State.TallyOnly.trans {s u v : State} (h : s.TallyOnly u) (k : u.TallyOnly v) : s.TallyOnly v := by
  obtain ⟨_, rfl⟩ := h
  obtain ⟨t, rfl⟩ := k
  exact ⟨t, rfl⟩

theorem State.TallyOnly.ite {s u v : State} {c : Prop} [Decidable c] (hu : s.TallyOnly u) (hv : s.TallyOnly v) :
    s.TallyOnly (if c then u else v) := by
  split
  · exact hu
  · exact hv

theorem State.tallyOnly_refl (s : State) : s.TallyOnly s := ⟨s.tally, rfl⟩

theorem State.tallyOnly_modTally (s : State) (f : TallySt → TallySt) : s.TallyOnly (s.modTally f) := ⟨_, rfl⟩

theorem State.tallyOnly_modLd (s : State) (ld : Nat) (f : LdCounts → LdCounts) : s.TallyOnly (s.modLd ld f) := ⟨_, rfl⟩

theorem State.tallyOnly_count (s : State) (b c n : Nat) : s.TallyOnly (s.count b c n) := by
  unfold State.count
  split
  · split
    · exact s.tallyOnly_refl
    · exact ⟨_, rfl⟩
  · exact ⟨_, rfl⟩

theorem State.tallyOnly_countWrite (s : State) (head ld bytes : Nat) : s.TallyOnly (s.countWrite head ld bytes) := by
  unfold State.countWrite State.modInterval
  exact (s.tallyOnly_count _ _ _).trans ((State.tallyOnly_modLd _ _ _).trans
    ((State.tallyOnly_modTally _ _).trans (State.tallyOnly_modTally _ _)))

theorem State.tallyOnly_sampleDraw (s : State) (ld : Nat) : s.TallyOnly (s.sampleDraw ld).2 := by
  unfold State.sampleDraw
  split
  · exact s.tallyOnly_refl
  · dsimp only
    split <;> exact ⟨_, rfl⟩

/-! ### A host's request (R229, R234, R261) -/

/-- What the home is asked for on behalf of an LD without HDM-DB: its lines are held by no host. -/
def ReqOp.plain : ReqOp → ReqOp
  | .rdS | .rdA | .rdI => .rdI
  | .invA | .invI => .invI
  | .wrS | .wrI => .wrI

/-- A head's request of an LD, at an address that the LD's decoders map to a line. -/
structure State.HostMaps (s : State) (h ldId hpa ld dpa k : Nat) : Prop where
  unwiped : s.keys.wipeFilled = false
  bound : s.headLd h ldId = some ld
  decoded : s.hpaToDpa ld hpa = some dpa
  line : s.dpaKey ld dpa = some k

/-- A head's write uses one of its credits. -/
def State.spendCredit (s : State) (h : Nat) : State := s.modHead h (fun x => { x with rwdOut := x.rwdOut - 1 })

/-- A request of a head as it arrives: a write has used its credit. -/
def State.arrived (s : State) (h : Nat) (op : ReqOp) : State := if op.write? then s.spendCredit h else s

theorem State.arrived_cases (s : State) (h : Nat) (op : ReqOp) : s.arrived h op = s.spendCredit h ∨ s.arrived h op = s :=
  ite_eq_or_eq _ _ _

section
variable {s u : State} {h : Nat} {op : ReqOp}

/-- The counters are advanced before the credit is used, or after. -/
theorem State.TallyOnly.arrived (hu : s.TallyOnly u) (h : Nat) (op : ReqOp) : (s.arrived h op).TallyOnly (u.arrived h op) := by
  unfold State.arrived
  split
  · obtain ⟨t, rfl⟩ := hu
    exact ⟨t, rfl⟩
  · exact hu

/-- What a request is mapped by is neither a counter nor a credit. -/
theorem State.HostMaps.arrived {ldId hpa ld dpa k : Nat} (m : s.HostMaps h ldId hpa ld dpa k) (hu : (s.arrived h op).TallyOnly u) :
    u.HostMaps h ldId hpa ld dpa k := by
  obtain ⟨t, rfl⟩ := hu
  obtain e | e := s.arrived_cases h op <;> rw [e] <;> exact ⟨m.unwiped, m.bound, m.decoded, m.line⟩

/-- Nor is anything else that a request is made of. -/
theorem State.frame_of_arrived (hu : (s.arrived h op).TallyOnly u) :
    u.ft = s.ft ∧ u.words = s.words ∧ u.fabric = s.fabric := by
  obtain ⟨t, rfl⟩ := hu
  obtain e | e := s.arrived_cases h op <;> rw [e] <;> exact ⟨rfl, rfl, rfl⟩

end

/-- A mapped request reaches the home in its line's order; on its way it changes the counters alone, and a write uses its credit. -/
theorem State.hostRequest_mapped {s : State} {h ldId hpa ld dpa k : Nat} (hup : s.headUp h = true)
    (hkeyed : (mget {} s.host.heads h).ideNeeded = false) (m : s.HostMaps h ldId hpa ld dpa k) {op : ReqOp}
    (hcopy : op.write? = true → k < 2 ^ 39 → s.mirrorCopy (ltnSeg (keyTile k)) = false)
    (tag kind : Nat) (mv : MetaValue) (data : Line) (mask : BitVec 64) (poison : Bool) :
    ∃ u smp, (s.arrived h op).TallyOnly u ∧ s.hostRequest h ldId tag hpa op kind mv data mask poison =
      (u.submit { src := if kind = 3 then .own ld else .host h ld tag, op := if s.isDb ld then op else op.plain, line := k, data := data,
                  mask := mask, poison := poison, kind := kind, meta_ := metaCode mv, at_ := s.ft, credit := op.write?,
                  sampled := smp }).pump := by
  have hin : ¬ (!s.headUp h || (mget {} s.host.heads h).ideNeeded) = true := by simp [hup, hkeyed]
  generalize he : s.hostRequest h ldId tag hpa op kind mv data mask poison = e
  unfold State.hostRequest at he
  rw [if_neg hin] at he
  -- counted at its head's port, and its credit used
  extract_lets w atPort noted heads spent at he
  have hport : s.TallyOnly atPort := s.tallyOnly_count _ _ _
  have hnoted : s.TallyOnly noted := (hport.trans (atPort.tallyOnly_count _ _ _)).ite hport
  have hspent : (s.arrived h op).TallyOnly spent := hnoted.arrived h op
  have mspent := m.arrived hspent
  have hlive : ¬ spent.keys.wipeFilled = true := by simp [mspent.unwiped]
  rw [mspent.bound] at he
  dsimp -zeta only at he
  rw [if_neg hlive] at he
  -- counted for its LD
  extract_lets forLd counted found line at he
  have hforLd : (s.arrived h op).TallyOnly forLd := hspent.trans (spent.tallyOnly_modLd _ _)
  have hcounted : (s.arrived h op).TallyOnly counted := (hforLd.trans (forLd.tallyOnly_countWrite _ _ _)).ite hforLd
  obtain ⟨-, hwords, hfabric⟩ := State.frame_of_arrived hcounted
  have hfound : found = some k := by simp [found, (m.arrived hcounted).decoded, (m.arrived hcounted).line]
  have hfree : ¬ (w && decide (k < 2 ^ 39) && counted.mirrorCopy (ltnSeg (keyTile k))) = true := by
    have hmirror : counted.mirrorCopy (ltnSeg (keyTile k)) = s.mirrorCopy (ltnSeg (keyTile k)) := by simp only [State.mirrorCopy, hfabric]
    rw [hmirror]
    simpa [and_imp] using hcopy
  have hline : line = some k := by
    simp only [line, hfound]
    exact if_neg hfree
  rw [hline] at he
  dsimp -zeta only at he
  -- drawn for a sample
  have hu := hcounted.trans (counted.tallyOnly_sampleDraw ld)
  refine ⟨_, (counted.sampleDraw ld).1, hu, ?_⟩
  rw [← he, ← (State.frame_of_arrived hu).1, ← State.isDb_of_words hwords ld]
  cases op <;> rfl

section
variable {s : State} {h ldId hpa ld dpa k : Nat} (hup : s.headUp h = true) (hkeyed : (mget {} s.host.heads h).ideNeeded = false)
  (m : s.HostMaps h ldId hpa ld dpa k)
include hup hkeyed m

/-- A mapped read, or an invalidation, reaches the home; a speculative read asks on the part's own behalf. -/
theorem State.HostMaps.read_reaches {op : ReqOp} (hop : op.write? = false) (tag : Nat) (kind : ReqKind) (mv : MetaValue) :
    ∃ u r, s.hostRequest h ldId tag hpa op (kindCode kind) mv 0 0 false = (u.submit r).pump ∧ s.TallyOnly u
      ∧ r.line = k ∧ r.src = (if kind = .memSpecRd then .own ld else .host h ld tag) ∧ r.kind = kindCode kind ∧ r.credit = false
      ∧ r.at_ = s.ft ∧ r.op = if s.isDb ld then op else op.plain := by
  obtain ⟨u, smp, hu, he⟩ := State.hostRequest_mapped hup hkeyed m (op := op) (by simp [hop]) tag (kindCode kind) mv 0 0 false
  have harrived : s.arrived h op = s := if_neg (by simp [hop])
  have hspec : kindCode kind = 3 ↔ kind = .memSpecRd := by cases kind <;> decide
  rw [harrived] at hu
  exact ⟨u, _, he, hu, rfl, if_congr hspec rfl rfl, rfl, hop, rfl, rfl⟩

/-- A mapped write, whole or partial, reaches the home with its credit used, unless it is for a mirror's copy. -/
theorem State.HostMaps.write_reaches {op : ReqOp} (hop : op.write? = true)
    (hcopy : k < 2 ^ 39 → s.mirrorCopy (ltnSeg (keyTile k)) = false) (tag : Nat) {kind : Nat} (hkind : kind ≠ 3) (mv : MetaValue)
    (data : Line) (mask : BitVec 64) (poison : Bool) :
    ∃ u r, s.hostRequest h ldId tag hpa op kind mv data mask poison = (u.submit r).pump ∧ (s.spendCredit h).TallyOnly u
      ∧ r.line = k ∧ r.src = .host h ld tag ∧ r.data = data ∧ r.mask = mask ∧ r.poison = poison ∧ r.credit = true
      ∧ r.at_ = s.ft ∧ r.op = if s.isDb ld then op else op.plain := by
  obtain ⟨u, smp, hu, he⟩ := State.hostRequest_mapped hup hkeyed m (fun _ => hcopy) tag kind mv data mask poison
  have harrived : s.arrived h op = s.spendCredit h := if_pos hop
  rw [harrived] at hu
  exact ⟨u, _, he, hu, rfl, if_neg hkind, rfl, rfl, rfl, hop, rfl, rfl⟩

end

/-! ### Write credit (R84, R139) -/

/-- A credit of a head goes out: it is counted where it was withheld, and the head holds one more. -/
def State.grantCredit (s : State) (h : Nat) : State :=
  let x := mget {} s.host.heads h
  let u := if x.withheld then s.count 4 7 1 else s
  ({ u with host := { u.host with heads := mset {} u.host.heads h { x with rwdOut := x.rwdOut + 1, withheld := false } } } : State).emit
    (.credit h)

/-- A head that is up, below its bound and not held is granted a credit where there is room; otherwise it is withheld. -/
theorem exec_writeCreditGrant_head (s : State) (h : HeadNo) (hup : s.headUp h.val = true)
    (hbound : (mget {} s.host.heads h.val).rwdOut < 256) (hheld : s.creditHeld h.val = false) :
    exec (.writeCreditGrant (.head h)) s = if s.creditRoom then .next (s.grantCredit h.val)
      else .next { s with host := { s.host with
        heads := mset {} s.host.heads h.val { mget {} s.host.heads h.val with withheld := true } } } := by
  have hgo : ¬ (!s.headUp h.val || decide (256 ≤ (mget {} s.host.heads h.val).rwdOut) || s.creditHeld h.val) = true := by
    simp [hup, hbound, hheld]
  exact if_neg hgo

/-- Any other head is granted nothing. -/
theorem exec_writeCreditGrant_head_held (s : State) (h : HeadNo)
    (hno : ¬ (s.headUp h.val = true ∧ (mget {} s.host.heads h.val).rwdOut < 256 ∧ s.creditHeld h.val = false)) :
    exec (.writeCreditGrant (.head h)) s = .next s := by
  have hstop : (!s.headUp h.val || decide (256 ≤ (mget {} s.host.heads h.val).rwdOut) || s.creditHeld h.val) = true := by
    by_contra hgo
    simp only [Bool.or_eq_true, Bool.not_eq_true', decide_eq_true_eq, not_or, Bool.not_eq_false, not_le, Bool.not_eq_true] at hgo
    obtain ⟨⟨hup, hbound⟩, hheld⟩ := hgo
    exact hno ⟨hup, hbound, hheld⟩
  exact if_pos hstop

/-- Beside the counters, the head's credits and the credit sent, a grant changes nothing. -/
theorem State.grantCredit_eq (s : State) (h : Nat) : ∃ tally, s.grantCredit h =
    { s with tally := tally, out := s.out ++ [.credit h], host := { s.host with
      heads := mset {} s.host.heads h { mget {} s.host.heads h with rwdOut := (mget {} s.host.heads h).rwdOut + 1, withheld := false } } } := by
  have hu : s.TallyOnly (if (mget {} s.host.heads h).withheld = true then s.count 4 7 1 else s) :=
    (s.tallyOnly_count 4 7 1).ite s.tallyOnly_refl
  obtain ⟨t, ht⟩ := hu
  refine ⟨t, ?_⟩
  unfold State.grantCredit
  dsimp only
  rw [ht]
  rfl

/-- Outside a wipe's fill, room for a credit is what the budget leaves, or WT_INFLIGHT in write-through. -/
theorem State.creditRoom_bound {s : State} (hroom : s.creditRoom = true) (hfill : s.keys.wipeFilled = false) :
    (s.writeThrough = true → s.wtPending + s.creditsOut + 1 ≤ s.wtInflight)
      ∧ (s.writeThrough = false → s.charge + s.creditsOut + s.linkCredits + s.openWrites + 1 ≤ s.budget) := by
  have hpos : 0 < s.writeRoom := by simpa [State.creditRoom, hfill] using hroom
  constructor
  · intro hw
    rw [State.writeRoom, if_pos hw] at hpos
    omega
  · intro hw
    rw [State.writeRoom, if_neg (by simp [hw])] at hpos
    omega

/-- Settles O52: a head's credits change by a grant alone, and a grant has room. -/
theorem creditIsGrantedWithinTheBudget : Obligations.CreditIsGrantedWithinTheBudget := by
  unfold Obligations.CreditIsGrantedWithinTheBudget
  intro s t h hexec hfill hchange
  by_cases hgo : s.headUp h.val = true ∧ (mget {} s.host.heads h.val).rwdOut < 256 ∧ s.creditHeld h.val = false
  · obtain ⟨hup, hbound, hheld⟩ := hgo
    rw [exec_writeCreditGrant_head s h hup hbound hheld] at hexec
    cases hroom : s.creditRoom with
    | true =>
      rw [hroom, if_pos rfl] at hexec
      obtain ⟨tally, hgrant⟩ := s.grantCredit_eq h.val
      obtain rfl : s.grantCredit h.val = t := by injection hexec
      refine ⟨?_, State.creditRoom_bound hroom hfill⟩
      rw [hgrant]
      dsimp only
      rw [mget_mset_self]
    | false =>
      rw [hroom, if_neg Bool.false_ne_true] at hexec
      injection hexec with hwithheld
      subst hwithheld
      exact absurd (congrArg HeadSt.rwdOut (mget_mset_self _ _ _ _)) hchange
  · rw [exec_writeCreditGrant_head_held s h hgo] at hexec
    injection hexec with hsame
    exact absurd (by rw [hsame]) hchange

/-! ### The requests and answers of the hosts (R261, R262, R265) -/

theorem exec_birsp (s : State) (h : HeadNo) (tag : Fin 64) (rsp : BiRsp) {n : Snoop} (hn : s.snoopOf h.val tag.val = some n) :
    let gotS := rsp == .s && !n.inv
    let u := if rsp = .i ∨ gotS = true then s else s.event { mkEv .warning 5 h.val .protocol with detail := [tag.val] } none
    exec (.birsp h tag rsp) s = .next (((u.histogram h.val 6 (u.ft - n.at_)).snoopAnswered n.dest
      (fun m => m.sent && m.head == h.val && m.tag == tag.val) gotS).pump) := by
  show execBirsp h tag rsp s = _
  unfold execBirsp
  rw [hn]

/-- Settles O16: a request's opcode is what its MetaValue gives, and the way to the home is that of every mapped request. -/
theorem hostRequestsReachTheHome : Obligations.HostRequestsReachTheHome := by
  unfold Obligations.HostRequestsReachTheHome
  intro s h
  refine ⟨?requests, ?snoop, ?conflict, ?purge, ?credit, ?link⟩
  case requests =>
    intro ldId ld hpa dpa k hup hkeyed hfill hld hdpa hline asked
    have m : s.HostMaps h.val ldId.val hpa ld dpa k := ⟨hfill, hld, hdpa, hline⟩
    refine ⟨?reads, ?writes⟩
    case reads =>
      rintro ⟨_, tag, _, mv, kind⟩ rfl rfl src
      constructor
      · have hread := fun op hop => m.read_reaches hup hkeyed (op := op) hop tag.toNat kind mv
        cases mv with
        | s =>
          obtain ⟨u, r, he, hr⟩ := hread .rdS rfl
          exact ⟨u, r, congrArg Host.Outcome.next he, hr⟩
        | a =>
          obtain ⟨u, r, he, hr⟩ := hread .rdA rfl
          exact ⟨u, r, congrArg Host.Outcome.next he, hr⟩
        | i | none =>
          obtain ⟨u, r, he, hr⟩ := hread .rdI rfl
          exact ⟨u, r, congrArg Host.Outcome.next he, hr⟩
      · have hinv := fun op hop => m.read_reaches hup hkeyed (op := op) hop tag.toNat .memInv mv
        cases mv with
        | a =>
          obtain ⟨u, r, he, hu, hk, hsrc, -, hr⟩ := hinv .invA rfl
          exact ⟨u, r, congrArg Host.Outcome.next he, hu, hk, hsrc, hr⟩
        | s | i | none =>
          obtain ⟨u, r, he, hu, hk, hsrc, -, hr⟩ := hinv .invI rfl
          exact ⟨u, r, congrArg Host.Outcome.next he, hu, hk, hsrc, hr⟩
    case writes =>
      rintro ⟨_, tag, _, mv, data, poison⟩ mask rfl rfl hcopy spent op
      have hop : (if s.isDb ld then writeOp mv else (writeOp mv).plain) = op := by cases mv <;> rfl
      have hwrite := fun kind hkind => m.write_reaches hup hkeyed (op := writeOp mv) (by cases mv <;> rfl) hcopy tag.toNat (kind := kind)
        hkind mv data
      rw [← hop]
      constructor
      · obtain ⟨u, r, he, hr⟩ := hwrite 4 (by decide) (BitVec.allOnes 64) poison
        exact ⟨u, r, congrArg Host.Outcome.next he, hr⟩
      · obtain ⟨u, r, he, hr⟩ := hwrite 5 (by decide) mask poison
        exact ⟨u, r, congrArg Host.Outcome.next he, hr⟩
  case snoop =>
    intro tag n hn
    refine ⟨exec_birsp s h tag .i hn, (exec_birsp s h tag .s hn).trans ?_⟩
    cases n.inv <;> rfl
  case conflict =>
    intro ldId line ld hld owes
    obtain ⟨t, ht⟩ := s.tallyOnly_count 5 1 1
    refine ⟨_, t, ?_, rfl⟩
    show execBiconflict h ldId line s = _
    unfold execBiconflict
    rw [hld]
    dsimp only
    rw [ht]
    by_cases howes : owes = true
    · refine (if_pos howes).trans ?_
      rw [if_pos howes, if_pos howes]
    · refine (if_neg howes).trans ?_
      rw [if_neg howes, if_neg howes]
      rfl
  case purge =>
    intro slot hpurging
    exact if_neg (by simp [hpurging])
  case credit =>
    intro hup hbound hheld hroom
    obtain ⟨t, ht⟩ := s.grantCredit_eq h.val
    exact ⟨_, t, (exec_writeCreditGrant_head s h hup hbound hheld).trans (if_pos hroom), ht⟩
  case link =>
    intro k hstate hheld hroom n
    exact if_neg (by simp [hstate, hheld, hroom])

end Sys2Proof.Machine
end

section
/-!
PROOFS. Events of the line cache (spec/03): what each answers where what it waits for has come. The model's own choices are that an end
or a timeout takes effect whatever FT is (log 3), that the tag cache drops the least recently used record (log 19), that the cleaner's
walk is one step (log 23), and when a change of ways asked for meanwhile is taken up (log 201).
-/

namespace Sys2Proof.Machine

/-! ### The tag cache (R72) -/

/-- What a record's return looks at beside the sets: the home's requests, the records held and those being read. -/
def State.tagView (s : State) : Home × List Nat × List Nat := (s.home, s.cache.tags, s.cache.tagReads)

theorem State.tagView_modTagSet (s : State) (k : Nat) (f : CacheSet → CacheSet) : (s.modTagSet k f).tagView = s.tagView := by
  unfold State.modTagSet
  split <;> rfl

theorem State.tagView_foldl_modTagSet (l : List Nat) (f : Nat → CacheSet → CacheSet) (s : State) :
    (l.foldl (fun (t : State) k => t.modTagSet k (f k)) s).tagView = s.tagView := by
  induction l generalizing s with
  | nil => rfl
  | cons k l ih => exact (ih _).trans (s.tagView_modTagSet k (f k))

/-- A record that enters is the most recently used, and the tag cache keeps as many as it has room for. -/
theorem State.tagView_tagEnter (s : State) (k : Nat) :
    (s.tagEnter k).tagView = (s.home, (k :: s.cache.tags.filter (· != k)).take s.tagRoom, s.cache.tagReads) :=
  State.tagView_foldl_modTagSet _ (fun _ c => { c with saved := c.tree }) _

/-- The room of the tag cache is read of the words. -/
theorem State.tagRoom_of_words {s u : State} (h : u.words = s.words) : u.tagRoom = s.tagRoom := by
  simp only [State.tagRoom, State.macrosIn, State.flag_of_words h]

/-! ### Where its condition holds, an event is carried out -/

theorem State.when_of {s : State} {c : Bool} (h : c = true) (f : State → State) : s.when c f = f s := if_pos h

/-! ### A step of an LD's disable sequence (R89) -/

section
variable {s : State} {ld : Nat} {d : Disabling} (hfind : s.cache.disabling.find? (fun d => d.ld == ld) = some d)
  (hleft : ∀ t ∈ d.left, s.progOf t = false)
include hfind hleft

/-- The first clean has ended: the LD's writes are held and its tiles are cleaned once more. -/
theorem State.disableStep_firstClean (hphase : d.phase = .firstClean) :
    s.disableStep ld = (s.cleanLd ld).2.modCache (fun c =>
      { c with disabling := lupd (fun d => d.ld == ld) (fun d => { d with phase := .holdClean, left := (s.cleanLd ld).1 }) c.disabling }) := by
  have hended : ¬ d.left.any (fun t => s.progOf t) = true := by simpa using hleft
  unfold State.disableStep
  rw [hfind]
  refine (if_neg hended).trans ?_
  rw [hphase]

/-- The clean behind the hold has ended: it goes on while tiles are left, else lookup goes off and the answer leaves. -/
theorem State.disableStep_holdClean (hphase : d.phase = .holdClean) :
    s.disableStep ld =
      if (s.cleanLd ld).1 = [] then
        let u := (s.cleanLd ld).2.modCache (fun c => { c with
          disabling := c.disabling.filter (fun d => d.ld != ld), lookupOff := ld :: c.lookupOff.filter (· != ld) })
        (u.respondTo d.src kOk (u.getF Reg.LC_WAYS.WAYS_NOW) []).pump
      else (s.cleanLd ld).2.modCache (fun c =>
        { c with disabling := lupd (fun d => d.ld == ld) (fun d => { d with left := (s.cleanLd ld).1 }) c.disabling }) := by
  have hended : ¬ d.left.any (fun t => s.progOf t) = true := by simpa using hleft
  unfold State.disableStep
  rw [hfind]
  refine (if_neg hended).trans ?_
  rw [hphase]
  cases h : (s.cleanLd ld).1 <;> simp [h]

end

/-! ### The statement -/

/-- Settles O19: each event meets what it waits for. -/
theorem cacheEventsTakeEffect : Obligations.CacheEventsTakeEffect := by
  unfold Obligations.CacheEventsTakeEffect
  intro s
  refine ⟨?tagReturn, ?mash, fun _ => rfl, ?cleanStart, ?cleanStop, ?disable, ?wayEnd, ?wayWake, ?range⟩
  case tagReturn =>
    intro set visitor hread k u
    have hwaits : ¬ (!s.cache.tagReads.contains k) = true := by simpa using hread
    have hroom : (s.modCache (fun c => { c with tagReads := c.tagReads.filter (· != k) })).tagRoom = s.tagRoom :=
      State.tagRoom_of_words (s.modCache_words _)
    have hu : u.tagView = (s.home, (k :: s.cache.tags.filter (· != k)).take s.tagRoom, s.cache.tagReads.filter (· != k)) := by
      rw [← hroom]
      exact State.tagView_tagEnter _ k
    simp only [State.tagView, Prod.mk.injEq] at hu
    obtain ⟨hhome, htags, hreads⟩ := hu
    refine ⟨?_, htags, hreads⟩
    rw [← hhome]
    exact if_neg hwaits
  case mash =>
    intro ltn m hm hpart
    show execMashIdleTimeout ltn s = _
    unfold execMashIdleTimeout
    rw [hm]
    exact congrArg Host.Outcome.next (if_neg hpart)
  case cleanStart => exact fun h => congrArg Host.Outcome.next (State.when_of (decide_eq_true h) _)
  case cleanStop => exact fun h => congrArg Host.Outcome.next (State.when_of (decide_eq_true h) _)
  case disable =>
    intro ld d hfind hleft w left
    have hstep : ∀ {t : State}, s.disableStep ld.val = t → exec (.disableCleanDone ld) s = .next t.retryWays :=
      fun h => congrArg (fun (t : State) => (.next t.retryWays : Res)) h
    refine ⟨fun hphase => ?_, fun hphase hmore => ?_, fun hphase hnone => ?_⟩
    · exact hstep (State.disableStep_firstClean hfind hleft hphase)
    · exact hstep ((State.disableStep_holdClean hfind hleft hphase).trans (if_neg hmore))
    · exact hstep ((State.disableStep_holdClean hfind hleft hphase).trans (if_pos hnone))
  case wayEnd =>
    intro n htarget hwaking hempty
    have hchange : ¬ (s.cache.wayTarget.isNone = true ∨ s.cache.waking = true) := by simp [htarget, hwaking]
    have hgone : s.wayWalk.departing.isEmpty = true := by simp [hempty]
    exact (if_neg hchange).trans (congrArg (fun (t : State) => (.next t.retryWays : Res)) (if_pos hgone))
  case wayWake =>
    intro n htarget hwaking u mine
    refine congrArg Host.Outcome.next ((State.when_of hwaking _).trans (congrArg State.retryWays ?_))
    unfold State.wayFinish
    rw [htarget]
    rfl
  case range =>
    intro j rest hjobs hstarted hleft hlate u v
    have hended : ¬ (!j.started || !j.left.isEmpty || !j.late.isEmpty) = true := by simp [hstarted, hleft, hlate]
    refine congrArg (fun (t : State) => (.next t.retryWays : Res)) ?_
    unfold State.rangeEnd
    rw [hjobs]
    exact if_neg hended

end Sys2Proof.Machine
end

section
/-!
PROOFS. Events of the segment map (spec/06) and of re-key (spec/08, R215): what each answers where what it waits for has come. The model's
own choices are that an end takes effect whatever FT is (log 3), that a segment's discard is carried out for every discard that names it
(log 204), and that a worn segment is mapped once its copy has ended (log 158).
-/

namespace Sys2Proof.Machine

/-! ### The passes of a copy (R158) -/

section
variable {s : State} {lsn : Nat} {c : Copy} (hfind : s.map.copies.find? (fun c => c.lsn == lsn) = some c)
  (hpend : c.pend = 0) (hout : c.out = [])
include hfind hpend hout

/-- Tiles programmed at the source since their copy are the next pass; the source's programs are held from pass 2 on. -/
theorem State.copyPassEnd_redo (hredo : c.redo ≠ 0) :
    s.copyPassEnd lsn = s.modCopy lsn (fun c => { c with pend := c.redo, redo := 0, pass := c.pass + 1, held := decide (2 ≤ c.pass + 1) }) := by
  have hended : ¬ (c.pend ≠ 0 ∨ (!c.out.isEmpty) = true) := by simp [hpend, hout]
  unfold State.copyPassEnd
  rw [hfind]
  exact (if_neg hended).trans (if_pos hredo)

/-- With nothing to copy again and no program granted at the source, the map switches to the target. -/
theorem State.copyPassEnd_switch (hredo : c.redo = 0)
    (hidle : ∀ p ∈ s.progs.list, ¬ (p.why.user? = true ∧ ltnSeg p.ltn = lsn ∧ p.psn = c.source ∧ p.granted = true)) :
    s.copyPassEnd lsn = s.copySwitch c := by
  have hended : ¬ (c.pend ≠ 0 ∨ (!c.out.isEmpty) = true) := by simp [hpend, hout]
  have hnone : ¬ s.progs.list.any (fun p => p.why.user? && ltnSeg p.ltn == lsn && p.psn == c.source && p.granted) = true := by
    simpa [and_assoc] using hidle
  unfold State.copyPassEnd
  rw [hfind]
  exact (if_neg hended).trans ((if_neg (not_not_intro hredo)).trans (if_neg hnone))

end

/-! ### The statement -/

/-- Settles O20: each event meets what it waits for, and takes the branch of its rule. -/
theorem mapEventsTakeEffect : Obligations.MapEventsTakeEffect := by
  unfold Obligations.MapEventsTakeEffect
  intro s
  refine ⟨?ckptDue, ?ckptEnd, ?copyStart, ?copyPass, ?markStart, fun _ => rfl, ?endure, fun _ => rfl, ?rekeyStart, ?rekeyEnd⟩
  case ckptDue =>
    intro hdue
    have hnow : ¬ s.ft / 2 ^ 20 < s.map.ckptLast + s.ckptPeriod := Nat.not_lt.mpr hdue
    cases hbusy : s.map.ckptBusy
    case false =>
      have hidle : ¬ s.map.ckptBusy = true := by simp [hbusy]
      exact ⟨s.checkpointStart, (if_neg hnow).trans (if_neg hidle), rfl, fun _ => ⟨rfl, rfl⟩, nofun⟩
    case true => exact ⟨_, (if_neg hnow).trans (if_pos hbusy), hbusy, nofun, fun _ => rfl⟩
  case ckptEnd =>
    intro hbusy hprogs hdue valid keep first
    have hended : ¬ (!s.map.ckptBusy || s.progs.list.any (fun p => p.why == .checkpoint)) = true := by simpa [hbusy] using hprogs
    have hnext : ¬ s.map.ckptDue = true := by simp [hdue]
    exact (if_neg hended).trans (congrArg Host.Outcome.next (if_neg hnext))
  case copyStart =>
    intro lsn l why hfind hmay
    show execCopyStart lsn s = _
    unfold execCopyStart
    dsimp only
    rw [hfind]
    exact congrArg Host.Outcome.next (State.when_of hmay _)
  case copyPass =>
    intro lsn c hfind hpend hout
    exact ⟨fun hredo => congrArg Host.Outcome.next (State.copyPassEnd_redo hfind hpend hout hredo),
      fun hredo hidle => congrArg Host.Outcome.next (State.copyPassEnd_switch hfind hpend hout hredo hidle)⟩
  case markStart =>
    intro psn k hfind hmay
    show execReleaseMarkStart psn s = _
    unfold execReleaseMarkStart
    dsimp only
    rw [hfind]
    exact congrArg Host.Outcome.next (State.when_of hmay _)
  case endure =>
    intro lsn hmapped hplaced hworn
    have hreached : ¬ ((s.entry lsn.toNat).state ≠ stMapped ∨ (s.entry lsn.toNat).psn = noPsn
        ∨ s.pcount (s.entry lsn.toNat).psn < endure) := by simp [hmapped, hplaced, hworn]
    refine (if_neg hreached).trans ?_
    cases (s.slotForCopy (s.entry lsn.toNat).psn (s.entry lsn.toNat).note).1 <;> rfl
  case rekeyStart =>
    intro g r hroom hnext
    have hfree : ¬ s.rekeyMax ≤ (s.map.rekeyRun.filter (fun r => psnSet (s.entry r.lsn).psn / 32 == g.val)).length := Nat.not_le.mpr hroom
    refine (if_neg hfree).trans ?_
    rw [hnext]
  case rekeyEnd =>
    intro lsn r hfind hcursor hout
    have hended : ¬ (r.next < 4096 ∨ (!r.out.isEmpty) = true) := by simp [hout, hcursor]
    refine congrArg Host.Outcome.next ?_
    unfold State.rekeyEnd
    rw [hfind]
    exact if_neg hended

end Sys2Proof.Machine
end

section
/-!
PROOFS. The answers of a mirror and the pace of a resynchronisation (spec/11, R300, R301): an answer taken ends what the home keeps for
it. The model's own choices are that an MDATA's TID is even for a bounded read (log 210), and which tiles a resynchronisation sends
(log 213).
-/

namespace Sys2Proof.Machine

/-! ### MDATA (R110, R300) -/

/-- An MDATA answers the read, bounded or not, that asked the mirror for its tile: the mirror is asked for it no more. -/
def State.mrdAnswered (s : State) (m : MirMsg) (bounded : Bool) : State :=
  (s.mirAnswered m 0x32).modReads (fun x => { x with mrds := x.mrds.erase (m.line / 4, bounded) })

section
variable {s u : State} {f : Frame} {m : MirMsg} (htaken : s.mirTake f m 0x33 = (true, u))
include htaken

/-- A bounded read's MDATA ends the read that asked the mirror, as failed where the mirror sent DENIED or UNRECOVERED. -/
theorem execMdata_bounded {r : Reg} (heven : m.tid % 2 = 0) (hasked : (u.mirAnswered m 0x32).reads.mrds.contains (m.line / 4, true) = true)
    (hreg : (u.mrdAnswered m true).regOf (.logical (BitVec.ofNat 37 (m.line / 4))) = some r) (hphase : r.phase = .mirror) :
    exec (.mdata f m) s = if m.trailer.getLsbD 4 || m.trailer.getLsbD 5 then
        let v := (u.mrdAnswered m true).readEnd r (.bad false r.fields)
        .next (if m.trailer.getLsbD 5 then v.sendMrd (m.line / 4) false else v)
      else .next ((u.mrdAnswered m true).fillEnd r (.mirror m.data m.poison)) := by
  have hbounded : (m.tid % 2 == 0) = true := by simp [heven]
  have hmine : ¬ (r.phase != .mirror) = true := by simp [hphase]
  have hwaits : ¬ (!(u.mirAnswered m 0x32).reads.mrds.contains (m.line / 4, true)) = true := by simpa using hasked
  show execMdata f m s = _
  unfold execMdata
  rw [htaken]
  dsimp only
  rw [hbounded]
  refine (if_neg hwaits).trans ((if_neg Bool.false_ne_true).trans ?_)
  rw [show ((u.mirAnswered m 0x32).modReads _).regOf _ = _ from hreg]
  exact if_neg hmine

/-- An unbounded read's MDATA writes the tile back, or has it programmed as lost. -/
theorem execMdata_unbounded (hodd : m.tid % 2 = 1) (hasked : (u.mirAnswered m 0x32).reads.mrds.contains (m.line / 4, false) = true) :
    exec (.mdata f m) s = .next (if m.trailer.getLsbD 4 || m.trailer.getLsbD 5 then (u.mrdAnswered m false).lostProgram (m.line / 4)
      else ((u.mrdAnswered m false).mirrorBack (m.line / 4) m.data m.poison).pump) := by
  have hunbounded : (m.tid % 2 == 0) = false := by simp [hodd]
  have hwaits : ¬ (!(u.mirAnswered m 0x32).reads.mrds.contains (m.line / 4, false)) = true := by simpa using hasked
  show execMdata f m s = _
  unfold execMdata
  rw [htaken]
  dsimp only
  rw [hunbounded]
  exact (if_neg hwaits).trans (if_pos rfl)

end

/-! ### The statement -/

/-- Settles O30: an answer taken finds what it ends, and a tick finds a tile that may be sent or read. -/
theorem mirrorAnswersTakeEffect : Obligations.MirrorAnswersTakeEffect := by
  unfold Obligations.MirrorAnswersTakeEffect
  intro s u f m taken
  refine ⟨?mcmp, ?bounded, ?unbounded, ?mdack, ?rsack, ?tick⟩
  case mcmp =>
    intro a v htaken hfind w
    show execMcmp f m s = _
    unfold execMcmp
    rw [show s.mirTake f m 0x31 = _ from htaken]
    dsimp only
    rw [hfind]
    simp only [beq_iff_eq]
    rfl
  case bounded =>
    intro r v htaken heven hasked hreg hphase
    have hend := execMdata_bounded htaken heven hasked hreg hphase
    refine ⟨fun hgranted hfound => ?_, fun hfailed => ?_⟩
    · have hgood : ¬ (m.trailer.getLsbD 4 || m.trailer.getLsbD 5) = true := by rw [hgranted, hfound]; exact Bool.false_ne_true
      exact hend.trans (if_neg hgood)
    · exact hend.trans (if_pos ((Bool.or_eq_true _ _).mpr hfailed))
  case unbounded => exact fun htaken hodd hasked => execMdata_unbounded htaken hodd hasked
  case mdack =>
    intro htaken
    show execMdack f m s = _
    unfold execMdack
    rw [show s.mirTake f m 0x35 = _ from htaken]
  case rsack =>
    intro k e v htaken hfind
    show execRsack f m s = _
    unfold execRsack
    rw [show s.mirTake f m 0x37 = _ from htaken]
    dsimp only
    rw [hfind]
  case tick =>
    intro k i e ltn key v hrole hstate hnext
    have hresync : ¬ (e.role ≠ 0 ∨ e.state ≠ 1) := by simp [hrole, hstate]
    have hexec : exec (.resyncTick k) s = execResyncTick k s := rfl
    rw [hexec]
    unfold execResyncTick
    dsimp only
    rw [show s.resyncNext (mget {} s.fabric.mirrors k.val) = _ from hnext]
    refine ⟨fun hdisc => ?_, fun hdata hreg hfree hprogs => ?_⟩
    · exact (if_neg hresync).trans (if_pos hdisc)
    · have hidle : ¬ ((s.regOf key).isSome || s.regsFree = 0 || (s.tileProgs ltn).any (·.granted)) = true := by simp [hreg, hfree, hprogs]
      exact (if_neg hresync).trans ((if_neg hdata).trans (if_neg hidle))

end Sys2Proof.Machine
end

section
/-!
PROOFS. Mirror requests at the mirror side (spec/05, R123; spec/06, R169; spec/11, R300, R301): an accepted request of the partner, not
answered before and not under way, about a segment copied here is carried out on the copy's own segment. That the range's last tile ends
the resynchronisation is the model's choice (log 213), and so is that an MRD reads the medium only where its tile is neither wholly
cached nor discarded.
-/

namespace Sys2Proof.Machine

/-! ### MRD (R300, R301) -/

section
variable {s u : State} {f : Frame} {m : MirMsg} {k : Nat} {e : MirrorEnt}
  (htaken : s.mirTake f m 0x32 = (true, u)) (hnew : u.mirKept m 0x33 = none)
  (hcopy : u.copyEntry m.src (m.line / 16384) = some (k, e))
include htaken hnew hcopy

/-- A copy that has not passed the segment yet denies the read. -/
theorem execMrd_unsynced (hbehind : e.synced (m.line / 16384) = false) :
    exec (.mrd f m) s = .next (u.mir 0x33 m.src m.tid m.line none 0 16) := by
  show execMrd f m s = _
  unfold execMrd
  rw [htaken]
  dsimp only
  rw [hnew, hcopy]
  exact if_pos ((Bool.not_eq_true' _).mpr hbehind)

/-- A copy that has passed the segment reads its tile on the medium, where the cache has not the whole tile and no read of it is under way. -/
theorem execMrd_synced (hsynced : e.synced (m.line / 16384) = true) :
    let ltn := m.line / 4 - e.homeLsn * 4096 + e.mirrorLsn * 4096
    let job := (m.src, ltn, 4 * m.tid + b2n (m.trailer.getLsbD 5))
    let v := u.modFabric (fun x => { x with serving := x.serving ++ [job] })
    u.fabric.serving.contains job = false → (v.tileNow ltn).2.1 ≠ 15 → (v.entry (ltnSeg ltn)).state ≠ stDiscarded →
    v.regOf (.logical (BitVec.ofNat 37 ltn)) = none → v.regsFree ≠ 0 →
    exec (.mrd f m) s = .next (v.addReg (mkReg (.logical (BitVec.ofNat 37 ltn)) .noFill v.ft)) := by
  intro ltn job v hidle htile hdata hreg hfree
  have hserved : ¬ (!e.synced (m.line / 16384)) = true := by simp [hsynced]
  have hfresh : u.fabric.serving.contains job ≠ true := Bool.eq_false_iff.mp hidle
  have hmedium : ¬ ((v.tileNow ltn).2.1 = 15 ∨ (v.entry (ltnSeg ltn)).state = stDiscarded) := not_or_intro htile hdata
  have hroom : ¬ ((none : Option Reg).isSome || v.regsFree = 0) = true := by simp [hfree]
  show execMrd f m s = _
  unfold execMrd
  rw [htaken]
  dsimp only
  rw [hnew, hcopy]
  refine (if_neg hserved).trans ((if_neg hfresh).trans ((if_neg hmedium).trans ?_))
  rw [show (u.modFabric _).regOf _ = _ from hreg]
  exact (if_neg Bool.false_ne_true).trans (if_neg hroom)

end

/-! ### The statement -/

/-- Settles O29: the request is new and its segment is copied here, so what is left is its effect on the copy. -/
theorem mirrorMessagesTakeEffect : Obligations.MirrorMessagesTakeEffect := by
  unfold Obligations.MirrorMessagesTakeEffect
  intro s u f m taken lsn
  refine ⟨?mwr, ?mrd, ?mdisc, ?rsync⟩
  case mwr =>
    intro k e htaken hnew hcopy hclosed r
    show execMwr f m s = _
    unfold execMwr
    rw [show s.mirTake f m 0x30 = _ from htaken]
    dsimp only
    rw [hnew, show u.copyEntry m.src (m.line / 16384) = _ from hcopy]
    exact if_neg (Bool.eq_false_iff.mp hclosed)
  case mrd =>
    intro k e htaken hnew hcopy ltn job v
    exact ⟨execMrd_unsynced htaken hnew hcopy, fun hsynced => execMrd_synced htaken hnew hcopy hsynced⟩
  case mdisc =>
    intro k e htaken hnew hcopy own job hidle
    show execMdisc f m s = _
    unfold execMdisc
    rw [show s.mirTake f m 0x34 = _ from htaken]
    dsimp only
    rw [hnew, hcopy]
    exact if_neg (Bool.eq_false_iff.mp hidle)
  case rsync =>
    intro k e htaken hnew hcopy hclosed idx v
    show execRsync f m s = _
    unfold execRsync
    rw [show s.mirTake f m 0x36 = _ from htaken]
    dsimp only
    rw [hnew, show u.copyEntry m.src (m.line / 16384) = _ from hcopy]
    exact if_neg (Bool.eq_false_iff.mp hclosed)

end Sys2Proof.Machine
end

section
/-!
PROOFS. Fabric time (spec/12): what each of its events answers, and that each of them completes. A boundary's row moves FT to its boundary
(log 9), the SEQ of an FTCODE word sent is its slot modulo 256 (log 282), and a forward step ends on a slot boundary (log 261): these are the
model's choices.
-/

namespace Sys2Proof.Machine

/-! ### FTCODE words (R312, R313) -/

/-- A word is sound: good start and stop bits, zero bits and CRC (R312). -/
def codeSound (word : BitVec 98) : Prop :=
  word.getLsbD 0 = false ∧ word.getLsbD 97 = true ∧ bitsOf (bitsOf word.toNat 1 96) 73 7 = 0
    ∧ bitsOf (bitsOf word.toNat 1 96) 80 16 = codeCrc (bitsOf word.toNat 1 96)

/-- The decoder's own test of a word is that it is sound. -/
theorem codeSound_iff (word : BitVec 98) :
    (!bitAt word.toNat 0 && bitAt word.toNat 97 && bitsOf (bitsOf word.toNat 1 96) 73 7 == 0
      && bitsOf (bitsOf word.toNat 1 96) 80 16 == codeCrc (bitsOf word.toNat 1 96)) = true ↔ codeSound word := by
  simp only [Bool.and_eq_true, Bool.not_eq_true', beq_iff_eq, and_assoc]
  exact Iff.rfl

/-- A word that is not sound leaves no edge named. -/
theorem exec_ftcodeWord_unsound {s : State} {word : BitVec 98} (h : ¬ codeSound word) :
    exec (.ftcodeWord word) s = .next { s with time := { s.time with code := none } } := by
  refine if_pos ?_
  rw [Bool.not_eq_true', ← Bool.not_eq_true]
  exact mt (codeSound_iff word).mp h

/-- A sound word is the last one received, and names the next edge where its SEQ follows. -/
theorem exec_ftcodeWord_sound {s : State} {word : BitVec 98} (h : codeSound word) :
    let d := bitsOf word.toNat 1 96
    exec (.ftcodeWord word) s = .next { s with time := { s.time with
      lastSeq := some (bitsOf d 64 8),
      code := if s.time.lastSeq.all (fun p => bitsOf d 64 8 == (p + 1) % 256) then some (bitsOf d 0 64, bitsOf d 64 8, bitAt d 72) else none } } := by
  intro d
  refine (if_neg ?_).trans ?_
  · rw [Bool.not_eq_true', (codeSound_iff word).mpr h]
    exact Bool.noConfusion
  · cases s.time.lastSeq <;> rfl

/-- The low 64 bits after the start bit of an FTCODE word are its NEXT. -/
theorem bitsOf_code_next (n seq trace crc : Nat) :
    bitsOf (BitVec.ofNat 98 (2 * (n % 2 ^ 64 + seq * 2 ^ 64 + trace * 2 ^ 72 + crc * 2 ^ 80) + 2 ^ 97)).toNat 1 64 = n % 2 ^ 64 := by
  simp only [bitsOf, BitVec.toNat_ofNat, Nat.shiftRight_eq_div_pow]
  omega

/-- FTCODE_OUT names the next slot boundary (R313). -/
theorem exec_ftcodeOutSend {s : State} (h : s.flag Reg.TIME_CFG.SYNC_OUT_EN = true) :
    let n := s.ft / 2 ^ 20 + 1
    let d := n * 2 ^ 20 % 2 ^ 64 + n % 256 * 2 ^ 64 + b2n (!s.flag Reg.TIME_STAT.UNTRACEABLE) * 2 ^ 72
    exec .ftcodeOutSend s = .next (s.emit (.ftcode (BitVec.ofNat 98 (2 * (d + codeCrc d * 2 ^ 80) + 2 ^ 97)))) := by
  have hon : ¬ (!s.flag Reg.TIME_CFG.SYNC_OUT_EN) = true := by simp [h]
  exact if_neg hon

/-! ### SYNC frames (R316, R317) -/

/-- What a link has heard of its peer is what the frame says, and the exchange where it completes one. -/
theorem SyncLink.heard_eq (l : SyncLink) (b now : Nat) :
    ∃ t e have_, l.heard b now = { l with
        peerSeq := bitsOf b 24 16, peerAt := now, seen := true, gm := bitsOf b 4 12, gmClass := bitsOf b 16 2, steps := bitsOf b 18 5,
        locked := bitAt b 23, theta := t, delay := e, haveTheta := have_ }
      ∧ ∀ t' e', l.exchange b = some (t', e') → t = t' ∧ e = e' ∧ have_ = true := by
  unfold SyncLink.heard
  cases l.exchange b with
  | none => exact ⟨_, _, _, rfl, nofun⟩
  | some x => exact ⟨_, _, _, rfl, fun _ _ h => by cases h; exact ⟨rfl, rfl, rfl⟩⟩

/-- A frame that follows the last one heard and answers the last one sent completes an exchange. -/
theorem SyncLink.exchange_last {l : SyncLink} {b : Nat} (hseen : l.seen = true) (hnext : bitsOf b 24 16 = (l.peerSeq + 1) % 65536)
    (hlast : bitsOf b 40 16 = l.txSeq) :
    let away := ((bitsOf b 136 80 : Nat) : Int) - l.txAt
    let back := (l.peerAt : Int) - ((bitsOf b 56 80 : Nat) : Int)
    l.exchange b = some ((away - back) / 2, (back + away) / 2) := by
  simp [SyncLink.exchange, hseen, hnext, hlast]

section
variable {s u : State} {f : Frame} {body : BitVec 256}
  (htaken : s.linkAccept f 5 [3] 2 body.toNat = (true, u)) (hkind : bitsOf body.toNat 0 4 = 1) (hzero : bitsOf body.toNat 216 40 = 0)
include htaken hkind hzero

/-- A well formed frame is heard, grandmaster and parent are chosen again, and an exchange with the parent gives the offset. -/
theorem exec_sync :
    let k := f.link.val
    let l := mget {} u.time.links k
    let v := (u.modTime (fun t => { t with links := mset {} t.links k (l.heard body.toNat u.ftFine.toNat) })).timeChoose
    (v.time.parent ≠ some k ∨ l.exchange body.toNat = none → exec (.sync f body) s = .next v)
    ∧ (∀ t e, v.time.parent = some k → l.exchange body.toNat = some (t, e) →
        exec (.sync f body) s = .next ((v.setF Reg.TIME_OFFSET.OFFSET (satOffset (t / 65536))).applyOffset t)) := by
  intro k l v
  have hsound : ¬ (bitsOf body.toNat 0 4 ≠ 1 ∨ bitsOf body.toNat 216 40 ≠ 0) := by simp [hkind, hzero]
  have hheard : exec (.sync f body) s = if v.time.parent = some k then
      match l.exchange body.toNat with
      | some (t, _) => .next ((v.setF Reg.TIME_OFFSET.OFFSET (satOffset (t / 65536))).applyOffset t)
      | none => .next v
    else .next v := by
    show execSync f body s = _
    unfold execSync
    dsimp only
    rw [htaken]
    exact (if_neg Bool.false_ne_true).trans (if_neg hsound)
  rw [hheard]
  refine ⟨fun hno => ?_, fun t e hparent hex => ?_⟩
  · by_cases hparent : v.time.parent = some k
    · rw [if_pos hparent, hno.resolve_left (not_not_intro hparent)]
    · exact if_neg hparent
  · rw [if_pos hparent, hex]

end

/-! ### The statements -/

/-- Settles O24: each event is its guard and then its effect. -/
theorem timeEventsTakeEffect : Obligations.TimeEventsTakeEffect := by
  unfold Obligations.TimeEventsTakeEffect
  intro s
  refine ⟨?frame, ?edge, ?noEdge, ?word, exec_ftcodeOutSend, ?ptm, ?sync, ?step⟩
  case frame =>
    have hhere : (s.ft % 2 ^ 28 == 0 && s.time.frameDone != s.ft / 2 ^ 28) = decide (s.ft % 2 ^ 28 = 0 ∧ s.time.frameDone ≠ s.ft / 2 ^ 28) := by
      simp only [Bool.decide_and, decide_not]
      rfl
    show execFrameBoundary s = _
    unfold execFrameBoundary
    rw [hhere]
    simp only [decide_eq_true_eq]
  case edge =>
    intro next seq trace hcode u v
    show execFtsyncEdge s = _
    unfold execFtsyncEdge
    rw [hcode]
    rfl
  case noEdge =>
    intro hcode n u
    show execFtsyncEdge s = _
    unfold execFtsyncEdge
    rw [hcode]
    rfl
  case word =>
    intro word d sound
    refine ⟨fun h => (exec_ftcodeWord_sound h).trans ?_, exec_ftcodeWord_unsound⟩
    cases s.time.lastSeq <;> rfl
  case ptm =>
    intro root hon
    refine ⟨if_neg ?_, if_pos ?_⟩ <;> simp [hon]
  case sync =>
    intro f body b hgo hkind hzero u k old l v
    have htaken : s.linkAccept f 5 [3] 2 body.toNat = (true, u) := Prod.ext hgo rfl
    obtain ⟨hno, hex⟩ := exec_sync htaken hkind hzero
    obtain ⟨t, e, have_, hl, htheta⟩ := old.heard_eq b u.ftFine.toNat
    refine ⟨?_, ?_, ?_, ?_, ?_, ?_, ?_, ?_, SyncLink.exchange_last, hno, hex⟩
    all_goals simp only [l, hl]
    exact htheta
  case step =>
    intro t hstep hlater
    show execFtStepForward s = _
    unfold execFtStepForward
    rw [hstep]
    exact if_neg (Nat.not_le.mpr hlater)

/-- Settles O56: every event of fabric time completes, and the FTCODE words received and sent name their edges. -/
theorem timeProofAndKeyCommandsComplete : Obligations.TimeProofAndKeyCommandsComplete := by
  unfold Obligations.TimeProofAndKeyCommandsComplete
  intro s u
  refine ⟨?frame, ?edge, ?word, ?send, ?ptm, ?sync, ?step, ?proof, ?keyLoad⟩
  case word =>
    intro word d hstart hstop hzero hcrc hfollows
    exact ⟨_, exec_ftcodeWord_sound ⟨hstart, hstop, hzero, hcrc⟩, if_pos hfollows, rfl⟩
  case send =>
    intro hon
    exact ⟨_, _, exec_ftcodeOutSend hon, rfl, bitsOf_code_next _ _ _ _⟩
  case frame | edge => exact exec_completes _ s rfl
  case ptm | sync | step | proof | keyLoad => intros; exact exec_completes _ s rfl

end Sys2Proof.Machine
end

section
/-!
PROOFS. The mailbox and the standard background commands (spec/16, R394 to R397; spec/19, R429, R430): on a ready path a command runs, and
one that runs in the background is answered Background Command Started before its work. That a length of Scan Media counts 64-byte lines
(log 268), what a staging is checked for (log 266) and that a segment's discard serves every discard that names it (log 204) are the
model's choices.
-/

namespace Sys2Proof.Machine

/-! ### Standard commands on a ready path (R394, R397) -/

/-- On a ready path of an LD a command of the LD runs. -/
theorem ldRun_ready {s : State} {path : MboxPath} {opc ld : Nat} (hready : s.pathReady path opc = true) (hld : pathLd path = some ld)
    (f : Nat → Nat → State → State) : s.ldRun path opc f = f (pathNo path) ld (s.kMark (.path path) opc) := by
  unfold State.ldRun
  rw [stdRun_ready hready, hld]

/-- The state in which the work of a path's background command begins. -/
def State.bgBegun (s : State) (path : MboxPath) (opc : Nat) : State := (s.kMark (.path path) opc).startBg (pathNo path) opc

/-- A command begun in the background is answered Background Command Started: its path is free and its LD function holds it. -/
theorem State.bgBegun_answer (s : State) (path : MboxPath) (opc : Nat) :
    let fn := pathFn (pathNo path)
    (s.modHost (fun h => { h with bgs := mset {} h.bgs fn { mget {} h.bgs fn with path := pathNo path, opc := opc, res := none } })).MboxAnswer
      (s.bgBegun path opc) path opc .started [] :=
  endPath_answer _ _ path opc .started [] rfl rfl

/-- Where the LD function holds no background operation, the command begins one. -/
theorem State.bgRun_begins {s : State} {path : MboxPath} (opc : Nat) (hfree : s.bgHeld (pathNo path) = false) (f : State → State) :
    (s.kMark (.path path) opc).bgRun (pathNo path) opc f = f (s.bgBegun path opc) := by
  have hfree' : ¬ (s.kMark (.path path) opc).bgHeld (pathNo path) = true := by
    rw [show (s.kMark (.path path) opc).bgHeld (pathNo path) = _ from hfree]
    exact Bool.false_ne_true
  exact if_neg hfree'

/-- What begins a command leaves the map. -/
theorem State.map_bgBegun (s : State) (path : MboxPath) (opc : Nat) : (s.bgBegun path opc).map = s.map := by
  obtain ⟨hist, h⟩ := s.bgBegun_answer path opc
  rw [h]
  rfl

/-- It leaves the blocks, and so where an LD's lines lie. -/
theorem State.lineDpa_bgBegun (s : State) (path : MboxPath) (opc : Nat) : (s.bgBegun path opc).lineDpa = s.lineDpa := by
  obtain ⟨hist, h⟩ := s.bgBegun_answer path opc
  rw [h]
  rfl

/-- Does a poisoned line lie in a range of an LD's capacity? -/
def State.poisonIn (s : State) (ld dpa len : Nat) (x : PoisonLine) : Bool :=
  match s.lineDpa ld x.line with
  | some d => decide (dpa ≤ d) && decide (d < dpa + len)
  | none => false

theorem State.poisonIn_bgBegun (s : State) (path : MboxPath) (opc : Nat) : (s.bgBegun path opc).poisonIn = s.poisonIn := by
  funext ld dpa len x
  simp only [State.poisonIn, State.lineDpa_bgBegun]

/-! ### The background commands (R171, R238, R395, R429, R430) -/

section
variable {s : State} {path : MboxPath} (hfree : s.bgHeld (pathNo path) = false)
include hfree

/-- Transfer FW stages its part. -/
theorem exec_transferFw (hready : s.pathReady path 0x0201 = true) {action : BitVec 8} {off : BitVec 32} {data : List Byte}
    (hstage : s.stageStatus action.toNat (128 * off.toNat) data = kOk) :
    let u := s.bgBegun path 0x0201
    exec (.transferFw path action 2 off data) s
      = .next ((u.stagePart action.toNat data).2.endBg (pathNo path) (rcOf (u.stagePart action.toNat data).1) []) := by
  refine congrArg Host.Outcome.next ((stdRun_ready hready _).trans ?_)
  exact (if_neg (not_not_intro rfl)).trans ((if_neg (not_not_intro hstage)).trans (State.bgRun_begins 0x0201 hfree _))

/-- Activate FW starts the activation. -/
theorem exec_activateFw (hready : s.pathReady path 0x0202 = true) (hstaged : s.activateStatus = kOk) :
    exec (.activateFw path 0 2) s = .next ((s.bgBegun path 0x0202).activateGo false (.bg path)) := by
  refine congrArg Host.Outcome.next ((stdRun_ready hready _).trans ?_)
  exact (if_neg (by decide)).trans ((if_neg (not_not_intro hstaged)).trans (State.bgRun_begins 0x0202 hfree _))

variable {ld : Nat} (hld : pathLd path = some ld) (hactive : s.host.memActive = true)
include hld hactive

/-- Scan Media begins the scan of its tiles; lines returned as poison before leave the list. -/
theorem exec_scanMedia (hready : s.pathReady path 0x4304 = true) {dpa len : BitVec 64} (hline : dpa.toNat % 64 = 0) (hlen : len ≠ 0) :
    let first := dpa.toNat / 256
    let tiles := (dpa.toNat + 64 * len.toNat + 255) / 256 - first
    exec (.scanMedia path dpa len) s = .next ((s.bgBegun path 0x4304).modHost (fun h => { h with
      poisonList := h.poisonList.filter (fun x => x.scan || !s.poisonIn ld dpa.toNat (64 * len.toNat) x),
      scanRes := mset [] h.scanRes ld [], scans := mset (0, 0, 0) h.scans ld (first, tiles, 0) })) := by
  intro first tiles
  have hrange : ¬ (dpa.toNat % 64 ≠ 0 ∨ len.toNat = 0) :=
    not_or_intro (not_not_intro hline) (fun h => hlen (BitVec.eq_of_toNat_eq h))
  have hup : ¬ (!s.host.memActive) = true := by simp [hactive]
  refine congrArg Host.Outcome.next ((ldRun_ready hready hld _).trans ?_)
  refine (if_neg hrange).trans ((if_neg hup).trans ((State.bgRun_begins 0x4304 hfree _).trans ?_))
  rw [← s.poisonIn_bgBegun path 0x4304]
  simp only [State.modHost, Bool.not_and, Bool.not_not]
  rfl

/-- Sanitize and Secure Erase discard every segment of the LD's blocks. -/
theorem eraseLd_begins {opc : Nat} (hready : s.pathReady path opc = true) (secure advance : Bool)
    (hdisc : s.discCheck (lsnsOf (s.ldRuns ld (fun b => b.kind != 0 && !b.releasing))) = kOk) :
    s.ldRun path opc (fun p ld s => s.eraseLd p ld opc secure advance)
      = ((((s.bgBegun path opc).modHost (fun h => { h with erasing := mset 0 h.erasing ld (pathNo path + 1) })).discardNow .segments secure
          (s.ldRuns ld (fun b => b.kind != 0 && !b.releasing)) none false (2 ^ 20 + ld) 0).modDisc s.map.discNext
          (fun d => { d with advance := advance })) := by
  have hup : ¬ (!s.host.memActive) = true := by simp [hactive]
  refine (ldRun_ready hready hld _).trans ?_
  refine (if_neg hup).trans ((if_neg (not_not_intro hdisc)).trans ((State.bgRun_begins opc hfree _).trans ?_))
  rw [← s.map_bgBegun path opc]
  rfl

end

/-! ### Its end (R397, R432) -/

/-- With no lifecycle transition waiting none is made. -/
theorem State.lcFinish_idle {s : State} (h : s.keys.lcWait = none) : s.lcFinish = s := by
  simp [State.lcFinish, State.lcAdvance, h]

/-! ### The statement -/

/-- Settles O15: on a ready path the command's own checks have admitted it, so it begins; an operation with a result is reported. -/
theorem mailboxBackgroundCommandsStart : Obligations.MailboxBackgroundCommandsStart := by
  unfold Obligations.MailboxBackgroundCommandsStart
  intro s path p fn started
  refine ⟨?doorbell, ?transfer, ?activate, fun ld hld => ⟨?scan, ?sanitize, ?erase⟩, ?done⟩
  case doorbell =>
    intro opc len hup hidle hopc hlen
    have hup' : ¬ (!s.host.mailbox) = true := by simp [hup]
    have hidle' : ¬ (mget {} s.host.mbox p).busy = true := by simp [hidle]
    have hknown : ¬ (!stdOpcodes.contains opc.toNat && !kOpcodes.contains opc.toNat) = true := by
      rw [← Bool.not_or, Bool.not_eq_true', Bool.not_eq_false, ← List.contains_append]
      exact List.contains_iff_mem.mpr hopc
    exact (if_neg hup').trans ((if_neg hidle').trans ((if_neg hknown).trans (if_neg (Nat.not_lt.mpr hlen))))
  case transfer =>
    intro action slot off data hready hfree hslot hstage
    subst hslot
    exact ⟨_, _, exec_transferFw hfree hready hstage, s.bgBegun_answer path 0x0201, rfl⟩
  case activate => exact fun hready hfree hstaged => ⟨_, _, exec_activateFw hfree hready hstaged, s.bgBegun_answer path 0x0202, rfl, rfl⟩
  case scan =>
    intro dpa len hready hfree hactive hline hlen
    exact ⟨_, _, exec_scanMedia hfree hld hactive hready hline hlen, s.bgBegun_answer path 0x4304, rfl⟩
  case sanitize =>
    intro hready hfree hactive runs hdisc
    exact ⟨_, _, congrArg Host.Outcome.next (eraseLd_begins hfree hld hactive hready true false hdisc), s.bgBegun_answer path 0x4400, rfl⟩
  case erase =>
    intro hready hfree hactive runs hdisc
    exact ⟨_, _, congrArg Host.Outcome.next (eraseLd_begins hfree hld hactive hready false true hdisc), s.bgBegun_answer path 0x4401, rfl⟩
  case done =>
    intro ok hidle b rc payload hopc hpath hres hscan hrestart
    have hheld : ¬ (b.opc = 0 ∨ b.path ≠ p) := by simp [hopc, hpath]
    show execBackgroundOpEnd path ok s = _
    unfold execBackgroundOpEnd
    rw [State.lcFinish_idle hidle]
    refine (if_neg hheld).trans ?_
    rw [show (mget {} s.host.bgs (pathFn (pathNo path))).res = _ from hres]
    dsimp only
    rw [if_neg hscan]
    exact congrArg Host.Outcome.next (if_neg (ne_true_of_eq_false hrestart))

end Sys2Proof.Machine
end

section
/-!
PROOFS. Capacity of LDs, decoders, resets, poison and DOE (spec/09, R231 to R245; spec/16, R409): a request that passes its checks moves
the blocks it names. That the lowest free blocks are taken (log 226), that a response answers the oldest offer (log 269), where the regions of
dynamic capacity begin (log 17), and the order of the fields of CDAT and DOE answers (log 225) are the model's choices.
-/

namespace Sys2Proof.Machine

/-! ### Allocation by the fabric manager (R232, R235) -/

/-- A growth of static capacity takes as many free blocks as it asks for, or none where there are not as many. -/
theorem exec_fmLdAllocate_grows {s : State} {ld : LdNo} {blocks : BitVec 18} (hlife : s.keys.lifecycle ≠ 3) :
    let mine := s.host.blocks.filter (fun (_, b) => b.kind == 1 && b.ld == ld.val && !b.releasing)
    mine.length ≤ blocks.toNat →
    exec (.fmLdAllocate ld blocks) s = .next (
      if s.freeBlockCount < blocks.toNat - mine.length then s
      else
        let put := fun (m : SMap Block) (b : Nat × Nat) => mset {} m b.1 { kind := 1, ld := ld.val, num := mine.length + b.2 }
        s.modHost (fun x => { x with blocks := (s.freeBlocksFrom 0 (blocks.toNat - mine.length) s.blockCount).zipIdx.foldl put x.blocks })) := by
  intro mine hgrows
  exact (if_neg hlife).trans ((if_pos hgrows).trans (apply_ite _ _ _ _).symm)

/-- One extent of no import that meets nothing of its region is offered, and an event tells it. -/
theorem exec_fmAddDc_offers {s : State} {ld : LdNo} {region : Fin 2} {e : DcExtent} (hlife : s.keys.lifecycle ≠ 3)
    (hown : s.importOf ld.val region.val e = false) (himports : s.importMeets ld.val region.val e = false) (hcount : e.count ≠ 0)
    (hregion : e.region = region) (hend : e.first.toNat + e.count.toNat ≤ dcBlocks)
    (hextents : ∀ o ∈ s.regionExtents ld.val region.val, extMeets o e = false)
    (hblocks : ∀ x ∈ s.host.blocks,
      ¬ (x.2.kind = region.val + 2 ∧ x.2.ld = ld.val ∧ e.first.toNat ≤ x.2.num ∧ x.2.num < e.first.toNat + e.count.toNat))
    (hroom : (s.regionExtents ld.val region.val).length < 256) (hfree : e.count.toNat ≤ s.freeBlockCount) :
    let bs := s.freeBlocksFrom 0 e.count.toNat s.blockCount
    let nums := (List.range e.count.toNat).map (e.first.toNat + ·)
    let put := fun (m : SMap Block) (b : Nat × Nat) => mset {} m b.1 { kind := region.val + 2, ld := ld.val, num := b.2 }
    exec (.fmAddDc ld region [e]) s = .next ((s.modHost (fun x => { x with
      blocks := (bs.zip nums).foldl put x.blocks,
      dcOffers := x.dcOffers ++ [{ ld := ld.val, region := region.val, extents := [e], blocks := bs }] })).event
        { mkEv .dynCap (s.ldAsg ld.val).head ld.val .changed with detail := [region.val, e.first.toNat, e.count.toNat] } (some ld.val)) := by
  intro bs nums put
  have hmine : [e].filter (fun e => !s.importOf ld.val region.val e) = [e] := by simp [hown]
  have hapart : (s.regionExtents ld.val region.val).any (fun o => extMeets o e) = false :=
    List.any_eq_false.mpr fun o ho => by simp [hextents o ho]
  have hunused : s.host.blocks.any (fun (_, b) => b.kind == region.val + 2 && b.ld == ld.val && decide (e.first.toNat ≤ b.num)
      && decide (b.num < e.first.toNat + e.count.toNat)) = false :=
    List.any_eq_false.mpr fun x hx => by simpa [and_assoc] using hblocks x hx
  show execFmAddDc ld region [e] s = _
  unfold execFmAddDc
  dsimp only
  rw [hmine, List.flatMap_singleton, List.map_singleton, List.sum_singleton]
  refine (if_neg ?_).trans rfl
  simp only [Bool.or_eq_true, decide_eq_true_eq, not_or]
  refine ⟨⟨⟨⟨by simp, ?_⟩, Nat.not_lt.mpr hroom⟩, Nat.not_lt.mpr hfree⟩, hlife⟩
  simpa [hapart, hunused, hown, himports, hregion, hend] using hcount

/-! ### Dynamic capacity and its LD (R235, R236) -/

section
variable {s : State} {path : MboxPath} {extents : List DcExtent} {ld : Nat} (hld : pathLd path = some ld)
include hld

/-- The extents named of the oldest offer are accepted, and the rest of it returns to free. -/
theorem exec_addDcResponse_accepts {o : DcAdd} (hready : s.pathReady path 0x4802 = true)
    (hoffer : s.host.dcOffers.find? (fun o => o.ld == ld) = some o) (hwithin : ∀ e ∈ extents, ∃ b ∈ o.extents, extWithin e b = true)
    (hroom : (s.host.dcExtents.filter (fun x => x.1 == ld && x.2.region.val == o.region)).length + extents.length ≤ 256) :
    let put := fun (m : SMap Block) (k : Nat) => mmod {} m k (fun b =>
      if extents.any (fun e => extHas e o.region b.num) then { b with ready := true } else {})
    exec (.addDcResponse path extents) s = .next (((s.kMark (.path path) 0x4802).modHost (fun h => { h with
      blocks := o.blocks.foldl put h.blocks,
      dcOffers := h.dcOffers.erase o,
      dcExtents := h.dcExtents ++ extents.map (fun e => (ld, e)) })).endPath (pathNo path) .success []) := by
  intro put
  have hnamed : ¬ (extents.any (fun e => !o.extents.any (fun b => extWithin e b))
      || decide (256 < (s.host.dcExtents.filter (fun x => x.1 == ld && x.2.region.val == o.region)).length + extents.length)) = true := by
    simpa [hroom] using hwithin
  refine congrArg Host.Outcome.next ((ldRun_ready hready hld _).trans ?_)
  rw [show (s.kMark (.path path) 0x4802).host.dcOffers.find? (fun o => o.ld == ld) = _ from hoffer]
  exact if_neg hnamed

/-- Extents accepted and without a cask's segment are given back. -/
theorem exec_releaseDc_releases (hready : s.pathReady path 0x4803 = true) (hactive : s.host.memActive = true) :
    let mine := (s.host.dcExtents.filter (fun x => x.1 == ld)).map (·.2)
    (∀ e ∈ extents, (∃ b ∈ mine, extWithin e b = true) ∧ ∀ b ∈ s.extBlocks ld e, s.blockCask b = false) →
    let left := extents.foldl (fun l e => l.flatMap (fun a => extLess a e)) mine
    let u := (s.kMark (.path path) 0x4803).modHost (fun h =>
      { h with dcExtents := h.dcExtents.filter (fun x => x.1 != ld) ++ left.map (fun e => (ld, e)) })
    let u := ((extents.flatMap (s.extBlocks ld)).eraseDups).foldl (fun s b => s.releaseBlock b) u
    let u := (extents.flatMap (s.extPools ld)).foldl (fun s (a, n) => s.dropPool a n) u
    exec (.releaseDc path extents) s = .next (u.endPath (pathNo path) .success []).pump := by
  intro mine hheld
  have hup : ¬ (!s.host.memActive) = true := by simp [hactive]
  have hall : extents.all (fun e => mine.any (fun b => extWithin e b) && !(s.extBlocks ld e).any s.blockCask) = true :=
    List.all_eq_true.mpr fun e he => by simpa using hheld e he
  have hgiven : ¬ (!extents.all (fun e => mine.any (fun b => extWithin e b) && !(s.extBlocks ld e).any s.blockCask)) = true := by
    simp [hall]
  refine congrArg Host.Outcome.next ((ldRun_ready hready hld _).trans ?_)
  exact (if_neg hup).trans (if_neg hgiven)

end

/-! ### Lines the part writes itself (R237, R238) -/

/-- A home line of the LD that is no mirror copy is written by the part itself; its path is answered when the write is placed. -/
theorem State.ownWrite_home {s : State} {p ld dpa k : Nat} (hactive : s.host.memActive = true) (hline : dpa % 64 = 0)
    (hkey : s.dpaKey ld dpa = some k) (hhome : k < 2 ^ 39) (hcopy : s.mirrorCopy (ltnSeg (keyTile k)) = false) (data : Line) (poison : Bool) :
    let u : State := { s with home := { s.home with owns := s.home.owns ++ [{ first := k, count := 1, after := .path p }] } }
    s.ownWrite p ld dpa data poison
      = (u.submit { src := .own ld, op := .wrI, line := k, data := data, mask := BitVec.allOnes 64, poison := poison, at_ := s.ft }).pump := by
  have hup : ¬ (!s.host.memActive) = true := by simp [hactive]
  have hown : ¬ (2 ^ 39 ≤ k ∨ s.mirrorCopy (ltnSeg (keyTile k)) = true) := not_or_intro (Nat.not_le.mpr hhome) (ne_true_of_eq_false hcopy)
  refine (if_neg (not_not_intro hline)).trans ((if_neg hup).trans ?_)
  rw [hkey]
  exact if_neg hown

/-! ### DOE (R241, R243) -/

/-- DOE Discovery answers the protocol at an index and the next index, and past the last one none. -/
theorem exec_doeDiscovery (s : State) (ld : LdNo) (index : BitVec 8) : exec (.doeDiscovery ld index) s = .next (s.emit (.doe ld.val 0 (
    if index = 0 then [0x01, 0x00, 0x00, 0x01] else if index = 1 then [0x01, 0x00, 0x01, 0x02] else if index = 2 then [0x01, 0x00, 0x02, 0x03]
    else if index = 3 then [0x98, 0x1E, 0x02, 0x00] else [0xFF, 0xFF, 0x00, 0x00]))) := by
  by_cases h0 : index = 0
  · subst h0; rfl
  by_cases h1 : index = 1
  · subst h1; rfl
  by_cases h2 : index = 2
  · subst h2; rfl
  by_cases h3 : index = 3
  · subst h3; rfl
  have hpast : 4 ≤ index.toNat := by bv_omega
  have hnone : ([(1, 0, 1), (1, 1, 2), (1, 2, 3), (0x1E98, 2, 0)] : List (Nat × Nat × Nat)).getD index.toNat (0xFFFF, 0, 0) = (0xFFFF, 0, 0) :=
    List.getD_eq_default _ _ hpast
  rw [if_neg h0, if_neg h1, if_neg h2, if_neg h3]
  show execDoeDiscovery ld index s = _
  unfold execDoeDiscovery
  rw [hnone]
  rfl

/-! ### The statement -/

/-- Settles O17: past the checks that the request meets, its blocks, its decoder or its line are what it names. -/
theorem capacityCommandsMoveBlocks : Obligations.CapacityCommandsMoveBlocks := by
  unfold Obligations.CapacityCommandsMoveBlocks
  intro s ld
  refine ⟨?allocate, ?offer, ?accept, ?release, ?poison, ?decoder, ⟨rfl, ?reset⟩, rfl, exec_doeDiscovery s ld, rfl⟩
  case allocate => exact fun blocks hlife => exec_fmLdAllocate_grows hlife
  case offer =>
    intro region e hlife hown himports hcount hregion hend hextents hblocks hroom hfree
    exact exec_fmAddDc_offers hlife hown himports hcount hregion hend hextents hblocks hroom hfree
  case accept =>
    intro path extents o hld hready hoffer hwithin hroom
    exact ⟨_, exec_addDcResponse_accepts hld hready hoffer hwithin hroom, endPath_answer _ _ path 0x4802 .success [] rfl rfl⟩
  case release => exact fun path extents hld hready hactive => exec_releaseDc_releases hld hready hactive
  case poison =>
    intro path dpa k hld hactive hline hkey hhome hcopy own
    have hwrite (opc : Nat) (data : Line) (poison : Bool) :=
      State.ownWrite_home (s := s.kMark (.path path) opc) (p := pathNo path) hactive hline hkey hhome hcopy data poison
    exact ⟨fun hready => congrArg Host.Outcome.next ((ldRun_ready hready hld _).trans (hwrite 0x4301 0 true)),
      fun data hready => congrArg Host.Outcome.next ((ldRun_ready hready hld _).trans (hwrite 0x4302 data false))⟩
  case decoder =>
    intro d c free ok u
    exact ⟨_, rfl, rfl, mget_mset_self _ _ _ _, fun k hk => mget_mset_of_ne _ _ _ hk⟩
  case reset =>
    intro hactive hdry
    have hclear : (true && ((s.dropDecoders ld.val).dropQueues (· == ld.val)).host.memActive
        && !((s.dropDecoders ld.val).dropQueues (· == ld.val)).inDrydown) = true := by simp [hactive, hdry]
    exact if_pos hclear

end Sys2Proof.Machine
end

section
/-!
PROOFS. The lifecycle and the fuse (R219, R432): BACKGROUND_OP_END alone changes them, by a transition that waited, and a transition never
clears the fuse. That the transition is made at that row is the model's choice (log 219).
-/

namespace Sys2Proof.Machine

/-- The lifecycle and the fuse of DECOMMISSIONED. -/
def State.life (s : State) : Nat × Bool := (s.keys.lifecycle, s.keys.fuse)

theorem State.life_of_kept {s t : State} (h : t.kept = s.kept) : t.life = s.life :=
  congrArg (fun k => k.2.2.2.2.2) h

/-- A change of the board area alone leaves both. -/
theorem BoardOnly.life {s t : State} (h : BoardOnly s t) : t.life = s.life := by
  obtain ⟨b, hb, -⟩ := h
  exact State.life_of_kept (s := s.withBoard b) hb

section
variable {α : Type} {view : State → α} (hview : ∀ {s t : State}, t.kept = s.kept → view t = view s)
include hview

/-- What is read of the kept alone, a standard command leaves where what it runs does. -/
theorem State.stdRun_view (s : State) (path : MboxPath) (opc : Nat) (f : Nat → State → State) (h : ∀ p u, view (f p u) = view u) :
    view (s.stdRun path opc f) = view s := by
  have hmark : view (s.kMark (.path path) opc) = view s := hview (State.kMark_kept ..)
  unfold State.stdRun
  dsimp only
  split
  case isTrue => rfl
  case isFalse =>
    split
    · exact hview (State.emit_kept ..)
    · split
      · exact (hview (State.endPath_kept ..)).trans hmark
      · exact (h _ _).trans hmark

theorem State.ldRun_view (s : State) (path : MboxPath) (opc : Nat) (f : Nat → Nat → State → State)
    (h : ∀ p ld u, view (f p ld u) = view u) : view (s.ldRun path opc f) = view s := by
  refine State.stdRun_view hview _ _ _ _ (fun p u => ?_)
  split
  · exact h _ _ _
  · exact hview (State.endPath_kept ..)

end

/-- SET_LSA changes a label storage area and its path. -/
theorem execSetLsa_life (path : MboxPath) (off : BitVec 32) (data : List Byte) (s t : State)
    (h : execSetLsa path off data s = .next t) : t.life = s.life := by
  cases h
  refine State.ldRun_view State.life_of_kept _ _ _ _ (fun p ld u => ?_)
  split
  · exact State.life_of_kept (State.endPath_kept ..)
  · exact (State.life_of_kept (State.endPath_kept ..)).trans rfl

/-- SET_SHUTDOWN_STATE changes a shutdown state and its path. -/
theorem execSetShutdownState_life (path : MboxPath) (st : BitVec 8) (s t : State)
    (h : execSetShutdownState path st s = .next t) : t.life = s.life := by
  cases h
  exact State.ldRun_view State.life_of_kept _ _ _ _ (fun p ld u => (State.life_of_kept (State.endPath_kept ..)).trans rfl)

/-- BACKGROUND_OP_END leaves both, or makes a transition: the fuse is blown where it was or where the new lifecycle is DECOMMISSIONED. -/
theorem execBackgroundOpEnd_moves (path : MboxPath) (ok : Bool) (s t : State) (h : execBackgroundOpEnd path ok s = .next t) :
    t.life = s.life ∨ ∃ l, t.life = (l, s.keys.fuse || decide (l = 3)) := by
  obtain hk | ⟨l, hl⟩ := execBackgroundOpEnd_life path ok s t h
  · exact .inl (State.life_of_kept hk)
  · exact .inr ⟨l, State.life_of_kept (s := s.withLife l _) hl⟩

/-- Every other command leaves both. -/
theorem exec_life (c : Instr) (s t : State) (h : exec c s = .next t) (hc : ∀ path ok, c ≠ .backgroundOpEnd path ok) : t.life = s.life := by
  cases hk : keepsAll c with
  | true => exact State.life_of_kept (exec_keeps c s hk t h)
  | false =>
    cases c with
    | wealiPageWriteEnd page bad1 bad2 => exact (execWealiPageWriteEnd_board page bad1 bad2 s t h).life
    | quiesceEnd => exact (execQuiesceEnd_board s t h).life
    | setLsa path off data => exact execSetLsa_life path off data s t h
    | setShutdownState path st => exact execSetShutdownState_life path st s t h
    | backgroundOpEnd path ok => exact absurd rfl (hc path ok)
    | _ => cases hk

/-- A command leaves lifecycle and fuse, or it is a BACKGROUND_OP_END that makes a transition. -/
theorem exec_life_or_moves (c : Instr) (s t : State) (h : exec c s = .next t) :
    t.life = s.life ∨ (∃ path ok, c = .backgroundOpEnd path ok) ∧ ∃ l, t.life = (l, s.keys.fuse || decide (l = 3)) := by
  by_cases hc : ∃ path ok, c = .backgroundOpEnd path ok
  · obtain ⟨path, ok, rfl⟩ := hc
    exact (execBackgroundOpEnd_moves path ok s t h).imp_right (fun hl => ⟨⟨path, ok, rfl⟩, hl⟩)
  · exact .inl (exec_life c s t h (fun path ok e => hc ⟨path, ok, e⟩))

/-- Settles O9: what a command leaves has not moved, and a transition adds to the fuse alone that it goes to DECOMMISSIONED. -/
theorem theFuseIsPermanent : Obligations.TheFuseIsPermanent := by
  unfold Obligations.TheFuseIsPermanent
  intro c s t h
  obtain hsame | ⟨⟨path, ok, rfl⟩, l, hmoved⟩ := exec_life_or_moves c s t h
  · obtain ⟨hlife, hfuse⟩ := Prod.mk.inj hsame
    refine ⟨hfuse.trans, fun hold hnew => ?_, fun _ => ⟨hlife, hfuse⟩⟩
    exact absurd (hold.symm.trans (hfuse.symm.trans hnew)) Bool.false_ne_true
  · obtain ⟨hlife, hfuse⟩ := Prod.mk.inj hmoved
    refine ⟨fun hold => ?_, fun hold hnew => ?_, fun hc => absurd rfl (hc path ok)⟩
    · rw [hfuse, hold, Bool.true_or]
    · rw [hfuse, hold, Bool.false_or, decide_eq_true_eq] at hnew
      exact hlife.trans hnew

end Sys2Proof.Machine
end

section
/-!
PROOFS. Events of the host heads (spec/08, R205; spec/09): resets, links, sessions and IDE keys. The model's own choices are that an in-band
hot reset ends at once (log 221), that a head whose IDE stream failed needs a fresh key (log 222), when GPF Phase 2 is acknowledged
(log 223), and that an unanswered BISnp resets its head whatever FT is (log 3).
-/

namespace Sys2Proof.Machine

/-- A head's own state is what it was changed to. -/
theorem State.head_modHead (s : State) (h : Nat) (f : HeadSt → HeadSt) :
    mget {} (s.modHead h f).host.heads h = f (mget {} s.host.heads h) :=
  mget_mset_self _ _ _ _

/-- Taking one bit out of a word leaves the others. -/
theorem getLsbD_clearBit {w : Nat} (x : BitVec w) (i j : Nat) : (x &&& ~~~(1#w <<< i)).getLsbD j = (x.getLsbD j && !(j == i)) := by
  by_cases hj : j < w
  · by_cases hij : j = i
    · subst hij
      simp [hj]
    · have hother : (1#w <<< i).getLsbD j = false := by
        simp only [BitVec.getLsbD_shiftLeft, BitVec.getLsbD_one, Bool.and_eq_false_imp, decide_eq_false_iff_not, Bool.and_eq_true,
          Bool.not_eq_true', decide_eq_true_eq]
        omega
      rw [BitVec.getLsbD_and, BitVec.getLsbD_not, hother]
      simp [hj, hij]
  · simp [BitVec.getLsbD_of_ge x j (Nat.not_lt.mp hj)]

/-- A head that exists, is out of reset, is not up and has its reference clock comes up (R241). -/
theorem exec_headLinkUp_comesUp {s : State} {h : HeadNo} (hexists : s.headExists h.val = true)
    (hreset : s.flag (Reg.HP_HEAD_STAT.IN_RESET h.val) = false) (hdown : s.headUp h.val = false) (hmail : s.host.mailbox = true)
    (hclock : s.host.refAbsent.getLsbD (h.val / 2) = false) (width : BitVec 5) (rate : BitVec 3) (flit : Bool) :
    let u := (s.raise (Reg.HP_HEAD_STAT.LINK_UP h.val)).setF (Reg.HP_HEAD_STAT.WIDTH h.val) width.toNat
    let u := (u.setF (Reg.HP_HEAD_STAT.RATE h.val) rate.toNat).setFlag (Reg.HP_HEAD_STAT.FLIT256 h.val) flit
    exec (.headLinkUp h width rate flit) s = .next (if width.toNat < u.headWidth h.val then
      u.event { mkEv .warning (h.val / 2) h.val .changed with detail := [width.toNat] } none else u) := by
  have hready : ¬ (!s.headExists h.val || s.flag (Reg.HP_HEAD_STAT.IN_RESET h.val) || s.headUp h.val || !s.host.mailbox
      || s.host.refAbsent.getLsbD (h.val / 2)) = true := by
    simp [hexists, hreset, hdown, hmail, hclock]
  exact if_neg hready

/-- A key exchange opens a session in the place of one of its number; with sixteen open it is refused (R205, R241). -/
theorem exec_spdmKeyExchange_unwiped {s : State} (hwiped : s.keys.wiped = false) (at_ : DoeOn) (id : BitVec 32) (withMutual : Bool)
    (secret : BitVec 256) :
    exec (.spdmKeyExchange at_ id withMutual secret) s = .next (
      if s.keys.sessions.length < 16 then
        { s with
          keys := { s.keys with sessions := s.keys.sessions.filter (fun x => !(x.id == id))
            ++ [{ id := id, at_ := at_, withMutual := withMutual, secret := secret }] }
          out := s.out ++ [.spdm id true] }
      else { s with out := s.out ++ [.spdm id false] }) := by
  by_cases hroom : s.keys.sessions.length < 16
  · have hopen : ¬ (16 ≤ s.keys.sessions.length || s.keys.wiped) = true := by simp [hroom, hwiped]
    exact (if_neg hopen).trans (congrArg Host.Outcome.next (if_pos hroom).symm)
  · have hfull : (16 ≤ s.keys.sessions.length || s.keys.wiped) = true := by simp [Nat.not_lt.mp hroom]
    exact (if_pos hfull).trans (congrArg Host.Outcome.next (if_neg hroom).symm)

/-- A key programmed through an open session stands by where IDE is active, and takes effect where it is not (R205, R246). -/
theorem exec_ideKmKeyProg_open {s : State} {id : BitVec 32} (hopen : ∃ x ∈ s.keys.sessions, x.id = id) (hwiped : s.keys.wiped = false)
    (h : HeadNo) (key : BitVec 256) :
    exec (.ideKmKeyProg id h key) s = .next (
      if s.flag (Reg.HP_HEAD_STAT.IDE_ACTIVE h.val) then s.modHead h.val (fun x => { x with standby := some key })
      else (s.modHead h.val (fun x => { x with key := some key, ideNeeded := false })).raise (Reg.HP_HEAD_STAT.IDE_ACTIVE h.val)) := by
  have hmay : ¬ (!s.keys.sessions.any (fun x => x.id == id) || s.keys.wiped) = true := by simpa [hwiped] using hopen
  exact (if_neg hmay).trans (apply_ite Host.Outcome.next _ _ _).symm

/-- Settles O18: each event passes its guard, and what is left is its effect. -/
theorem headEventsTakeEffect : Obligations.HeadEventsTakeEffect := by
  unfold Obligations.HeadEventsTakeEffect
  intro s h
  refine ⟨?unanswered, ?ideFails, ?hotReset, ?linkUp, ?gpf, ?assert, ?release, ?clock, ?exchange, fun _ => rfl, ?key⟩
  case unanswered =>
    intro tag n hout u v
    show execBisnpTimeout h tag s = _
    unfold execBisnpTimeout
    rw [hout]
  case ideFails =>
    intro hactive u
    have hon : ¬ (!s.flag (Reg.HP_HEAD_STAT.IDE_ACTIVE h.val)) = true := by simp [hactive]
    exact ⟨_, if_neg hon, rfl, congrArg HeadSt.ideNeeded (State.head_modHead _ _ _)⟩
  case hotReset =>
    intro hexists hout
    exact congrArg Host.Outcome.next (State.when_of (by simp [hexists, hout]) _)
  case linkUp =>
    intro width rate flit hexists hreset hdown hmail hclock
    exact exec_headLinkUp_comesUp hexists hreset hdown hmail hclock width rate flit
  case gpf => exact fun hup => congrArg Host.Outcome.next (State.when_of hup _)
  case assert =>
    intro p hhigh
    have hnew : ¬ (!s.host.perst.getLsbD p.val) = true := by simp [hhigh]
    exact if_neg hnew
  case release =>
    intro p hlow
    exact if_neg (ne_true_of_eq_false hlow)
  case clock =>
    intro w
    refine ⟨_, rfl, rfl, fun i => ?_⟩
    cases w <;> exact getLsbD_clearBit _ _ _
  case exchange =>
    intro at_ id withMutual secret hwiped
    refine ⟨_, exec_spdmKeyExchange_unwiped hwiped at_ id withMutual secret, ?_⟩
    split
    · exact ⟨rfl, rfl⟩
    · rfl
  case key =>
    intro id key hopen hwiped
    refine ⟨_, exec_ideKmKeyProg_open hopen hwiped h key, ?_⟩
    split <;> rfl

end Sys2Proof.Machine
end

section
/-!
PROOFS. Events of the Dorosh links (spec/08, R221, R222; spec/11): each is its guard and then its effect. That a handshake's timeout, the
loss of HELLO and a replay's timeout take effect whatever FT is is the model's choice (log 3), and so is what is routed again when a link
goes DOWN (log 218).
-/

namespace Sys2Proof.Machine

/-- Settles O32: the condition that each event names is the one that its row looks for. -/
theorem linkEventsTakeEffect : Obligations.LinkEventsTakeEffect := by
  unfold Obligations.LinkEventsTakeEffect
  intro s k
  dsimp only
  -- an event whose condition holds answers its effect
  have hdone {c : Bool} {f : State → State} (hc : c = true) : (Host.Outcome.next (s.when c f) : Res) = .next (f s) :=
    congrArg Host.Outcome.next (State.when_of hc f)
  refine ⟨hdone, ?renewal, fun htags => hdone (decide_eq_true htags), ?signal, ?trained, hdone, ?replay,
    fun hslots => hdone (decide_eq_true hslots)⟩
  case renewal =>
    intro hup hidle hold
    exact hdone (by simpa [hup, hidle] using hold)
  case signal =>
    intro hdown hen hmail hclock hwiped
    exact hdone (by rw [hdown, hen, hmail, hclock, hwiped]; rfl)
  case trained =>
    intro htraining
    exact ⟨hdone (beq_iff_eq.mpr htraining), hdone (beq_iff_eq.mpr htraining)⟩
  case replay =>
    intro hup hkept
    exact hdone (by simp [hup, hkept])

end Sys2Proof.Machine
end

section
/-!
PROOFS. Frames between two ends of a Dorosh link (spec/08, R222; spec/11): HANDSHAKE, HELLO, LSA, NULL and MGMT, each on a link that takes
it. How their bodies are packed (log 216), when HELLO leaves (log 217) and that the frames of a first handshake are taken before any tag is
checked (log 218) are the model's choice.
-/

namespace Sys2Proof.Machine

/-! ### OFFER (R222) -/

/-- An offer of version 1 is the peer's, in the handshake under way or in one that it begins; the device's proof follows once both offers
are known. -/
theorem exec_offer_known {s u : State} {f : Frame} {b : OfferBody} (htaken : s.hsTake f 9 b.bytes = (true, u)) (hversion : b.version = 1) :
    let k := f.link.val
    let v := (if (u.link k).hs.isSome then u else u.startHs k ((u.link k).keyed)).modHs k (fun h => { h with peer := some b })
    exec (.offer f b) s = .next (match (v.link k).hs.bind Handshake.transcript with
      | some t => v.sendProof k t
      | none => v) := by
  intro k v
  show execOffer f b s = _
  unfold execOffer
  dsimp only
  rw [htaken]
  refine (if_neg (not_not_intro hversion)).trans ?_
  show (match (v.link k).hs.bind Handshake.transcript with
    | some t => .next (v.sendProof k t)
    | none => .next v : Res) = _
  cases (v.link k).hs.bind Handshake.transcript <;> rfl

/-- An offer of another version ends the handshake. -/
theorem exec_offer_otherVersion {s u : State} {f : Frame} {b : OfferBody} (htaken : s.hsTake f 9 b.bytes = (true, u))
    (hversion : b.version ≠ 1) : exec (.offer f b) s = .next (u.abortHs f.link.val 3) := by
  show execOffer f b s = _
  unfold execOffer
  dsimp only
  rw [htaken]
  exact if_pos hversion

/-! ### PROOF (R222) -/

/-- A part of a proof as its frame carries it. -/
def proofBytes (b : ProofBody) : List Byte :=
  [2#8, b.frag, b.count, BitVec.ofNat 8 (b.part.length / 256), BitVec.ofNat 8 b.part.length] ++ List.replicate 11 0#8 ++ b.part

/-- The parts of the peer's proof that are held once one more has come. -/
def Handshake.partsWith (h : Handshake) (b : ProofBody) : List (Nat × List Byte) :=
  (h.frags.filter (fun x => x.1 != b.frag.toNat)) ++ [(b.frag.toNat, b.part)]

/-- The first `n` parts put together. -/
def proofOf (parts : List (Nat × List Byte)) (n : Nat) : List Byte :=
  (List.range n).flatMap (fun i => ((parts.find? (fun x => x.1 == i)).map (·.2)).getD [])

/-- The state with the parts held at a link. -/
def State.holdParts (s : State) (k : Nat) (parts : List (Nat × List Byte)) : State := s.modHs k (fun h => { h with frags := parts })

/-- A handshake whose two confirmations are known gives the link its new keys; after a first handshake HELLO follows (R222, R282). -/
def State.keysTaken (s : State) (k : Nat) (h : Handshake) : State :=
  let x := s.modLink k (fun l => { l with keyed := true, hs := none, keySlots := 0 })
  if h.renewal then x else x.sendHello k

/-- A good proof is confirmed, with sequence numbers that start again; the peer's CONFIRM may have come first. -/
def State.proofGood (s : State) (k : Nat) (h : Handshake) : State :=
  let w := ((s.modHs k (fun h => { h with confirmed := true })).modLink k (fun l => { l with txSeq := 0, frames := 0 })).sendHs k
    (3#8 :: List.replicate 15 0#8)
  if h.gotConfirm then w.keysTaken k h else w

/-- What the check of the peer's proof found: a good one is confirmed, a bad one ends the handshake. -/
def State.proofVerdict (s : State) (k : Nat) (h : Handshake) (verdict : Nat) : State :=
  if verdict = 0 then s.proofGood k h else s.abortHs k (if verdict = 1 then 1 else 2)

/-- A part within its bounds is kept; with the last one the proof is checked, where both offers are known. -/
theorem exec_proof_taken {s u : State} {f : Frame} {b : ProofBody} {h : Handshake}
    (htaken : s.hsTake f (1 + (b.part.length + 15) / 16) (proofBytes b) = (true, u)) (hunder : (u.link f.link.val).hs = some h)
    (hopen : h.confirmed = false) (hfrag : b.frag.toNat < b.count.toNat) (hcount : b.count.toNat ≤ 32) (hlen : b.part.length ≤ 272) :
    let v := u.holdParts f.link.val (h.partsWith b)
    exec (.proof f b) s = .next (if (h.partsWith b).length < b.count.toNat then v else h.transcript.elim v (fun t =>
      v.proofVerdict f.link.val h (Config.proofCheck (proofOf (h.partsWith b) b.count.toNat) t))) := by
  intro v
  have hwell : ¬ (b.count.toNat = 0 ∨ 32 < b.count.toNat ∨ b.count.toNat ≤ b.frag.toNat ∨ 272 < b.part.length ∨ h.confirmed = true) := by
    simp only [hopen, Bool.false_eq_true, or_false]
    omega
  unfold proofBytes at htaken
  show execProof f b s = _
  unfold execProof
  dsimp only
  rw [htaken]
  dsimp only
  rw [hunder]
  refine (if_neg hwell).trans ?_
  by_cases hmore : (h.partsWith b).length < b.count.toNat
  · exact (if_pos hmore).trans (congrArg Host.Outcome.next (if_pos hmore).symm)
  refine (if_neg hmore).trans (Eq.trans ?_ (congrArg Host.Outcome.next (if_neg hmore).symm))
  cases h.transcript with
  | none => rfl
  | some t =>
    show (match Config.proofCheck (proofOf (h.partsWith b) b.count.toNat) t with | 0 => _ | 1 => _ | _ => _ : Res)
      = .next (v.proofVerdict f.link.val h (Config.proofCheck (proofOf (h.partsWith b) b.count.toNat) t))
    match Config.proofCheck (proofOf (h.partsWith b) b.count.toNat) t with
    | 0 => exact (apply_ite Host.Outcome.next _ _ _).symm
    | 1 => rfl
    | _ + 2 => rfl

/-! ### CONFIRM (R222) -/

/-- The peer's CONFIRM under the new keys: the link takes them where the device has confirmed too, and else the CONFIRM is noted. -/
theorem exec_confirm_sound {s : State} {f : Frame} {h : Handshake} (hunder : (s.link f.link.val).hs = some h) (hpeer : h.peer.isSome = true)
    (htype : f.hf 24 4 = 2) (hvc : f.hf 28 3 = 4) (hseq : f.hf 48 16 = 0) (htag : f.tagOk = true) :
    let v := (s.modLink f.link.val (fun l => { l with rxSeq := 1 })).count 11 1 48
    exec (.confirm f) s = .next (if h.confirmed then v.keysTaken f.link.val h
      else v.modHs f.link.val (fun h => { h with gotConfirm := true })) := by
  intro v
  have hsound : ¬ (h.peer.isNone = true ∨ f.hf 24 4 ≠ 2 ∨ f.hf 28 3 ≠ 4 ∨ f.hf 48 16 ≠ 0) := by
    simp [Option.isSome_iff_ne_none.mp hpeer, htype, hvc, hseq]
  have htagged : ¬ (!f.tagOk) = true := by simp [htag]
  show execConfirm f s = _
  unfold execConfirm
  dsimp only
  rw [hunder]
  exact (if_neg hsound).trans ((if_neg htagged).trans (apply_ite Host.Outcome.next _ _ _).symm)

/-! ### HELLO (R282) -/

/-- What a HELLO carries, packed in the order of its fields (log 216). -/
def helloBits (b : HelloBody) : Nat :=
  b.node.toNat + b.uid.toNat * 2 ^ 12 + b.view.toNat * 2 ^ 76 + b.ownLink.val * 2 ^ 108 + b2n b.leaving * 2 ^ 111

/-- The neighbour that a HELLO names. -/
def State.neighbour (s : State) (k : Nat) (b : HelloBody) : State :=
  ((s.setF (Reg.DF_LINK.NEIGHBOUR k) b.node.toNat).setF (Reg.DF_LINK.NEIGH_LINK k) b.ownLink.val).modLink k
    (fun l => { l with neighUid := b.uid.toNat })

/-- The link comes UP: the device floods its own link state, and sends the neighbour what it knows of the others (R282, R288). -/
def State.linkComesUp (s : State) (k : Nat) : State :=
  let w := (s.setF (Reg.DF_LINK.STATE k) 3).floodLsa
  ((w.fabric.lsdb.foldl (fun (s : State) a => if a.uid = Config.uid then s else s.sendLink k 0xFFF 1 4 1 a.len a.bits) w).graphCheck).computeRoutes

/-- A HELLO that is not ahead of the link's first keys names the neighbour; the first one of another node brings the link UP. -/
theorem exec_hello_taken {s u : State} {f : Frame} {b : HelloBody} (htaken : s.linkAccept f 0 [4] 1 (helloBits b) = (true, u))
    (hkeyed : ¬ (u.getF (Reg.DF_LINK.STATE f.link.val) = 2 ∧ (u.link f.link.val).keyed = false)) :
    let v := u.neighbour f.link.val b
    exec (.hello f b) s = .next (if b.uid ≠ Config.uid ∧ u.getF (Reg.DF_LINK.STATE f.link.val) = 2 then v.linkComesUp f.link.val else v) := by
  intro v
  unfold helloBits at htaken
  have hmay : ¬ (u.getF (Reg.DF_LINK.STATE f.link.val) = 2 ∧ (!(u.link f.link.val).keyed) = true) := by simpa using hkeyed
  show execHello f b s = _
  unfold execHello
  dsimp only
  rw [htaken]
  refine (if_neg hmay).trans ?_
  by_cases hself : b.uid = Config.uid
  · exact (if_pos hself).trans (congrArg Host.Outcome.next (if_neg (fun h => h.1 hself)).symm)
  · by_cases hfirst : u.getF (Reg.DF_LINK.STATE f.link.val) = 2
    · exact (if_neg hself).trans ((if_pos hfirst).trans (congrArg Host.Outcome.next (if_pos ⟨hself, hfirst⟩).symm))
    · exact (if_neg hself).trans ((if_neg hfirst).trans (congrArg Host.Outcome.next (if_neg (fun h => hfirst h.2)).symm))

/-! ### LSA (R288) -/

/-- A link state is newer than the one held of its node, if one is. -/
def State.lsaNewer (s : State) (b : LsaBody) : Bool :=
  (s.fabric.lsdb.find? (fun a => a.uid == b.uid)).all (fun a => decide (0 < (b.seq - a.seq).toNat) && decide ((b.seq - a.seq).toNat < 2 ^ 31))

theorem State.lsaNewer_iff {s : State} {b : LsaBody} : s.lsaNewer b = true ↔
    ∀ a, s.fabric.lsdb.find? (fun a => a.uid == b.uid) = some a → 0 < (b.seq - a.seq).toNat ∧ (b.seq - a.seq).toNat < 2 ^ 31 := by
  simp only [State.lsaNewer, Option.all_eq_true, Bool.and_eq_true, decide_eq_true_eq]

/-- Another node's newer link state is stored, passed on and routed by; any other has no effect. -/
theorem exec_lsa_taken {s u : State} {f : Frame} {b : LsaBody} (htaken : s.linkAccept f 1 [4] b.len b.bits = (true, u)) :
    exec (.lsa f b) s = if b.uid = Config.uid ∨ (!u.lsaNewer b) = true then .next u
      else .next (((u.storeLsa b).sendLsa b (some f.link.val)).graphCheck.computeRoutes).redirect.pump := by
  show execLsa f b s = _
  unfold execLsa State.lsaNewer
  rw [htaken]
  dsimp only
  cases u.fabric.lsdb.find? (fun a => a.uid == b.uid) <;> rfl

/-! ### The statement -/

/-- Settles O31: on a link that takes the frame, what its row looks for is what the statement names. -/
theorem frameMessagesTakeEffect : Obligations.FrameMessagesTakeEffect := by
  unfold Obligations.FrameMessagesTakeEffect
  intro s u f k
  refine ⟨?offer, ?proof, ?confirm, ?abort, ?hello, ?null, ?lsa, ?mgmt⟩
  case offer => exact fun b htaken => ⟨exec_offer_known htaken, exec_offer_otherVersion htaken⟩
  case proof =>
    intro b h head htaken hunder hopen hfrag hcount hlen fr v d
    have hproof := exec_proof_taken htaken hunder hopen hfrag hcount hlen
    refine ⟨fun hmore => hproof.trans (congrArg Host.Outcome.next (if_pos hmore)), fun t hall hoffers => ?_⟩
    have hchecked := hproof.trans (congrArg Host.Outcome.next (if_neg (Nat.not_lt.mpr hall)))
    rw [hoffers] at hchecked
    exact ⟨fun hgood => hchecked.trans (congrArg Host.Outcome.next (if_pos hgood)),
      fun hbad => hchecked.trans (congrArg Host.Outcome.next (if_neg hbad))⟩
  case confirm =>
    exact fun h hunder hpeer htype hvc hseq htag => exec_confirm_sound hunder hpeer htype hvc hseq htag
  case abort =>
    intro r htaken
    show execAbort f r s = _
    unfold execAbort
    rw [htaken]
  case hello =>
    intro b htaken st hkeyed
    exact exec_hello_taken htaken hkeyed
  case null =>
    intro v b hanswer
    show (Host.Outcome.next (s.linkAccept f 8 [0, 1, 2, 3, 4] 0 0).2 : Res) = _
    rw [hanswer]
  case lsa =>
    intro b htaken newer
    have hnewer : u.lsaNewer b = true ↔ newer := State.lsaNewer_iff
    refine ⟨fun hother hnew => (exec_lsa_taken htaken).trans (if_neg ?_), fun hold => (exec_lsa_taken htaken).trans (if_pos ?_)⟩
    · simp [hother, hnewer.mpr hnew]
    · simpa [← hnewer] using hold
  case mgmt =>
    intro p htaken hother
    show execMgmt f p s = _
    unfold execMgmt
    rw [htaken]
    exact if_pos hother

end Sys2Proof.Machine
end

section
/-!
PROOFS. The shutdown state (spec/09, R240): SET_SHUTDOWN_STATE alone records one, and recording changes nothing that persists. That no start
and no loss of the rails or of the always-on domain changes a recorded state is the model's choice (log 235).
-/

namespace Sys2Proof.Machine

/-! ### Who records one -/

/-- The recorded shutdown states are among what hardly any command changes. -/
theorem State.shutdown_of_kept {s t : State} (h : t.kept = s.kept) : t.host.shutdown = s.host.shutdown :=
  congrArg (fun k => k.2.2.2.1) h

/-- A change of the board area alone leaves them. -/
theorem BoardOnly.shutdown {s t : State} (h : BoardOnly s t) : t.host.shutdown = s.host.shutdown := by
  obtain ⟨b, hb, -⟩ := h
  exact State.shutdown_of_kept (s := s.withBoard b) hb

/-- SET_LSA changes a label storage area and its path. -/
theorem execSetLsa_shutdown {path : MboxPath} {off : BitVec 32} {data : List Byte} {s t : State}
    (h : execSetLsa path off data s = .next t) : t.host.shutdown = s.host.shutdown := by
  cases h
  refine State.ldRun_view (view := fun s => s.host.shutdown) State.shutdown_of_kept _ _ _ _ (fun p ld u => ?_)
  split
  · exact State.shutdown_of_kept (State.endPath_kept ..)
  · exact (State.shutdown_of_kept (State.endPath_kept ..)).trans rfl

/-- BACKGROUND_OP_END changes the lifecycle and the fuse at most. -/
theorem execBackgroundOpEnd_shutdown {path : MboxPath} {ok : Bool} {s t : State} (h : execBackgroundOpEnd path ok s = .next t) :
    t.host.shutdown = s.host.shutdown := by
  obtain hk | ⟨l, hl⟩ := execBackgroundOpEnd_life path ok s t h
  · exact State.shutdown_of_kept hk
  · exact State.shutdown_of_kept (s := s.withLife l _) hl

/-- Every command but SET_SHUTDOWN_STATE leaves them. -/
theorem exec_shutdown {c : Instr} {s t : State} (h : exec c s = .next t) (hc : ∀ path st, c ≠ .setShutdownState path st) :
    t.host.shutdown = s.host.shutdown := by
  cases hk : keepsAll c with
  | true => exact State.shutdown_of_kept (exec_keeps c s hk t h)
  | false =>
    cases c with
    | wealiPageWriteEnd page bad1 bad2 => exact (execWealiPageWriteEnd_board page bad1 bad2 s t h).shutdown
    | quiesceEnd => exact (execQuiesceEnd_board s t h).shutdown
    | backgroundOpEnd path ok => exact execBackgroundOpEnd_shutdown h
    | setLsa path off data => exact execSetLsa_shutdown h
    | setShutdownState path st => exact absurd rfl (hc path st)
    | _ => cases hk

/-! ### What recording one leaves -/

/-- What the device keeps besides its host's records: the register words, the map, the cache, the keys, the Weali store, the label areas,
the patrol and the power state. -/
def State.persists (s : State) : SMap Nat × MapSt × Cache × Keys × WealiSt × SMap Memory × Patrol × PowerSt :=
  (s.words, s.map, s.cache, s.keys, s.weali, s.host.lsa, s.patrol, s.power)

theorem State.persists_eq_iff {s t : State} : t.persists = s.persists ↔ t.words = s.words ∧ t.map = s.map ∧ t.cache = s.cache
    ∧ t.keys = s.keys ∧ t.weali = s.weali ∧ t.host.lsa = s.host.lsa ∧ t.patrol = s.patrol ∧ t.power = s.power := by
  simp only [State.persists, Prod.mk.injEq]

/-- The answer of a path changes the path, the output and the histograms. -/
@[simp] theorem State.endPath_persists (s : State) (p : Nat) (rc : Rc) (payload : List Byte) :
    (s.endPath p rc payload).persists = s.persists := by
  unfold State.endPath
  dsimp only
  split
  · rfl
  · split
    · rfl
    · split <;> rfl

/-- A standard command of an LD leaves it where what the command runs does. -/
theorem State.ldRun_persists (s : State) (path : MboxPath) (opc : Nat) (f : Nat → Nat → State → State)
    (h : ∀ p ld u, (f p ld u).persists = u.persists) : (s.ldRun path opc f).persists = s.persists := by
  have hmark : (s.kMark (.path path) opc).persists = s.persists := rfl
  unfold State.ldRun State.stdRun
  dsimp only
  split
  · rfl
  · split
    · rfl
    · split
      · exact (State.endPath_persists ..).trans hmark
      · split
        · exact (h _ _ _).trans hmark
        · exact (State.endPath_persists ..).trans hmark

/-- SET_SHUTDOWN_STATE changes a shutdown state and its path. -/
theorem execSetShutdownState_persists {path : MboxPath} {st : BitVec 8} {s t : State} (h : execSetShutdownState path st s = .next t) :
    t.persists = s.persists := by
  cases h
  exact State.ldRun_persists _ _ _ _ (fun p ld u => (State.endPath_persists ..).trans rfl)

/-- Settles O8: the other commands leave the recorded states, and SET_SHUTDOWN_STATE leaves what persists. -/
theorem shutdownStateIsRecordedOnly : Obligations.ShutdownStateIsRecordedOnly := by
  unfold Obligations.ShutdownStateIsRecordedOnly
  intro c s t h
  refine ⟨exec_shutdown h, ?_⟩
  rintro path st rfl
  exact State.persists_eq_iff.mp (execSetShutdownState_persists h)

end Sys2Proof.Machine
end

section
/-!
PROOFS. The standard commands that read (spec/16, R395; spec/09, R235, R238, R240, R247; spec/21, R503): on a ready path a command runs and
answers, and the entry of its path, which is all that running it changes, is no part of what it reads. Where the regions of dynamic capacity
begin (log 17) and what the standard's own parts of a payload are (log 6) are the model's choices.
-/

namespace Sys2Proof.Machine

/-! ### Answers on a ready path (R394, R395) -/

/-- On a ready path a standard command that changes `s` into `v` and ends in an answer answers `v`: the marking of its path is undone. -/
theorem stdRun_answers {s u v : State} {path : MboxPath} {opc : Nat} {f : Nat → State → State} {rc : Rc} {payload : List Byte}
    (hready : s.pathReady path opc = true) (hrun : f (pathNo path) (s.kMark (.path path) opc) = u.endPath (pathNo path) rc payload)
    (hu : u = { v with host := { v.host with mbox := u.host.mbox } }) (hm : u.host.mbox = (v.kMark (.path path) opc).host.mbox) :
    ∃ t, (.next (s.stdRun path opc f) : Res) = .next t ∧ v.MboxAnswer t path opc rc payload := by
  rw [stdRun_ready hready, hrun]
  exact ⟨_, rfl, endPath_answer v u path opc rc payload hu hm⟩

/-- The same of a standard command of an LD. -/
theorem ldRun_answers {s u v : State} {path : MboxPath} {opc ld : Nat} {f : Nat → Nat → State → State} {rc : Rc} {payload : List Byte}
    (hready : s.pathReady path opc = true) (hld : pathLd path = some ld)
    (hrun : f (pathNo path) ld (s.kMark (.path path) opc) = u.endPath (pathNo path) rc payload)
    (hu : u = { v with host := { v.host with mbox := u.host.mbox } }) (hm : u.host.mbox = (v.kMark (.path path) opc).host.mbox) :
    ∃ t, (.next (s.ldRun path opc f) : Res) = .next t ∧ v.MboxAnswer t path opc rc payload := by
  rw [ldRun_ready hready hld, hrun]
  exact ⟨_, rfl, endPath_answer v u path opc rc payload hu hm⟩

/-- A standard command that reads ends in an answer of the marked state itself, and so answers the state it came in. -/
theorem stdRun_reads {s : State} {path : MboxPath} {opc : Nat} {f : Nat → State → State} {payload : List Byte}
    (hready : s.pathReady path opc = true)
    (hrun : f (pathNo path) (s.kMark (.path path) opc) = (s.kMark (.path path) opc).endPath (pathNo path) .success payload) :
    ∃ t, (.next (s.stdRun path opc f) : Res) = .next t ∧ s.MboxAnswer t path opc .success payload :=
  stdRun_answers hready hrun rfl rfl

/-- The same of a standard command of an LD. -/
theorem ldRun_reads {s : State} {path : MboxPath} {opc ld : Nat} {f : Nat → Nat → State → State} {payload : List Byte}
    (hld : pathLd path = some ld) (hready : s.pathReady path opc = true)
    (hrun : f (pathNo path) ld (s.kMark (.path path) opc) = (s.kMark (.path path) opc).endPath (pathNo path) .success payload) :
    ∃ t, (.next (s.ldRun path opc f) : Res) = .next t ∧ s.MboxAnswer t path opc .success payload :=
  ldRun_answers hready hld hrun rfl rfl

/-! ### Reads that check what they are asked for (R238, R395) -/

section
variable {s : State} {path : MboxPath}

/-- The message limit is read on the management bus. -/
theorem exec_getResponseMessageLimit_mgmt (hready : s.pathReady path 0x0003 = true) (hmgmt : mgmtPath path = true) :
    ∃ t, exec (.getResponseMessageLimit path) s = .next t
      ∧ s.MboxAnswer t path 0x0003 .success (leBytes (mget 16 s.host.msgLimit (pathNo path)) 1) :=
  stdRun_reads hready (if_pos hmgmt)

/-- A part of the sillage log of 64 KiB at most is read. -/
theorem exec_getLog_sillage {off len : BitVec 32} (hready : s.pathReady path 0x0401 = true) (hend : off.toNat + len.toNat ≤ s.sillLog.length)
    (hlen : len.toNat ≤ 65536) :
    ∃ t, exec (.getLog path .sillage off len) s = .next t
      ∧ s.MboxAnswer t path 0x0401 .success ((s.sillLog.drop off.toNat).take len.toNat) :=
  stdRun_reads hready (if_neg (not_or_intro (Nat.not_lt.mpr hend) (Nat.not_lt.mpr hlen)))

variable {ld : Nat} (hld : pathLd path = some ld)
include hld

/-- A part of the label storage area of 64 KiB at most is read. -/
theorem exec_getLsa_within {off len : BitVec 32} (hready : s.pathReady path 0x4102 = true) (hend : off.toNat + len.toNat ≤ 131072)
    (hlen : len.toNat ≤ 65536) :
    ∃ t, exec (.getLsa path off len) s = .next t ∧ s.MboxAnswer t path 0x4102 .success
      ((List.range len.toNat).map (fun i => memByte (mget [] s.host.lsa ld) (off.toNat + i))) :=
  ldRun_reads hld hready (if_neg (not_or_intro (Nat.not_lt.mpr hend) (Nat.not_lt.mpr hlen)))

/-- The poisoned lines of a range that begins at a line are read. -/
theorem exec_getPoisonList_line {dpa len : BitVec 64} (hready : s.pathReady path 0x4300 = true) (hline : dpa.toNat % 64 = 0) :
    let l := s.linesIn ld dpa.toNat len.toNat (s.host.poisonList.map (·.line))
    ∃ t, exec (.getPoisonList path dpa len) s = .next t ∧ s.MboxAnswer t path 0x4300 .success
      (leBytes (b2n s.host.poisonOver) 1 ++ leBytes s.host.poisonOverAt 8 ++ leBytes l.length 2 ++ l.flatMap (fun a => leBytes a 8)) :=
  ldRun_reads hld hready (if_neg (not_not_intro hline))

end

/-- Settles O13: past its own checks each command is its answer, and the payload reads the same where its path is marked. -/
theorem mailboxReadsAnswerAndChangeNothing : Obligations.MailboxReadsAnswerAndChangeNothing := by
  unfold Obligations.MailboxReadsAnswerAndChangeNothing
  intro s path opc c payload hready hcase
  obtain hidentify | hlimit | hevents | hpolicy | hfw | htime | hlogs | hlog | hhealth | ⟨ld, hld, hcase⟩ := hcase
  · obtain ⟨rfl, rfl, rfl⟩ := hidentify
    exact stdRun_reads hready rfl
  · obtain ⟨rfl, rfl, hmgmt, rfl⟩ := hlimit
    exact exec_getResponseMessageLimit_mgmt hready hmgmt
  · obtain ⟨log, rfl, rfl, rfl⟩ := hevents
    exact stdRun_reads hready rfl
  · obtain ⟨rfl, rfl, rfl⟩ := hpolicy
    exact stdRun_reads hready rfl
  · obtain ⟨rfl, rfl, rfl⟩ := hfw
    exact stdRun_reads hready rfl
  · obtain ⟨rfl, rfl, rfl⟩ := htime
    exact stdRun_reads hready rfl
  · obtain ⟨rfl, rfl, rfl⟩ := hlogs
    exact stdRun_reads hready rfl
  · obtain ⟨off, len, rfl, rfl, hend, hlen, rfl⟩ := hlog
    exact exec_getLog_sillage hready hend hlen
  · obtain ⟨rfl, rfl, rfl⟩ := hhealth
    exact stdRun_reads hready rfl
  obtain hdevice | hpartition | hlsa | halert | hshutdown | hpoison | hscanCap | hscanRes | hregions | hextents := hcase
  · obtain ⟨rfl, rfl, rfl⟩ := hdevice
    exact ldRun_reads hld hready rfl
  · obtain ⟨rfl, rfl, rfl⟩ := hpartition
    exact ldRun_reads hld hready rfl
  · obtain ⟨off, len, rfl, rfl, hend, hlen, rfl⟩ := hlsa
    exact exec_getLsa_within hld hready hend hlen
  · obtain ⟨rfl, rfl, rfl⟩ := halert
    exact ldRun_reads hld hready rfl
  · obtain ⟨rfl, rfl, rfl⟩ := hshutdown
    exact ldRun_reads hld hready rfl
  · obtain ⟨dpa, len, rfl, rfl, hline, rfl⟩ := hpoison
    exact exec_getPoisonList_line hld hready hline
  · obtain ⟨dpa, len, rfl, rfl, rfl⟩ := hscanCap
    exact ldRun_reads hld hready rfl
  · obtain ⟨rfl, rfl, rfl⟩ := hscanRes
    exact ldRun_reads hld hready rfl
  · obtain ⟨rfl, rfl, rfl⟩ := hregions
    exact ldRun_reads hld hready rfl
  · obtain ⟨rfl, rfl, rfl⟩ := hextents
    exact ldRun_reads hld hready rfl

end Sys2Proof.Machine
end

section
/-!
PROOFS. The standard commands that record a setting (spec/16, R395, R397; spec/09, R240): on a ready path each answers the state with its one
record changed. That an abort with no operation succeeds (log 268), that label bytes are stored at once (log 395) and that the per cent done of
an operation is a free value (log 5) are the model's choices.
-/

namespace Sys2Proof.Machine

/-! ### What is recorded (R240, R395) -/

section
variable {s : State} {path : MboxPath}

/-- A management path's limit of 256 bytes to 64 KiB is recorded. -/
theorem exec_setResponseMessageLimit_records {log2 : BitVec 8} (hready : s.pathReady path 0x0004 = true) (hmgmt : mgmtPath path = true)
    (hlow : 8 ≤ log2.toNat) (hhigh : log2.toNat ≤ 16) :
    ∃ t, exec (.setResponseMessageLimit path log2) s = .next t ∧
      (s.modHost (fun h => { h with msgLimit := mset 16 h.msgLimit (pathNo path) log2.toNat })).MboxAnswer t path 0x0004 .success
        (leBytes log2.toNat 1) := by
  have hbus : ¬ (!mgmtPath path) = true := by simp [hmgmt]
  have hbounds : ¬ (log2.toNat < 8 ∨ 16 < log2.toNat) := not_or_intro (Nat.not_lt.mpr hlow) (Nat.not_lt.mpr hhigh)
  exact stdRun_answers hready ((if_neg hbus).trans (if_neg hbounds)) rfl rfl

/-- A log without the records cleared: all of them with the overflow, or those of the handles. -/
def EvLog.cleared (l : EvLog) (all : Bool) (handles : List (BitVec 16)) : EvLog :=
  if all then {} else { l with recs := l.recs.filter (fun r => !(handles.map (·.toNat)).contains r.handle) }

/-- All records of a log are cleared, or those whose handles it holds. -/
theorem exec_clearEventRecords_held {log : LogNo} {all : Bool} {handles : List (BitVec 16)} (hready : s.pathReady path 0x0101 = true) :
    let k := 5 * pathFn (pathNo path) + logCode log
    let l : EvLog := mget {} s.host.logs k
    (all = true ∨ ∀ x ∈ handles, ∃ r ∈ l.recs, r.handle = x.toNat) →
    ∃ t, exec (.clearEventRecords path log all handles) s = .next t ∧
      (s.modHost (fun h => { h with logs := mset {} h.logs k (l.cleared all handles) })).MboxAnswer t path 0x0101 .success [] := by
  intro k l hnamed
  cases all with
  | true => exact stdRun_answers hready rfl rfl rfl
  | false =>
    have hheld : ∀ x ∈ handles, ∃ r ∈ l.recs, r.handle = x.toNat := hnamed.resolve_left Bool.false_ne_true
    have hknown : ¬ (handles.map (·.toNat)).any (fun x => !l.recs.any (fun r => r.handle == x)) = true := by simpa using hheld
    exact stdRun_answers hready (if_neg hknown) rfl rfl

/-- A clock of an offset from FT that makes a time reads as that time. -/
theorem State.stamp_of_offset {t : State} {fn : Nat} {time : BitVec 64} (h : mget 0 t.host.tsOffset fn = (time.toNat : Int) - t.ft) :
    t.stamp fn = time.toNat := by
  unfold State.stamp
  rw [h]
  omega

/-- The offset of a time from FT is recorded, and the timestamp then reads as that time. -/
theorem exec_setTimestamp_reads (hready : s.pathReady path 0x0301 = true) (time : BitVec 64) :
    let fn := pathFn (pathNo path)
    ∃ t, exec (.setTimestamp path time) s = .next t ∧
      (s.modHost (fun h => { h with tsOffset := mset 0 h.tsOffset fn ((time.toNat : Int) - s.ft) })).MboxAnswer t path 0x0301 .success []
      ∧ t.stamp fn = time.toNat := by
  intro fn
  obtain ⟨t, hrun, hanswer⟩ : ∃ t, exec (.setTimestamp path time) s = .next t ∧
      (s.modHost (fun h => { h with tsOffset := mset 0 h.tsOffset fn ((time.toNat : Int) - s.ft) })).MboxAnswer t path 0x0301 .success [] :=
    stdRun_answers hready rfl rfl rfl
  refine ⟨t, hrun, hanswer, ?_⟩
  obtain ⟨hist, rfl⟩ := hanswer
  exact State.stamp_of_offset (mget_mset_self _ _ _ _)

/-- With no background operation there is nothing to abort. -/
theorem exec_requestAbortBackgroundOp_none (hready : s.pathReady path 0x0005 = true)
    (hnone : (mget {} s.host.bgs (pathFn (pathNo path))).opc = 0) :
    ∃ t, exec (.requestAbortBackgroundOp path) s = .next t ∧ s.MboxAnswer t path 0x0005 .success [] := by
  have hscan : ¬ (mget {} s.host.bgs (pathFn (pathNo path))).opc = 0x4304 := by omega
  exact stdRun_reads hready ((if_neg hscan).trans (congrArg (fun rc => State.endPath _ _ rc []) (if_pos hnone)))

variable {ld : Nat} (hld : pathLd path = some ld)
include hld

/-- Bytes that lie in the label storage area are stored there. -/
theorem exec_setLsa_stores {off : BitVec 32} {data : List Byte} (hready : s.pathReady path 0x4103 = true)
    (hend : off.toNat + data.length ≤ 131072) :
    ∃ t, exec (.setLsa path off data) s = .next t ∧
      (s.modHost (fun h => { h with lsa := mmod [] h.lsa ld (fun m => memWrite m off.toNat data) })).MboxAnswer t path 0x4103 .success [] :=
  ldRun_answers hready hld (if_neg (Nat.not_lt.mpr hend)) rfl rfl

end

/-- Settles O14: past its own checks each command ends in an answer of the state with its record changed. -/
theorem mailboxSettingsAreRecorded : Obligations.MailboxSettingsAreRecorded := by
  unfold Obligations.MailboxSettingsAreRecorded
  intro s path p fn
  refine ⟨?limit, ?clear, ?policy, ?timestamp, fun ld hld => ⟨?partition, ?alert, ?shutdown, ?labels⟩, ?abort, ?progress⟩
  case limit => exact fun log2 hready hmgmt hlow hhigh => exec_setResponseMessageLimit_records hready hmgmt hlow hhigh
  case clear => exact fun log all handles hready => exec_clearEventRecords_held hready
  case policy => exact fun policy hready => stdRun_answers hready rfl rfl rfl
  case timestamp => exact fun time hready => exec_setTimestamp_reads hready time
  case partition => exact fun hready => ldRun_reads hld hready rfl
  case alert => exact fun cfg hready => ldRun_answers hready hld rfl rfl rfl
  case shutdown => exact fun st hready => ldRun_answers hready hld rfl rfl rfl
  case labels => exact fun off data hready hend => exec_setLsa_stores hld hready hend
  case abort => exact fun hready hnone => exec_requestAbortBackgroundOp_none hready hnone
  case progress => exact fun hready => stdRun_answers hready rfl rfl rfl

end Sys2Proof.Machine
end

section
/-!
PROOFS. A member's own part of a cask (spec/12): each event is its guard and then its effect. That CASK_BOUNDARY moves FT to its boundary is
the model's choice (log 9), and so are that the end of a write-back and a recovery's limit take effect whatever FT is (log 3), and that a domain
is ACTIVE at once after a recovery (log 263).
-/

namespace Sys2Proof.Machine

/-- A domain read after it was changed. -/
theorem State.dom_modDom_self (s : State) (i : Nat) (f : CaskDom → CaskDom) : (s.modDom i f).dom i = f (s.dom i) :=
  mget_mset_self _ _ _ _

/-! ### The index walk (R336, R337) -/

/-- An entry of the undo index is of its domain's current epoch. -/
def State.idxCurrent (s : State) (e : UndoIdx) : Bool := e.epoch == (s.dom e.dom).epoch % 65536

/-- The undo index without the entries of past epochs, and without the sets that held no other. -/
def State.idxWalked (s : State) : List (Nat × List UndoIdx) :=
  (s.cask.idx.map (fun (k, l) => (k, l.filter s.idxCurrent))).filter (fun (_, l) => !l.isEmpty)

theorem exec_undoIndexWalk (s : State) :
    exec .undoIndexWalk s = .next { s with cask := { s.cask with walks := s.cask.walks + 1, idx := s.idxWalked } } := rfl

/-- A set that the walk leaves holds an entry, and all its entries are current. -/
theorem State.mem_idxWalked {s : State} {k : Nat} {l : List UndoIdx} (h : (k, l) ∈ s.idxWalked) :
    l ≠ [] ∧ ∀ e ∈ l, e.epoch = (s.dom e.dom).epoch % 65536 := by
  obtain ⟨hmapped, hheld⟩ := List.mem_filter.mp h
  obtain ⟨⟨_, all⟩, -, hkept⟩ := List.mem_map.mp hmapped
  obtain ⟨-, rfl⟩ := Prod.mk.inj hkept
  refine ⟨fun hnil => ?_, fun e he => eq_of_beq (List.mem_filter.mp he).2⟩
  rw [hnil] at hheld
  exact Bool.false_ne_true hheld

/-! ### The limit of a recovery (R342) -/

/-- A recovery asked for here ends without the members that have not answered: to its target, or to that of the members that have. -/
theorem exec_caskRecoverTimeout_own {s : State} {dom : Fin 16} {r : CaskRecov} (hrecov : (s.dom dom.val).recov = some r)
    (hown : ¬ r.askedBy.isSome = true) :
    exec (.caskRecoverTimeout dom) s = .next (match r.target with
      | some _ => s.recovEnd dom.val true
      | none =>
        let t := if r.latest then caskLatest else recoverTo r.states
        ((s.caskSendAll 9 dom.val t 0).recoverAt dom.val t none).recovEnd dom.val true) := by
  show execCaskRecoverTimeout dom s = _
  unfold execCaskRecoverTimeout
  dsimp only
  rw [hrecov]
  refine (if_neg hown).trans ?_
  cases r.target <;> rfl

/-! ### The statement -/

/-- Settles O26: each event meets what it waits for, and the index walk leaves current entries only. -/
theorem caskAgentEventsTakeEffect : Obligations.CaskAgentEventsTakeEffect := by
  unfold Obligations.CaskAgentEventsTakeEffect
  intro s dom
  dsimp only
  refine ⟨?ready, ?boundary, ?spill, ?walk, ?early, ?writeback, ?timeout⟩
  case ready =>
    intro hactive hbegun hepoch hlocked hdone hnew
    exact if_neg (by simpa [hactive, hbegun, hepoch, hlocked, hdone] using hnew)
  case boundary => exact fun hlive => if_neg hlive
  case spill =>
    intro hfull hmany hroom
    exact if_neg (by omega)
  case walk => exact ⟨_, exec_undoIndexWalk s, rfl, fun k l h => State.mem_idxWalked h⟩
  case early =>
    intro hlive hunsent hpassed
    exact if_neg (by simp [hlive, hunsent, hpassed])
  case writeback =>
    intro r t hrecov htarget hstate hbusy
    refine ⟨congrArg CaskDom.resting (State.dom_modDom_self _ _ _), congrArg CaskDom.storedTarget (State.dom_modDom_self _ _ _), ?_⟩
    have hback : ¬ ((s.dom dom.val).state ≠ 3 ∨ (s.dom dom.val).resting = true) := by simp [hstate, hbusy]
    show execCaskWritebackEnd dom s = _
    unfold execCaskWritebackEnd
    dsimp only
    rw [hrecov]
    dsimp only
    rw [htarget]
    refine (if_neg hback).trans ?_
    cases r.askedBy with
    | some n => rfl
    | none => exact congrArg Host.Outcome.next (apply_ite State.pump _ _ _)
  case timeout =>
    intro r hrecov hown
    have hrun := exec_caskRecoverTimeout_own hrecov (by simp [hown])
    refine ⟨fun htarget => ?_, fun htarget => ?_⟩
    · obtain ⟨t, ht⟩ := Option.isSome_iff_exists.mp htarget
      rw [hrun, ht]
    · rw [hrun, htarget]

end Sys2Proof.Machine
end

section
/-!
PROOFS. Requests of peers at the home (spec/10, R272; spec/11, R294): a COH message that its link accepts is placed in its line's order, and
the counters alone change on its way; one of a line not exported to its node is denied. What a denied node is answered is the model's choice (log 209).
-/

namespace Sys2Proof.Machine

/-- The counters are not FT. -/
theorem State.TallyOnly.ft {s u : State} (h : s.TallyOnly u) : u.ft = s.ft := by
  obtain ⟨_, rfl⟩ := h
  rfl

/-- The request that a peer's message makes at the home (R269, R272). -/
def cohRequest (m : CohMsg) (link opc : Nat) (op : ReqOp) (kind at_ : Nat) (sampled : Bool) : HReq :=
  { src := .peer link m.src m.tid, op := op, line := m.line, data := m.data, mask := m.mask, poison := m.poison, kind := kind, at_ := at_,
    keepE := decide (opc = 5) && decide (m.grant = 2), sampled := sampled }

/-- A peer's request as it is counted and drawn for a sample. -/
def State.peerCounted (s : State) : Bool × State := (s.count 11 5 1).sampleDraw 64

theorem State.peerCounted_tallyOnly (s : State) : s.TallyOnly s.peerCounted.2 := (s.tallyOnly_count 11 5 1).trans (State.tallyOnly_sampleDraw _ 64)

section
variable {s u : State} {f : Frame} {m : CohMsg} {opc : Nat} (htaken : s.cohTake f m opc = (true, u))
  (hnew : u.peerDup m.src m.tid m.line = none) (hhere : u.rehome 0xFFF m.line = m.line)
include htaken hnew hhere

/-- A request of a line exported to its node is placed in its line's order. -/
theorem State.peerRequest_exported {op : ReqOp} (kind : Nat) (hadmits : u.exported m.src m.line op.write? = true) :
    s.peerRequest f m opc op kind = (u.peerCounted.2.submit (cohRequest m f.link.val opc op kind u.ft u.peerCounted.1)).pump := by
  have hkept : ¬ u.rehome 0xFFF m.line ≠ m.line := not_not_intro hhere
  have hadmitted : ¬ (!u.exported m.src m.line op.write?) = true := by simp [hadmits]
  rw [← u.peerCounted_tallyOnly.ft]
  unfold State.peerRequest
  rw [htaken]
  dsimp only
  rw [hnew]
  exact (if_neg hkept).trans (if_neg hadmitted)

/-- A request of a line not exported to its node is denied. -/
theorem State.peerRequest_denied {op : ReqOp} (kind : Nat) (hrefuses : u.exported m.src m.line op.write? = false) :
    s.peerRequest f m opc op kind = u.deny m.src m.tid m.line (!op.write? && decide (opc ≠ 4)) := by
  have hkept : ¬ u.rehome 0xFFF m.line ≠ m.line := not_not_intro hhere
  have hrefused : (!u.exported m.src m.line op.write?) = true := by simp [hrefuses]
  rw [show decide (opc ≠ 4) = (opc != 4) from decide_not]
  unfold State.peerRequest
  rw [htaken]
  dsimp only
  rw [hnew]
  exact (if_neg hkept).trans (if_pos hrefused)

end

/-- Settles O27: a request that is new and of a line of this home is placed where its line is exported, and denied elsewhere. -/
theorem peerRequestsReachTheHome : Obligations.PeerRequestsReachTheHome := by
  unfold Obligations.PeerRequestsReachTheHome
  intro s u f m opc htaken hnew hhere served denied
  -- a command that is the request of its OPC
  have hrun {c : Instr} {op : ReqOp} {kind : Nat} (hc : exec c s = .next (s.peerRequest f m opc op kind)) :
      served c op kind ∧ denied c op := by
    refine ⟨fun hadmits => ?_, fun hrefuses => ?_⟩
    · rw [hc, State.peerRequest_exported htaken hnew hhere kind hadmits]
      exact ⟨_, _, rfl, u.peerCounted_tallyOnly, rfl, rfl, rfl, rfl, rfl, rfl, rfl, rfl, rfl⟩
    · rw [hc, State.peerRequest_denied htaken hnew hhere kind hrefuses]
  refine ⟨?rdS, ?rdE, ?rdNc, ?upg, ?wr⟩
  case rdS | rdE | rdNc | upg | wr =>
    rintro rfl
    exact hrun rfl

end Sys2Proof.Machine
end

section
/-!
PROOFS. Snoops of other homes, and the fabric's answers (spec/10, R268 to R276): a message that its link accepts takes its effect. That a CMP
completes an UPG only where S is still held is the model's choice (log 212), and so is what a forward asks of the exclusive host (log 208).
-/

namespace Sys2Proof.Machine

/-! ### Snoops of another home (R273, R276) -/

/-- A home's snoop not answered before and not under way is sent to the local holders it concerns. -/
theorem State.peerSnoop_fresh {s u : State} {f : Frame} {m : CohMsg} {opc : Nat} (htaken : s.cohTake f m opc = (true, u))
    (hunanswered : u.keptAnswer m.src m.tid m.line opc = [])
    (hnew : ∀ o ∈ u.home.owed, ¬ (o.key = lineKey m.src m.line ∧ o.opc = opc ∧ o.tid = m.tid)) :
    let k := lineKey m.src m.line
    let e := u.dirGet k
    let inv := opc == 0x10 || opc == 0x13
    let x := (if inv || e.state == 3 then slotsOf e.sharers else []).foldl (fun (x : List Snoop × State) i =>
      let y := x.2.sendSnoop k { dest := .slot i, inv := inv }
      (x.1 ++ [y.1], y.2)) (([] : List Snoop), u)
    let o : Owed := { key := k, opc := opc, tid := m.tid, aux := m.aux, snoops := x.1 }
    let v : State := { x.2 with home := { x.2.home with owed := x.2.home.owed ++ [o] } }
    s.peerSnoop f m opc = (if x.1.isEmpty then v.finishOwed o else v).pump := by
  have hidle : ¬ u.home.owed.any (fun o => o.key == lineKey m.src m.line && o.opc == opc && o.tid == m.tid) = true := by
    simpa [and_assoc] using hnew
  unfold State.peerSnoop
  rw [htaken]
  dsimp only
  rw [hunanswered]
  exact (if_neg Bool.false_ne_true).trans (if_neg hidle)

/-! ### CMP for a transaction of this proxy (R269, R271, R274) -/

/-- A transaction of this proxy changed. -/
def State.proxyPut (s : State) (p q : ProxyTxn) : State :=
  { s with home := { s.home with proxy := lupd (fun x => x == p) (fun _ => q) s.home.proxy } }

/-- A transaction that its CMP has reached: where no DATA came before, the CMP says what is granted. -/
def cmpReached (p : ProxyTxn) (m : CohMsg) : ProxyTxn :=
  if p.gotData.isSome then { p with gotCmp := true } else { p with gotCmp := true, denied := m.denied, grant := m.grant }

/-- Does a CMP complete a transaction without DATA: a WR, an UPG of a line still held, or one denied? -/
def State.cmpAlone (s : State) (p : ProxyTxn) (m : CohMsg) : Bool :=
  p.opc == 5 || (p.opc == 4 && (s.dirGet p.line).state != 0) || m.denied

theorem State.cmpAlone_iff (s : State) (p : ProxyTxn) (m : CohMsg) :
    s.cmpAlone p m = true ↔ p.opc = 5 ∨ (p.opc = 4 ∧ (s.dirGet p.line).state ≠ 0) ∨ m.denied = true := by
  simp [State.cmpAlone, or_assoc]

theorem exec_cmp_taken {s u : State} {f : Frame} {m : CohMsg} {p : ProxyTxn} (htaken : s.cohTake f m 0x21 = (true, u))
    (hp : u.proxyOf m = some p) :
    let v := u.proxyPut p (cmpReached p m)
    exec (.cmp f m) s = .next (if p.gotData.isSome || u.cmpAlone p m then v.proxyFinish (cmpReached p m) else v) := by
  show execCmp f m s = _
  unfold execCmp
  rw [htaken]
  dsimp only
  rewrite [hp]
  rfl

/-! ### The statement -/

/-- Settles O28: a snoop is new, and an answer finds the transaction that it belongs to. -/
theorem peerSnoopsAndAnswersTakeEffect : Obligations.PeerSnoopsAndAnswersTakeEffect := by
  unfold Obligations.PeerSnoopsAndAnswersTakeEffect
  intro s u f m taken k e fresh snooped
  -- a command that is the snoop of its OPC
  have hsnoop {c : Instr} {opc : Nat} (hc : exec c s = .next (s.peerSnoop f m opc)) (htaken : taken opc) (hfresh : fresh opc) :
      snooped c opc (opc == 0x10 || opc == 0x13) := by
    obtain ⟨hunanswered, hnew⟩ := hfresh
    exact hc.trans (congrArg Host.Outcome.next (State.peerSnoop_fresh htaken hunanswered hnew))
  refine ⟨hsnoop rfl, hsnoop rfl, hsnoop rfl, hsnoop rfl, fun p hp => ⟨?data, ?cmpFirst, ?cmpLast⟩, ?snpRsp, ?stale, ?ack⟩
  case data =>
    intro htaken q
    show execData f m s = _
    unfold execData
    rw [show s.cohTake f m 0x20 = _ from htaken]
    dsimp only
    rw [hp]
    refine congrArg Host.Outcome.next (if_congr ?_ rfl rfl)
    simp
  case cmpFirst =>
    intro htaken hwaiting q
    have hdata : p.gotData.isSome = false := Option.isSome_eq_false_iff.mpr (Option.isNone_iff_eq_none.mpr hwaiting)
    have hreached : cmpReached p m = q := if_neg (Bool.eq_false_iff.mp hdata)
    rw [exec_cmp_taken htaken hp, hreached, hdata, Bool.false_or]
    exact congrArg Host.Outcome.next (if_congr (u.cmpAlone_iff p m) rfl rfl)
  case cmpLast =>
    intro htaken hdata
    have hreached : cmpReached p m = { p with gotCmp := true } := if_pos hdata
    rw [exec_cmp_taken htaken hp, hreached, hdata, Bool.true_or]
    exact congrArg Host.Outcome.next (if_pos rfl)
  case snpRsp =>
    intro a htaken hact
    show execSnpRsp f m s = _
    unfold execSnpRsp
    rw [show s.cohTake f m 0x22 = _ from htaken]
    dsimp only
    rewrite [hact]
    rfl
  case stale =>
    intro a htaken hact hstale
    show execFwdAck f m s = _
    unfold execFwdAck
    rw [show s.cohTake f m 0x23 = _ from htaken]
    dsimp only
    rw [hact]
    exact if_pos hstale
  case ack =>
    intro a htaken v hact
    show execAck f m s = _
    unfold execAck
    rw [show s.cohTake f m 0x24 = _ from htaken]
    dsimp only
    rewrite [show State.home _ = v.home from rfl, hact]
    rfl

end Sys2Proof.Machine
end

section
/-!
PROOFS. Views of the fabric and nodes declared failed (spec/11): each is its guard and then its effect. What restarts the settling of a view
(log 215), that the copies of MIRRORED entries alone are promoted (log 214), and that a lone node takes its ID as any other (log 220) are the
model's choices.
-/

namespace Sys2Proof.Machine

/-- Settles O33: a view is due after two quiet slots, and a node that is gone or leaving is declared in the primary part. -/
theorem viewsAndNodeFailuresTakeEffect : Obligations.ViewsAndNodeFailuresTakeEffect := by
  unfold Obligations.ViewsAndNodeFailuresTakeEffect
  intro s
  refine ⟨?settle, ?fail⟩
  case settle =>
    intro hopen hquiet
    have hdue : ¬ (s.fabric.settled || decide (s.fabric.quiet < 2)) = true := by simpa [hopen, Nat.lt_iff_add_one_le] using hquiet
    exact if_neg hdue
  case fail =>
    intro node n lim hknown hother hprim hgone
    have habsent : (decide (lim + 1 ≤ mget 0 s.fabric.absent n)
        || s.fabric.lsdb.any (fun a => a.leaving && s.uidNode a.uid.toNat == some n)) = true := by
      simpa only [Bool.or_eq_true, decide_eq_true_eq, List.any_eq_true, Bool.and_eq_true, beq_iff_eq] using hgone
    have hfails : ¬ (s.fabric.failed.contains n || n = s.nodeId || !s.flag Reg.DF_NODE.PRIMARY
        || !(decide (lim + 1 ≤ mget 0 s.fabric.absent n)
          || s.fabric.lsdb.any (fun a => a.leaving && s.uidNode a.uid.toNat == some n))) = true := by
      rw [hknown, hprim, habsent]
      simpa using hother
    show execNodeFailDeclare node s = _
    unfold execNodeFailDeclare
    -- the states between are named, so that those of the row and of the statement are compared one by one
    extract_lets
    rw [if_neg hfails]

end Sys2Proof.Machine
end

section
/-!
PROOFS. Kelric commands on the fabric, time, casks, power, settings, logs, tests, patches and the lifecycle (spec/17): a command that comes to
its action takes it. The order of the checks before the action is the model's choice (log 253), and so are what MIRROR_SET, the exports and
the routes take (logs 258, 260), RESTEP without a source (log 261), what MARK, DELETE and CREATE of a cask do beside (log 262), a domain
ACTIVE at once after a recovery (log 263), the values that SETTING_WRITE refuses (log 264), the per cent done of a test (log 265), the order
in which an image is checked (log 266) and what a transition does (log 267).
-/

namespace Sys2Proof.Machine

/-- A command that is run through the shared checks, and comes to its action, answers the state in which it is taken. -/
theorem next_kRun_ready {s : State} {opc : Nat} {c d : KCmd} {check : KCmd → State → Nat} (act : KCmd → CmdSrc → State → State)
    (h : s.kReady opc c check d) :
    (Host.Outcome.next (s.kRun opc c check act) : Res) = .next (act d (s.kBegun opc d).1 (s.kBegun opc d).2) :=
  congrArg Host.Outcome.next (kRun_ready h act _)

/-- Settles O44: the command's own checks have admitted it, so what is left is its effect. -/
theorem kelricFabricAndSystemCommandsTakeEffect : Obligations.KelricFabricAndSystemCommandsTakeEffect := by
  unfold Obligations.KelricFabricAndSystemCommandsTakeEffect
  intro s c d runs
  refine ⟨?mirror, ?route, ?time, ?cask, ?recover, ?holdup, ?throttle, ?setting, ?log, ?sample, ?counter, ?test, ?testStatus, ?stage,
    ?activate, ?lifecycle⟩
  case mirror => exact next_kRun_ready State.mirrorSetAct
  case route => exact next_kRun_ready State.routeSetAct
  case time => exact next_kRun_ready State.timeSourceAct
  case cask => exact next_kRun_ready State.caskConfigAct
  case recover => exact next_kRun_ready State.caskRecoverAct
  case holdup => exact next_kRun_ready (fun _ re u => u.testStart (some re))
  case throttle => exact next_kRun_ready State.throttleSetAct
  case setting => exact next_kRun_ready State.settingWriteAct
  case log => exact next_kRun_ready State.logSnapshotAct
  case sample => exact next_kRun_ready State.sampleConfigAct
  case counter => exact next_kRun_ready State.counterConfigAct
  case test => exact next_kRun_ready State.selfTestAct
  case testStatus => exact next_kRun_ready State.selfTestStatusAct
  case stage => exact next_kRun_ready State.patchStageAct
  case activate => exact next_kRun_ready (fun c re u => u.activateGo (bitAt (c.op 0 1) 0) re)
  case lifecycle => exact next_kRun_ready (fun c re u => ({ u with keys := { u.keys with lcWait := some (c.op 0 1, re) } } : State).lcAdvance)

end Sys2Proof.Machine
end

section
/-!
PROOFS. Messages of a cask (spec/12, R338 to R342): one that its link and its domain accept takes its operation's effect, where its sender or
this node may serve it. Where the fields stand in a CASK body is the model's choice (log 216), and so is the state that a RECOVER leaves (log 263).
-/

namespace Sys2Proof.Machine

/-- What a CASK message does: `act` on the domain that takes it; a message not taken leaves what its link made of it. -/
def State.caskRow (s : State) (f : Frame) (body : BitVec 256) (kind : Nat) (act : Nat → State → State) : Res :=
  match s.caskTake f body kind with
  | (some i, u) => .next (act i u)
  | (none, u) => .next u

section
variable {s u : State} {f : Frame} {body : BitVec 256} {kind i : Nat} (htaken : s.caskTake f body kind = (some i, u))
include htaken

/-- A message taken has its effect. -/
theorem State.caskRow_taken (act : Nat → State → State) : s.caskRow f body kind act = .next (act i u) := by
  unfold State.caskRow
  rw [htaken]

/-- A message taken has its effect where the condition on its sender or on this node holds. -/
theorem State.caskRow_served {may : Nat → State → Bool} (hmay : may i u = true) (act : Nat → State → State) :
    s.caskRow f body kind (fun i u => u.when (may i u) (act i)) = .next (act i u) :=
  (State.caskRow_taken htaken _).trans (congrArg Host.Outcome.next (State.when_of hmay _))

/-- A message to the coordinator has its effect there. -/
theorem State.caskRow_atCoord (hcoord : (u.dom i).coord = u.nodeId) (act : Nat → State → State) :
    s.caskRow f body kind (fun i u => u.when ((u.dom i).coord == u.nodeId) (act i)) = .next (act i u) :=
  State.caskRow_served htaken (may := fun i u => (u.dom i).coord == u.nodeId) (beq_iff_eq.mpr hcoord) act

/-- A message of the coordinator has its effect where the coordinator sent it. -/
theorem State.caskRow_ofCoord (hcoord : (u.dom i).coord = f.src) (act : Nat → State → State) :
    s.caskRow f body kind (fun i u => u.when ((u.dom i).coord == f.src) (act i)) = .next (act i u) :=
  State.caskRow_served htaken (may := fun i u => (u.dom i).coord == f.src) (beq_iff_eq.mpr hcoord) act

end

/-- Settles O25: a message taken has its effect, and the condition on its sender or on this node holds. -/
theorem caskMessagesTakeEffect : Obligations.CaskMessagesTakeEffect := by
  unfold Obligations.CaskMessagesTakeEffect
  intro s f body i b taken epoch
  refine ⟨?ready, ?commit, ?ack, ?release, ?earlyReq, ?early, ?query, ?state, ?recover, ?recoverDone⟩
  case ready => exact fun u htaken hcoord => State.caskRow_atCoord htaken hcoord (fun i u => u.readyAt i f.src epoch)
  case commit => exact fun u htaken hcoord => State.caskRow_ofCoord htaken hcoord (fun i u => u.commitAt i epoch)
  case ack => exact fun u htaken hcoord => State.caskRow_atCoord htaken hcoord (fun i u => u.ackAt i f.src epoch)
  case release => exact fun u htaken hcoord => State.caskRow_ofCoord htaken hcoord (fun i u => u.releaseAt i epoch)
  case earlyReq =>
    intro u htaken hcoord hlive
    exact State.caskRow_served htaken (may := fun i u => (u.dom i).coord == u.nodeId && (u.dom i).live)
      (Bool.and_eq_true_iff.mpr ⟨beq_iff_eq.mpr hcoord, hlive⟩) (fun i u => u.earlyAsk i)
  case early =>
    intro u htaken hcoord
    exact ⟨_, State.caskRow_ofCoord htaken hcoord (fun i u => u.modDom i (fun d =>
      { d with earlyAt := some (bitsOf b 84 44), extra := d.extra ++ [bitsOf b 84 44] })), rfl,
      congrArg CaskDom.earlyAt (State.dom_modDom_self _ _ _)⟩
  case query => exact fun u htaken => State.caskRow_taken htaken (fun i u => u.caskSend f.src 8 i (u.dom i).committed 0 0 (u.dom i).released)
  case state => exact fun u htaken => State.caskRow_taken htaken (fun i u => u.stateAt i f.src epoch (bitsOf b 164 48))
  case recover =>
    intro u htaken
    exact ⟨_, State.caskRow_taken htaken (fun i u => u.recoverAt i epoch (some f.src)), rfl,
      congrArg CaskDom.state (State.dom_modDom_self _ _ _), congrArg CaskDom.storedTarget (State.dom_modDom_self _ _ _)⟩
  case recoverDone => exact fun u htaken => State.caskRow_taken htaken (fun i u => u.recovDoneAt i f.src (bitsOf b 160 4))

end Sys2Proof.Machine
end

section
/-!
PROOFS. Kelric commands that read (spec/17): a command that comes to its action answers its data. The order of the checks before the action is
the model's choice (log 253), and so are the counters of CACHE_STATUS and the records of DISCARD_STATUS (log 257) and the common state of
all domains in CASK_STATUS, a free value (log 5).
-/

namespace Sys2Proof.Machine

/-- Settles O41: the command's own checks have admitted it, so what is left is its answer. -/
theorem kelricReadsAnswerTheirData : Obligations.KelricReadsAnswerTheirData := by
  unfold Obligations.KelricReadsAnswerTheirData
  intro s c d reads always
  -- a command whose action answers what is listed
  have hreads {cmd : Instr} {opc : Nat} {check : KCmd → State → Nat} {act : KCmd → CmdSrc → State → State} {eff : CmdSrc → State → State}
      (hrun : exec cmd s = .next (s.kRun opc c check act)) (hact : ∀ re u, act d re u = eff re u) : reads cmd opc check eff :=
    fun h => hrun.trans ((next_kRun_ready act h).trans (congrArg Host.Outcome.next (hact _ _)))
  refine ⟨?identify, ?cache, ?discard, ?key, ?patrol, ?spare, ?wear, ?fabric, ?time, ?cask, ?holdup, ?thermal, ?setting, ?patch⟩
  case identify => exact hreads (act := State.identifyAct) rfl (fun _ _ => rfl)
  case cache => exact hreads (act := State.cacheStatusAct) rfl (fun _ _ => rfl)
  case discard => exact hreads (act := State.discardStatusAct) rfl (fun _ _ => rfl)
  case key => exact hreads (act := State.keyStatusAct) rfl (fun _ _ => rfl)
  case patrol => exact hreads (act := State.patrolStatusAct) rfl (fun _ _ => rfl)
  case spare => exact hreads (act := State.spareStatusAct) rfl (fun _ _ => rfl)
  case wear => exact hreads (act := State.wearReportAct) rfl (fun _ _ => rfl)
  case fabric => exact hreads (act := State.fabricStatusAct) rfl (fun _ _ => rfl)
  case time => exact hreads (act := State.timeStatusAct) rfl (fun _ _ => rfl)
  case cask => exact hreads (act := State.caskStatusAct) rfl (fun _ _ => rfl)
  case holdup => exact hreads (act := State.holdupStatusAct) rfl (fun _ _ => rfl)
  case thermal => exact hreads (act := State.thermalStatusAct) rfl (fun _ _ => rfl)
  case setting => exact hreads (act := fun c re u => u.doneData c re 0 (u.settingValue (c.op 0 2) (c.op 2 2))) rfl (fun _ _ => rfl)
  case patch => exact hreads (act := fun c re u => u.doneData c re u.patchResult []) rfl (fun _ _ => rfl)

end Sys2Proof.Machine
end

section
/-!
PROOFS. The end of a self-test (spec/17, R425, R427) and the earliest timed action (spec/12, R326). That a test's end takes the errors of its
operand is the model's choice (log 265), and so are that TIMED_ACTION_DUE moves FT (log 9) and that an action whose time is past is taken at
once (log 277).
-/

namespace Sys2Proof.Machine

/-- Settles O45: the test that ends is under way, and an action waits. -/
theorem selfTestsAndTimedActionsEnd : Obligations.SelfTestsAndTimedActionsEnd := by
  unfold Obligations.SelfTestsAndTimedActionsEnd
  intro s
  refine ⟨?test, ?action⟩
  case test =>
    intro id errors t hrunning ended
    show execSelfTestEnd id errors s = _
    unfold execSelfTestEnd
    rw [hrunning]
    exact (apply_ite Host.Outcome.next _ _ _).symm
  case action =>
    intro a hnext hactive
    show execTimedActionDue s = _
    unfold execTimedActionDue
    rw [hnext]
    exact congrArg Host.Outcome.next (if_pos hactive)

end Sys2Proof.Machine
end

section
/-!
PROOFS. Queues of Kelric commands (spec/16, R400 to R409; spec/18, R436): what each event of a queue does to its own queue. The model's own
choices are that a queue in ERROR posts nothing and which bits of a doorbell are its index (log 250), the order of the turns (log 255), the checks of
a data pointer (log 251) and that a vector's hold-off ends when told (log 3).
-/

namespace Sys2Proof.Machine

/-! ### Doorbells (R400, R401, R436) -/

/-- A queue takes a doorbell of its own LD while it is not in ERROR. -/
def State.rings (s : State) (ld q : Nat) : Prop := s.doorbellOf ld q = true ∧ (s.queue q).state ≠ 3

/-- An index that SQ_TAIL may hold: within the queue, and not behind the tail as it stands. -/
def State.tailOk (s : State) (q i : Nat) : Prop := i < s.sqSize q ∧ s.sqAhead q (s.queue q).tail ≤ s.sqAhead q i

theorem State.rings_iff {s : State} {ld q : Nat} : (!s.doorbellOf ld q || (s.queue q).state == 3) = false ↔ s.rings ld q := by
  simp [State.rings]

section
variable {s : State} {ld : LdNo} {q : QNo} {val : BitVec 32}

/-- A doorbell that its queue does not take does nothing. -/
theorem exec_doorbell_ignored (h : ¬ s.rings ld.val q.val) :
    exec (.sqTail ld q val) s = .next s ∧ exec (.cqHead ld q val) s = .next s := by
  have hskip : (!s.doorbellOf ld.val q.val || (s.queue q.val).state == 3) = true := by
    rwa [← Bool.not_eq_false, State.rings_iff]
  exact ⟨if_pos hskip, if_pos hskip⟩

section
variable (hrings : s.rings ld.val q.val) (hval : val.toNat < 4096)
include hrings hval

/-- A tail within its bounds is taken. -/
theorem exec_sqTail_moves (hok : s.tailOk q.val val.toNat) :
    exec (.sqTail ld q val) s = .next (s.modQueue q.val (fun k => { k with tail := val.toNat })) := by
  have hbad : ¬ (s.sqSize q.val ≤ val.toNat ∨ s.sqAhead q.val val.toNat < s.sqAhead q.val (s.queue q.val).tail) := by
    obtain ⟨hin, hahead⟩ := hok
    omega
  exact (if_neg (Bool.eq_false_iff.mp (State.rings_iff.mpr hrings))).trans ((if_neg (Nat.not_le.mpr hval)).trans (if_neg hbad))

/-- A tail out of its bounds is the queue's error. -/
theorem exec_sqTail_error (hbad : ¬ s.tailOk q.val val.toNat) : exec (.sqTail ld q val) s = .next (s.queueError q.val 1) := by
  have hout : s.sqSize q.val ≤ val.toNat ∨ s.sqAhead q.val val.toNat < s.sqAhead q.val (s.queue q.val).tail := by
    unfold State.tailOk at hbad
    omega
  exact (if_neg (Bool.eq_false_iff.mp (State.rings_iff.mpr hrings))).trans ((if_neg (Nat.not_le.mpr hval)).trans (if_pos hout))

/-- CQ_HEAD frees slots for the completions held; an index outside the queue is its error. -/
theorem exec_cqHead :
    let u := s.modQueue q.val (fun k => { k with cqHead := val.toNat })
    exec (.cqHead ld q val) s = if s.cqSize q.val ≤ val.toNat then .next (s.queueError q.val 1)
      else .next (u.postHeld q.val (u.queue q.val).flights.length) := by
  exact (if_neg (Bool.eq_false_iff.mp (State.rings_iff.mpr hrings))).trans (if_neg (Nat.not_le.mpr hval))

end
end

/-! ### The queue whose turn it is (R402, R405) -/

/-- The state in which queue `q` has its turn, and one entry fewer left in it. -/
def State.turnOf (s : State) (q left : Nat) : State := { s with kelric := { s.kelric with turn := q, left := left - 1 } }

/-- The command of a submission entry, ended at once where its status says so. -/
def entryFlight (e : BitVec 512) (st : Nat) : Flight :=
  { opc := bitsOf e.toNat 0 16, cid := bitsOf e.toNat 16 16, ops := BitVec.ofNat 256 (e.toNat / 2 ^ 256), dptr := bitsOf e.toNat 128 64,
    dlen := bitsOf e.toNat 192 32, timed := if bitsOf e.toNat 32 1 = 1 then some (bitsOf e.toNat 64 64) else none,
    fence := bitsOf e.toNat 33 1 == 1, ran := st != kOk, done := st != kOk, status := st }

/-- The entry at a queue's head is the last of its commands, and the head moves on. -/
def State.entryTaken (s : State) (q : Nat) (e : BitVec 512) : State :=
  s.modQueue q (fun k => { k with
    head := (k.head + 1) % s.sqSize q, flights := k.flights ++ [entryFlight e (entryStatus (s.queue q) e.toNat)] })

/-- The queue whose turn it is takes its next entry, where no transition waits and there is room for one more command. -/
theorem exec_queueEntryFetch_turn {s : State} {q : QNo} {left : Nat} (entry : Option (BitVec 512)) (hroom : s.inflight < 1024)
    (hopen : s.keys.lcWait = none) (hturn : s.fetchTurn = some (q.val, left)) :
    exec (.queueEntryFetch q entry) s =
      .next (entry.elim ((s.turnOf q.val left).queueError q.val 2) ((s.turnOf q.val left).entryTaken q.val)) := by
  have hmay : ¬ (decide (1024 ≤ s.inflight) || s.keys.lcWait.isSome) = true := by simp [hopen, hroom]
  show execQueueEntryFetch q entry s = _
  unfold execQueueEntryFetch
  dsimp only
  rw [if_neg hmay, hturn]
  refine (if_neg (not_not_intro rfl)).trans ?_
  cases entry <;> rfl

/-! ### Completions and vectors (R404, R405, R409) -/

/-- A command that has ended leaves its queue, or waits where the queue is PAUSED or its completion queue has no room. -/
theorem exec_kelricCommandComplete_ended {s : State} {q : QNo} {cid : BitVec 16} {f : Flight} (ok : Bool)
    (hended : (s.queue q.val).flights.find? (fun f => f.done && !f.held && f.cid == cid.toNat) = some f) :
    exec (.kelricCommandComplete q cid ok) s = .next (
      if (s.queue q.val).state = 3 then (s.unposted q.val f).lcAdvance
      else if (s.queue q.val).state = 2 ∨ s.cqRoom q.val = false then
        s.modQueue q.val (fun k => { k with flights := lupd (fun g => g == f) (fun g => { g with held := true }) k.flights })
      else if ok then (s.post q.val f).lcAdvance
      else ((s.queueError q.val 3).unposted q.val f).lcAdvance) := by
  have hwaits : (decide ((s.queue q.val).state = 2) || !s.cqRoom q.val) = true ↔ (s.queue q.val).state = 2 ∨ s.cqRoom q.val = false := by simp
  show execKelricCommandComplete q cid ok s = _
  unfold execKelricCommandComplete
  dsimp only
  rw [hended]
  dsimp only
  simp only [apply_ite Host.Outcome.next, hwaits]

/-- The signal of a vector as its hold-off leaves it. -/
def State.putVec (s : State) (k : Nat) (x : Bool × Bool) : State :=
  { s with kelric := { s.kelric with vecs := mset (false, false) s.kelric.vecs k x } }

section
variable {s : State} {ld : LdNo} {v : Fin 64}

/-- A completion came during the hold-off: the vector signals, with a hold-off of its own. -/
theorem exec_vectorSignalHoldoffEnd_deferred (hheld : mget (false, false) s.kelric.vecs (64 * ld.val + v.val) = (true, true)) :
    let u := s.putVec (64 * ld.val + v.val) (true, false)
    exec (.vectorSignalHoldoffEnd ld v) s = .next (if mget false s.host.msixMasked ld.val then u else u.emit (.msix ld.val v.val)) := by
  show execVectorSignalHoldoffEnd ld v s = _
  unfold execVectorSignalHoldoffEnd
  dsimp only
  rw [hheld]
  rfl

/-- No completion came: the hold-off is over. -/
theorem exec_vectorSignalHoldoffEnd_idle (hidle : mget (false, false) s.kelric.vecs (64 * ld.val + v.val) ≠ (true, true)) :
    exec (.vectorSignalHoldoffEnd ld v) s = .next (s.putVec (64 * ld.val + v.val) (false, false)) := by
  show execVectorSignalHoldoffEnd ld v s = _
  unfold execVectorSignalHoldoffEnd
  dsimp only
  split
  · exact absurd ‹_› hidle
  · rfl

end

/-! ### The statement -/

/-- Settles O46: each event meets what it looks for, a queue that takes its doorbell, a turn, a command that has ended, or a signal deferred. -/
theorem kelricQueueEventsTakeEffect : Obligations.KelricQueueEventsTakeEffect := by
  unfold Obligations.KelricQueueEventsTakeEffect
  intro s
  refine ⟨?doorbell, ?ignored, ?fetch, fun q cid ok f => exec_kelricCommandComplete_ended ok, ?vector, fun _ => rfl, fun _ => rfl⟩
  case doorbell =>
    intro ld q val hown hstate hval
    have hrings : s.rings ld.val q.val := ⟨hown, hstate⟩
    exact ⟨fun hin hahead => exec_sqTail_moves hrings hval ⟨hin, hahead⟩, exec_sqTail_error hrings hval,
      fun hin => (exec_cqHead hrings hval).trans (if_neg (Nat.not_le.mpr hin)), fun hout => (exec_cqHead hrings hval).trans (if_pos hout)⟩
  case ignored =>
    intro ld q val hskip
    refine exec_doorbell_ignored (fun ⟨hown, hstate⟩ => ?_)
    rcases hskip with hother | herror
    · exact Bool.false_ne_true (hother.symm.trans hown)
    · exact hstate herror
  case fetch =>
    intro q left hroom hopen hturn u
    exact ⟨exec_queueEntryFetch_turn none hroom hopen hturn, fun e => exec_queueEntryFetch_turn (some e) hroom hopen hturn⟩
  case vector => exact fun ld v => ⟨exec_vectorSignalHoldoffEnd_deferred, exec_vectorSignalHoldoffEnd_idle⟩

end Sys2Proof.Machine
end

section
/-!
PROOFS. An idle step (spec/12): FT moves on by one nanosecond, which is the model's choice (log 1); the boundaries of the casks passed on the
way leave it.
-/

namespace Sys2Proof.Machine

/-- A domain that passes its boundaries leaves FT. -/
theorem State.domPass_ft (s : State) (i a b : Nat) : (s.domPass i a b).ft = s.ft := by
  unfold State.domPass
  dsimp only
  split
  · rfl
  · split
    · exact (State.tallyOnly_count _ 12 7 1).ft
    · rfl

/-- FT is the time it has been moved to. -/
theorem State.passTo_ft (s : State) (ft : Nat) : (s.passTo ft).ft = ft := by
  unfold State.passTo
  dsimp only
  split
  · rfl
  · exact List.foldlRecOn (motive := fun (t : State) => t.ft = ft) _ _ rfl (fun t ht _ _ => (t.domPass_ft _ _ _).trans ht)

/-- Settles O2: with no command at the front, the step is the passage of one nanosecond. -/
theorem anEmptyQueueLetsTimePass : Obligations.AnEmptyQueueLetsTimePass := by
  unfold Obligations.AnEmptyQueueLetsTimePass
  intro s hempty
  refine ⟨?_, s.passTo_ft _⟩
  unfold step
  rw [hempty]

end Sys2Proof.Machine
end

section
/-!
PROOFS. Canonical memory (spec/16, R395; spec/20, R477, R479, R486): a step keeps the board area and the label storage areas in canonical
form, and the board area changes where a page write or a quiesce ends. The form is the model's own, with a byte that nothing wrote reading 0
(log 7). A page write is one event of the model.
-/

namespace Sys2Proof.Machine

/-! ### Properties of all values of a map -/

section
variable {α : Type} {P : α → Prop} {d : α} {m : List (Nat × α)}

/-- What holds of the default and of every value listed holds of every value read. -/
theorem mget_of_forall (hd : P d) (hm : ∀ x ∈ m, P x.2) (k : Nat) : P (mget d m k) := by
  induction m with
  | nil => exact hd
  | cons a r ih =>
    rw [List.forall_mem_cons] at hm
    obtain ⟨ha, hr⟩ := hm
    unfold mget
    split
    · exact ha
    · exact ih hr

/-- An entry put in is the only one added. -/
theorem forall_mins {k : Nat} {v : α} (hv : P v) (hm : ∀ x ∈ m, P x.2) : ∀ x ∈ mins k v m, P x.2 := by
  induction m with
  | nil => exact List.forall_mem_singleton.mpr hv
  | cons a r ih =>
    have hall := hm
    rw [List.forall_mem_cons] at hm
    obtain ⟨ha, hr⟩ := hm
    unfold mins
    split
    · exact List.forall_mem_cons.mpr ⟨hv, hall⟩
    · exact List.forall_mem_cons.mpr ⟨ha, ih hr⟩

/-- What holds of every value listed and of a value written holds of every value listed after the write. -/
theorem forall_mset [DecidableEq α] {k : Nat} {v : α} (hv : P v) (hm : ∀ x ∈ m, P x.2) : ∀ x ∈ mset d m k v, P x.2 := by
  have hrest : ∀ x ∈ m.filter (fun x => x.1 != k), P x.2 := fun x hx => hm x (List.mem_of_mem_filter hx)
  unfold mset
  dsimp only
  split
  · exact hrest
  · exact forall_mins hv hrest

end

/-! ### The label storage areas -/

/-- Every label storage area and the map of the areas are canonical. -/
def labelsCanonical (lsa : SMap Memory) : Prop := mwf ([] : Memory) lsa = true ∧ ∀ x ∈ lsa, Memory.wf x.2 = true

/-- Bytes stored in one area keep all of them canonical. -/
theorem labelsCanonical.store {lsa : SMap Memory} (h : labelsCanonical lsa) (ld off : Nat) (data : List Byte) :
    labelsCanonical (mmod [] lsa ld (fun m => memWrite m off data)) := by
  obtain ⟨hmap, hareas⟩ := h
  have harea : Memory.wf (mget [] lsa ld) = true := mget_of_forall (P := fun m => Memory.wf m = true) rfl hareas ld
  exact ⟨mwf_mmod _ _ _ _ hmap, forall_mset (P := fun m => Memory.wf m = true) (Memory.wf_memWrite _ _ _ harea) hareas⟩

theorem State.memoryCanonical_iff {s : State} :
    s.memoryCanonical = true ↔ s.weali.board.wf = true ∧ labelsCanonical s.host.lsa := by
  simp [State.memoryCanonical, labelsCanonical, and_assoc]

/-- Board area and label storage areas are among what hardly any command changes. -/
theorem State.memoryCanonical_of_kept {s t : State} (h : t.kept = s.kept) (hs : s.memoryCanonical = true) : t.memoryCanonical = true := by
  simp only [State.kept, Prod.mk.injEq] at h
  obtain ⟨-, -, hlsa, -, hboard, -⟩ := h
  rw [State.memoryCanonical_iff, hlsa, hboard]
  exact State.memoryCanonical_iff.mp hs

/-! ### The commands that change one of them -/

/-- A change of the board area alone that keeps it canonical keeps all canonical. -/
theorem BoardOnly.memoryCanonical {s t : State} (h : BoardOnly s t) (hs : s.memoryCanonical = true) : t.memoryCanonical = true := by
  obtain ⟨b, hkept, hwf⟩ := h
  obtain ⟨hboard, hlabels⟩ := State.memoryCanonical_iff.mp hs
  exact State.memoryCanonical_of_kept (s := s.withBoard b) hkept (State.memoryCanonical_iff.mpr ⟨hwf hboard, hlabels⟩)

/-- What is read of the kept alone holds after a standard command of an LD where what the command runs keeps it. -/
theorem State.ldRun_of_kept {P : State → Prop} (hP : ∀ {s t : State}, t.kept = s.kept → P s → P t) {s : State} {path : MboxPath} {opc : Nat}
    {f : Nat → Nat → State → State} (h : ∀ p ld u, P u → P (f p ld u)) (hs : P s) : P (s.ldRun path opc f) := by
  have hmark : P (s.kMark (.path path) opc) := hP (State.kMark_kept ..) hs
  unfold State.ldRun State.stdRun
  dsimp only
  split
  case isTrue => exact hs
  case isFalse =>
    split
    · exact hP (State.emit_kept ..) hs
    · split
      · exact hP (State.endPath_kept ..) hmark
      · split
        · exact h _ _ _ hmark
        · exact hP (State.endPath_kept ..) hmark

/-- SET_LSA stores bytes in an area, or none. -/
theorem execSetLsa_memoryCanonical {path : MboxPath} {off : BitVec 32} {data : List Byte} {s t : State}
    (h : execSetLsa path off data s = .next t) (hs : s.memoryCanonical = true) : t.memoryCanonical = true := by
  cases h
  refine State.ldRun_of_kept State.memoryCanonical_of_kept (fun p ld u hu => ?_) hs
  split
  · exact State.memoryCanonical_of_kept (State.endPath_kept ..) hu
  · obtain ⟨hboard, hlabels⟩ := State.memoryCanonical_iff.mp hu
    exact State.memoryCanonical_of_kept (State.endPath_kept ..) (State.memoryCanonical_iff.mpr ⟨hboard, hlabels.store ..⟩)

/-- SET_SHUTDOWN_STATE stores none. -/
theorem execSetShutdownState_memoryCanonical {path : MboxPath} {st : BitVec 8} {s t : State}
    (h : execSetShutdownState path st s = .next t) (hs : s.memoryCanonical = true) : t.memoryCanonical = true := by
  cases h
  exact State.ldRun_of_kept State.memoryCanonical_of_kept (fun p ld u hu => State.memoryCanonical_of_kept (State.endPath_kept ..) hu) hs

/-- BACKGROUND_OP_END changes the lifecycle and the fuse at most. -/
theorem execBackgroundOpEnd_memoryCanonical {path : MboxPath} {ok : Bool} {s t : State} (h : execBackgroundOpEnd path ok s = .next t)
    (hs : s.memoryCanonical = true) : t.memoryCanonical = true := by
  obtain hkept | ⟨l, hkept⟩ := execBackgroundOpEnd_life path ok s t h
  · exact State.memoryCanonical_of_kept hkept hs
  · exact State.memoryCanonical_of_kept (s := s.withLife l _) hkept hs

/-- Every command keeps board area and label storage areas canonical. -/
theorem exec_memoryCanonical {c : Instr} {s t : State} (h : exec c s = .next t) (hs : s.memoryCanonical = true) : t.memoryCanonical = true := by
  cases hk : keepsAll c with
  | true => exact State.memoryCanonical_of_kept (exec_keeps c s hk t h) hs
  | false =>
    cases c with
    | wealiPageWriteEnd page bad1 bad2 => exact (execWealiPageWriteEnd_board page bad1 bad2 s t h).memoryCanonical hs
    | quiesceEnd => exact (execQuiesceEnd_board s t h).memoryCanonical hs
    | backgroundOpEnd path ok => exact execBackgroundOpEnd_memoryCanonical h hs
    | setLsa path off data => exact execSetLsa_memoryCanonical h hs
    | setShutdownState path st => exact execSetShutdownState_memoryCanonical h hs
    | _ => cases hk

/-! ### Steps -/

/-- Settles O1: with a command at the front, the step is that command on the rest of the queue. -/
theorem stepRunsTheFrontCommand : Obligations.StepRunsTheFrontCommand := fun _ _ _ => rfl

/-- Settles O5: an idle step changes no memory, and a command keeps it canonical whatever the rest of the queue. -/
theorem everyStepKeepsMemoryCanonical : Obligations.EveryStepKeepsMemoryCanonical := by
  unfold Obligations.EveryStepKeepsMemoryCanonical
  intro s t hs hstep
  unfold step at hstep
  split at hstep
  case h_1 =>
    cases hstep
    exact State.memoryCanonical_of_kept (State.passTo_kept ..) hs
  case h_2 c rest hpending => exact exec_memoryCanonical (s := { s with pending := rest }) hstep hs

/-! ### Who changes the board area -/

/-- Every command but the ends of a page write and of a quiesce leaves the board area. -/
theorem exec_board {c : Instr} {s t : State} (h : exec c s = .next t) (hquiesce : c ≠ .quiesceEnd)
    (hpage : ∀ page bad1 bad2, c ≠ .wealiPageWriteEnd page bad1 bad2) : t.weali.board = s.weali.board := by
  cases hk : keepsAll c with
  | true => exact State.board_of_kept (exec_keeps c s hk t h)
  | false =>
    cases c with
    | wealiPageWriteEnd page bad1 bad2 => exact absurd rfl (hpage page bad1 bad2)
    | quiesceEnd => exact absurd rfl hquiesce
    | backgroundOpEnd path ok =>
      obtain hkept | ⟨l, hkept⟩ := execBackgroundOpEnd_life path ok s t h
      · exact State.board_of_kept hkept
      · exact State.board_of_kept (t := s.withLife l _) hkept
    | setLsa path off data =>
      cases h
      refine State.ldRun_view (view := fun s => s.weali.board) State.board_of_kept _ _ _ _ (fun p ld u => ?_)
      split
      · exact State.board_of_kept (State.endPath_kept ..)
      · exact (State.board_of_kept (State.endPath_kept ..)).trans rfl
    | setShutdownState path st =>
      cases h
      exact State.ldRun_view (view := fun s => s.weali.board) State.board_of_kept _ _ _ _
        (fun p ld u => (State.board_of_kept (State.endPath_kept ..)).trans rfl)
    | _ => cases hk

/-- Settles O10: a command that changes the board area is none of those that leave it. -/
theorem boardBytesChangeWithPageWritesAlone : Obligations.BoardBytesChangeWithPageWritesAlone := by
  unfold Obligations.BoardBytesChangeWithPageWritesAlone
  intro c s t h hchanged
  by_contra hother
  obtain ⟨hquiesce, hpage⟩ := not_or.mp hother
  exact hchanged (exec_board h hquiesce (fun page bad1 bad2 hc => hpage ⟨page, bad1, bad2, hc⟩))

end Sys2Proof.Machine
end

section
/-!
PROOFS. The power sequence (spec/13, R347 to R366, R379, R390): each event finds the phase that it ends, and takes the branch of its rule.
The model's own choices are that a step's or a stretch's end takes effect whatever FT is (log 3), which parts master and slaves have in a
sequence (log 227), that a failure before Memory_Active lowers the rails without a flush (log 233), and what ends a wipe and a hold
(log 236).
-/

namespace Sys2Proof.Machine

/-- An outcome chosen by a condition is the next state that the condition chooses. -/
theorem next_ite {p q : Prop} [Decidable p] [Decidable q] (h : p ↔ q) (a b : State) :
    (if p then .next a else .next b : Res) = .next (if q then a else b) := by
  rw [apply_ite Host.Outcome.next]
  exact if_congr h rfl rfl

section
variable {s : State}

/-! ### COLD_RST_N (R379) -/

/-- COLD_RST_N has been seen low. -/
def State.coldSeen (s : State) : State := s.modPower (fun p => { p with coldLow := true })

/-- A cold reset without a flush is the cause of the next start, and clears the hold of a failed power-up and a wipe. -/
def State.coldCleared (s : State) : State :=
  let w := (s.modPower (fun p => { p with why := 2, dscDone := false })).setF Reg.PWR_STAT.FAILED 0
  { w with keys := { w.keys with wiped := false, wipeFilled := false, wiping := false } }

/-- An active device flushes first. -/
theorem exec_coldReset_active (hdry : s.coldSeen.inDrydown = false) (hseq : (s.coldSeen.resetOut 4 true).power.seq = .on)
    (hactive : (s.coldSeen.resetOut 4 true).host.memActive = true) (hwiped : (s.coldSeen.resetOut 4 true).keys.wiped = false) :
    exec .coldReset s = .next ((s.coldSeen.resetOut 4 true).startDry 0 true false).dryCut := by
  have hflush : ((s.coldSeen.resetOut 4 true).power.seq == .on && (s.coldSeen.resetOut 4 true).host.memActive
      && !(s.coldSeen.resetOut 4 true).keys.wiped) = true := by
    rw [hseq, hactive, hwiped]
    rfl
  exact (if_neg (Bool.eq_false_iff.mp hdry)).trans (if_pos hflush)

/-- Any other device is cleared of a wipe, and its rails go down where they are not. -/
theorem exec_coldReset_idle (hdry : s.coldSeen.inDrydown = false)
    (hidle : ¬ ((s.coldSeen.resetOut 4 true).power.seq = .on ∧ (s.coldSeen.resetOut 4 true).host.memActive = true
      ∧ (s.coldSeen.resetOut 4 true).keys.wiped = false)) :
    let w := (s.coldSeen.resetOut 4 true).coldCleared
    exec .coldReset s = .next (if w.power.seq = .off ∨ w.power.seq = .held
      then ((w.modPower (fun p => { p with seq := .off })).resetsLow true).setF Reg.START_STAT.STAGE 1
      else w.lowerStart .idle true) := by
  have hnoFlush : ¬ ((s.coldSeen.resetOut 4 true).power.seq == .on && (s.coldSeen.resetOut 4 true).host.memActive
      && !(s.coldSeen.resetOut 4 true).keys.wiped) = true := by
    simpa [and_assoc] using hidle
  have hdown : ∀ w : State, (w.power.seq == .off || w.power.seq == .held) = true ↔ w.power.seq = .off ∨ w.power.seq = .held := by simp
  exact (if_neg (Bool.eq_false_iff.mp hdry)).trans ((if_neg hnoFlush).trans (next_ite (hdown _) _ _))

/-! ### VIN (R349, R359, R363, R380) -/

/-- VIN_SENSE has been seen below VIN_WARN. -/
def State.vinLow (s : State) : State := (s.modPower (fun p => { p with vin := 0, fell := p.fell || p.seq == .held })).chargeNow

/-- A reset flush that goes on as the drydown of a power failure. -/
def State.flushToDry (s : State) : State :=
  let v := s.modDry (fun d => { d with cause := 1, reset := false, noWarm := true })
  let v := ((v.raise Reg.HU_STAT.HOLD).setF Reg.DRY_STAT.CAUSE 1).modPower (fun p => { p with pfwLow := true })
  (v.count 13 5 1).modInterval (fun i => { i with drydowns := i.drydowns + 1, flags := i.flags ||| 2 })

/-- Without a drydown the warning is a power failure, or ends the wait for a retry. -/
theorem exec_vinWarning_noDry (hdry : s.vinLow.power.dry = none) :
    exec .vinWarning s = .next (if s.vinLow.power.seq = .backoff
      then (s.vinLow.modPower (fun p => { p with why := 1 })).lowerStart .idle true else s.vinLow.powerFail 1) := by
  show execVinWarning s = _
  unfold execVinWarning
  dsimp only
  split
  case h_1 d hsome => cases hdry.symm.trans hsome
  case h_2 => exact next_ite beq_iff_eq _ _

/-- In a drydown the warning ends the wait for a resume, turns a reset flush into a drydown, or changes nothing more. -/
theorem exec_vinWarning_dry {d : Dry} (hdry : s.vinLow.power.dry = some d) :
    exec .vinWarning s = .next (if s.vinLow.getF Reg.DRY_STAT.PHASE = 4 then s.vinLow.railsOff
      else if d.reset then s.vinLow.flushToDry else s.vinLow) := by
  show execVinWarning s = _
  unfold execVinWarning
  dsimp only
  split
  case h_1 e hsome =>
    obtain rfl : e = d := Option.some.inj (hsome.symm.trans hdry)
    simp only [apply_ite (Host.Outcome.next : State → Res)]
    rfl
  case h_2 hnone => cases hnone.symm.trans hdry

end

/-! ### The statement -/

/-- Settles O38: each event is its guard and then its effect. -/
theorem powerSequenceEventsTakeEffect : Obligations.PowerSequenceEventsTakeEffect := by
  unfold Obligations.PowerSequenceEventsTakeEffect
  intro s
  refine ⟨?held, ?starts, ?awaits, ?complete, ?timeout, ?backoff, ?stretch, ?lowering, ?railsOff, ?coldReset, rfl, ?vinWarning, rfl, rfl, rfl⟩
  case held =>
    intro hmay
    have hheld : (!s.mayPowerUp) = true := by rw [hmay]; rfl
    exact if_pos hheld
  case starts =>
    intro hmay hrole
    have hopen : ¬ (!s.mayPowerUp) = true := by simp [hmay]
    exact (if_neg hopen).trans (if_neg hrole)
  case awaits =>
    intro hmay hrole
    have hopen : ¬ (!s.mayPowerUp) = true := by simp [hmay]
    exact (if_neg hopen).trans (if_pos hrole)
  case complete =>
    intro hseq hstep u
    have hrun : ¬ (s.power.seq != .raising || s.power.stepFailed) = true := by simp [hseq, hstep]
    exact if_neg hrun
  case timeout =>
    intro c hseq hstep hchannel u
    have hrun : ¬ (s.power.seq != .raising || s.power.stepFailed || s.railStep c.val != s.power.step) = true := by
      simp [hseq, hstep, hchannel]
    exact if_neg hrun
  case backoff =>
    intro hseq hrole hcold u
    have hrun : ¬ (s.power.seq != .backoff || s.seqRole = 2 || s.power.coldLow) = true := by simp [hseq, hrole, hcold]
    exact if_neg hrun
  case stretch =>
    intro k hheld
    have hrun : ¬ (!s.power.stretch.contains k.val) = true := by rw [hheld]; decide
    exact if_neg hrun
  case lowering =>
    intro hseq
    have hrun : ¬ (s.power.seq != .lowering) = true := by simp [hseq]
    exact if_neg hrun
  case railsOff =>
    intro d hdry hseq hafter hraised wait u v w
    have hrun : ¬ (s.power.seq != .lowering || s.power.after != .railsOff || !s.raised.isEmpty) = true := by
      simp [hseq, hafter, hraised]
    show execRailsOffEnd s = _
    unfold execRailsOffEnd
    rw [hdry]
    exact (if_neg hrun).trans (next_ite Iff.rfl _ _)
  case coldReset => exact ⟨fun hdry => if_pos hdry, exec_coldReset_active, exec_coldReset_idle⟩
  case vinWarning =>
    refine ⟨exec_vinWarning_noDry, fun d hdry => ⟨fun hwaits => ?_, fun hruns hreset => ?_, fun hruns hreset => ?_⟩⟩
    · exact (exec_vinWarning_dry hdry).trans (congrArg Host.Outcome.next (if_pos hwaits))
    · have hplain : ¬ d.reset = true := Bool.eq_false_iff.mp hreset
      exact (exec_vinWarning_dry hdry).trans (congrArg Host.Outcome.next ((if_neg hruns).trans (if_neg hplain)))
    · exact (exec_vinWarning_dry hdry).trans (congrArg Host.Outcome.next ((if_neg hruns).trans (if_pos hreset)))

end Sys2Proof.Machine
end

section
/-!
PROOFS. The SEQ bus and the rails in operation (spec/13, R347 to R366): a frame taken has its effect on a slave, a reply on the master. The
model's own choices are who a master's slaves are and how a sequence is begun, retried, released and ended among them (log 227), that a failure
before Memory_Active lowers the rails without a flush (log 233), and that a timeout takes effect whatever FT is (log 3).
-/

namespace Sys2Proof.Machine

/-! ### Frames that a slave takes (R352, R353) -/

/-- A step begun is settled at once where no channel is raised in it. -/
def State.slaveStep (s : State) (k : Nat) : State :=
  if ((s.beginStep k).stepRails k).isEmpty then ((s.beginStep k).setF Reg.PWR_STAT.STEP k).modPower (fun p => { p with seq := .settled })
  else s.beginStep k

/-- A slave's sequence at its first step: another attempt after a backoff, else the first. -/
def State.slaveStart (s : State) : State :=
  let again := s.power.seq == .backoff
  let v := if again then s.count 13 0 1 else s.powerInit
  (v.setF Reg.PWR_STAT.ATTEMPT (if again then s.getF Reg.PWR_STAT.ATTEMPT + 1 else 1)).modPower (fun p => { p with awaitStep1 := false })

section
variable {s u : State} {w : BitVec 40}

/-- A settled slave begins a later step. -/
theorem exec_step_later (htaken : s.seqTake w.toNat 1 = (true, u)) (hrole : u.seqRole = 2) (hk : bitsOf w.toNat 8 16 ≠ 1)
    (hseq : u.power.seq = .settled) (hlater : u.power.step < bitsOf w.toNat 8 16) :
    exec (.step w) s = .next (u.slaveStep (bitsOf w.toNat 8 16)) := by
  have hslave : ¬ (!true || u.seqRole != 2) = true := by simp [hrole]
  have hmay : ¬ (u.power.seq != .settled || decide (bitsOf w.toNat 8 16 ≤ u.power.step)) = true := by simp [hseq, hlater]
  show execStep w s = _
  unfold execStep
  rw [htaken]
  exact (if_neg hslave).trans ((if_neg hk).trans (if_neg hmay))

/-- STEP 1 starts a sequence on a slave at rest. -/
theorem exec_step_first (htaken : s.seqTake w.toNat 1 = (true, u)) (hrole : u.seqRole = 2) (hk : bitsOf w.toNat 8 16 = 1)
    (hcold : u.power.coldLow = false) (hdry : u.inDrydown = false) (hwiped : u.keys.wiped = false)
    (hseq : u.power.seq = .off ∨ u.power.seq = .backoff ∨ u.power.seq = .held) :
    exec (.step w) s = .next (u.slaveStart.slaveStep 1) := by
  have hslave : ¬ (!true || u.seqRole != 2) = true := by simp [hrole]
  have hrest : ¬ (u.power.coldLow || u.inDrydown || u.keys.wiped || u.power.seq == .raising || u.power.seq == .settled
      || u.power.seq == .on || u.power.seq == .lowering) = true := by
    rw [hcold, hdry, hwiped]
    rcases hseq with h | h | h <;> rw [h] <;> decide
  show execStep w s = _
  unfold execStep
  rw [htaken]
  exact (if_neg hslave).trans ((if_pos hk).trans (if_neg hrest))

end

/-! ### Replies that the master takes (R352, R353) -/

/-- The master has noted a slave's step and status. -/
def State.replyNoted (s : State) (a st b : Nat) : State :=
  let v := s.modPower (fun p => { p with slaves := mset none p.slaves a (some (st, b)) })
  v.setF Reg.SEQ_STAT.SLAVES v.power.slaves.length

/-- What the master does with a reply it has noted: a failed step fails the attempt, a step reached moves it on, and rails off let it send
OFF; otherwise the slave is polled again. -/
def State.replyTaken (s : State) (a st b : Nat) : State :=
  let up := s.power.seq == .raising || s.power.seq == .settled
  if up && bitAt b 1 then (s.count 13 1 1).attemptFailed
  else if up then
    (if s.power.step ≤ st ∧ bitAt b 0 = true then (if s.power.seq == .settled then s.stepOn else s) else s.seqPoll [a])
  else if s.power.offWait then (if s.slavesOff then s.sendOff else if bitAt b 3 then s else s.seqPoll [a])
  else s

section
variable {s : State} {a : BitVec 6} {r : BitVec 24} (hrole : s.seqRole = 1)
include hrole

/-- A reply of bad CRC is polled again. -/
theorem exec_seqPollReply_badCrc (hcrc : crc8 [bitsOf r.toNat 16 8, bitsOf r.toNat 8 8] ≠ bitsOf r.toNat 0 8) :
    exec (.seqPollReply a r) s = .next ((s.raise Reg.SEQ_STAT.CRC_ERR).seqPoll [a.toNat]) := by
  have hmaster : ¬ (s.seqRole != 1) = true := by simp [hrole]
  exact (if_neg hmaster).trans (if_pos (bne_iff_ne.mpr hcrc))

/-- A reply of good CRC is noted and taken. -/
theorem exec_seqPollReply_goodCrc (hcrc : crc8 [bitsOf r.toNat 16 8, bitsOf r.toNat 8 8] = bitsOf r.toNat 0 8) :
    exec (.seqPollReply a r) s = .next
      ((s.replyNoted a.toNat (bitsOf r.toNat 16 8) (bitsOf r.toNat 8 8)).replyTaken a.toNat (bitsOf r.toNat 16 8) (bitsOf r.toNat 8 8)) := by
  have hmaster : ¬ (s.seqRole != 1) = true := by simp [hrole]
  have hgood : ¬ (crc8 [bitsOf r.toNat 16 8, bitsOf r.toNat 8 8] != bitsOf r.toNat 0 8) = true := by simp [hcrc]
  refine (if_neg hmaster).trans ((if_neg hgood).trans ?_)
  unfold State.replyTaken
  simp only [apply_ite (Host.Outcome.next : State → Res)]
  rfl

end

/-! ### Rails in operation (R350, R364) -/

/-- A rail that fails on a running device: its fault is told. -/
def State.railFaultTold (s : State) (c : Nat) : State :=
  (((s.raise (Reg.PWR_RAIL.FAULT c)).setF (Reg.PWR_RAIL.PG c) 0).count 13 2 1).event
    (({ mkEv .critical 13 c .fault with detail := [c] } : EvRec).stat (Reg.PWR_RAIL.FAULT c)) none

/-- A raised rail's fault starts a drydown where one may start; in a drydown what the rail carried is lost. -/
theorem exec_railFault_raised {s : State} {c : RailNo} (hseq : s.power.seq = .on) (hraised : s.flag (Reg.PWR_RAIL.EN c.val) = true) :
    let v := s.railFaultTold c.val
    exec (.railFault c) s = .next (if v.mayDry then ((v.startDry 3 false false).railLost c.val).pump
      else if v.inDrydown then (v.railLost c.val).pump else v.powerFail 3) := by
  have hon : ¬ (s.power.seq != .on || !s.flag (Reg.PWR_RAIL.EN c.val)) = true := by simp [hseq, hraised]
  intro v
  refine (if_neg hon).trans ?_
  simp only [apply_ite (Host.Outcome.next : State → Res)]
  rfl

/-! ### The statement -/

/-- Settles O39: each frame is taken, each reply is noted, and each event meets the phase of its rule. -/
theorem sequencerMessagesTakeEffect : Obligations.SequencerMessagesTakeEffect := by
  unfold Obligations.SequencerMessagesTakeEffect
  intro s u
  refine ⟨?step, ?poll, ?abort, ?off, ?release, ?pfw, ?lost, ?warned, ?reply, ?deadline, ?fault, ?warning⟩
  case step =>
    exact fun w htaken hrole => ⟨exec_step_later htaken hrole, fun hk => exec_step_first htaken hrole hk⟩
  case poll =>
    intro w htaken hrole
    have hslave : ¬ (!true || u.seqRole != 2) = true := by simp [hrole]
    show execPoll w s = _
    unfold execPoll
    rw [htaken]
    exact if_neg hslave
  case abort =>
    intro w htaken hrole hseq
    have hup : (u.power.seq == .raising || u.power.seq == .settled) = true := by simpa using hseq
    have hrun : ¬ (!true || u.seqRole != 2 || !(u.power.seq == .raising || u.power.seq == .settled)) = true := by
      rw [hrole, hup]
      decide
    show execSeqAbort w s = _
    unfold execSeqAbort
    rw [htaken]
    exact if_neg hrun
  case off =>
    intro w htaken hrole hlow
    have hrun : ¬ (!true || u.seqRole != 2 || !u.raised.isEmpty) = true := by simp [hrole, hlow]
    show execOff w s = _
    unfold execOff
    rw [htaken]
    exact if_neg hrun
  case release =>
    intro w htaken hrole hseq
    have hrun : ¬ (!true || u.seqRole != 2 || u.power.seq != .settled) = true := by simp [hrole, hseq]
    show execSeqRelease w s = _
    unfold execSeqRelease
    rw [htaken]
    exact if_neg hrun
  case pfw =>
    intro w htaken
    show execPfw w s = _
    unfold execPfw
    rw [htaken]
    rfl
  case lost =>
    intro hrole hseq
    have hslave : ¬ (s.seqRole != 2) = true := by simp [hrole]
    have hrun : (s.power.seq == .raising || s.power.seq == .settled) = true := by simpa using hseq
    exact (if_neg hslave).trans (if_pos hrun)
  case warned =>
    intro hrole hseq
    have hslave : ¬ (s.seqRole != 2) = true := by simp [hrole]
    have hdone : ¬ (s.power.seq == .raising || s.power.seq == .settled) = true := by simp [hseq]
    have hon : (s.power.seq == .on) = true := by simp [hseq]
    exact (if_neg hslave).trans ((if_neg hdone).trans (if_pos hon))
  case reply => exact fun a r hrole => ⟨exec_seqPollReply_badCrc hrole, exec_seqPollReply_goodCrc hrole⟩
  case deadline => exact fun hwait => congrArg Host.Outcome.next (if_pos hwait)
  case fault => exact fun c hseq hraised => exec_railFault_raised hseq hraised
  case warning => exact fun k hseq => congrArg Host.Outcome.next (if_pos (beq_iff_eq.mpr hseq))

end Sys2Proof.Machine
end

section
/-!
PROOFS. Answers on paths and queues (spec/16, R394 to R410): a Kelric answer frees its own place, SET_LSA stores exactly its bytes, and a
drydown leaves four commands. That label bytes are stored at once (log 395) and that a mailbox payload has CID, SQHD and phase bit 0 (log 256)
are the model's choices.
-/

namespace Sys2Proof.Machine

/-! ### Label bytes (R395) -/

/-- The state with bytes stored in an LD's label storage area. -/
def State.storeLabel (s : State) (ld off : Nat) (data : List Byte) : State :=
  s.modHost (fun h => { h with lsa := mmod [] h.lsa ld (fun m => memWrite m off data) })

section
variable (s : State) (ld off : Nat) (data : List Byte)

/-- The LD's own area holds the bytes over what it held. -/
theorem State.storeLabel_own : mget [] (s.storeLabel ld off data).host.lsa ld = memWrite (mget [] s.host.lsa ld) off data :=
  mget_mset_self ..

/-- Every other LD's area is as it was. -/
theorem State.storeLabel_other {n : Nat} (h : n ≠ ld) : mget [] (s.storeLabel ld off data).host.lsa n = mget [] s.host.lsa n :=
  mget_mset_of_ne _ _ _ h

end

/-- Settles O7: on its ready path SET_LSA answers, and the answer leaves the areas as the store made them. -/
theorem setLsaStoresExactlyItsBytes : Obligations.SetLsaStoresExactlyItsBytes := by
  unfold Obligations.SetLsaStoresExactlyItsBytes
  intro s path ld off data hld hready hend
  obtain ⟨t, hrun, hist, rfl⟩ := exec_setLsa_stores hld hready hend
  have hown := s.storeLabel_own ld off.toNat data
  refine ⟨_, hrun, fun i hi => ?inside, fun a ha => ?outside, fun n hn => s.storeLabel_other ld off.toNat data hn, rfl, rfl, rfl, rfl, rfl, rfl⟩
  case inside => exact (congrArg (memByte · _) hown).trans (memByte_memWrite_inside _ _ _ i hi)
  case outside => exact (congrArg (memByte · a) hown).trans (memByte_memWrite_outside _ _ _ a ha)

/-! ### Answers of Kelric commands (R396, R403, R404, R406) -/

/-- The end of the command that a path holds is the path's answer. -/
theorem endPath_answer_busy {s : State} {path : MboxPath} (hbusy : (mget {} s.host.mbox (pathNo path)).busy = true) (rc : Rc)
    (payload : List Byte) :
    s.MboxAnswer (s.endPath (pathNo path) rc payload) path (mget {} s.host.mbox (pathNo path)).opc rc payload := by
  unfold State.MboxAnswer State.endPath
  dsimp only
  rw [hbusy, Bool.not_true, if_neg Bool.false_ne_true]
  by_cases hp : 64 ≤ pathNo path
  · have hmgmt : ¬ pathNo path < 64 := Nat.not_lt.mpr hp
    simp only [if_pos hp, hmgmt, false_and, if_false]
    exact ⟨_, rfl⟩
  · have hld : pathNo path < 64 := Nat.not_le.mp hp
    rw [if_neg hp]
    by_cases hmasked : mget false s.host.msixMasked (pathNo path) = true
    · simp [State.emit, State.histogram, State.modTally, hmasked]
    · simp [State.emit, State.histogram, State.modTally, hmasked, hld]

/-- Settles O42: an answer is its place's own, and data too long for a queue's buffer is the status for that. -/
theorem kelricAnswersFreeTheirPlace : Obligations.KelricAnswersFreeTheirPlace := by
  unfold Obligations.KelricAnswersFreeTheirPlace
  intro s c re status handle result data
  refine ⟨?queue, ?path, ?tooLong, ?fits⟩
  case queue =>
    rintro q cid rfl
    rfl
  case path =>
    rintro p rfl hbusy hkelric
    have hentry : ¬ (mget {} s.host.mbox (pathNo p)).opc < 0xC000 := Nat.not_lt.mpr hkelric
    have hpayload : s.respond (.path p) status handle result data = s.endPath (pathNo p) (rcOf status)
        (mboxPayload status handle (if status = kOk then result else 0) (if status = kOk then data else [])) :=
      congrArg (s.endPath (pathNo p) (rcOf status)) (if_neg hentry)
    rw [hpayload]
    exact endPath_answer_busy hbusy _ _
  case tooLong =>
    rintro q cid rfl hlong
    exact if_pos hlong
  case fits =>
    rintro q cid rfl hfits
    exact if_neg (Nat.not_lt.mpr hfits)

/-! ### Commands during a drydown (R410) -/

/-- Every standard command is run through the checks of its own path and opcode. -/
theorem exec_of_stdOpcode {c : Instr} {path : MboxPath} {opc : Nat} (h : stdOpcode c = some (path, opc)) (s : State) :
    ∃ f, exec c s = .next (s.stdRun path opc f) := by
  cases c <;> cases h <;> exact ⟨_, rfl⟩

/-- The standard command of this opcode is Get Health Info. -/
theorem eq_getHealthInfo_of_stdOpcode {c : Instr} {path : MboxPath} (h : stdOpcode c = some (path, 0x4200)) : c = .getHealthInfo path := by
  cases c <;> cases h
  rfl

/-- Every Kelric command is run through the checks of its own submission and opcode. -/
theorem exec_of_kelricOpcode {c : Instr} {k : KCmd} {opc : Nat} (h : kelricOpcode c = some (k, opc)) (s : State) :
    ∃ check act hold, exec c s = .next (s.kRun opc k check act hold) := by
  cases c <;> cases h <;> exact ⟨_, _, _, rfl⟩

section
variable {s : State} (hmailbox : s.host.mailbox = true) {path : MboxPath} {opc : Nat}
  (hfree : s.pathBusy (pathNo path) opc = false)
include hmailbox hfree

/-- A standard command other than Get Health Info is answered with the code for DRYDOWN. -/
theorem stdRun_drydown (hdry : s.inDrydown = true) (hopc : opc ≠ 0x4200) (f : Nat → State → State) :
    s.MboxAnswer (s.stdRun path opc f) path opc (rcOf kDrydown) [] := by
  have hrefused : s.stdRun path opc f = (s.kMark (.path path) opc).endPath (pathNo path) (rcOf kDrydown) [] := by
    simp [State.stdRun, hmailbox, hfree, kMark_inDrydown, hdry, hopc]
  rw [hrefused]
  exact endPath_answer s _ path opc _ _ rfl rfl

/-- Get Health Info is run. -/
theorem stdRun_healthInfo (f : Nat → State → State) (hopc : opc = 0x4200) :
    s.stdRun path opc f = f (pathNo path) (s.kMark (.path path) opc) := by
  have hlet : ¬ ((s.kMark (.path path) opc).inDrydown && opc != 0x4200) = true := by simp [hopc]
  unfold State.stdRun
  dsimp only
  rw [hmailbox, hfree, if_neg hlet]
  rfl

/-- A Kelric command that the shared checks refuse ends with their status. -/
theorem kRun_refused {k : KCmd} (hsrc : k.src = .path path) {status : Nat} (hgate : (s.kMark (.path path) opc).kGate opc k = status)
    (hbad : status ≠ kOk) (check : KCmd → State → Nat) (act : KCmd → CmdSrc → State → State) (hold : KCmd → State → State) :
    s.kRun opc k check act hold = (s.kMark (.path path) opc).respond (.path path) status 0 0 [] := by
  have htake : s.kTake k opc = some k := by simp [State.kTake, hsrc, hmailbox]
  unfold State.kRun
  simp [htake, hsrc, hfree, hgate, hbad, State.fail]

end

/-- During a drydown the gate refuses every command that it does not leave. -/
theorem State.kGate_refuses {s : State} {opc : Nat} (k : KCmd) (hdry : s.inDrydown = true) (hopc : kDryOk opc = false) :
    s.kGate opc k = kDrydown :=
  if_pos (by rw [hdry, hopc]; rfl)

/-- A command that a drydown leaves is not refused for it: the other statuses of the gate are none of a drydown. -/
theorem State.kGate_passes (s : State) {opc : Nat} (k : KCmd) (hopc : kDryOk opc = true) : s.kGate opc k ≠ kDrydown := by
  have hleft : ¬ (s.inDrydown && !kDryOk opc) = true := by simp [hopc]
  unfold State.kGate
  rw [if_neg hleft]
  repeat' split
  all_goals decide

theorem kDryOk_iff {opc : Nat} : kDryOk opc = true ↔ opc = 0xC000 ∨ opc = 0xC090 ∨ opc = 0xC0A1 := by
  simp [kDryOk, or_assoc]

/-- Settles O59: each command meets the checks of its own path, and its opcode says whether a drydown leaves it. -/
theorem drydownLeavesFourCommands : Obligations.DrydownLeavesFourCommands := by
  unfold Obligations.DrydownLeavesFourCommands
  intro s c hmailbox hdry
  refine ⟨fun path opc hcode hfree => ⟨fun hopc => ?refused, fun hopc => ?health⟩,
    fun k path opc hcode hsrc hfree => ⟨fun hid hholdup htherm => ?kelric, fun hopc => ?passes⟩⟩
  case refused =>
    obtain ⟨f, hrun⟩ := exec_of_stdOpcode hcode s
    exact ⟨_, hrun, stdRun_drydown hmailbox hfree hdry hopc f⟩
  case health =>
    subst hopc
    cases eq_getHealthInfo_of_stdOpcode hcode
    exact ⟨_, congrArg Host.Outcome.next (stdRun_healthInfo hmailbox hfree _ rfl), endPath_answer s _ path 0x4200 _ _ rfl rfl⟩
  case kelric =>
    obtain ⟨check, act, hold, hrun⟩ := exec_of_kelricOpcode hcode s
    have hopc : kDryOk opc = false := by
      rw [← Bool.not_eq_true, kDryOk_iff]
      simp [hid, hholdup, htherm]
    have hgate : (s.kMark (.path path) opc).kGate opc k = kDrydown := State.kGate_refuses k hdry hopc
    rw [hrun, kRun_refused hmailbox hfree hsrc hgate (by decide)]
  case passes => exact State.kGate_passes _ k (kDryOk_iff.mpr hopc)

end Sys2Proof.Machine
end

section
/-!
PROOFS. Words that no chapter defines (spec/18, R438): a read answers 0 and a write changes nothing. That a block not served yet answers
otherwise (log 270) and that such a write does not use up an arming (log 271) are the model's choices.
-/

namespace Sys2Proof.Machine

/-! ### What a read does beside answering touches defined words alone (R174, R306, R343, R445) -/

/-- The low words of the counters are defined, and so are the words of the bandwidths and the low words of the lifetime totals. -/
theorem regDef_counter (k : Fin 144) : (regDef (0x1200 + 8 * k.val)).isSome = true := by
  revert k; decide +kernel

theorem regDef_bandwidth (k : Fin 4) : (regDef (0x1700 + 8 * k.val)).isSome = true := by
  revert k; decide +kernel

theorem regDef_lifetime (k : Fin 128) : (regDef (0x2000 + 8 * k.val)).isSome = true := by
  revert k; decide +kernel

/-- The low words of `n` 64-bit registers from `base` on are all defined, and so an undefined offset is none of them. -/
theorem not_lowWord_of_undefined {base n off : Nat} (hbase : base % 8 = 0) (hdef : ∀ k : Fin n, (regDef (base + 8 * k.val)).isSome = true)
    (hoff : regDef off = none) : ¬ (base ≤ off ∧ off < base + 8 * n ∧ off % 8 = 0) := by
  rintro ⟨hlow, hhigh, haligned⟩
  have hk : (off - base) / 8 < n := by omega
  have hat : base + 8 * ((off - base) / 8) = off := by omega
  have hsome := hdef ⟨(off - base) / 8, hk⟩
  rw [hat, hoff] at hsome
  cases hsome

/-- An undefined offset is not that of a defined word. -/
theorem ne_of_undefined {off w : Nat} (hoff : regDef off = none) (hw : (regDef w).isSome = true) : off ≠ w := by
  rintro rfl
  rw [hoff] at hw
  cases hw

section
variable (s : State) {off : Nat} (hoff : regDef off = none)
include hoff

/-- A read of an undefined word takes no snapshot. -/
theorem State.snapshot_undefined : s.snapshot off = s := by
  have hmap : off ≠ 0x70044 := ne_of_undefined hoff (by decide +kernel)
  have hmirror : off ≠ 0xC0104 := ne_of_undefined hoff (by decide +kernel)
  have hexport : off ≠ 0xC0204 := ne_of_undefined hoff (by decide +kernel)
  have himport : off ≠ 0xC0304 := ne_of_undefined hoff (by decide +kernel)
  have hcask : off ≠ 0xD0304 := ne_of_undefined hoff (by decide +kernel)
  simp only [State.snapshot, hmap, hmirror, hexport, himport, hcask, if_false]

/-- A read of an undefined word latches nothing. -/
theorem State.takeLatch_undefined (req : Nat) : s.takeLatch req off = s := by
  have hcounter : ¬ (0x1200 ≤ off ∧ off < 0x1680 ∧ off % 8 = 0) := not_lowWord_of_undefined rfl regDef_counter hoff
  have hbandwidth : ¬ (0x1700 ≤ off ∧ off < 0x1720 ∧ off % 8 = 0) := not_lowWord_of_undefined rfl regDef_bandwidth hoff
  have hlifetime : ¬ (0x2000 ≤ off ∧ off < 0x2400 ∧ off % 8 = 0) := not_lowWord_of_undefined rfl regDef_lifetime hoff
  have htime : off ≠ 0xD0000 := ne_of_undefined hoff (by decide +kernel)
  have hwear : off ≠ 0x70018 := ne_of_undefined hoff (by decide +kernel)
  have hnone : s.latched off = [] := by simp only [State.latched, hcounter, hbandwidth, hlifetime, htime, hwear, or_self, if_false]
  unfold State.takeLatch
  rw [hnone]
  rfl

/-- An undefined word reads 0. -/
theorem State.regView_undefined : s.regView off = 0 := by
  unfold State.regView
  rw [hoff]

/-- An undefined word of a served block that the requester's latch does not hold reads 0, and the read changes nothing. -/
theorem State.read4_undefined {req : Requester} (ha : off % 4 = 0) (hw : off < 0x100000) (hs : s.served off = true)
    (hl : (mget [] s.regs.latch (reqNo req)).find? (fun x => x.1 == off) = none) : s.read4 req off = (0, s) := by
  cases hv : s.hidden req off with
  | true =>
    have hbelow : ¬ 0x2000000 ≤ off ∧ ¬ 0x100000 ≤ off := by omega
    simp [State.read4, ha, hbelow, hs, hv]
  | false =>
    have hdata : off ≠ 0x380C := ne_of_undefined hoff (by decide +kernel)
    rw [State.read4_live ⟨ha, hw, hs, hv⟩ hl hdata, State.snapshot_undefined s hoff, State.regView_undefined s hoff,
      State.takeLatch_undefined s hoff]

/-- A write to an undefined word of a served block, by a requester that may write there, changes nothing. -/
theorem State.write4_undefined {req : Requester} (val : Nat) (ha : off % 4 = 0) (hw : off < 0x100000) (hs : s.served off = true)
    (hm : s.mayWrite req off = true) : s.write4 req off val = some s := by
  have hbelow : ¬ 0x2000000 ≤ off ∧ ¬ 0x100000 ≤ off := by omega
  simp [State.write4, ha, hbelow, hs, hm, hoff]

end

/-! ### Offsets between the control window and the bit aliases -/

section
variable (s : State) (req : Requester) {off : Nat} (ha : off % 4 = 0) (hlow : 0x100000 ≤ off) (hhigh : off < 0x2000000)
include ha hlow hhigh

theorem State.read4_gap : s.read4 req off = (0, s) := by
  have halias : ¬ 0x2000000 ≤ off := Nat.not_le.mpr hhigh
  simp [State.read4, ha, halias, hlow]

theorem State.write4_gap (val : Nat) : s.write4 req off val = some s := by
  have halias : ¬ 0x2000000 ≤ off := Nat.not_le.mpr hhigh
  simp [State.write4, ha, halias, hlow]

end

/-- Settles O55: in both ranges the 4-byte read answers 0, and the 4-byte write leaves the state. -/
theorem undefinedWordsReadZeroAndIgnoreWrites : Obligations.UndefinedWordsReadZeroAndIgnoreWrites := by
  unfold Obligations.UndefinedWordsReadZeroAndIgnoreWrites
  intro s req off ha hwhere hl
  suffices h : s.read4 req off.toNat = (0, s)
      ∧ ∀ val, s.mayWrite req off.toNat = true → s.write4 req off.toNat val = some s by
    obtain ⟨hread, hwrite⟩ := h
    refine ⟨?_, fun val hm => congrArg regRes (hwrite _ hm)⟩
    show (.next (s.busRead req off.toNat) : Res) = _
    rw [State.busRead_eq, hread]
  rcases hwhere with ⟨hw, hoff, hs⟩ | ⟨hlow, hhigh⟩
  · exact ⟨State.read4_undefined s hoff ha hw hs hl, fun val hm => State.write4_undefined s hoff val ha hw hs hm⟩
  · exact ⟨State.read4_gap s req ha hlow hhigh, fun val _ => State.write4_gap s req ha hlow hhigh val⟩

end Sys2Proof.Machine
end
